-- ==== Sys2Proof/Word.lean ====
section
/-!
DEFINITION. The word types of the block and the two lanes.
-/
namespace Sys2Proof

/-- A byte of a frame, of an image or of a descriptor. -/
abbrev Byte := BitVec 8

/-- A BAR0 register word (R10: every register is 32 bits wide). -/
abbrev Word := BitVec 32

/-- A timebase count or an OTP word (R347, R416). -/
abbrev Word64 := BitVec 64

/-- A point as lane A holds it: bit 1 is the qualifier, bit 0 the value (R39). -/
abbrev Pt := BitVec 2

/-- The two lanes of an evaluation pair (R8: LA and LB). -/
inductive Lane where
  | a
  | b
  deriving DecidableEq, Repr

/-- The three timebases (R347, R352). -/
inductive Timebase where
  | la
  | lb
  | hb
  deriving DecidableEq, Repr

end Sys2Proof
end

