-- ==== Sys2Proof/Syntax.lean ====
section
/-!
DEFINITION. The commands: one constructor of `Instr` for each row of spec/opcode_table.json, and the
data a command carries (an image's decoded content, a frame, a descriptor, a measurement).
-/
namespace Sys2Proof

/-! ### Images (R96 to R133, R168, R169, R280, R448, R473) -/

/-- A block input: a point, an output of a block of a zone, or a constant (R98). -/
inductive Operand where
  | point (addr : Nat)
  | sig (zone blk out : Nat)
  | const (one : Bool)
  deriving DecidableEq, Repr

/-- TARGET of a SAFEOUT: a channel or a produced remote point (R130). -/
inductive Target where
  | chan (ch : Nat)
  | point (addr : Nat)
  deriving DecidableEq, Repr

/-- A block as an image declares it (R96, R97, R108 to R133): a parameter left out takes its default. Times are in ns, so that an
image can hold a value off its step. -/
inductive BlockDecl where
  | and
  | or
  | xor
  | not
  | sr
  | estop (tDisc startTest : Option Nat)
  | dualeq (tDisc startTest : Option Nat)
  | dualant (tDisc startTest : Option Nat)
  | curtain (tDisc startTest muteMode tSync tMax tOvr dir : Option Nat)
  | guard (tDisc startTest sw2Mode tCode passable : Option Nat)
  | glock (principle tLock : Option Nat)
  | twohand (tContact : Option Nat)
  | enable (tDisc : Option Nat)
  | modesel (tSw : Option Nat)
  | standstill (cap0 cap1 : Nat) (tSs tSdis : Option Nat)
  | restart
  | edm (mon : Nat) (tEdm : Option Nat)
  | safeout (target : Target) (category delay tExtra : Option Nat)
  | ton (t : Option Nat)
  | toff (t : Option Nat)
  | pulse (t : Option Nat)
  | couple (target : Nat)
  | unlisted (code : Nat)
  deriving DecidableEq, Repr

/-- Block types with their parameters as the blocks use them (R96, R108 to R133). Times are in the unit of the
parameter's step: ms for the blocks, µs for TON, TOFF, PULSE and T_EXTRA. -/
inductive BlockKind where
  | and
  | or
  | xor
  | not
  | sr
  | estop (tDisc startTest : Nat)
  | dualeq (tDisc startTest : Nat)
  | dualant (tDisc startTest : Nat)
  | curtain (tDisc startTest muteMode tSync tMax tOvr dir : Nat)
  | guard (tDisc startTest sw2Mode tCode passable : Nat)
  | glock (principle tLock : Nat)
  | twohand (tContact : Nat)
  | enable (tDisc : Nat)
  | modesel (tSw : Nat)
  | standstill (cap0 cap1 tSs tSdis : Nat)
  | restart
  | edm (mon tEdm : Nat)
  | safeout (target : Target) (category delay tExtra : Nat)
  | ton (t : Nat)
  | toff (t : Nat)
  | pulse (t : Nat)
  | couple (target : Nat)
  | unlisted (code : Nat)
  deriving DecidableEq, Repr

/-- A block with its inputs in the order of R96; an undeclared input is `none`. -/
structure Block where
  decl : BlockDecl
  ins : List (Option Operand)
  deriving DecidableEq, Repr

/-- A safety function: its number, D, D_OFF and the SAFEOUT blocks it ends in (R48, R49, R148). -/
structure FnDecl where
  num : Nat
  d : Nat
  dOff : Option Nat
  outs : List Nat
  deriving DecidableEq, Repr

/-- A zone section of an image (R168); `bytes` is the section as stored, for R170. -/
structure ZoneSection where
  zone : BitVec 8
  version : BitVec 16
  auto : Bool
  shift : Option Nat
  fns : List FnDecl
  blocks : List Block
  bytes : List Byte
  deriving DecidableEq, Repr

/-- Declaration of a field channel (R189, R210, R220, R222, R236 to R239). -/
structure ChanDecl where
  mode : BitVec 2
  type3 : Bool
  wbEn : Bool
  debounce : BitVec 16
  par : BitVec 2
  olEn : Bool
  fbFilt : BitVec 10
  offWin : BitVec 14
  tpEn : Bool
  width : BitVec 7
  period : BitVec 16
  phaseA : BitVec 23
  phaseB : BitVec 23
  nsSrc : BitVec 2
  silentState : BitVec 2
  tilePair : BitVec 6
  tileLane : Bool
  silentT : BitVec 10
  deriving DecidableEq, Repr

/-- Declaration of a connection slot (R280). Times in µs; the cycle, the watchdog and the node times may be left out (R152). -/
structure ConnDecl where
  port : Nat
  connId : Word
  listener : Bool
  rxHandle : BitVec 16
  txHandle : BitVec 16
  rxBase : Nat
  rxPoints : Nat
  txBase : Nat
  txPoints : Nat
  cycDecl : Option Nat
  wdDecl : Option Nat
  niDecl : Option Nat
  noDecl : Option Nat
  txPhase : Nat
  minVer : Nat
  cmac : Bool
  keyId : Nat
  partnerMac : BitVec 48
  partnerIp : Word
  deriving DecidableEq, Repr

/-- Declaration of an internal point (R60). -/
inductive PointClass where
  | safety
  | standard
  deriving DecidableEq, Repr

/-- A tile section: a split pair and lane, its blocks and the channels its outputs name (R473). -/
structure TileSection where
  pair : Nat
  lane : Lane
  blocks : List Block
  outs : List (Nat × Operand)
  deriving DecidableEq, Repr

/-- An entry of the boot list of an image header (R448). -/
structure BootEntry where
  zone : BitVec 8
  pair : Nat
  accept : Word
  deriving DecidableEq, Repr

/-- An .ivi image, decoded: the manual gives no binary layout, so a load carries the content. `bytes`
are the bytes the two image checks cover and `crcA`, `crcB` the values the image carries (R168). A
connection entry `none` removes a declaration (R281). -/
structure Image where
  major : Nat
  minor : Nat
  size : Nat
  bytes : List Byte
  crcA : Word
  crcB : Word
  imageId : Word
  splitMask : BitVec 36
  ack : Option (Fin 64)
  chans : List (Fin 64 × ChanDecl)
  conns : List (Nat × Option ConnDecl)
  internals : List (Nat × PointClass)
  zones : List ZoneSection
  tiles : List TileSection
  boot : List BootEntry
  deriving DecidableEq, Repr

/-! ### Host commands (R393, R401) -/

/-- Ring, CID and PROGRESS flag of the entry a command came from (R393). -/
structure Origin where
  ring : Fin 16
  cid : BitVec 16
  progress : Bool
  deriving DecidableEq, Repr

/-- A submission entry (R393), the fields of its 64 bytes. -/
structure Entry where
  opcode : Byte
  flags : Byte
  cid : BitVec 16
  dcrc : Word
  addr : Word64
  len : Word
  hostSeq : Word
  param : BitVec 320
  deriving DecidableEq, Repr

/-! ### Frames (R256, R260, R282) -/

/-- A Hyger body (R256, offsets 1 to 16 + P + 8M), with its header byte's fields (R257). -/
structure Frame where
  ftype : BitVec 4
  ver : BitVec 2
  cmac : Bool
  resv : Bool
  handle : BitVec 16
  seq8 : Byte
  tstamp : Word
  payload : List Byte
  crcA : Word
  crcB : Word
  tag : Word64
  deriving DecidableEq, Repr

/-- What a port's receiver found at the end of a frame (R259, R261, R266, R268): a code error, a frame past
the longest length, a clause 36 packet in native framing, whether a CONN_CLOSE took the frame's handle from the port during its
reception, and in tunnel framing the bytes of the Ethernet frame, from its destination address to its FCS. -/
structure LineInfo where
  codeErr : Bool
  tooLong : Bool
  packet : Bool
  removed : Bool
  eth : List Byte
  deriving DecidableEq, Repr

/-! ### What a clocked or physical event brings -/

/-- The test conditions of R329, true where the condition holds. -/
structure TestCond where
  vcore : Bool
  timebase : Bool
  tj : Bool
  deriving DecidableEq, Repr

/-- What comes about at a pass end beside the evaluation: parity errors (R62), the delay stage words that an upset hits, bit i that of the
pass's word i, bit 0 of its start word (R76, R376), a code a comparator shows of its own (R79), an injection that does not show (R82), and
disagreements the stewards find on a migration (R174, R175). -/
structure PassInfo where
  parityA : Bool
  parityB : Bool
  poison : Nat
  codeA : Option (BitVec 2)
  codeB : Option (BitVec 2)
  injHideA : Bool
  injHideB : Bool
  migMismatch : Bool
  deriving DecidableEq, Repr

/-- An expiry of a timer: lane B's own elapsed time in ns, and whether it fell at the very tick of the last release mark (R69, R77). -/
structure ExpiryRead where
  elapsedB : Nat
  atMark : Bool
  deriving DecidableEq, Repr

/-- An entry of a BIST result (R334). -/
structure BistEntry where
  pair : BitVec 6
  lane : Lane
  mem : BitVec 3
  row : BitVec 16
  bit : Byte
  action : BitVec 2
  deriving DecidableEq, Repr

/-- The conditions of R329 for a slot: as they are measured when it is its turn, and at the start of its test. -/
structure SlotCond where
  due : TestCond
  start : TestCond
  deriving DecidableEq, Repr

/-- An analogue window (R329, R340): the conditions at its start and at its end, and the test pulses that fall due while it is open. -/
structure WindowRead where
  start : TestCond
  fin : TestCond
  due : List (Fin 64 × Lane × Nat)
  deriving DecidableEq, Repr

/-- How a slice's march test, injection sweep and timer checks end (R338). -/
inductive SliceResult where
  | pass
  | rows (entries : List BistEntry)
  | fail (entries : List BistEntry)
  deriving DecidableEq, Repr

/-- Analogue items of R340 and R341. -/
inductive AnaItem where
  | thresholdLoopback
  | readback
  | currentLimit
  | supplyXchk
  | lmXchk
  | timebaseRef
  | serdesLoopback
  deriving DecidableEq, Repr

/-- The 72 bits that one read of an OTP word senses (R416, R421). -/
structure OtpSense where
  data : Word64
  check : Byte
  deriving DecidableEq, Repr

/-- A word of which the normal or the strict read senses other bits than are blown (R421, R423). -/
structure OtpExc where
  word : Fin 256
  normal : OtpSense
  strict : OtpSense
  deriving DecidableEq, Repr

/-- Which supplies fail (R441, R444): those of the device, or the core supply of one die alone. -/
inductive PowerLoss where
  | all
  | lane (l : Lane)
  | hub
  | field
  deriving DecidableEq, Repr

/-- The outcome of the program pulses of R427: pulses used, the data and check bits that fail after the last, and a loss of supply that
ends the pulses (R430). -/
structure ProgOutcome where
  pulses : Nat
  failData : Word64
  failCheck : Byte
  loss : Option PowerLoss
  deriving DecidableEq, Repr

/-- The outcome of programming the three copies of a lock (R428, R430): the copies that verify, those that a read shows blown, a loss of
supply that ends the pulses. -/
structure LockOutcome where
  verified : BitVec 3
  seen : BitVec 3
  loss : Option PowerLoss
  deriving DecidableEq, Repr

/-- A lock of which a read shows other copies blown than the last one (R421, R424, R433): of the read lock or the write lock of a region,
the copies that the normal and the strict read show blown. -/
structure LockRead where
  rd : Bool
  region : Fin 16
  normal : BitVec 3
  strict : BitVec 3
  deriving DecidableEq, Repr

/-- What a lane's CRCs say of what comes to it as the device starts: the shadows that are delivered to it (R421), the BIST record it reads
(R335). -/
structure StartCrc where
  shadows : Bool
  record : Bool
  deriving DecidableEq, Repr

/-- What the flash's tables say (R447): a valid SFDP signature, the size in bytes, a 4 KiB erase, the fast reads that are listed beside
1-1-1, a 4-byte address instruction table. -/
structure FlashInfo where
  sfdpOk : Bool
  size : Nat
  erase4k : Bool
  read112 : Bool
  read114 : Bool
  fourByteTable : Bool
  deriving DecidableEq, Repr

/-- The results of the start test (R336): pairs that failed with no spare row left, rows repaired, the
loop-back of each channel, the SerDes loopback of each port, the Light Meter cross-checks, and the other analogue items that failed
with their indexes. -/
structure StartResult where
  failed : List (Fin 36)
  repairs : List BistEntry
  chOk : BitVec 64
  portFail : BitVec 32
  lmOkA : Bool
  lmOkB : Bool
  anaFail : List (AnaItem × Nat)
  deriving DecidableEq, Repr

/-- The dies (R481, R483). -/
inductive Die where
  | la
  | lb
  | hb
  | fd
  deriving DecidableEq, Repr

/-- Requesters of a register access (R482, R490). -/
inductive Requester where
  | host
  | debug
  | boot
  deriving DecidableEq, Repr

/-- GSTOP_A and GSTOP_B. -/
inductive GstopPin where
  | a
  | b
  deriving DecidableEq, Repr

/-- A read of a GSTOP terminal in mV; `stood` says that its raw level has now stood for the debounce time (R205). -/
structure GstopRead where
  pin : GstopPin
  mv : Nat
  stood : Bool
  deriving DecidableEq, Repr

/-- A read of an input terminal and of its group's supply in mV; `stood` says that its raw level has now stood for the debounce
time (R194). -/
structure InputRead where
  mv : Nat
  vfs : Nat
  stood : Bool
  deriving DecidableEq, Repr

/-- A read of an input in wire-break mode: terminal and supply in mV, input current in µA (R192). -/
structure WireRead where
  mv : Nat
  vfs : Nat
  ua : Nat
  deriving DecidableEq, Repr

/-- A capture unit's consecutive reads of its terminal, and the group's supply, in mV (R201). -/
structure CaptureReads where
  vfs : Nat
  mvs : List Nat
  deriving DecidableEq, Repr

/-- The readings taken during a test pulse, bit i that of member i of the set: mid node and terminal stayed above the OFF level
(R224). -/
structure PulseRead where
  mid : BitVec 4
  term : BitVec 4
  deriving DecidableEq, Repr

/-- The mid node of an output: above the OFF level (R226), at the ON level (R241). -/
structure MidRead where
  aboveOff : Bool
  atOn : Bool
  deriving DecidableEq, Repr

/-- What a hub link frame brings to a lane (R22, R23, R394): a received safety frame, the lane's copy of a safety entry of a ring, or
neither: a register access, which a lost frame times out (R483). -/
inductive HubContent where
  | frame
  | descriptor (r : Fin 16)
  | other
  deriving DecidableEq, Repr

/-- A frame of a hub link (R23): its CRC, what it brings, which of the words that HB takes next from the lane's event queue an upset
hits, bit 0 that of the first (R376, R379), and whether HB takes none before the next frame (R380). -/
structure HubFrame where
  crcOk : Bool
  content : HubContent
  poison : BitVec 64
  hold : Bool
  deriving DecidableEq, Repr

/-- What a step of the long commands does (R398): whether it ends the stage of the stewards' operation, and the bytes that each ring's
command moves in it, ring 0 first. -/
structure StepWork where
  done : Bool
  moved : List Nat
  deriving DecidableEq, Repr

/-- An item of the function's configuration space (R385). -/
inductive ConfigItem where
  | endpoint
  | linkX1Lane
  | laneReversal
  | bar0Memory64
  | bar0Prefetchable
  | bar2Memory64
  | bar2Prefetchable
  | addressing64
  | aerCorrectable
  | aerNonFatal
  | aerFatal
  | vendorId
  | deviceId
  | classCode
  | bar0Bytes
  | bar2Bytes
  | maxPayload
  | maxReadRequest
  | completionTimeoutMs
  | linkGens
  | linkLanes
  | msixVectors
  | intxPins
  | msiVectors
  | powerStates
  | aspm
  | functionLevelReset
  | aer
  | ioBar
  | expansionRom
  deriving DecidableEq, Repr

/-- Where a host read goes: a register of BAR0, an offset in BAR2, the configuration space (R385 to R387). -/
inductive BusAddr where
  | bar0 (offset : BitVec 18)
  | bar2 (offset : BitVec 12)
  | config (item : ConfigItem)
  deriving DecidableEq, Repr

/-- The doorbells of BAR2 (R391). -/
inductive Doorbell where
  | sqTail (r : Fin 16)
  | cqHead (r : Fin 16)
  | evHead (e : Fin 4)
  deriving DecidableEq, Repr

/-- What each steward found, lane A's first: they run the tests in lock-step and compare their results (R328). -/
structure Found (α : Type) where
  a : α
  b : α
  deriving DecidableEq, Repr

/-- Instructions of the test access port (R463); `other` is any Falnov debug instruction but
DBG_ACCESS. -/
inductive JtagOp where
  | bypass
  | idcode
  | samplePreload
  | extest
  | dbgAccess
  | other
  deriving DecidableEq, Repr

/-! ### The commands -/

/-- One constructor per row of the table of operations and events. -/
inductive Instr where
  -- host commands (R400)
  | imgLoad (o : Origin) (offset total len : Word) (busOk : Bool) (imgA imgB : Image)
  | imgVerify (o : Origin)
  | zoneAdmit (o : Origin) (zones : BitVec 256) (pair : Byte)
  | zoneCommit (o : Origin) (zone : BitVec 8) (accept : Word)
  | rollback (o : Origin) (zone : BitVec 8) (accept : Word)
  | zoneWithdraw (o : Origin) (zone : BitVec 8)
  | zoneMigrate (o : Origin) (zones : BitVec 256) (src tgt : Byte)
  | zoneRestart (o : Origin) (zone : BitVec 8)
  | connOpen (o : Origin) (slot : BitVec 16)
  | connClose (o : Origin) (slot : BitVec 16)
  | portEnable (o : Origin) (port : Byte)
  | portDisable (o : Origin) (port : Byte)
  | bistRun (o : Origin) (item index : Byte)
  | channelCal (o : Origin) (index : Byte)
  | diagRead (o : Origin) (zone : BitVec 8) (first count : BitVec 16) (bufLen : Word) (busOk : Bool)
  | snapshot (o : Origin) (first count bufLen : Word) (busOk : Bool)
  | otpRead (o : Origin) (word count : Byte)
  | otpProgram (o : Origin) (index : Byte) (data : Word64) (tjOk : Bool) (out : ProgOutcome)
  | writeLock (o : Origin) (index : Byte) (tjOk : Bool) (pulses : Nat) (copies : LockOutcome)
  | readLock (o : Origin) (index : Byte) (tjOk : Bool) (pulses : Nat) (copies : LockOutcome)
  | otpShadowSet (o : Origin) (word : Byte) (data : Word64)
  | otpShadowRemove (o : Origin) (word : Byte)
  | timeSync (o : Origin)
  | shutdown (o : Origin)
  -- doorbells, rings, host link
  | sqTail (offset : BitVec 12) (value : Word)
  | cqHead (offset : BitVec 12) (value : Word)
  | evHead (offset : BitVec 12) (value : Word)
  | descriptorFetch (r : Fin 16) (entry : Option Entry)
  | safetyDescriptorCheck (r : Fin 16) (copyA copyB : Option Entry)
  | ringEnable (r : Fin 16) (value : Word)
  | ringDisable (r : Fin 16)
  | eventRingEnable (e : Fin 4) (value : Word)
  | versionSelect (value : Word)
  | safeSeqWrite (r : Fin 16) (value : Word)
  | functionLevelReset
  | d3hot
  | registerWrite (offset : BitVec 18) (be : BitVec 4) (value : Word) (src : Requester) (copyB : Option Word)
  | accessTimeout (die : Die) (isRead : Bool)
  | timebaseLoRead (which : Timebase)
  -- general timers and CRC units
  | gtCapRead (k : Fin 32)
  | gtCmpWrite (k : Fin 32) (value : Word) (tickAtLoad : Bool)
  | gtEnable (k : Fin 32) (value : Word)
  | gtDisable (k : Fin 32) (value : Word)
  | softwareCapture (k : Fin 32)
  | gtMatch (k : Fin 32)
  | gtCapture (k : Fin 32)
  | staggerLoad
  | staggerPeriodEnd
  | ckCfgWrite (u : Fin 8) (value : Word)
  | ckData32 (u : Fin 8) (value : Word)
  | ckData16 (u : Fin 8) (value : Word)
  | ckData8 (u : Fin 8) (value : Word)
  | ckSeed (u : Fin 8) (value : Word)
  -- clearing faults
  | faultClear (keyA keyB : Word)
  | clearComplete (fdPass : List (BitVec 16 × BitVec 12))
  | faultAcknowledgement
  -- debug, power modes
  | debugEnable (value : Word)
  | halt (value : Word)
  | resume
  | step (info : PassInfo)
  | stewardHalt
  | debugAccess (value : Word)
  | replayFail
  | dormantEntry
  | wake
  | benchExit
  -- field registers with rows of their own
  | nsCmd (ch : Fin 64) (value : Word)
  | channelModeWrite (ch : Fin 64) (value : Word)
  | captureConfig (c : Fin 16) (value : Word)
  | gstopDisable (value : Word)
  -- reset, start, shutdown
  | powerOnReset (loss : PowerLoss)
  | resetN (lowNs : Nat)
  | perstN (lowNs : Nat)
  | resetRelease (bootsel : BitVec 2) (seqErr : Bool)
  | shutdownN
  | shadowsLoaded (excs : List OtpExc) (split : List LockRead) (crcOkA crcOkB : StartCrc) (flash : FlashInfo)
  | testConditionPoll (cond : TestCond)
  | startTestEnd (cond : TestCond) (res : Found StartResult) (flashImg : List (BitVec 24 × Image × Image))
  | longOperationStep (work : StepWork)
  | shutdownRecordWritten (cond : TestCond) (tjMax : Byte) (fails : Found (List BistEntry)) (chOk : BitVec 64)
  -- field side
  | gstopOpen (r : GstopRead)
  | gstopRelease
  | gstopDisc
  | inputDebounce (ch : Fin 64) (r : InputRead)
  | inputRestore (ch : Fin 64)
  | wireBreak (ch : Fin 64) (r : WireRead)
  | inputOv (ch : Fin 64) (mv : Nat)
  | sample
  | periodicSample
  | captureCount (c : Fin 16) (r : CaptureReads)
  | uvWarn (g : Fin 4) (vfs : BitVec 16)
  | uvIn (g : Fin 4) (vfs : BitVec 16)
  | uvOff (g : Fin 4) (vfs : BitVec 16)
  | groupOv (g : Fin 4) (vfs : BitVec 16)
  | groupLatchEnd (g : Fin 4)
  | testPulseStart (ch : Fin 64) (lane : Lane) (period : Nat)
  | testPulseEnd (ch : Fin 64) (r : PulseRead) (settled : Bool)
  | feedbackDebounce (ch : Fin 64) (level : Bool)
  | offCheck (ch : Fin 64) (termHigh : Bool)
  | onCheck (ch : Fin 64) (atOn inLimit : Bool)
  | openLoadTest (ch : Fin 64) (above4V : Bool)
  | openLoad (ch : Fin 64)
  | overload (ch : Fin 64)
  | thermal (ch : Fin 64)
  | shareFault (ch : Fin 64)
  | crossShort (x y : Fin 64)
  | channelFaultReport (ch : Fin 64) (code : BitVec 16)
  | nsSilent (ch : Fin 64)
  | analogueWindow (item : AnaItem) (index : BitVec 6) (w : WindowRead) (passed : Found Bool)
  -- links, Stop Bath, lanes
  | fieldLinkFrame (lane : Lane) (crcOk : Bool) (poison : BitVec 16)
  | fieldLinkSilent (lane : Lane)
  | ownershipCheck
  | pendingOwnershipTimeout
  | sbHeartbeatLost (lane : Lane)
  | fdOsc (permille : Int)
  | heartbeat (lane : Lane)
  | heartbeatLost (lane : Lane)
  | laneCrossLinkFrame (dst : Lane) (crcOk : Bool) (pairs : List (Fin 36)) (hash confirm : Bool)
  | stewardStep (agree : Bool)
  | stewardSilent (lane : Lane)
  | timebaseXchk (lane : Lane) (ppm10 : Int)
  | xchkResume
  | pllLockLoss (lane : Lane)
  | lightMeterWindow (lane : Lane) (laps : BitVec 10)
  | supplyRange (lane : Lane) (mv : BitVec 16)
  | hubLinkFrame (lane : Lane) (f : HubFrame)
  -- pairs and zones
  | releaseMark
  | heartbeatPass (p : Fin 36)
  | timerExpiry (p : Fin 36) (zone : BitVec 8) (blk chan : Nat) (e : ExpiryRead)
  | timerXchk (p : Fin 36) (zone : BitVec 8) (blk chan : Nat)
  | passEnd (p : Fin 36) (info : PassInfo)
  | passWatch (p : Fin 36) (lane : Lane)
  | startWatch (p : Fin 36) (lane : Lane)
  | injectionSchedule (p : Fin 36) (lane : Lane)
  | cat1DelayExpiry (lane : Lane) (out : Target)
  | notStopped
  | withdrawTimeout (zone : BitVec 8)
  | tilePass (p : Fin 36) (lane : Lane) (parity : Bool)
  -- connections and ports
  | txRequest (slot : Fin 2048)
  | txMerge (slot : Fin 2048)
  | txMergeTimeout (slot : Fin 2048)
  | portTransmit (port : Fin 32)
  | openStagger (slot : Fin 2048)
  | openRetry (slot : Fin 2048)
  | staleReopen (slot : Fin 2048)
  | watchdogExpiry (slot : Fin 2048) (elapsedB : Nat)
  | wdXchk (slot : Fin 2048)
  | dataFrame (lane : Lane) (slot : Fin 2048) (f : Frame)
  | openFrame (slot : Fin 2048) (f : Frame)
  | openAck (slot : Fin 2048) (f : Frame) (rtt : Nat)
  | openRefuse (slot : Fin 2048) (f : Frame)
  | close (slot : Fin 2048) (f : Frame)
  | syncAcquired (port : Fin 32)
  | negotiationComplete (port : Fin 32) (page : BitVec 16)
  | syncLost (port : Fin 32)
  | portFrameEnd (port : Fin 32) (f : Frame) (line : LineInfo)
  | rateWindow (slot : Fin 2048)
  | openRateWindow (port : Fin 32)
  -- self-test
  | bistSlot (cond : SlotCond)
  | sliceEnd (p : Fin 36) (cond : TestCond) (res : Found SliceResult)
  | bistOverdue (p : Fin 36)
  | otpDriftScan (words : List (Fin 256 × OtpSense)) (locks : List LockRead)
  -- LF, Dormant, the rest
  | lfFail
  | dormantInputRead (raw : BitVec 64)
  | wakeReturnTimeout (lane : Lane)
  | recordGone (k : Fin 64)
  | midNodeCheck (ch : Fin 64) (r : MidRead)
  | gstopClosed (r : GstopRead)
  | lfEdge
  | hbReady
  | d0
  | vectorMessage (v : Fin 32)
  | registerRead (addr : BusAddr)
  | jtagInstruction (op : JtagOp)
  deriving DecidableEq, Repr

end Sys2Proof
end

