-- ==== Sys2Proof/Machine/Bits.lean ====
section
/-!
DEFINITION. Bit fields, byte orders, saturation, and the CRCs of R78 and R290.
-/
namespace Sys2Proof.Machine

/-- Bits [hi:lo] of a word, as a number. -/
def bits (w : Word) (hi lo : Nat) : Nat := (w.toNat >>> lo) % 2 ^ (hi + 1 - lo)

/-- Bit `i` of a word. -/
def bit (w : Word) (i : Nat) : Bool := w.getLsbD i

/-- The field `v` placed at bit `lo`, `n` bits wide. -/
def fld (v n lo : Nat) : Nat := (v % 2 ^ n) <<< lo

/-- A flag placed at bit `lo`. -/
def flag (b : Bool) (lo : Nat) : Nat := if b then 1 <<< lo else 0

/-- A register word from the sum of its fields. -/
def word (n : Nat) : Word := BitVec.ofNat 32 n

/-- A counter that saturates at `top`. -/
def satInc (n top : Nat) : Nat := if n < top then n + 1 else n

/-- A counter raised by `k` that saturates at `top`. -/
def satAdd (n k top : Nat) : Nat := min (n + k) top

/-- The `n` bytes of a number, least significant first. -/
def bytesLE : Nat → Nat → List Byte
  | 0, _ => []
  | n + 1, v => BitVec.ofNat 8 v :: bytesLE n (v / 256)

/-- The `n` bytes of a number, most significant first. -/
def bytesBE (n v : Nat) : List Byte := (bytesLE n v).reverse

/-- The number whose bytes, most significant first, are given. -/
def natBE (bs : List Byte) : Nat := bs.foldl (fun a b => a * 256 + b.toNat) 0

/-- `n` bytes of a list from `off`, most significant first, as a number. -/
def fieldBE (bs : List Byte) (off n : Nat) : Nat := natBE ((bs.drop off).take n)

/-- Eight shift steps of a reflected 32-bit CRC. -/
def crcReflStep (poly : Word) : Nat → Word → Word
  | 0, s => s
  | n + 1, s =>
    crcReflStep poly n (if s.getLsbD 0 then (s >>> (1 : Nat)) ^^^ poly else s >>> (1 : Nat))

/-- Shift steps of a 32-bit CRC that is not reflected. -/
def crcFwdStep (poly : Word) : Nat → Word → Word
  | 0, s => s
  | n + 1, s =>
    crcFwdStep poly n (if s.getLsbD 31 then (s <<< (1 : Nat)) ^^^ poly else s <<< (1 : Nat))

/-- CRC-32C folded over bytes, with no final inversion (R290). -/
def crcAFold (s : Word) (bs : List Byte) : Word :=
  bs.foldl (fun s b => crcReflStep 0x82F63B78#32 8 (s ^^^ (b.setWidth 32 : Word))) s

/-- crc_a of R290. -/
def crcA (bs : List Byte) : Word := crcAFold 0xFFFFFFFF#32 bs ^^^ 0xFFFFFFFF#32

/-- crc_b of R290. -/
def crcB (bs : List Byte) : Word :=
  bs.foldl (fun s b => crcFwdStep 0x741B8CD7#32 8 (s ^^^ ((b.setWidth 32 : Word) <<< (24 : Nat)))) 0xFFFFFFFF#32
    ^^^ 0xFFFFFFFF#32

/-- crc32c_word of R78: the register updated by 32 bits, least significant bit first, with no initial
or final inversion. -/
def crc32cWord (s d : Word) : Word := crcReflStep 0x82F63B78#32 32 (s ^^^ d)

/-- k_fix of R78. -/
def kFix : Word := crc32cWord 0xFFFFFFFF#32 0xFFFFFFFF#32 ^^^ 0xFFFFFFFF#32

/-- The frame check sequence of clause 3 over bytes, sent least significant byte first. -/
def fcs (bs : List Byte) : Word :=
  bs.foldl (fun s b => crcReflStep 0xEDB88320#32 8 (s ^^^ (b.setWidth 32 : Word))) 0xFFFFFFFF#32 ^^^ 0xFFFFFFFF#32

/-- The sum of the 16-bit words of bytes, and the sum folded to 16 bits, as the IPv4 and UDP checksums take it. -/
def sum16 : List Byte → Nat
  | [] => 0
  | [a] => a.toNat * 256
  | a :: b :: r => a.toNat * 256 + b.toNat + sum16 r

def fold16 (n : Nat) : Nat :=
  let m := n % 65536 + n / 65536
  m % 65536 + m / 65536

/-- Rounded-up division. -/
def ceilDiv (a b : Nat) : Nat := (a + b - 1) / b

/-- Numbers below `n` for which `f` holds, in rising order. -/
def below (n : Nat) (f : Nat → Bool) : List Nat := (List.range n).filter f

/-- The bits of a mask that are set, in rising order. -/
def maskBits {w : Nat} (m : BitVec w) : List Nat := below w fun i => m.getLsbD i

/-- Bit `i` of a vector set or cleared. -/
def setBit {w : Nat} (v : BitVec w) (i : Nat) (b : Bool) : BitVec w :=
  if b then v ||| BitVec.ofNat w (1 <<< i) else v &&& ~~~(BitVec.ofNat w (1 <<< i))

end Sys2Proof.Machine
end

