-- ==== Sys2Proof/Machine/Hamming.lean ====
section
/-!
DEFINITION. The extended Hamming (72,64) code of an OTP word (R416): the check bits of 64 data bits, and what 72 bits that were read
decode to. The manual gives the code's length and what it corrects, not the place of a bit: the places here are the usual ones (DESIGN
CHOICE, log entry 72).
-/
namespace Sys2Proof.Machine
open Sys2Proof

/-- The code positions of the data bits: 1 to 71 without the powers of two, which are the check bits' own. -/
def dataPositions : List Nat := (List.range 72).filter fun p => decide (p ≠ 0) && !decide (p ∈ [1, 2, 4, 8, 16, 32, 64])

/-- The bitwise exclusive or of the positions of the data bits that are 1. -/
def dataSyndrome (d : Word64) : Nat :=
  (dataPositions.zipIdx).foldl (fun a x => if d.getLsbD x.2 then a ^^^ x.1 else a) 0

/-- Whether a number of bits is odd. -/
def oddBits (w n : Nat) : Bool := (List.range n).foldl (fun a i => a != w.testBit i) false

/-- The check bits of data: bits 0 to 6 make the syndrome 0, bit 7 makes the number of ones even. -/
def otpCheck (d : Word64) : Byte :=
  if d = 0#64 then 0#8
  else
    let c := dataSyndrome d
    BitVec.ofNat 8 (c + if oddBits d.toNat 64 != oddBits c 7 then 128 else 0)

/-- What the 72 bits of a word decode to: its data, whether one bit was corrected, whether the errors cannot be corrected. -/
structure OtpRead where
  data : Word64
  corrected : Bool
  uncorr : Bool
  deriving DecidableEq, Repr

/-- Decoding: an error of one bit is corrected, an error of two is found (R416). What is read of a word that cannot be corrected is its
data bits as they stand. -/
def otpDecode (d : Word64) (c : Byte) : OtpRead :=
  if d = 0#64 && c = 0#8 then { data := d, corrected := false, uncorr := false }
  else
    let s := dataSyndrome d ^^^ (c.toNat % 128)
    let odd := oddBits d.toNat 64 != oddBits c.toNat 8
    if !odd then { data := d, corrected := false, uncorr := decide (s ≠ 0) }
    else if s = 0 || decide (s ∈ [1, 2, 4, 8, 16, 32, 64]) then { data := d, corrected := true, uncorr := false }
    else
      match dataPositions.findIdx? (· == s) with
      | some i => { data := d ^^^ (1#64 <<< i), corrected := true, uncorr := false }
      | none => { data := d, corrected := false, uncorr := true }

end Sys2Proof.Machine
end

