-- ==== Sys2Proof/Config.lean ====
section
/-!
DEFINITION. What the manual leaves open: free values, constants with no body. Every draw names
the draw's number (a counter in State), so two draws are two values nothing relates.
-/
namespace Sys2Proof.Config

/-- The levels of the pins that the boundary-scan chain covers (R463), which the board sets. Log entry 78. -/
opaque freePins : Nat → BitVec 151

/-- A nonce of the HB random source (R285); the manual gives no value. Log entry 5. -/
opaque freeNonce : Nat → BitVec 32

/-- A measured quantity of the field side or of a supply (R211, R242, R461). Log entry 6. -/
opaque freeMeasure : Nat → BitVec 16

/-- Whether a reset pulse of 1 µs to 10 µs acts (R444: it may or may not act). Log entry 7. -/
opaque freePulseActs : Nat → Bool

/-- Whether a frame is in reception at an instant at which no command says so (R252, R253). Log entry 11. -/
opaque freeInReception : Nat → Bool

/-- The word a debug read finds where nothing of the machine's own contents is in it (R469, R477): state memory that no block uses, a spare
row, the halted steward's state. Log entry 8. -/
opaque freeTileWord : Nat → BitVec 32

/-- The slot table index of a step of a block of a zone: the manual gives slots no placement. Log entry 9. -/
opaque slotAt (zone blk step : Nat) : Nat

/-- The words a step folds into the pass signature, as a function of the block's contents after
the step: R78 names them "every word that step writes", and the manual gives no layout of the
state memory. Log entry 9. -/
opaque stepWords : List Nat → List (BitVec 32)

/-- Where inside its tolerance a threshold of a field terminal stands (R190, R192): the manual gives each a range. The number
names the threshold. Log entry 67. -/
opaque freeThreshold : Nat → Nat

end Sys2Proof.Config
end

