-- ==== Sys2Proof/Machine/Tab.lean ====
section
/-!
DEFINITION. Sparse tables: a list of (index, contents) pairs in one canonical form, indexes strictly
rising and no entry equal to what an unlisted index holds. Every array of the block (points, pairs,
zones, channels, ports, connections, timers, rings) is such a table, with its reset contents as the
default `d` of its accessors.
-/
namespace Sys2Proof.Machine

/-- A sparse table. -/
abbrev Tab (α : Type) := List (Nat × α)

/-- The contents at `k`; an unlisted index holds `d`. -/
def tabGet {α : Type} (d : α) : Tab α → Nat → α
  | [], _ => d
  | (a, v) :: r, k => if a < k then tabGet d r k else if a = k then v else d

/-- Entries up to index `k` dropped. -/
def tabDropTo {α : Type} (k : Nat) : Tab α → Tab α
  | [] => []
  | (a, v) :: r => if a ≤ k then tabDropTo k r else (a, v) :: r

/-- The table with `v` at `k`; storing the default removes the entry. -/
def tabSet {α : Type} [DecidableEq α] (d : α) : Tab α → Nat → α → Tab α
  | [], k, v => if v = d then [] else [(k, v)]
  | (a, w) :: r, k, v =>
    if a < k then (a, w) :: tabSet d r k v
    else if a = k then (if v = d then tabDropTo k r else (k, v) :: r)
    else (if v = d then (a, w) :: r else (k, v) :: (a, w) :: r)

/-- The table with `f` applied at `k`. -/
def tabUpd {α : Type} [DecidableEq α] (d : α) (t : Tab α) (k : Nat) (f : α → α) : Tab α :=
  tabSet d t k (f (tabGet d t k))

/-- `f` applied at every index of a list of indexes. -/
def tabUpdAll {α : Type} [DecidableEq α] (d : α) (t : Tab α) (ks : List Nat) (f : Nat → α → α) :
    Tab α :=
  ks.foldl (fun t k => tabUpd d t k (f k)) t

/-- `f` applied to every listed entry; for an `f` that keeps the default this is every index. -/
def tabMap {α : Type} [DecidableEq α] (d : α) (f : Nat → α → α) : Tab α → Tab α
  | [] => []
  | (k, v) :: r => if f k v = d then tabMap d f r else (k, f k v) :: tabMap d f r

/-- Canonical form: indexes strictly rising, all at or above `lo`, no entry equal to `d`. -/
def tabWfFrom {α : Type} [DecidableEq α] (d : α) : Nat → Tab α → Bool
  | _, [] => true
  | lo, (a, v) :: r => decide (lo ≤ a) && decide (v ≠ d) && tabWfFrom d (a + 1) r

/-- Canonical form. -/
def tabWf {α : Type} [DecidableEq α] (d : α) (t : Tab α) : Bool := tabWfFrom d 0 t

end Sys2Proof.Machine
end

