-- ==== Sys2Proof/Machine/State.lean ====
section
/-!
DEFINITION. The state of the block: everything the manual gives the four dies, as plain data, and
the state after reset. Arrays are sparse tables (Machine/Tab.lean) whose unlisted entries hold the
named reset contents (`X.init`).
-/
namespace Sys2Proof.Machine

/-- What could stop the block. No command of this block stops it: the manual gives each an effect. The
one reason is named for completeness and no meaning raises it (safe). -/
inductive Fault where
  | noSuchAgent
  deriving DecidableEq, Repr

/-- Why a command has no meaning. `notModelled` would be raised by an arm of `exec` with no meaning (safe:
the block stops); no arm of this model raises it. -/
inductive Refusal where
  | notModelled (mnemonic : String)
  deriving DecidableEq, Repr

/-! ### Zones and blocks -/

/-- Zone states (R51, R53). -/
inductive ZoneSt where
  | withdrawn
  | admitted
  | armed
  | running
  | demanded
  | faulted
  deriving DecidableEq, Repr

/-- A timer channel (R103): stopped, running with its set time in µs, expired for the next pass that starts, or expired for the pass that
has started since. -/
inductive Timer where
  | stopped
  | running (us : Nat)
  | late (us : Nat)
  | expired (us : Nat)
  deriving DecidableEq, Repr

/-- The run-time state of a block (R109 to R137): `st` its state code, `sub` the inner machine's, three timers, its
outputs, `prevIn` an input of the previous pass (of COUPLE, the value it writes), `w0` and `w1` the capture words of
the previous pass (of GUARD, `w0` the kind of its disagreement), `ch0`, `ch1` and `latch` what each block says, `c` the
command of a SAFEOUT or the edge of a RESTART, `codes` the diagnostic conditions that hold, then the diagnostic
record; `evCnt` counts the changes of DIAG since the last event (R138). -/
structure BlockRt where
  st : Nat := 0
  sub : Nat := 0
  t1 : Timer := .stopped
  t2 : Timer := .stopped
  t3 : Timer := .stopped
  outs : List Pt := []
  prevIn : Pt := 0#2
  w0 : BitVec 16 := 0#16
  w1 : BitVec 16 := 0#16
  ch0 : Bool := false
  ch1 : Bool := false
  latch : Bool := false
  c : Bool := false
  codes : List Nat := []
  diag : Nat := 0
  diagCnt : Nat := 0
  inValid : Nat := 0
  evAt : Option Word64 := none
  evPend : Bool := false
  evCnt : Nat := 0
  deriving DecidableEq, Repr

/-- The figures an admission stores (R150, R165): the path with the largest T / D. -/
structure Figures where
  t : Nat
  d : Nat
  zone : Nat
  fn : Nat
  deriving DecidableEq, Repr

/-- The same as steward B keeps them: the complement of each number, which loses none (R157). -/
structure NegFigures where
  t : Int
  d : Int
  zone : Int
  fn : Int
  deriving DecidableEq, Repr

/-- A version of a zone (R166): its image's ID, its section and the declarations that serve it alone (R169) in each lane die's copy of the
image (R157), whether it is ADMITTED, the pair that holds it, the run-time state of its blocks as lane A holds it and as lane
B does, in negative encoding (R18), whether the next pass is its first (R102), the figures of its admission, steward B's in negative
encoding. -/
structure ZoneVer where
  imageId : Word
  sec : ZoneSection
  secB : ZoneSection := sec
  conns : List (Nat × Option ConnDecl) := []
  connsB : List (Nat × Option ConnDecl) := conns
  chans : List (Fin 64 × ChanDecl) := []
  chansB : List (Fin 64 × ChanDecl) := chans
  admitted : Bool := false
  pair : Nat := 0x3F
  rt : List BlockRt := []
  rtB : List BlockRt := []
  first : Bool := true
  figs : Option Figures := none
  figsB : Option NegFigures := none
  deriving DecidableEq, Repr

/-- A withdrawal in progress (R185): the commands to complete, the sample number at its start, the outputs confirmed off, whether
category 1 delays are cut. -/
structure Withdraw where
  os : List Origin
  sample0 : Word
  confirmed : List Target
  dropped : Bool
  deriving DecidableEq, Repr

/-- A zone number (R166, R53, R186): its versions, state, acceptance mismatches, DEMAND, MIGRATING,
whether RESTART edges are discarded (R180), a ZONE_RESTART waiting for the next pass (R51) with the commands to complete, the pair on
which its fault arose (R316), a withdrawal in progress. -/
structure Zone where
  active : Option ZoneVer := none
  staged : Option ZoneVer := none
  retained : Option ZoneVer := none
  st : ZoneSt := .withdrawn
  accFails : Nat := 0
  demand : Bool := false
  migrating : Bool := false
  holdRestart : Bool := false
  restartReq : Bool := false
  restartO : List Origin := []
  faultPair : Nat := 0x3F
  wd : Option Withdraw := none
  deriving DecidableEq, Repr

/-! ### Pairs -/

/-- Pair roles (R64, R87). -/
inductive Role where
  | free
  | loading
  | carrying
  | testing
  | stopped
  | unusable
  | split
  | halted
  deriving DecidableEq, Repr

/-- The points of one lane: address to encoded point (R37, R39). -/
abbrev Points := Tab Pt

/-- A pass in progress (R71): its number, its start mark, lane A's time at that mark, whether it is coupled (R173). -/
structure Running where
  num : Word
  mark : Word
  start : Word64
  coupled : Bool := false
  deriving DecidableEq, Repr

/-- An evaluation pair (R61 to R93, R345). `liveA`, `liveB` and `liveCaps` are the input image as it stood at the start mark of the
running pass (R70). `timerLost` is a violation of lane B's timer window that the next comparator check shows, `timerLate` one that belongs
to the pass after the running one (R77). `rowsA`, `rowsB` are the rows of a tile's state memory that a spare row replaces, with that row
from 256 (R63), `roleB` and `shiftB` are the role and S in steward B's table of the pairs (R157), `noSpare` says that a row failed with no
spare row left, `stepStop` that a STEP pass of the halted pair latched a stop bit (R468). -/
structure Pair where
  role : Role := .free
  before : Role := .free
  stopA : Bool := false
  stopB : Bool := false
  haltBit : Bool := false
  stepStop : Bool := false
  codeA : BitVec 2 := 1#2
  codeB : BitVec 2 := 1#2
  shift : Nat := 8
  nextPass : Word := 0#32
  lastPass : Word := 0#32
  sigA : Word := 0#32
  sigB : Word := 0xFFFFFFFF#32
  lastTime : Nat := 0
  maxTime : Nat := 0
  bound : Nat := 0x36
  poisonCnt : Nat := 0
  fillMax : Nat := 0
  injOk : BitVec 16 := 0#16
  injPos : Nat := 0
  injPol : Bool := false
  injDue : Bool := false
  injPosB : Nat := 0
  injPolB : Bool := false
  injDueB : Bool := false
  trig : Bool := false
  timerLost : Bool := false
  timerLate : Bool := false
  run : Option Running := none
  liveA : Points := []
  liveB : Points := []
  liveCaps : Tab (BitVec 16) := []
  last : Nat := 0
  rowsA : List (Nat × Nat) := []
  rowsB : List (Nat × Nat) := []
  noSpare : Bool := false
  roleB : Role := .free
  shiftB : Nat := 8
  passedAt : Option Word64 := none
  deriving DecidableEq, Repr

/-! ### Transactions (R69) -/

/-- What a transaction carries: a frame of a connection with the number of frames lost before it, an FD sample, the points of a pass
end. What lane B has of it is in negative encoding (R18). -/
inductive TransBody where
  | frame (slot : Nat) (seq tstamp : Word) (lost : Nat) (ptsA ptsB : List Pt)
  | sample (num : Word) (ptsA ptsB : List (Nat × Pt)) (caps : List (BitVec 16)) (cmdOff : List Nat)
  | posted (pair : Nat) (pass : Word) (ptsA ptsB : List (Nat × Pt))
  deriving DecidableEq, Repr

/-- A transaction with each lane's report: reported at all, and accepted. `cmac` says that the lane that has rejected a frame found its
CMAC wrong. -/
structure Trans where
  body : TransBody
  repA : Bool
  repB : Bool
  okA : Bool
  okB : Bool
  since : Word64
  cmac : Bool := false
  deriving DecidableEq, Repr

/-! ### Field die -/

/-- A pending ownership entry (R32): the old owner, the new owner, the pass boundary at which the change completes. -/
structure PendOwn where
  old : BitVec 6
  new : BitVec 6
  boundary : Word
  deriving DecidableEq, Repr

/-- A word of an FD command queue (R378); lane B's are in negative encoding (R18). -/
inductive FdCmd where
  | switch (ch : Nat) (on : Bool)
  | owner (ch : Nat) (old new : BitVec 6) (boundary : Word)
  | boundary (ch : Nat) (boundary : Word)
  | nonsafe (ch : Nat) (on : Bool)
  deriving DecidableEq, Repr

/-- A field channel (R189 to R246): its configuration registers, its input side, its output side. `cmdA`, `cmdB` are the lanes' commands,
`ownA`, `ownB` the ownership copies, `pendA`, `pendB` the pending changes of owner; what lane B holds is in negative encoding (R18). `ret`
says that the return rule of R218 waits for the commands to have been off, `retG` that it does so after a GSTOP-forced stop (R206).
`debounceB` and `fbFiltB` are what steward B's copies of the declarations and of the register writes give (R157). `pulse` is the test
pulse in progress, `pulsePer` the period it belongs to, and `aPassed` the period of the last A pulse that passed
(R224). -/
structure Chan where
  mode : BitVec 2 := 0#2
  type3 : Bool := true
  wbEn : Bool := false
  debounce : BitVec 16 := 0x3E8#16
  iIn : BitVec 9 := 0#9
  wbCnt : Nat := 0
  raw : Bool := false
  ov : Bool := false
  loopbackFail : Bool := false
  wireBreak : Bool := false
  level : Bool := false
  restoring : Bool := false
  wbEvAt : Option Word64 := none
  inPoint : Pt := 0#2
  par : BitVec 2 := 0#2
  member : Bool := false
  olEn : Bool := false
  fbFilt : BitVec 10 := 0x032#10
  offWin : BitVec 14 := 1#14
  tpEn : Bool := true
  width : BitVec 7 := 0x1E#7
  period : BitVec 16 := 0x3E8#16
  phaseA : BitVec 23 := 0#23
  phaseB : BitVec 23 := 0x00C350#23
  nsSrc : BitVec 2 := 0#2
  silentState : BitVec 2 := 0#2
  tilePair : BitVec 6 := 0#6
  tileLane : Bool := false
  silentT : BitVec 10 := 0x064#10
  nsOn : Bool := false
  nsSilent : Bool := false
  partner : Nat := 0x3F
  tpDefer : Nat := 0
  term : Bool := false
  mid : Bool := false
  fltSwA : Bool := false
  fltSwB : Bool := false
  fltExt : Bool := false
  fltCross : Bool := false
  fltOver : Bool := false
  fltTherm : Bool := false
  fltShare : Bool := false
  fltOn : Bool := false
  fltOpen : Bool := false
  offHigh : Bool := false
  midHigh : Bool := false
  olHigh : Bool := false
  fbLevel : Bool := false
  outPoint : Pt := 0#2
  iOut : BitVec 11 := 0#11
  vTerm : BitVec 10 := 0#10
  cmdA : Bool := false
  cmdB : Bool := true
  ownA : BitVec 6 := 0x3F#6
  ownB : BitVec 6 := 0#6
  pendA : Option PendOwn := none
  pendB : Option PendOwn := none
  ret : Bool := false
  retG : Bool := false
  pulse : Option Lane := none
  pulsePer : Nat := 0
  aPassed : Option Nat := none
  decl : Option ChanDecl := none
  debounceB : BitVec 16 := 0x3E8#16
  fbFiltB : BitVec 10 := 0x032#10
  deriving DecidableEq, Repr

/-- A group supply monitor (R230, R243 to R245). -/
structure Grp where
  uvWarn : BitVec 9 := 0x0C0#9
  uvOff : BitVec 9 := 0x0A0#9
  uvIn : BitVec 9 := 0x096#9
  vfs : BitVec 16 := 0#16
  ovLatch : Bool := false
  uvoffLatch : Bool := false
  aboveOv : Bool := false
  belowOff : Bool := false
  belowIn : Bool := false
  belowWarn : Bool := false
  startHold : Bool := false
  latchCnt : Nat := 0
  warnCnt : Nat := 0
  xchkFail : Bool := false
  xchkRaised : Bool := false
  stood : Bool := false
  deriving DecidableEq, Repr

/-- A capture unit (R201, R212, R213): `hist` are the last M raw reads, newest first, `filt1` the filtered level. -/
structure Cap where
  en : Bool := false
  src : BitVec 6 := 0#6
  edge : BitVec 2 := 1#2
  filt : BitVec 3 := 1#3
  presc : BitVec 8 := 0#8
  residue : Nat := 0
  count : BitVec 16 := 0#16
  hist : List Bool := []
  filt1 : Bool := false
  deriving DecidableEq, Repr

/-- A change of owner of a channel that FD watches for 50 µs from the first of its two entries (R32): what each lane wrote, lane B's in
negative encoding (R18). -/
structure OwnChange where
  ch : Nat
  a : Option PendOwn := none
  b : Option PendOwn := none
  deriving DecidableEq, Repr

/-- What waits for the end of a pulse window (R223, R340): a pulse of a unit in a period, or an analogue window with what it will find. -/
inductive PulseWait where
  | pulse (unit : Nat) (lane : Lane) (period : Nat)
  | window (item : AnaItem) (index : Nat) (w : WindowRead) (passed : Found Bool)
  deriving DecidableEq, Repr

/-- GSTOP (R204 to R208, R214, R215) and the rest of FD (R33, R34, R216, R246): `pulseWin` is the unit whose pulse window is open,
`pulseWait` the pulses put off to the end of such a window (R223), `changes` the changes of owner begun in the last 50 µs, the
first begun first (R32). -/
structure Fd where
  tSb : Byte := 0x32#8
  ownDisagree : Bool := false
  linkBSilent : Bool := false
  linkASilent : Bool := false
  hbBLost : Bool := false
  hbALost : Bool := false
  oscFault : Bool := false
  cmdPoison : Bool := false
  globalInd : Bool := false
  stopA : BitVec 36 := 0#36
  stopB : BitVec 36 := 0#36
  gstopEn : Bool := true
  tGdisc : BitVec 10 := 0x064#10
  gsStopCnt : Nat := 0
  gsDisc : Bool := false
  gsStop : Bool := true
  gsARaw : Bool := false
  gsBRaw : Bool := false
  gsA : Bool := false
  gsB : Bool := false
  gsBothOpen : Bool := false
  gsAgreed : Bool := true
  sampleNum : Word := 0#32
  dormHold : Bool := false
  pulseWin : Option Nat := none
  pulseWait : List PulseWait := []
  changes : List OwnChange := []
  reports : List (Nat × BitVec 16) := []
  stallA : Nat := 0
  stallB : Nat := 0
  fillA : Nat := 0
  fillB : Nat := 0
  togA : Bool := false
  togB : Bool := false
  qPoisonA : Bool := false
  qPoisonB : Bool := false
  deriving DecidableEq, Repr

/-! ### Ports and connections -/

/-- Port states (R252, R272). -/
inductive PortSt where
  | disabled
  | noSync
  | negotiating
  | up
  deriving DecidableEq, Repr

/-- The settings of a port that take effect at PORT_ENABLE (R254, R271 to R275). -/
structure PortCfg where
  phyMode : BitVec 2 := 0#2
  tunnel : Bool := false
  anEn : Bool := true
  txInv : Bool := false
  rxInv : Bool := false
  txSwing : BitVec 2 := 1#2
  txEmph : BitVec 4 := 0#4
  advRf : BitVec 2 := 0#2
  mac : BitVec 48 := 0#48
  ip : Word := 0#32
  dscp : BitVec 6 := 0#6
  ttl : Byte := 0x40#8
  udpPort : BitVec 16 := 0#16
  deriving DecidableEq, Repr

/-- A queued transmit frame: the connection it belongs to, the partner's addresses for the tunnel (R260), the frame. -/
structure TxFrame where
  slot : Nat
  mac : BitVec 48
  ip : Word
  frame : Frame
  deriving DecidableEq, Repr

/-- A port (R252 to R279). `sentPage` is the base page or control word the port sends, 0 while its transmitter is high-impedance (R450),
`wire` the bytes of the frame it sends or has sent last: the Hyger body, in tunnel framing the Ethernet frame from its destination address
to its FCS. -/
structure Port where
  st : PortSt := .disabled
  cfg : PortCfg := {}
  live : PortCfg := {}
  lpPage : BitVec 16 := 0#16
  sentPage : BitVec 16 := 0#16
  anFault : Bool := false
  queue : List TxFrame := []
  inFlight : Option TxFrame := none
  lastSent : Option TxFrame := none
  ident : BitVec 16 := 0#16
  wire : List Byte := []
  openCnt : Nat := 0
  rxCnt : Word := 0#32
  txCnt : Word := 0#32
  txMismatch : Nat := 0
  txStale : Nat := 0
  dPreRun : Nat := 0
  dCodeErr : Nat := 0
  dFormat : Nat := 0
  dForeign : Nat := 0
  dHandle : Nat := 0
  dRate : Nat := 0
  dOpenRate : Nat := 0
  dDisable : Nat := 0
  ghTotal : Word := 0#32
  lastReason : Nat := 0
  lastFtype : BitVec 4 := 0#4
  lastHandle : BitVec 16 := 0#16
  serdesFail : Bool := false
  deriving DecidableEq, Repr

/-- Connection states (R281, R301). -/
inductive ConnSt where
  | withdrawn
  | closed
  | opening
  | negotiating
  | running
  | stale
  | faulted
  deriving DecidableEq, Repr

/-- A frame that waits for the merge of R26: its port, the partner's addresses, and the frame as lane A and lane B build it, lane B's
payload in negative encoding (R18). -/
structure TxBuild where
  port : Nat
  mac : BitVec 48
  ip : Word
  frameA : Frame
  frameB : Frame
  deriving DecidableEq, Repr

/-- What a lane keeps of the frames it accepts (R288, R292, R294, R295): E_SEQ, the TSTAMP of the last frame that passed its checks,
the TSTAMP and mark of the last one named, E, and the times of the failing frames of the last second. -/
structure RxLane where
  eSeq : Word := 0#32
  ts : Option Word := none
  named : Option (Word × Word) := none
  e : Nat := 0
  errAt : List Word64 := []
  deriving DecidableEq, Repr

/-- A connection slot (R280 to R303). `peerNonce` is the partner's nonce of the current session, `txReq` a request that waits for its
build mark, `txBuilt` the two lanes' frames that wait for the merge, oldest first, `stagger` a first OPEN that waits for its turn after
RUN. -/
structure Conn where
  decl : Option ConnDecl := none
  declB : Option ConnDecl := decl
  st : ConnSt := .withdrawn
  ver : Nat := 0
  cause : Nat := 0
  backoff : Nat := 0
  nonce : Word := 0#32
  usedNonce : Word := 0#32
  wakeOpen : Bool := false
  peerNonce : Option Word := none
  stagger : Bool := false
  rxA : RxLane := {}
  rxB : RxLane := {}
  txSeq : Word := 0#32
  rateCnt : Nat := 0
  txReq : Bool := false
  txBuilt : List TxBuild := []
  crcFail : Nat := 0
  seqDrop : Nat := 0
  lost : Nat := 0
  cmacFail : Nat := 0
  laneSplit : Nat := 0
  txLate : Nat := 0
  eMax : Nat := 0
  rtt : Nat := 0
  deriving DecidableEq, Repr

/-! ### Faults -/

/-- STATE of a record (R327). -/
inductive RecSt where
  | latched
  | gone
  deriving DecidableEq, Repr

/-- A record of the fault table (R327). LANE bit 0 is LA, bit 1 is LB. -/
structure FaultRec where
  code : BitVec 16
  loc : BitVec 12
  laneA : Bool
  laneB : Bool
  st : RecSt
  time : Word
  count : Nat
  detail : BitVec 16
  firstZone : Nat
  zoneCnt : Nat
  passLo : BitVec 16
  evAt : Option Word64
  evPend : Bool
  deriving DecidableEq, Repr

/-- A clear in progress (R313, R318): code, location, the records selected, those of them whose trigger has recurred since its start,
and whether the acknowledgement input started it. -/
structure Clear where
  code : BitVec 16
  loc : BitVec 12
  sel : List Nat
  again : List Nat
  ack : Bool
  deriving DecidableEq, Repr

/-- The FL_ block (R312 to R327): lane A's table of 64 entries by index, lane B's copy; lane B holds its clear argument in its own
encoding (R481). -/
structure Fl where
  recs : Tab (Option FaultRec) := []
  recsB : Tab (Option FaultRec) := []
  overflow : Bool := false
  argA : Word := 0#32
  argB : Word := 0xFFFFFFFF#32
  resCode : BitVec 16 := 0#16
  result : Nat := 0
  clear : Option Clear := none
  firstCode : BitVec 16 := 0#16
  firstLoc : BitVec 12 := 0#12
  firstTime : Word := 0#32
  cPair : Nat := 0
  cField : Nat := 0
  cConn : Nat := 0
  cLane : Nat := 0
  cGlobal : Nat := 0
  ackEn : Bool := false
  ackCh : BitVec 6 := 0#6
  ackEnB : Bool := true
  ackChB : BitVec 6 := 0x3F#6
  deriving DecidableEq, Repr

/-! ### Lane dies -/

/-- A frame HB has handed to a lane (R22, R263); `lost` says that the hub link has lost its content (R23). -/
structure RxFrame where
  slot : Nat
  frame : Frame
  lost : Bool
  deriving DecidableEq, Repr

/-- A Light Meter and the lane-level state of one lane die (R85, R95, R23, R307, R350, R457). `heldFd` are the words for FD that the lane
has held while FD's queue was full and that have been counted (R378). -/
structure LaneDie where
  slow : Bool := false
  fast : Bool := false
  warn : Bool := false
  minLaps : Nat := 0x3FF
  laps : Nat := 0
  withhold : Bool := false
  global : Bool := false
  hubFails : Nat := 0
  rxq : List RxFrame := []
  toFd : List FdCmd := []
  heldFd : Nat := 0
  dormAnn : Bool := false
  annX : Bool := false
  annFd : Bool := false
  retAnn : Bool := true
  retFd : Bool := true
  hbTog : Bool := false
  deriving DecidableEq, Repr

/-- The timebases (R347 to R354, R363). `fracA`, `fracB` are the accumulators of R350; `skewA`, `skewB` the ticks until a lane die leaves
reset after the other has (R347). -/
structure Tbs where
  a : Word64 := 0#64
  b : Word64 := 0#64
  h : Word64 := 0#64
  snapA : Word := 0#32
  snapB : Word := 0#32
  snapH : Word := 0#32
  laLf : Bool := false
  lbLf : Bool := false
  lfFail : Bool := false
  xchk : BitVec 16 := 0#16
  xchkOff : Bool := false
  fracA : BitVec 7 := 0#7
  fracB : BitVec 7 := 0#7
  skewA : Nat := 0
  skewB : Nat := 0
  deriving DecidableEq, Repr

/-! ### General timers and CRC units -/

/-- A general timer (R355 to R359, R367 to R369). `ticked` says that the tick of the coming hub clock edge has been counted already, with a
load of the compare value that met it (R357). -/
structure Gt where
  en : Bool := false
  evEn : Bool := false
  capEvEn : Bool := false
  capArg : BitVec 5 := 0#5
  capSrc : BitVec 3 := 0#3
  presc : BitVec 16 := 0x63#16
  div : Nat := 0
  ticked : Bool := false
  count : Word := 0#32
  cmp : Word := 0xFFFFFFFF#32
  phase : Word := 0xFFFFFFFF#32
  cap : Word := 0#32
  evtCnt : Nat := 0
  lvl : Bool := false
  ovr : Bool := false
  full : Bool := false
  deriving DecidableEq, Repr

/-- The stagger group (R360, R361, R364 to R366). -/
structure Stagger where
  en : Bool := false
  presc : BitVec 16 := 0x63#16
  div : Nat := 0
  shadow : Word := 0x3E8#32
  period : Word := 0x3E8#32
  count : Word := 0#32
  loadPend : Bool := false
  deriving DecidableEq, Repr

/-- A CRC unit (R372 to R375, R381, R382). -/
structure Crc where
  poly : BitVec 3 := 0#3
  finalInv : Bool := true
  reflect : Bool := true
  val : Word := 0xFFFFFFFF#32
  deriving DecidableEq, Repr

/-! ### Host interface -/

/-- States of a ring pair (R414). -/
inductive RingSt where
  | disabled
  | enabled
  | draining
  deriving DecidableEq, Repr

/-- A completion entry (R397); `res` holds entry bytes 16 to 63, byte 16 least significant. -/
structure CqEntry where
  cid : BitVec 16
  status : Byte
  phase : Bool
  interm : Bool
  sqHead : BitVec 12
  opcode : Byte
  ts : Word64
  res : BitVec 384
  deriving DecidableEq, Repr

/-- What a command moves (R398): a chunk of an image at an offset of it, the records of a zone's blocks from one on, a Contact Sheet. -/
inductive MoveKind where
  | load (offset total : Nat) (imgA imgB : Image)
  | diag (zone first : Nat)
  | sheet
  deriving DecidableEq, Repr

/-- The data of a command between its buffer and the device (R398): how many bytes, how many of them have moved, whether the bus carries
them, whether they are there to move (of a SNAPSHOT once its mark has come, R402), the records read so far (R137). -/
structure Move where
  kind : MoveKind
  bytes : Nat
  moved : Nat := 0
  busOk : Bool
  ready : Bool := true
  recs : List (Word × Word) := []
  deriving DecidableEq, Repr

/-- A command fetched and not completed (R392, R394): its CID and its opcode, the entry the checks have passed, whether its ring has
started it, whether it has reached a wait (R392), its place in the order in which the checks of all rings completed, the steps it has made,
its last intermediate completion and the data it moves (R398). -/
structure Taken where
  cid : BitVec 16
  opcode : Byte
  entry : Option Entry := none
  started : Bool := false
  waited : Bool := false
  ord : Nat := 0
  steps : Nat := 0
  progAt : Option Word64 := none
  move : Option Move := none
  deriving DecidableEq, Repr

/-- A submission and completion ring pair (R390 to R399, R412 to R414). `checking` is a safety entry the lanes are reading, `lostA` and
`lostB` say that the hub link has lost a lane's copy of it (R23), `resetDue` that the registers take their reset values once the ring is
DISABLED (R15, R386), `held` are completions that wait for space, `cq` the completion ring as
written. -/
structure Ring where
  st : RingSt := .disabled
  sqLo : Word := 0#32
  sqHi : Word := 0#32
  cqLo : Word := 0#32
  cqHi : Word := 0#32
  size : BitVec 4 := 4#4
  vector : BitVec 5 := 0#5
  seqA : Word := 0#32
  seqB : Word := 0xFFFFFFFF#32
  sqHead : BitVec 12 := 0#12
  sqTail : BitVec 12 := 0#12
  cqTail : BitVec 12 := 0#12
  cqHead : BitVec 12 := 0#12
  phase : Bool := true
  checking : Option Taken := none
  lostA : Bool := false
  lostB : Bool := false
  resetDue : Bool := false
  outs : List Taken := []
  held : List CqEntry := []
  cq : Tab (Option CqEntry) := []
  deriving DecidableEq, Repr

/-- An event entry (R407). -/
structure EvEntry where
  type : Byte
  phase : Bool
  poison : Bool
  src : BitVec 2
  eseq : BitVec 16
  ts : Word64
  payload : BitVec 384
  deriving DecidableEq, Repr

/-- An event ring (R407, R412, R413, R415). -/
structure EvRing where
  en : Bool := false
  lo : Word := 0#32
  hi : Word := 0#32
  size : BitVec 4 := 4#4
  vector : BitVec 5 := 0#5
  tail : BitVec 12 := 0#12
  head : BitVec 12 := 0#12
  phase : Bool := true
  eseq : BitVec 16 := 0#16
  drop : Nat := 0
  lostCnt : Nat := 0
  ev : Tab (Option EvEntry) := []
  deriving DecidableEq, Repr

/-- The host interface of HB (R385 to R415, R388's MSI-X table and pending bits). `due` marks vectors
whose 1 µs interval holds an entry to report, `busy` vectors inside their interval, `accepted` counts the entries whose checks are
complete (R392), `retry` says that the last configuration request was answered with Configuration Request Retry Status (R386), `evHold`
that HB takes no event from the lanes' queues now, `evNext` counts the events the queues have taken in (R379). -/
structure Hi where
  selected : Byte := 0#8
  ready : Bool := false
  dbErr : Bool := false
  dmaErr : Bool := false
  route : Word := 0#32
  d3 : Bool := false
  msix : Tab Word := []
  pba : BitVec 32 := 0#32
  due : BitVec 32 := 0#32
  busy : BitVec 32 := 0#32
  sent : Tab Nat := []
  turn : Nat := 0
  accepted : Nat := 0
  retry : Bool := false
  evHold : Bool := false
  evNext : Nat := 0
  deriving DecidableEq, Repr

/-- A word of an event queue: its event, its place in the order of arrival in both queues (R379), and its parity bit (R376). -/
structure EvWord where
  type : Nat
  payload : Nat
  ord : Nat
  par : Bool
  deriving DecidableEq, Repr

/-- An event queue between a lane die and HB, 64 words deep (R377, R379, R383): the words it holds, oldest first; which of the words that
HB takes next are upset in an odd number of bits; the events discarded since the last EVENTS_LOST. -/
structure Evq where
  words : List EvWord := []
  bad : BitVec 64 := 0#64
  lost : Nat := 0
  poisonCnt : Nat := 0
  dropCnt : Nat := 0
  fillMax : Nat := 0
  deriving DecidableEq, Repr

/-! ### OTP -/

/-- One OTP word: its 64 data and 8 check fuses, the fuse value as the last load read it, the shadow, the
results of the load, the override, whether its drift has been reported (R416, R421, R423, R431, R433). -/
structure OtpWord where
  fuse : Word64 := 0#64
  check : Byte := 0#8
  val : Word64 := 0#64
  shadow : Word64 := 0#64
  margin : Bool := false
  corr : Bool := false
  uncorr : Bool := false
  ovr : Bool := false
  drifted : Bool := false
  deriving DecidableEq, Repr

/-- The OTP controller (R422 to R438): for each lock which of its three copies count as blown, locks in force and as the vote of the boot
found them, results of the load; `seal3` says that the seal of region 3 matches over its fuse values, overrides apart (R431), `trims` are
the trims in use, `none` the built-in default (R422); `keys` are the CMAC keys the lanes hold (R291). -/
structure Otp where
  words : Tab OtpWord
  wlCopies : Tab (BitVec 3)
  rlCopies : Tab (BitVec 3)
  wl : BitVec 16 := 0#16
  rl : BitVec 16 := 0#16
  wlBoot : BitVec 16 := 0#16
  rlBoot : BitVec 16 := 0#16
  sealOk : BitVec 16 := 0#16
  seal3 : Bool := false
  trims : Tab (Option Word64) := []
  incomplete : BitVec 16 := 0#16
  drift : Bool := false
  lockDrift : Bool := false
  voteSplit : Bool := false
  loaded : Bool := false
  applied : BitVec 2 := 0#2
  featMarginal : Bool := false
  uncorrCnt : Nat := 0
  scanCnt : BitVec 16 := 0#16
  lastWord : Byte := 0#8
  keys : Tab (Option (BitVec 128)) := []
  deriving DecidableEq, Repr

/-! ### Power, BIST, debug, global control -/

/-- Device states (R449, R458). -/
inductive DState where
  | load
  | startTest
  | config
  | run
  | shutdown
  | off
  | dormant
  deriving DecidableEq, Repr

/-- PM_ block (R446 to R462). `inReset` holds while the device is held in reset (R441, R450); `shutO`
is the command that a shutdown in progress completes, `shutCut` that its withdrawals cut category 1 delays (R452), `addrMode` that the
flash is in its 4-byte address mode (R447). -/
structure Pm where
  dstate : DState := .load
  inReset : Bool := true
  bootsel : BitVec 2 := 0#2
  bench : Bool := false
  seqErr : Bool := false
  cause : BitVec 4 := 0#4
  bootErr : BitVec 4 := 0#4
  wakeLo : Word := 0#32
  wakeHi : Word := 0#32
  vcoreA : BitVec 16 := 0#16
  vcoreB : BitVec 16 := 0#16
  vsd : BitVec 16 := 0#16
  vcoreH : BitVec 16 := 0#16
  status : Byte := 0#8
  zonesStarted : Nat := 0
  sfdpOk : Bool := false
  addr4 : Bool := false
  addrMode : Bool := false
  readMode : BitVec 2 := 0#2
  erase4k : Bool := false
  shutO : Option Origin := none
  shutCut : Bool := false
  bistDue : Bool := false
  quick : Bool := false
  rawAtEntry : BitVec 64 := 0#64
  deriving DecidableEq, Repr

/-- A BIST record in a flash sector (R333), with its CRCs' verdicts computed from its bytes. -/
structure BistRec where
  magic : Word
  format : Byte
  consumed : Byte
  result : Byte
  cond : Byte
  counter : Word
  deviceId : Word64
  tjMax : Byte
  pairOk : Word64
  chOk : Word64
  entries : List BistEntry
  crcA : Word
  crcB : Word
  deriving DecidableEq, Repr

/-- BIST (R329 to R346). `queue` are the pairs that take a slot out of turn with their precedence (R337), `asked` the BIST_RUN commands
that wait, `slice` the slice in progress and whether it is the repeat, `sliceRows` its entries so far: the rows it has repaired, and what
has failed it (R341), `slicePoison` says that its poisoned word has appeared (R339), `slotDue` a slot that waits for its end, `sliceFor`
the pair that a migration has emptied for its slice and `startCond` the conditions its test starts on, `shared` the slot of shared items
that runs, `slotNext` the slot whose turn comes next, `flash` the BIST records in the flash by their 4 KiB sectors, `recSec` the first of
the two sectors in use (R332), `odueEv` the pairs that have been reported overdue (R330), `zeroed` the pairs whose tile memories hold the
zeros of a quick start wherever nothing has been placed since (R336). -/
structure Bist where
  startMode : BitVec 2 := 0#2
  deferred : Bool := false
  recReason : Nat := 0
  condTj : Bool := false
  condTb : Bool := false
  condVcore : Bool := false
  slot : Nat := 0
  slotNext : Nat := 0
  slotDue : Option SlotCond := none
  startCond : Option TestCond := none
  sliceFor : Option Nat := none
  slicePoison : Bool := false
  shared : Option Nat := none
  cycles : BitVec 16 := 0#16
  deferCnt : Nat := 0
  skipCnt : Nat := 0
  recCounter : Word := 0#32
  repairs : List BistEntry := []
  lmAOk : Bool := false
  lmBOk : Bool := false
  chOk : BitVec 64 := 0#64
  queue : List (Nat × Nat) := []
  asked : List (Origin × Byte × Byte) := []
  slice : Option (Nat × Bool) := none
  sliceRows : List BistEntry := []
  deferEvAt : Option Word64 := none
  odueEv : BitVec 36 := 0#36
  flash : Tab (Option BistRec) := []
  recSec : Nat := 0
  zeroed : BitVec 36 := 0#36
  deriving DecidableEq, Repr

/-- A word of a tile that a debug access has named: its index, its value, and the contents of the block it belongs to, for which the value
stands (R469). -/
structure TileWord where
  idx : Nat
  value : Word
  block : Option BlockRt
  deriving DecidableEq, Repr

/-- The pins of the boundary-scan chain: those of HB, the 1.8 V and the 3.3 V pins (R463, R504, R512), without the five of the test access
port itself (PRESUMED, log entry 78, as IEEE 1149.1 has it) and FAULT_N. -/
inductive ScanPin where
  | serdes (port : Fin 32) (k : Fin 4)
  | pcie (k : Fin 10)
  | portClock (k : Fin 2)
  | perstN
  | qspi (k : Fin 6)
  | resetN
  | shutdownN
  | bootsel (k : Fin 2)
  deriving DecidableEq, Repr

/-- The cell of a pin: cells stand in the order of R512 (DESIGN CHOICE, log entry 78). -/
def ScanPin.cell : ScanPin → Nat
  | .serdes p k => 4 * p.val + k.val
  | .pcie k => 128 + k.val
  | .portClock k => 138 + k.val
  | .perstN => 140
  | .qspi k => 141 + k.val
  | .resetN => 147
  | .shutdownN => 148
  | .bootsel k => 149 + k.val

/-- A pin through which the device can drive its line: a transmitter, TXP and TXN of a port and of both PCIe lanes, or a QSPI pin. -/
def ScanPin.drives : ScanPin → Bool
  | .serdes _ k => decide (k.val < 2)
  | .pcie k => decide (k.val < 4)
  | .qspi _ => true
  | _ => false

/-- DB_ block and the test access port (R463 to R478). `tile` are the words debug accesses have named, `inA` and `inB` the words of the
live image of the halted pair that were written, in each lane's encoding, `replayPend` the writes lane B has not confirmed, oldest first,
each with its location and its word, `replayAt` the locations whose replay failed (R470), `haltDue` a steward halt that waits for every
zone to be WITHDRAWN (R471), `dr` the data register of the test access port, `cells` its boundary-scan chain (R463). -/
structure Db where
  en : Bool := false
  pair : BitVec 6 := 0x3F#6
  broken : Bool := false
  haltDue : Bool := false
  refused : Bool := false
  replayFail : Bool := false
  replayAt : List (Nat × Nat) := []
  replayPend : List (Nat × Nat × Word) := []
  accDone : Bool := false
  addr : Word := 0#32
  data : Word := 0#32
  splitMask : BitVec 36 := 0#36
  clipped : Bool := false
  headerUsed : Bool := false
  tileStop : BitVec 36 := 0#36
  tile : Tab (List TileWord) := []
  inA : List (Nat × Word) := []
  inB : List (Nat × Word) := []
  ir : JtagOp := .idcode
  dr : Word := 0#32
  cells : BitVec 151 := 0#151
  deriving DecidableEq, Repr

/-- A tile of a split pair (R473, R474): its section's blocks, their state, the first pass, stopped, its lane's time up to which
its timers have counted. -/
structure Tile where
  sec : Option TileSection := none
  rt : List BlockRt := []
  first : Bool := true
  stopped : Bool := false
  last : Word64 := 0#64
  deriving DecidableEq, Repr

/-- GC_ block (R486 to R496). `roles` says that a pair has changed its role since the reset. -/
structure Gc where
  wrejCnt : Nat := 0
  wrejCause : Nat := 0
  wrejSrc : Nat := 0
  wrejOff : BitVec 18 := 0#18
  toCnt : Nat := 0
  lastDie : BitVec 2 := 0#2
  scratch : Word := 0#32
  imgId : Word := 0#32
  verified : Bool := false
  fromFlash : Bool := false
  roles : Bool := false
  deriving DecidableEq, Repr

/-- Admission registers (R164, R165), and what each steward has folded of its admissions into its state hash, steward B in negative
encoding (R157). -/
structure Adm where
  reason : Nat := 0
  zone : Nat := 0xFF
  fn : Nat := 0xFF
  fnSet : Bool := false
  zoneSet : Bool := false
  reused : Bool := false
  valid : Bool := false
  figure : Word := 0xFFFFFFFF#32
  limit : Word := 0xFFFFFFFF#32
  hashA : Word := 0xFFFFFFFF#32
  hashB : Word := 0#32
  deriving DecidableEq, Repr

/-- Migration registers (R187, R188). -/
structure Mig where
  src : Nat := 0x3F
  tgt : Nat := 0x3F
  stage : Nat := 0
  agree : Nat := 0
  result : Nat := 0
  mismatchCnt : Nat := 0
  maxTime : Nat := 0
  lastTime : Nat := 0
  deriving DecidableEq, Repr

/-- The load buffer of each lane die (R169): size, bytes loaded, the content each lane read; and of the last image refused under R97 the
parameter or input concerned: parameter k as k, input k as 16 + k. -/
structure LoadBuf where
  total : Nat := 0
  loaded : Nat := 0
  imgA : Option Image := none
  imgB : Option Image := none
  badItem : Option Nat := none
  deriving DecidableEq, Repr

/-- What a long operation is (R160, R171 to R183, R398, R448). `set` are zones whose STAGED version is admitted, `copies` zones
whose ACTIVE versions move, `whole` whether the RETAINED versions move too, `bist` whether a slice of the source follows
(R338). -/
inductive OpKind where
  | verify (boot : Bool)
  | admission (set : List Nat) (boot : Bool)
  | change (set copies : List Nat) (src : Nat)
  | migrate (copies : List Nat) (src : Nat) (whole readmit bist : Bool)
  | commit (zone : Nat) (rollback boot : Bool)
  deriving DecidableEq, Repr

/-- A zone as the target of a migration runs it before the transfer (R172, R173): its state, whether its next pass is its first, and its
blocks in both lanes. -/
structure Copy where
  zone : Nat
  st : ZoneSt
  first : Bool
  rt : List BlockRt
  rtB : List BlockRt
  deriving DecidableEq, Repr

/-- What the stewards compare of a zone at the end of a coupled pass (R174), as one lane holds it: the SAFEOUT commands, the values it
posts, the hash of its state words. -/
structure CopyView where
  zone : Nat
  cmds : List Bool
  posts : List (Nat × Pt)
  hash : Word
  deriving DecidableEq, Repr

/-- The pair of a coupled pass that has ended first: what each lane saw there, and a disagreement found already. -/
structure Half where
  pair : Nat
  viewsA : List CopyView
  viewsB : List CopyView
  bad : Bool
  deriving DecidableEq, Repr

/-- The long operation in progress: kind, the command to complete, steps done and the stage of R187 (7 is a commit past its commit
point), when it was taken up, the target pair, whether it was FREE, agreeing coupled passes, whether figures are reused, the
outputs a commit has confirmed off and the sample number at its take-up, whether COPY waits for a source pass end, the zones as the
target runs them, the pair of a coupled pass that has ended first, the channels whose change of owner has been sent and the boundary
at which it completes (R32), the last intermediate completion, whether the pair of the version that a commit replaced was stopped
already, whether a LANE_COMMON or GLOBAL fault had occurred at take-up, the figures of its admission, which the zones take as they move. -/
structure LongOp where
  kind : OpKind
  o : Option Origin
  steps : Nat := 0
  stage : Nat := 1
  start : Word64
  tgt : Nat := 0x3F
  loaded : Bool := false
  agree : Nat := 0
  reused : Bool := false
  confirmed : List Target := []
  sample0 : Word := 0#32
  armed : Bool := false
  copies : List Copy := []
  half : Option Half := none
  sent : List Nat := []
  boundary : Word := 0#32
  progAt : Option Word64 := none
  oldStopped : Bool := false
  req0 : Bool := false
  figs : Option (Option Figures × Option NegFigures) := none
  deriving DecidableEq, Repr

/-- A SNAPSHOT that waits for its release mark (R402), and the sheet last taken. -/
structure Snap where
  waiting : List (Origin × Nat × Nat) := []
  sheet : Option (Word64 × Word × Nat × List Word) := none
  deriving DecidableEq, Repr

/-- The records DIAG_READ last wrote into its buffer (R137). -/
structure DiagBuf where
  recs : List (Word × Word) := []
  deriving DecidableEq, Repr

/-- The whole block, and the queue of commands that wait. `ptsA`, `ptsB` and `caps` are the point stores and capture words of the
lanes, `imgA`, `imgB` and `imgCaps` the same as the last release mark left them (R69, R70); `owed` the produced points a lane
has to send once with value 0 (R58), `handed` the produced points whose last frame carried value 0 (R180). -/
structure State where
  pending : List Instr
  tb : Tbs
  laneA : LaneDie
  laneB : LaneDie
  markNum : Word
  ptsA : Points
  ptsB : Points
  caps : Tab (BitVec 16)
  imgA : Points
  imgB : Points
  imgCaps : Tab (BitVec 16)
  owed : Tab (Bool × Bool)
  handed : Tab Bool
  trans : List Trans
  zones : Tab Zone
  pairs : Tab Pair
  cat1 : Tab (Bool × Bool)
  prodOwnA : Tab (BitVec 6)
  prodOwnB : Tab (BitVec 6)
  internals : Tab (Option PointClass)
  internalsB : Tab (Option PointClass)
  chans : Tab Chan
  grps : Tab Grp
  capUnits : Tab Cap
  fd : Fd
  ports : Tab Port
  conns : Tab Conn
  fl : Fl
  lmWarn : BitVec 10
  lmWarnB : BitVec 10
  gts : Tab Gt
  stg : Stagger
  crcs : Tab Crc
  hi : Hi
  rings : Tab Ring
  evRings : Tab EvRing
  evqA : Evq
  evqB : Evq
  otp : Otp
  pm : Pm
  bist : Bist
  db : Db
  tiles : Tab Tile
  gc : Gc
  adm : Adm
  mig : Mig
  buf : LoadBuf
  op : Option LongOp
  waiting : List Instr
  boot : List BootEntry
  bootSets : List Nat
  snap : Snap
  diagBuf : DiagBuf
  readData : Word
  freeCtr : Nat
  deriving DecidableEq, Repr

/-! ### Reset contents of the tables -/

/-- An unlisted point: invalid in lane A's encoding, and in lane B's (R39). -/
def ptInitA : Pt := 0#2
def ptInitB : Pt := 3#2

def Zone.init : Zone := {}
def Pair.init : Pair := {}
def Chan.init : Chan := {}
def Grp.init : Grp := {}
def Cap.init : Cap := {}
def Port.init : Port := {}
def Conn.init : Conn := {}
def Gt.init : Gt := {}
def Crc.init : Crc := {}
def Ring.init : Ring := {}
def EvRing.init : EvRing := {}
def OtpWord.init : OtpWord := {}
def Tile.init : Tile := {}

/-- The fuse array as the model's device leaves the factory (R417, R420; log entry 10): the FEATURE word of an IV3264, the part number
and revision fields of word 1, and the seals of the regions locked at shipment; every other word unprogrammed. -/
def factoryWords : Tab OtpWord :=
  [(1, 0x13264001_00000000#64), (15, 0xDE7181BD_613DB0C7#64), (31, 0x62C7E962_F69AF1E3#64), (32, 0x00000000_CD9B3264#64),
   (47, 0xE9CBF164_589B511F#64), (255, 0x62C7E962_F69AF1E3#64)].map fun e => (e.1, { fuse := e.2, check := otpCheck e.2 })

/-- The write locks blown at shipment, three copies each (R417, R424) (PRESUMED, log entry 10). -/
def factoryLocks : Tab (BitVec 3) := [(0, 7#3), (1, 7#3), (2, 7#3), (15, 7#3)]

/-- The block right after reset (R15, R445): every register at its reset value, every zone WITHDRAWN,
every stop bit clear, nothing queued. -/
def State.reset : State where
  pending := []
  tb := {}
  laneA := {}
  laneB := {}
  markNum := 0#32
  ptsA := []
  ptsB := []
  caps := []
  imgA := []
  imgB := []
  imgCaps := []
  owed := []
  handed := []
  trans := []
  zones := []
  pairs := []
  cat1 := []
  prodOwnA := []
  prodOwnB := []
  internals := []
  internalsB := []
  chans := []
  grps := []
  capUnits := []
  fd := {}
  ports := []
  conns := []
  fl := {}
  lmWarn := 0x0D9#10
  lmWarnB := 0x326#10
  gts := []
  stg := {}
  crcs := []
  hi := {}
  rings := []
  evRings := []
  evqA := {}
  evqB := {}
  otp := { words := factoryWords, wlCopies := factoryLocks, rlCopies := [] }
  pm := {}
  bist := {}
  db := {}
  tiles := []
  gc := {}
  adm := {}
  mig := {}
  buf := {}
  op := none
  waiting := []
  boot := []
  bootSets := []
  snap := {}
  diagBuf := {}
  readData := 0#32
  freeCtr := 0

end Sys2Proof.Machine
end

