-- ==== Sys2Proof/Machine/Ops.lean ====
section
/-!
DEFINITION. The shared operations: access to the tables of the state, time, points, zone states, events,
completions, and the fault table.
-/
namespace Sys2Proof

/-! ### Declarations and their defaults -/

/-- A time given in ns, in ms or in µs; a default in the same unit where it is left out. -/
def inMs (default : Nat) (x : Option Nat) : Nat := (x.map fun t => t / 1000000).getD default
def inUs (default : Nat) (x : Option Nat) : Nat := (x.map fun t => t / 1000).getD default

/-- The block a declaration makes, a parameter that it leaves out at its default (R108, R111, R113, R118, R121, R123 to R125, R128, R130,
R132). -/
def BlockDecl.kind : BlockDecl → BlockKind
  | .and => .and
  | .or => .or
  | .xor => .xor
  | .not => .not
  | .sr => .sr
  | .estop d t => .estop (inMs 100 d) (t.getD 0)
  | .dualeq d t => .dualeq (inMs 100 d) (t.getD 0)
  | .dualant d t => .dualant (inMs 100 d) (t.getD 0)
  | .curtain d t m sy mx ov dir =>
    .curtain (inMs 10 d) (t.getD 0) (m.getD 0) (inMs 3000 sy) (inMs 30000 mx) (inMs 60000 ov) (dir.getD 0)
  | .guard d t m c p => .guard (inMs 100 d) (t.getD 0) (m.getD 0) (inMs 500 c) (p.getD 1)
  | .glock p t => .glock (p.getD 0) (inMs 1000 t)
  | .twohand t => .twohand (inMs 50 t)
  | .enable d => .enable (inMs 100 d)
  | .modesel t => .modesel (inMs 500 t)
  | .standstill a b s d => .standstill a b (inMs 100 s) (inMs 1000 d)
  | .restart => .restart
  | .edm m t => .edm m (inMs 300 t)
  | .safeout t c d x => .safeout t (c.getD 0) (inMs 0 d) (inUs 0 x)
  | .ton t => .ton (inUs 1000 t)
  | .toff t => .toff (inUs 1000 t)
  | .pulse t => .pulse (inUs 1000 t)
  | .couple a => .couple a
  | .unlisted c => .unlisted c

def Block.kind (b : Block) : BlockKind := b.decl.kind

/-- The times of a connection, at their defaults where the declaration leaves them out (R152). -/
def ConnDecl.tCyc (d : ConnDecl) : Nat := d.cycDecl.getD 1000
def ConnDecl.watchdog (d : ConnDecl) : Nat := d.wdDecl.getD (3 * d.tCyc)
def ConnDecl.tNi (d : ConnDecl) : Nat := d.niDecl.getD 0
def ConnDecl.tNo (d : ConnDecl) : Nat := d.noDecl.getD 0

end Sys2Proof

namespace Sys2Proof.Machine
open Sys2Proof

/-- The instruction the test access port goes on with where bench mode has ended: one that only bench mode offers acts as BYPASS (R463)
(PRESUMED, log entry 18, for a reset). -/
def irKept (op : JtagOp) : JtagOp :=
  match op with
  | .bypass => .bypass
  | .idcode => .idcode
  | .samplePreload => .samplePreload
  | _ => .bypass

/-- The answer of every meaning of this block: a next state. -/
def ok (s : State) : Host.Outcome State Fault Refusal := .next s

/-! ### Access to the tables -/

def State.zone (s : State) (z : Nat) : Zone := tabGet Zone.init s.zones z
def State.pair (s : State) (p : Nat) : Pair := tabGet Pair.init s.pairs p
def State.chan (s : State) (n : Nat) : Chan := tabGet Chan.init s.chans n
def State.grp (s : State) (g : Nat) : Grp := tabGet Grp.init s.grps g
def State.capUnit (s : State) (c : Nat) : Cap := tabGet Cap.init s.capUnits c
def State.port (s : State) (n : Nat) : Port := tabGet Port.init s.ports n
def State.conn (s : State) (k : Nat) : Conn := tabGet Conn.init s.conns k
def State.gt (s : State) (k : Nat) : Gt := tabGet Gt.init s.gts k
def State.crc (s : State) (u : Nat) : Crc := tabGet Crc.init s.crcs u
def State.ring (s : State) (r : Nat) : Ring := tabGet Ring.init s.rings r
def State.evRing (s : State) (e : Nat) : EvRing := tabGet EvRing.init s.evRings e
def State.otpWord (s : State) (w : Nat) : OtpWord := tabGet OtpWord.init s.otp.words w
def State.tileAt (s : State) (k : Nat) : Tile := tabGet Tile.init s.tiles k
def State.frec (s : State) (k : Nat) : Option FaultRec := tabGet none s.fl.recs k

/-- A change of a pair: steward B makes it on its own table as steward A does (R157). -/
def Pair.both (f : Pair → Pair) (q : Pair) : Pair :=
  let b := f { q with role := q.roleB, shift := q.shiftB }
  { f q with roleB := b.role, shiftB := b.shift }

def State.updZone (s : State) (z : Nat) (f : Zone → Zone) : State :=
  { s with zones := tabUpd Zone.init s.zones z f }
def State.updPair (s : State) (p : Nat) (f : Pair → Pair) : State :=
  { s with pairs := tabUpd Pair.init s.pairs p (Pair.both f) }
def State.updChan (s : State) (n : Nat) (f : Chan → Chan) : State :=
  { s with chans := tabUpd Chan.init s.chans n f }
def State.updChans (s : State) (ns : List Nat) (f : Nat → Chan → Chan) : State :=
  { s with chans := tabUpdAll Chan.init s.chans ns f }
def State.updGrp (s : State) (g : Nat) (f : Grp → Grp) : State :=
  { s with grps := tabUpd Grp.init s.grps g f }
def State.updCap (s : State) (c : Nat) (f : Cap → Cap) : State :=
  { s with capUnits := tabUpd Cap.init s.capUnits c f }
def State.updPort (s : State) (n : Nat) (f : Port → Port) : State :=
  { s with ports := tabUpd Port.init s.ports n f }
def State.updConn (s : State) (k : Nat) (f : Conn → Conn) : State :=
  { s with conns := tabUpd Conn.init s.conns k f }
def State.updGt (s : State) (k : Nat) (f : Gt → Gt) : State :=
  { s with gts := tabUpd Gt.init s.gts k f }
def State.updCrc (s : State) (u : Nat) (f : Crc → Crc) : State :=
  { s with crcs := tabUpd Crc.init s.crcs u f }
def State.updRing (s : State) (r : Nat) (f : Ring → Ring) : State :=
  { s with rings := tabUpd Ring.init s.rings r f }
def State.updEvRing (s : State) (e : Nat) (f : EvRing → EvRing) : State :=
  { s with evRings := tabUpd EvRing.init s.evRings e f }
def State.updOtp (s : State) (w : Nat) (f : OtpWord → OtpWord) : State :=
  { s with otp := { s.otp with words := tabUpd OtpWord.init s.otp.words w f } }
def State.updTile (s : State) (k : Nat) (f : Tile → Tile) : State :=
  { s with tiles := tabUpd Tile.init s.tiles k f }
def State.updFd (s : State) (f : Fd → Fd) : State := { s with fd := f s.fd }
def State.updPm (s : State) (f : Pm → Pm) : State := { s with pm := f s.pm }

/-- The lane die of a lane. -/
def State.lane (s : State) : Lane → LaneDie
  | .a => s.laneA
  | .b => s.laneB

def State.updLane (s : State) (l : Lane) (f : LaneDie → LaneDie) : State :=
  match l with
  | .a => { s with laneA := f s.laneA }
  | .b => { s with laneB := f s.laneB }

/-- The other lane. -/
def otherLane : Lane → Lane
  | .a => .b
  | .b => .a

/-! ### Time -/

/-- Device time is lane A's count of 10 ns ticks (R8, R347). -/
def State.now (s : State) : Word64 := s.tb.a

/-- Device time in µs, low 32 bits. -/
def State.us (s : State) : Word := word (s.tb.a.toNat / 100)

/-- Ticks that have passed since a count was taken. -/
def State.since (s : State) (t : Word64) : Nat := (s.tb.a - t).toNat

/-- 10 ms of device time in ticks, the interval of the rate limits. -/
def tenMs : Nat := 1000000

/-- A rate limit of one event in each 10 ms (DEDUCED, log entry 58). -/
def State.mayPost (s : State) (t : Option Word64) : Bool :=
  match t with
  | none => true
  | some u => decide (tenMs ≤ s.since u)

/-! ### Points (R37 to R41) -/

/-- A valid point with a value, in lane A's encoding. -/
def ptVal (v : Bool) : Pt := if v then 3#2 else 2#2

/-- A point is valid and 1. The encodings 0b01 and 0b00 read as invalid (R40). -/
def isOne (p : Pt) : Bool := p == 3#2

def isZero (p : Pt) : Bool := p == 2#2

def isValid (p : Pt) : Bool := p == 3#2 || p == 2#2

/-- Addresses the table of R37 assigns. -/
def assigned (a : Nat) : Bool :=
  decide (a < 0x20000) || (decide (0x20000 ≤ a) && decide (a < 0x20040)) ||
  (decide (0x20100 ≤ a) && decide (a < 0x20140)) || (decide (0x20200 ≤ a) && decide (a < 0x20204)) ||
  (decide (0x21000 ≤ a) && decide (a < 0x21800))

/-- The variant applied (R2, R420): 2 = IV3264, 1 = IV1664, 0 = IV0864. -/
def State.variant (s : State) : Nat := s.otp.applied.toNat

/-- Ports enabled, which is also the zone-carrying maximum of pairs (R2). -/
def State.portMax (s : State) : Nat :=
  match s.variant with
  | 2 => 32
  | 1 => 16
  | _ => 8

/-- Safety connections of the variant (R2). -/
def State.connMax (s : State) : Nat := 64 * s.portMax

/-- An address a lane holds a point for: assigned, and not of a port above the variant's range (R3, R37). -/
def State.hasPt (s : State) (a : Nat) : Bool := assigned a && (decide (0x20000 ≤ a) || decide (a / 4096 < s.portMax))

/-- A point as lane A's store holds it; an unassigned address reads invalid (R38). -/
def State.ptA (s : State) (a : Nat) : Pt := if s.hasPt a then tabGet ptInitA s.ptsA a else 0#2

/-- A point as lane B's store holds it, in negative encoding. -/
def State.ptB (s : State) (a : Nat) : Pt := if s.hasPt a then tabGet ptInitB s.ptsB a else 3#2

/-- A lane writes a point it holds in its own encoding. -/
def State.putPt (s : State) (l : Lane) (a : Nat) (p : Pt) : State :=
  match l with
  | .a => { s with ptsA := tabSet ptInitA s.ptsA a p }
  | .b => { s with ptsB := tabSet ptInitB s.ptsB a p }

/-- A point as it enters a lane: in lane B in negative encoding (R18). -/
def inLane : Lane → Pt → Pt
  | .a, p => p
  | .b, p => ~~~p

/-- A lane writes a point, given in lane A's encoding. -/
def State.setPtLane (s : State) (l : Lane) (a : Nat) (p : Pt) : State := s.putPt l a (inLane l p)

/-- Both lanes write a point. -/
def State.setPt (s : State) (a : Nat) (p : Pt) : State := (s.setPtLane .a a p).setPtLane .b a p

/-- What a lane has posted and no mark has named loses points that were set since (R43, R47). -/
def State.purge (s : State) (l : Lane) (as : List Nat) : State :=
  { s with trans := s.trans.map fun t =>
    match t.body with
    | .posted p n xs ys =>
      { t with body := match l with
          | .a => .posted p n (xs.filter fun e => !as.contains e.1) ys
          | .b => .posted p n xs (ys.filter fun e => !as.contains e.1) }
    | _ => t }

/-- A lane sets points invalid at once. -/
def State.dropLane (s : State) (l : Lane) (as : List Nat) : State :=
  (as.foldl (fun t a => t.setPtLane l a 0#2) s).purge l as

/-- Both lanes set points invalid (R40, R43). -/
def State.dropPts (s : State) (as : List Nat) : State := (s.dropLane .a as).dropLane .b as

/-! ### Block state in negative encoding (R18) -/

/-- A number of a lane's state memory as lane B holds it. -/
def negNat (n : Nat) : Nat := 0xFFFFFFFF - n

def Timer.neg : Timer → Timer
  | .stopped => .stopped
  | .running u => .running (negNat u)
  | .late u => .late (negNat u)
  | .expired u => .expired (negNat u)

/-- A block's state as lane B holds it: every number, value and flag complemented. What the stewards keep for the events of R138 is no
block state. -/
def BlockRt.neg (r : BlockRt) : BlockRt :=
  { r with
    st := negNat r.st, sub := negNat r.sub, t1 := r.t1.neg, t2 := r.t2.neg, t3 := r.t3.neg, outs := r.outs.map (~~~ ·),
    prevIn := ~~~r.prevIn, w0 := ~~~r.w0, w1 := ~~~r.w1, ch0 := !r.ch0, ch1 := !r.ch1, latch := !r.latch, c := !r.c,
    codes := r.codes.map negNat, diag := negNat r.diag, diagCnt := negNat r.diagCnt, inValid := negNat r.inValid }

/-- A block in its initial state; what the stewards keep for its events, and the code they last saw, stay (R138). -/
def BlockRt.initial (r : BlockRt) : BlockRt :=
  { st := 0, diag := r.diag, diagCnt := r.diagCnt, evAt := r.evAt, evPend := r.evPend, evCnt := r.evCnt }

/-- Both lanes' copies of a version's block state take a value. -/
def ZoneVer.setRt (v : ZoneVer) (rt : List BlockRt) : ZoneVer := { v with rt := rt, rtB := rt.map BlockRt.neg }

/-- The zones as the target of the operation in progress runs them change. -/
def State.updCopies (s : State) (f : List Copy → List Copy) : State :=
  { s with op := s.op.map fun (o : LongOp) => { o with copies := f o.copies } }

def Copy.setRt (c : Copy) (rt : List BlockRt) : Copy := { c with rt := rt, rtB := rt.map BlockRt.neg }

/-- Points as a lane sends them, in lane B's encoding. -/
def negPts (xs : List (Nat × Pt)) : List (Nat × Pt) := xs.map fun e => (e.1, ~~~e.2)

/-! ### Zones and their outputs -/

/-- Codes of R53. -/
def ZoneSt.code : ZoneSt → Nat
  | .withdrawn => 0
  | .admitted => 1
  | .armed => 2
  | .running => 3
  | .demanded => 4
  | .faulted => 5

/-- The state of a zone as R53 reports it: the ACTIVE version's, or ADMITTED. -/
def Zone.reported (z : Zone) : ZoneSt := z.st

/-- The pair of a zone as R53 reports it. -/
def Zone.pairOf (z : Zone) : Nat :=
  match z.active with
  | some v => v.pair
  | none =>
    match z.staged with
    | some v => if v.admitted then v.pair else 0x3F
    | none => 0x3F

/-- The targets of the SAFEOUT blocks of a section. -/
def safeouts (bs : List Block) : List Target :=
  bs.filterMap fun b =>
    match b.kind with
    | .safeout t _ _ _ => some t
    | _ => none

/-- The internal points the COUPLE blocks of a section write. -/
def couples (bs : List Block) : List Nat :=
  bs.filterMap fun b =>
    match b.kind with
    | .couple a => some a
    | _ => none

/-- Produced remote points among targets. -/
def targetPts (ts : List Target) : List Nat :=
  ts.filterMap fun t =>
    match t with
    | .point a => some a
    | .chan _ => none

/-- The key of an output in the tables of delays: a channel, or a point. -/
def targetKey : Target → Nat
  | .chan n => n
  | .point a => 64 + a

/-- Points a version writes: its couplings and its produced remote points. -/
def ZoneVer.writes (v : ZoneVer) : List Nat :=
  couples v.sec.blocks ++ targetPts (safeouts v.sec.blocks)

/-- Zones with an ACTIVE version on a pair, in rising order (the zone table is sorted). -/
def State.zonesOn (s : State) (p : Nat) : List Nat :=
  s.zones.filterMap fun e =>
    match e.2.active with
    | some v => if v.pair = p then some e.1 else none
    | none => none

/-- Zones a fault of a pair concerns: those it carries, and those whose only version is an ADMITTED one
on it (R51, R305). -/
def State.faultZonesOn (s : State) (p : Nat) : List Nat :=
  s.zones.filterMap fun e =>
    if e.2.pairOf = p && decide (e.2.st ≠ .withdrawn) then some e.1 else none

/-- Every zone that is not WITHDRAWN. -/
def State.zonesUp (s : State) : List Nat :=
  s.zones.filterMap fun e => if decide (e.2.st ≠ .withdrawn) then some e.1 else none

/-- Every zone is WITHDRAWN, the condition of a WL register (R12). -/
def State.allWithdrawn (s : State) : Bool := s.zonesUp.isEmpty

/-- A write of a WL field is rejected (R12, R484): a zone is not WITHDRAWN, or the stewards have taken up an admission. -/
def State.wlLocked (s : State) : Bool :=
  !s.allWithdrawn || match s.op with
    | some op => (match op.kind with
      | .admission _ _ => true
      | .change _ _ _ => true
      | _ => false)
    | none => false

/-- The zone whose ACTIVE version drives a channel, and the blocks of that version. -/
def State.ownerOfChan (s : State) (n : Nat) : Option Nat :=
  (s.zones.filterMap fun e =>
    match e.2.active with
    | some v => if (safeouts v.sec.blocks).contains (.chan n) then some e.1 else none
    | none => none).head?

/-- A word of a command queue in negative encoding; the channel it names is no value. -/
def FdCmd.neg : FdCmd → FdCmd
  | .switch n on => .switch n (!on)
  | .owner n o w b => .owner n (~~~o) (~~~w) (~~~b)
  | .boundary n b => .boundary n (~~~b)
  | .nonsafe n on => .nonsafe n (!on)

/-- A word of a command queue in a lane's encoding (R18). -/
def FdCmd.inLane (c : FdCmd) : Lane → FdCmd
  | .a => c
  | .b => c.neg

/-- A switch command or another word waits for the field link of a lane, in its encoding; in OFF the lanes send nothing (R449). -/
def State.pushFd (s : State) (l : Lane) (c : FdCmd) : State :=
  if s.pm.dstate = .off then s else s.updLane l fun d => { d with toFd := d.toFd ++ [c.inLane l] }

/-- A produced point as a lane's store holds it, in true form. -/
def State.ptOf (s : State) (l : Lane) (a : Nat) : Pt :=
  match l with
  | .a => s.ptA a
  | .b => ~~~(s.ptB a)

/-- A lane commands a produced point off that reads 1: the next frame carries value 0 (R58). -/
def State.owe (s : State) (l : Lane) (a : Nat) : State :=
  if isOne (s.ptOf l a) then
    let o := tabGet (false, false) s.owed a
    { s with owed := tabSet (false, false) s.owed a (match l with | .a => (true, o.2) | .b => (o.1, true)) }
  else s

/-- A lane commands an output on or off at once: its switch, or the produced point in its own store (R58, R73). -/
def State.commandLane (s : State) (l : Lane) (t : Target) (on : Bool) : State :=
  match t with
  | .chan n => s.pushFd l (.switch n on)
  | .point a => ((if on then s else s.owe l a).setPtLane l a (ptVal on)).purge l [a]

/-- Both lanes command outputs off and drop their category 1 delays (R57). -/
def State.outputsOff (s : State) (ts : List Target) : State :=
  ts.foldl (fun u t =>
    let u := (u.commandLane .a t false).commandLane .b t false
    { u with cat1 := tabSet (false, false) u.cat1 (targetKey t) (false, false) }) s

/-! ### Queue words (R376) -/

/-- The parity bit that a queue generates at its input: with it, the ones of the data and tag bits of a word are odd in number. -/
def oddParity (width data : Nat) : Bool := !oddBits data width

/-- A word fails the check at a queue's output where its ones and its parity bit are even in number. -/
def parityFails (width data : Nat) (par : Bool) : Bool := oddBits data width == par

/-- The check of a word that went through a queue, its parity bit generated at the input; `upset` says that an odd number of its bits
changed on the way. -/
def wordFails (width data : Nat) (upset : Bool) : Bool := parityFails width data (oddParity width data != upset)

/-- The data and tag bits of an event word: its type below its payload (DESIGN CHOICE, log entry 77: the manual gives no layout). -/
def evData (type payload : Nat) : Nat := type % 256 + 256 * payload

/-- An event as a lane writes it into its queue. -/
def evWord (type payload ord : Nat) : EvWord := { type := type, payload := payload, ord := ord, par := oddParity 136 (evData type payload) }

/-- An event word fails its check at the output of the queue. -/
def EvWord.fails (w : EvWord) (upset : Bool) : Bool := parityFails 136 (evData w.type w.payload) (w.par != upset)

/-! ### Events (R407, R408) -/

/-- The TIMESTAMP of completions and events (R389, R397). -/
def State.stamp (s : State) : Word64 := if s.hi.selected = 2#8 then s.tb.a else 0#64

/-- An index advanced in a ring of 2^size entries. -/
def ringNext (size : BitVec 4) (i : BitVec 12) : BitVec 12 :=
  BitVec.ofNat 12 ((i.toNat + 1) % 2 ^ size.toNat)

/-- A word of the MSI-X table. Each entry is address, upper address, data, vector control, whose mask bit 0 resets to 1; the
table keeps the words XOR their reset contents (PRESUMED, log entry 17). -/
def Hi.msixWord (h : Hi) (i : Nat) : Word := tabGet 0#32 h.msix i ^^^ (if i % 4 = 3 then 1#32 else 0#32)

/-- A vector's message is sent, or stays pending while the vector is masked (PRESUMED, log entry 17). -/
def Hi.send (h : Hi) (v : Nat) : Hi :=
  if bit (h.msixWord (4 * v + 3)) 0 then { h with pba := setBit h.pba v true }
  else { h with sent := tabUpd 0 h.sent v (· + 1) }

/-- An entry goes to a ring that names a vector (R388): the message is sent, or it follows at the end of the 1 µs that runs
(PRESUMED, log entry 17). -/
def Hi.dueVector (h : Hi) (v : Nat) : Hi :=
  if h.busy.getLsbD v then { h with due := setBit h.due v true }
  else { h.send v with busy := setBit h.busy v true }

def State.dueVector (s : State) (v : BitVec 5) : State := { s with hi := s.hi.dueVector v.toNat }

/-- Event ring e takes one entry, its ring enabled and not full. -/
def State.writeEvent (s : State) (e : Nat) (type src payload : Nat) (poison : Bool) : State :=
  let r := s.evRing e
  let x : EvEntry := {
    type := BitVec.ofNat 8 type, phase := r.phase, poison := poison,
    src := BitVec.ofNat 2 src, eseq := r.eseq, ts := s.stamp, payload := BitVec.ofNat 384 payload }
  let n := ringNext r.size r.tail
  let s := s.updEvRing e fun r =>
    { r with tail := n, eseq := r.eseq + 1#16,
             phase := if n = 0#12 then !r.phase else r.phase,
             ev := tabSet none r.ev r.tail.toNat (some x) }
  s.dueVector r.vector

/-- A full completion or event ring (R391). -/
def EvRing.full (r : EvRing) : Bool := ringNext r.size r.tail == r.head

/-- The ring HI_EV_ROUTE names for a type (R411). -/
def State.route (s : State) (type : Nat) : Nat := bits s.hi.route (2 * (type - 1) + 1) (2 * (type - 1))

/-- HB posts an event to its ring: discarded where the ring is disabled, counted where it is full. -/
def State.toRing (s : State) (type src payload : Nat) (poison : Bool) : State :=
  let e := s.route type
  let r := s.evRing e
  if !r.en || s.hi.d3 then s
  else if r.full then
    s.updEvRing e fun r => { r with drop := satInc r.drop 65535, lostCnt := r.lostCnt + 1 }
  else s.writeEvent e type src payload poison

/-- HB takes a word of a lane-to-hub event queue; one whose parity fails is delivered with its POISON flag and counted (R319, R376, R377,
R383). -/
def Evq.take (q : Evq) (w : EvWord) : Evq :=
  { q with bad := q.bad >>> 1, poisonCnt := if w.fails (q.bad.getLsbD 0) then satInc q.poisonCnt 255 else q.poisonCnt }

/-- A word passes a queue whose consumer takes it in the cycle in which it comes (R380) (DEDUCED, log entry 57). -/
def Evq.pass (q : Evq) (w : EvWord) : Evq := { q.take w with fillMax := max q.fillMax 1 }

/-- A lane writes an event into its queue: a full queue of 64 words does not accept it, and the lane counts it (R379, R380). -/
def Evq.put (q : Evq) (w : EvWord) : Evq :=
  if 64 ≤ q.words.length then { q with dropCnt := satInc q.dropCnt 255, lost := q.lost + 1 }
  else { q with words := q.words ++ [w], fillMax := max q.fillMax (q.words.length + 1) }

/-- Space has freed in a queue: the lane posts one EVENTS_LOST event with the count (R379); `lane` is 0 for LA, 1 for LB. -/
def Evq.report (q : Evq) (lane ord : Nat) : Evq :=
  if 0 < q.lost then { q with lost := 0 }.put (evWord 0x0D (lane + fld q.lost 32 32) ord) else q

/-- The event queue of a lane die. -/
def State.evq (s : State) : Lane → Evq
  | .a => s.evqA
  | .b => s.evqB

def State.updEvq (s : State) (l : Lane) (f : Evq → Evq) : State :=
  match l with
  | .a => { s with evqA := f s.evqA }
  | .b => { s with evqB := f s.evqB }

/-- Source code of an event of a lane (R407). -/
def laneSrc : Lane → Nat
  | .a => 1
  | .b => 2

/-- An event of a lane goes through its queue: HB takes it at once, or it waits in the queue while HB takes none. -/
def State.laneEvent (s : State) (l : Lane) (type payload : Nat) : State :=
  let w := evWord type payload s.hi.evNext
  if s.hi.evHold then { s.updEvq l fun q => q.put w with hi := { s.hi with evNext := s.hi.evNext + 1 } }
  else (s.updEvq l fun q => q.pass w).toRing type (laneSrc l) payload (w.fails ((s.evq l).bad.getLsbD 0))

/-- An event is posted: of a lane (source 1 or 2) through its queue, of HB or FD directly. `payload` is the number whose byte k is
entry byte 16 + k. -/
def State.postEvent (s : State) (type src payload : Nat) : State :=
  match src with
  | 1 => s.laneEvent .a type payload
  | 2 => s.laneEvent .b type payload
  | _ => s.toRing type src payload false

/-- HB takes the oldest word of a lane's queue; the lane reports what it lost now that there is space (R379). -/
def State.takeWord (s : State) (l : Lane) (w : EvWord) : State :=
  let bad := w.fails ((s.evq l).bad.getLsbD 0)
  let n := s.hi.evNext
  let s := s.updEvq l fun q => ({ q.take w with words := q.words.tail }).report (laneSrc l - 1) n
  ({ s with hi := { s.hi with evNext := n + 1 } }).toRing w.type (laneSrc l) w.payload bad

/-- HB takes the words of both queues in the order of their arrival (R379). -/
def State.takeWords : Nat → State → State
  | 0, s => s
  | n + 1, s =>
    match s.evqA.words, s.evqB.words with
    | [], [] => s
    | x :: _, [] => State.takeWords n (s.takeWord .a x)
    | [], y :: _ => State.takeWords n (s.takeWord .b y)
    | x :: _, y :: _ => State.takeWords n (if x.ord ≤ y.ord then s.takeWord .a x else s.takeWord .b y)

/-- EVENTS_LOST once space has freed (R407). -/
def State.postLost (s : State) (e : Nat) : State :=
  let r := s.evRing e
  if r.en && decide (0 < r.lostCnt) && !r.full then
    (s.writeEvent e 0x0D 3 (2 + fld r.lostCnt 32 32) false).updEvRing e fun r => { r with lostCnt := 0 }
  else s

/-- ZONE_STATE (R408): a zone takes a state. -/
def State.setZoneSt (s : State) (z : Nat) (st : ZoneSt) : State :=
  let old := s.zone z
  if old.st = st then s
  else
    (s.updZone z fun y => { y with st := st }).postEvent 0x04 1
      (z + fld st.code 8 8 + fld old.st.code 8 16 + fld old.pairOf 8 24)

/-- Codes of R301. -/
def ConnSt.code : ConnSt → Nat
  | .withdrawn => 0
  | .closed => 1
  | .opening => 2
  | .negotiating => 3
  | .running => 4
  | .stale => 5
  | .faulted => 6

/-! ### Completions (R397 to R399) -/

/-- The completion ring of a ring pair is full (R391). -/
def Ring.cqFull (r : Ring) : Bool := ringNext r.size r.cqTail == r.cqHead

/-- A completion entry goes into the ring. -/
def Ring.write (r : Ring) (x : CqEntry) : Ring :=
  let n := ringNext r.size r.cqTail
  { r with cqTail := n,
           phase := if n = 0#12 then !r.phase else r.phase,
           cq := tabSet none r.cq r.cqTail.toNat (some { x with phase := r.phase, sqHead := r.sqHead }) }

/-- Held completions are written in order while there is space, with the TIMESTAMP of that moment (R397) (DESIGN CHOICE, log
entry 47). -/
def Ring.flush (ts : Word64) (r : Ring) : List CqEntry → Ring
  | [] => { r with held := [] }
  | x :: xs => if r.cqFull then { r with held := x :: xs } else (r.write { x with ts := ts }).flush ts xs

/-- A completion that falls due now has to be held: the ring is full, or others are held before it. -/
def Ring.holds (r : Ring) : Bool := r.cqFull || !r.held.isEmpty

/-- A completion falls due: written, or held while the ring is full. The final completion of a command takes the place of an intermediate
one of it that is still held, so that at most 16 are held (R397) (DESIGN CHOICE, log entry 47). -/
def Ring.post (r : Ring) (x : CqEntry) : Ring :=
  if r.holds then { r with held := (r.held.filter fun y => !(y.interm && decide (y.cid = x.cid))) ++ [x] } else r.write x

/-- A ring pair whose registers take their reset values: HI_SAFE_SEQ alone keeps its value, and host memory what was written (R15). -/
def Ring.cleared (r : Ring) : Ring := { Ring.init with seqA := r.seqA, seqB := r.seqB, cq := r.cq }

/-- A ring that drains is DISABLED once its last completion is written (R399), its registers reset where that waited for it (R386). -/
def Ring.drained (r : Ring) : Ring :=
  if r.st = .draining && r.outs.isEmpty && r.held.isEmpty then (if r.resetDue then r.cleared else { r with st := .disabled }) else r

/-- The first outstanding command with a CID and an opcode leaves the list. -/
def dropTaken (cid : BitVec 16) (op : Byte) : List Taken → List Taken
  | [] => []
  | t :: r => if t.cid = cid ∧ t.opcode = op then r else t :: dropTaken cid op r

/-- Status codes of R406 that more than one command uses. -/
def stSuccess : Nat := 0x00
def stInProgress : Nat := 0x01
def stBadParam : Nat := 0x03
def stBadState : Nat := 0x04
def stFeatureAbsent : Nat := 0x05
def stAborted : Nat := 0x0B
def stBufferError : Nat := 0x0C
def stRefused : Nat := 0x20
def stPairUnavailable : Nat := 0x25

/-- An entry for a completion ring: written, with the message of its vector (R388), or held. `res` is the number whose byte k is entry
byte 16 + k. A disabled ring takes none, and in D3hot nothing is posted (R386). -/
def State.postCq (s : State) (ring cid opcode status : Nat) (interm : Bool) (res : Nat) : State :=
  let r := s.ring ring
  if r.st = .disabled then s
  else if s.hi.d3 then s.updRing ring Ring.drained
  else
    let x : CqEntry := {
      cid := BitVec.ofNat 16 cid, status := BitVec.ofNat 8 status, phase := false,
      interm := interm, sqHead := r.sqHead, opcode := BitVec.ofNat 8 opcode, ts := s.stamp,
      res := BitVec.ofNat 384 res }
    let s := s.updRing ring fun r => (r.post x).drained
    if r.holds then s else s.dueVector r.vector

/-- A completion of a command: final, or intermediate. -/
def State.completion (s : State) (ring cid opcode status : Nat) (interm : Bool) (res : Nat) : State :=
  if (s.ring ring).st = .disabled then s
  else
    (if interm then s else s.updRing ring fun r =>
      { r with outs := dropTaken (BitVec.ofNat 16 cid) (BitVec.ofNat 8 opcode) r.outs }).postCq ring cid opcode status interm res

/-- The intermediate completion of R398: posted while its ring has space for it (DESIGN CHOICE, log entry 47). -/
def State.progress (s : State) (o : Origin) (opcode res : Nat) : State :=
  if o.progress && !(s.ring o.ring).holds then s.completion o.ring.val o.cid.toNat opcode stInProgress true res else s

/-- The final completion of a command (DESIGN CHOICE, log entry 47; DEDUCED, log entry 58). -/
def State.complete (s : State) (o : Origin) (opcode status res : Nat) : State :=
  s.completion o.ring.val o.cid.toNat opcode status false res

/-- The final completion of a command that may have none (an internal operation). -/
def State.completeOpt (s : State) (o : Option Origin) (opcode status res : Nat) : State :=
  match o with
  | some o => s.complete o opcode status res
  | none => s

/-! ### The fault table (R304, R312, R319, R324, R325, R327) -/

/-- LANE of a record. -/
def laneBits (a b : Bool) : Nat := (if a then 1 else 0) + (if b then 2 else 0)

def FaultRec.stCode (r : FaultRec) : Nat :=
  match r.st with
  | .latched => 1
  | .gone => 2

/-- The four words of a record. -/
def FaultRec.words (r : FaultRec) : List Nat :=
  [r.code.toNat * 65536 + fld (laneBits r.laneA r.laneB) 2 14 + fld r.stCode 2 12 + r.loc.toNat,
   r.time.toNat,
   fld r.count 16 16 + r.detail.toNat,
   fld (if r.zoneCnt = 0 then 0xFF else r.firstZone) 8 24 + fld r.zoneCnt 8 16 + r.passLo.toNat]

/-- The payload of a FAULT event. -/
def FaultRec.payload (r : FaultRec) : Nat :=
  r.words.foldr (fun w a => w + a * 2 ^ 32) 0

/-- A record is stored in both lanes' tables. -/
def State.setRec (s : State) (k : Nat) (r : Option FaultRec) : State :=
  { s with fl := { s.fl with recs := tabSet none s.fl.recs k r, recsB := tabSet none s.fl.recsB k r } }

/-- A FAULT event of record k, at most one in 10 ms; a later one waits. -/
def State.reportRec (s : State) (k : Nat) : State :=
  match s.frec k with
  | none => s
  | some r =>
    if s.mayPost r.evAt then
      (s.setRec k (some { r with evAt := some s.now, evPend := false })).postEvent 0x01
        (if r.laneA then 1 else 2) r.payload
    else s.setRec k (some { r with evPend := true })

/-- FAULT events that wait and whose 10 ms have passed. -/
def State.flushRecs (s : State) : State :=
  s.fl.recs.foldl (fun t e =>
    match e.2 with
    | some r => if r.evPend && t.mayPost r.evAt then t.reportRec e.1 else t
    | none => t) s

/-- The index of the record with a code and location. -/
def State.findRec (s : State) (code : BitVec 16) (loc : BitVec 12) : Option Nat :=
  (s.fl.recs.filterMap fun e =>
    match e.2 with
    | some r => if r.code = code && r.loc = loc then some e.1 else none
    | none => none).head?

/-- The lowest EMPTY entry. -/
def State.emptyRec (s : State) : Option Nat :=
  (below 64 fun k => (s.frec k).isNone).head?

/-- A record is held: LATCHED or GONE. -/
def State.anyRec (s : State) : Bool := !s.fl.recs.isEmpty

/-- The class of a code. -/
def faultClass (code : BitVec 16) : Nat := code.toNat / 4096

/-- FL_CNT counts a new record. -/
def Fl.countNew (f : Fl) (code : BitVec 16) : Fl :=
  match faultClass code with
  | 1 => { f with cPair := satInc f.cPair 63 }
  | 2 => { f with cLane := satInc f.cLane 63 }
  | 3 => { f with cField := satInc f.cField 63 }
  | 4 => { f with cConn := satInc f.cConn 63 }
  | _ => { f with cGlobal := satInc f.cGlobal 63 }

/-- A fault is recorded (R312): merged, written into the lowest EMPTY entry, or counted as OVERFLOW. `zs` are
the zones it made FAULTED. -/
def State.record (s : State) (code : BitVec 16) (loc : BitVec 12) (la lb : Bool) (detail passLo : Nat)
    (zs : List Nat) : State :=
  match s.findRec code loc with
  | some k =>
    match s.frec k with
    | none => s
    | some r =>
      let first := match zs with
        | [] => r.firstZone
        | z :: _ => if r.zoneCnt = 0 then z else min z r.firstZone
      let s := { s with fl := { s.fl with clear := s.fl.clear.map fun (c : Clear) => { c with again := k :: c.again } } }
      (s.setRec k (some { r with
        laneA := r.laneA || la, laneB := r.laneB || lb, st := .latched,
        count := satInc r.count 65535, detail := BitVec.ofNat 16 detail,
        firstZone := first, zoneCnt := satAdd r.zoneCnt zs.length 255 })).reportRec k
  | none =>
    match s.emptyRec with
    | none => { s with fl := { s.fl with overflow := true } }
    | some k =>
      let r : FaultRec := {
        code := code, loc := loc, laneA := la, laneB := lb, st := .latched,
        time := s.us, count := 1, detail := BitVec.ofNat 16 detail, firstZone := zs.headD 0xFF,
        zoneCnt := satAdd 0 zs.length 255, passLo := BitVec.ofNat 16 passLo, evAt := none,
        evPend := false }
      let f := s.fl.countNew code
      let f := if f.firstCode = 0#16 then
        { f with firstCode := code, firstLoc := loc, firstTime := s.us } else f
      (({ s with fl := f }).setRec k (some r)).reportRec k

/-- No location. -/
def noLoc : BitVec 12 := 0xFFF#12

/-! ### Zones go FAULTED (R51, R52, R57) -/

/-- The stop bit of a pair in a lane. -/
def Pair.stop (q : Pair) : Lane → Bool
  | .a => q.stopA
  | .b => q.stopB

/-- One zone goes FAULTED: outputs off at once in both lanes, internal points invalid (and, where the pair's stop bit is set in a
lane, every point it produces, R47), its restart and demand marks dropped. The pair its fault arose on is kept for R316. -/
def State.faultZone (s : State) (z : Nat) : State :=
  let y := s.zone z
  let s := match y.active with
    | some v =>
      let q := s.pair v.pair
      let s := (s.outputsOff (safeouts v.sec.blocks)).dropPts (couples v.sec.blocks)
      let s := if q.stopA then s.dropLane .a v.writes else s
      if q.stopB then s.dropLane .b v.writes else s
    | none => s
  (s.updZone z fun y => { y with
    active := y.active.map fun v => v.setRt (v.rt.map fun r => { r with c := false })
    faultPair := y.pairOf, restartReq := false, demand := false }).setZoneSt z .faulted

/-- The zones of a list that are not FAULTED or WITHDRAWN yet. -/
def State.toFault (s : State) (zs : List Nat) : List Nat :=
  zs.filter fun z => decide ((s.zone z).st ≠ .faulted) && decide ((s.zone z).st ≠ .withdrawn)

/-- A fault with the zones of its scope: recorded, and the zones go FAULTED. -/
def State.raise (s : State) (code : BitVec 16) (loc : BitVec 12) (la lb : Bool) (detail passLo : Nat)
    (scope : List Nat) : State :=
  let zs := s.toFault scope
  (zs.foldl State.faultZone s).record code loc la lb detail passLo zs

/-- Points a lane sets invalid when the stop bit of a pair latches (R47): the internal and produced points of
the zones on it. -/
def State.dropPairPts (s : State) (l : Lane) (p : Nat) : State :=
  (s.zonesOn p).foldl (fun t z =>
    match (t.zone z).active with
    | some v => t.dropLane l v.writes
    | none => t) s

/-- The role after a pair-stop bit latches (R64) (DEDUCED, log entry 27). -/
def Role.onStop : Role → Role
  | .loading => .stopped
  | .carrying => .stopped
  | .free => .unusable
  | .testing => .unusable
  | r => r

/-- Every ADMITTED STAGED version on a pair returns to VERIFIED (R180). A zone that has no other version is in the scope of the fault that
stops the pair, and goes FAULTED with it (R51) (DEDUCED, log entry 27). -/
def State.unload (s : State) (p : Nat) : State :=
  s.zones.foldl (fun t e =>
    match e.2.staged with
    | some v =>
      if v.admitted && v.pair = p then
        t.updZone e.1 fun y => { y with staged := some { v with admitted := false, pair := 0x3F, figs := none } }
      else t
    | none => t) s

/-- A lane latches the stop bit of a pair (R27, R47, R64): passes cease, the role follows, the load of STAGED versions is cleared
(R180), the lane's copies of the pair's points go invalid; a halt that waits for the pass end is void. -/
def State.latchBit (s : State) (l : Lane) (p : Nat) : State :=
  if (s.pair p).stop l then s
  else
    ((s.unload p).updPair p fun q =>
      let q := match l with
        | .a => { q with stopA := true }
        | .b => { q with stopB := true }
      { q with role := q.role.onStop, run := none, trig := false, haltBit := q.haltBit && q.role == .halted }).dropPairPts l p

/-- The pass a PAIR record names: the one that runs, or the next. -/
def Pair.passNow (q : Pair) : Nat :=
  match q.run with
  | some r => r.num.toNat
  | none => q.nextPass.toNat

/-- A lane stops a pair: its bit latches; the events of a TESTING pair go to its slice instead, which fails (R27, R339)
(DEDUCED, log entry 27). -/
def State.stopPair (s : State) (l : Lane) (p : Nat) : State :=
  if (s.pair p).role == .testing then s.updPair p fun q => { q with role := .unusable } else s.latchBit l p

/-- A PAIR fault a lane detects: the pair stops and its zones go FAULTED (R27, R305). -/
def State.pairFault (s : State) (l : Lane) (p : Nat) (code : BitVec 16) (detail : Nat) : State :=
  let n := (s.pair p).passNow
  let zs := s.faultZonesOn p
  (s.stopPair l p).raise code (BitVec.ofNat 12 p) (l = .a) (l = .b) detail n zs

/-- A PAIR fault both lanes detect. -/
def State.pairFault2 (s : State) (p : Nat) (code : BitVec 16) (detail : Nat) : State :=
  let n := (s.pair p).passNow
  let zs := s.faultZonesOn p
  ((s.latchBit .a p).latchBit .b p).raise code (BitVec.ofNat 12 p) true true detail n zs

/-- A lane sets every bit of its own vector (R307). -/
def State.latchAll (s : State) (l : Lane) : State :=
  (List.range 36).foldl (fun t p => t.latchBit l p) s

/-- A LANE_COMMON or GLOBAL fault a lane detects (R307): every bit latched, heartbeat withheld, the global
indication set for a GLOBAL fault, LM_SLOW and LM_FAST shown (R95), every zone FAULTED. -/
def State.laneFault (s : State) (l : Lane) (code : BitVec 16) (detail : Nat) : State :=
  let zs := s.zonesUp
  let s := s.latchAll l
  let s := s.updLane l fun d =>
    { d with withhold := true, global := d.global || decide (faultClass code = 5),
             slow := d.slow || decide (code = 0x2001#16), fast := d.fast || decide (code = 0x2002#16) }
  s.raise code noLoc (l = .a) (l = .b) detail 0 zs

/-- A GLOBAL or LANE_COMMON fault FD detects: recorded as both or FD, every zone FAULTED (DEDUCED, log entry 26). -/
def State.fdFault (s : State) (code : BitVec 16) (detail : Nat) : State :=
  s.raise code noLoc true true detail 0 s.zonesUp

/-- A record of LANE_COMMON or GLOBAL is held (R315, R321). -/
def State.resetReq (s : State) : Bool :=
  s.fl.recs.any fun e =>
    match e.2 with
    | some r => decide (faultClass r.code = 2) || decide (faultClass r.code = 5)
    | none => false

/-- A LANE_COMMON or GLOBAL fault has occurred since reset, recorded or not (R161, R177, R312). -/
def State.commonFault (s : State) : Bool :=
  s.resetReq || s.laneA.withhold || s.laneB.withhold || s.fd.linkASilent || s.fd.linkBSilent || s.fd.ownDisagree ||
  s.fd.hbALost || s.fd.hbBLost || s.fd.oscFault || s.fd.cmdPoison

/-- FAULT_N is driven low (R235, R320): a record is held, OVERFLOW is set, or FD itself detected SB_HEARTBEAT_LOST,
OWN_DISAGREE or FD_OSC (DEDUCED, log entry 25). The pin is high-impedance in reset and in LOAD (R450). -/
def State.faultN (s : State) : Bool :=
  !s.pm.inReset && s.pm.dstate != .load && (s.anyRec || s.fl.overflow || s.fd.ownDisagree || s.fd.hbALost || s.fd.hbBLost || s.fd.oscFault)

/-- A steward's state hash with more words folded in; steward B holds words and hash in negative encoding (R157, R78) (DESIGN CHOICE, log
entry 46). -/
def foldA (h : Word) (ws : List Word) : Word := ws.foldl crc32cWord h
def foldB (h : Word) (ws : List Word) : Word := ws.foldl (fun s w => crc32cWord s w ^^^ kFix) h

/-- Both stewards fold what each of them holds, steward B in negative encoding. -/
def State.foldBoth (s : State) (a b : List Word) : State :=
  { s with adm := { s.adm with hashA := foldA s.adm.hashA a, hashB := foldB s.adm.hashB (b.map (~~~ ·)) } }

/-- GC_WREJ records a discarded write (R490). Causes: 1 WL_LOCKED, 2 BYTE_ENABLE, 3 RULE, 4 LANE_SPLIT. -/
def State.wrej (s : State) (cause src off : Nat) : State :=
  { s with gc := { s.gc with
      wrejCnt := satInc s.gc.wrejCnt 255, wrejCause := cause, wrejSrc := src,
      wrejOff := BitVec.ofNat 18 off } }

/-- Both stewards have judged a write of a WL register that a lane or FD holds, and fold their verdicts (R484) (DESIGN CHOICE, log entry 46:
the word they fold). -/
def State.judgeWl (s : State) (off : Nat) : State :=
  let w := [word (flag s.wlLocked 31 + off)]
  s.foldBoth w w

/-- SOURCE of GC_WREJ. -/
def srcCode : Requester → Nat
  | .host => 0
  | .debug => 1
  | .boot => 2

/-- A pair waits to take a rolling slot out of turn (R337): 1 STOPPED and empty, 2 after a mismatch, 3 BIST_RUN, 4 aborted
(DEDUCED, log entry 29). -/
def State.bistAsk (s : State) (p prec : Nat) : State :=
  if s.bist.queue.any fun e => decide (e.1 = p) && decide (e.2 ≤ prec) then s
  else { s with bist := { s.bist with queue := (s.bist.queue.filter fun e => decide (e.1 ≠ p)) ++ [(p, prec)] } }

/-- A fresh draw: the number of the draw, and the state with the counter advanced (DESIGN CHOICE, log entry 14). -/
def State.draw (s : State) : Nat × State := (s.freeCtr, { s with freeCtr := s.freeCtr + 1 })

end Sys2Proof.Machine
end

