-- ==== Sys2Proof/Machine/Flags.lean ====
section
/-!
DEFINITION. Conditions the block derives from its state: holds and switches of the field outputs, validity of the
inputs, what a sample carries, which zone owns a channel.
-/
namespace Sys2Proof.Machine
open Sys2Proof

/-! ### Paralleled sets (R220, R221) -/

/-- The channel that heads the set of a channel: itself where it is in none. -/
def State.setHead (s : State) (n : Nat) : Nat :=
  if (s.chan n).par ≠ 0#2 then n
  else if (s.chan (n / 2 * 2)).par = 1#2 then n / 2 * 2
  else if (s.chan (n / 4 * 4)).par = 2#2 then n / 4 * 4
  else n

/-- The members of the set a channel heads. -/
def State.setOf (s : State) (h : Nat) : List Nat :=
  if (s.chan h).par = 1#2 then [h, h + 1]
  else if (s.chan h).par = 2#2 then [h, h + 1, h + 2, h + 3]
  else [h]

/-- All channels of the set a channel belongs to. -/
def State.unit (s : State) (n : Nat) : List Nat := s.setOf (s.setHead n)

/-! ### Holds (R218, R231, R233, R446, R457) -/

/-- A fault of R227 is latched on a channel; LOOPBACK_FAIL of a safety output acts as one (R340). -/
def Chan.latched (c : Chan) : Bool :=
  c.fltSwA || c.fltSwB || c.fltExt || c.fltCross || c.fltOver || c.fltTherm || c.fltShare || c.fltOn || c.fltOpen ||
  (c.loopbackFail && c.mode == 2#2)

/-- FD holds every output: a GLOBAL fault of its own, or the indication of a lane. -/
def Fd.globalHold (f : Fd) : Bool :=
  f.ownDisagree || f.hbALost || f.hbBLost || f.oscFault || f.cmdPoison || f.globalInd

/-- A group latch is set (DEDUCED, log entry 38). -/
def Grp.latched (g : Grp) : Bool := g.ovLatch || g.uvoffLatch || g.startHold

/-- A hold keeps an output open (R218), GSTOP for SAFETY_OUTPUT channels alone; a fault latched on any member of a set holds the whole
set (R221). -/
def State.held (s : State) (n : Nat) : Bool :=
  let c := s.chan n
  s.fd.globalHold || (s.grp (n / 16)).latched || (s.unit n).any (fun m => (s.chan m).latched) ||
  (c.mode == 2#2 && (s.fd.gsStop || s.pm.bench || s.fd.dormHold))

/-- The stop bit of a pair as FD applies it for a lane (R24, R30). -/
def Fd.stopBit (f : Fd) (l : Lane) (p : Nat) : Bool :=
  match l with
  | .a => f.linkASilent || f.stopA.getLsbD p
  | .b => f.linkBSilent || f.stopB.getLsbD p

/-- An ownership entry in negative encoding (R18). -/
def PendOwn.neg (q : PendOwn) : PendOwn := { old := ~~~q.old, new := ~~~q.new, boundary := ~~~q.boundary }

/-- The ownership entry, the pending entry and the command of a lane, in true form: lane B holds each in
negative encoding (R18). -/
def Chan.own (c : Chan) : Lane → BitVec 6
  | .a => c.ownA
  | .b => ~~~c.ownB

def Chan.pend (c : Chan) : Lane → Option PendOwn
  | .a => c.pendA
  | .b => c.pendB.map PendOwn.neg

def Chan.cmd (c : Chan) : Lane → Bool
  | .a => c.cmdA
  | .b => !c.cmdB

/-- A lane's entries as FD takes them, given in true form. -/
def Chan.setCmd (c : Chan) (l : Lane) (on : Bool) : Chan :=
  match l with
  | .a => { c with cmdA := on }
  | .b => { c with cmdB := !on }

def Chan.setOwn (c : Chan) (l : Lane) (o : BitVec 6) : Chan :=
  match l with
  | .a => { c with ownA := o }
  | .b => { c with ownB := ~~~o }

def Chan.setPend (c : Chan) (l : Lane) (q : Option PendOwn) : Chan :=
  match l with
  | .a => { c with pendA := q }
  | .b => { c with pendB := q.map PendOwn.neg }

/-- What a lane wrote of a change of owner, in true form. -/
def OwnChange.entry (c : OwnChange) : Lane → Option PendOwn
  | .a => c.a
  | .b => c.b.map PendOwn.neg

def OwnChange.write (c : OwnChange) (l : Lane) (q : PendOwn) : OwnChange :=
  match l with
  | .a => { c with a := some q }
  | .b => { c with b := some q.neg }

/-- A lane writes a pending entry of a channel: the second entry of the first change of it that lacks this lane's, or a new change (R32). -/
def noteChange (l : Lane) (n : Nat) (q : PendOwn) : List OwnChange → List OwnChange
  | [] => [({ ch := n } : OwnChange).write l q]
  | c :: r => if c.ch = n && (c.entry l).isNone then c.write l q :: r else c :: noteChange l n q r

/-- Both lanes command a channel off. -/
def Chan.cmdsOff (c : Chan) : Chan := (c.setCmd .a false).setCmd .b false

/-- The stop bits of a lane leave an output alone: its owner's, and while a change of owner is pending those of the old
and the new owner (R30, R31). -/
def State.ownerRuns (s : State) (l : Lane) (n : Nat) : Bool :=
  let c := s.chan n
  match c.pend l with
  | some q => decide (c.own l ≠ 0x3F#6) && !s.fd.stopBit l q.old.toNat && !s.fd.stopBit l q.new.toNat
  | none => decide (c.own l ≠ 0x3F#6) && !s.fd.stopBit l (c.own l).toNat

/-- What a NONSAFE_OUTPUT channel is commanded to (R233, R234). -/
def Chan.nsLevel (c : Chan) (l : Lane) : Bool :=
  if c.nsSrc = 0#2 then false
  else if c.nsSilent then
    (if c.silentState = 1#2 then true else if c.silentState = 2#2 then c.cmd l else false)
  else c.cmd l

/-- A member of the set of a channel waits for its commands to have been off (R218). -/
def State.waits (s : State) (n : Nat) : Bool := (s.unit n).any fun m => (s.chan m).ret

/-- The device drives no pin while it is in reset or in LOAD, and its outputs are off in OFF (R449, R450). -/
def State.powered (s : State) : Bool := !s.pm.inReset && s.pm.dstate != .load && s.pm.dstate != .off

/-- The switch of a lane is closed (R217, R221, R233, R450); a set follows its lowest channel, and a hold or a wait of any member. -/
def State.swClosed (s : State) (l : Lane) (n : Nat) : Bool :=
  let h := s.setHead n
  let c := s.chan h
  if !s.powered then false
  else if c.mode = 2#2 then
    c.cmd l && s.ownerRuns l h && !s.held h && !s.waits h && decide (c.pulse ≠ some l)
  else if c.mode = 3#2 then c.nsLevel l && !s.held h && !s.waits h
  else false

/-- A channel conducts: both switches are closed. -/
def State.conducts (s : State) (n : Nat) : Bool := s.swClosed .a n && s.swClosed .b n

/-- An output mode: SAFETY_OUTPUT or NONSAFE_OUTPUT. -/
def Chan.isOutput (c : Chan) : Bool := c.mode == 2#2 || c.mode == 3#2

/-- A hold begins or ends on channels: running pulses end, and the return rule of R218 waits for both commands to be off, of
NONSAFE_OUTPUT channels too (R232). -/
def State.holdChans (s : State) (ns : List Nat) : State :=
  s.updChans ns fun _ c => { c with ret := c.ret || c.isOutput, pulse := none }

/-- A GSTOP-forced stop ends: the outputs wait, and raise no readback fault while they do (R206). -/
def State.gstopWait (s : State) (ns : List Nat) : State :=
  (s.holdChans ns).updChans ns fun _ c => { c with retG := true }

/-- All channels. -/
def allChans : List Nat := List.range 64

/-- SAFETY_OUTPUT channels. -/
def State.safetyChans (s : State) : List Nat := below 64 fun n => (s.chan n).mode == 2#2

/-- The channels of a group (R189). -/
def grpChans (g : Nat) : List Nat := (List.range 16).map fun i => 16 * g + i

/-! ### Points FD writes (R199, R206, R208, R226) -/

/-- The device has reached RUN, so a group supply raises faults (R443) and inputs are read (R442). -/
def State.started (s : State) : Bool :=
  match s.pm.dstate with
  | .load | .startTest | .config => false
  | _ => true

/-- A condition of R199 holds on an input, or RUN has not been reached (R442). -/
def State.inputBad (s : State) (n : Nat) : Bool :=
  let c := s.chan n
  !s.started || decide (c.mode ≠ 1#2) || (s.grp (n / 16)).belowIn || c.wireBreak || c.ov || c.loopbackFail

/-- The input point of a channel. -/
def State.inputPt (s : State) (n : Nat) : Pt :=
  if s.inputBad n || (s.chan n).restoring then 0#2 else ptVal (s.chan n).level

/-- The feedback point of a channel (R43, R206, R218, R226, R342). -/
def State.feedbackPt (s : State) (n : Nat) : Pt :=
  let c := s.chan n
  if c.mode ≠ 2#2 || c.restoring then 0#2
  else if (s.unit n).any (fun m => (s.chan m).latched) then 0#2
  else if s.held n || s.waits n then ptVal false
  else ptVal c.fbLevel

/-- The GSTOP points 0x2_0200 to 0x2_0203. -/
def State.gstopPts (s : State) : List (Nat × Pt) :=
  let f := s.fd
  let bad := !f.gstopEn || f.gsDisc
  let q (v : Bool) : Pt := if bad then 0#2 else ptVal v
  [(0x20200, q f.gsA), (0x20201, q f.gsB), (0x20202, q (f.gsA && f.gsB)),
   (0x20203, ptVal (!f.gstopEn || !f.gsStop))]

/-- The capture word of a unit in a sample: 0x0000 while EN is 0 (R203). -/
def State.capWord (s : State) (c : Nat) : BitVec 16 :=
  let u := s.capUnit c
  if u.en then u.count else 0#16

/-! ### Owning zones -/

/-- The zones whose outputs the set of a channel drives. -/
def State.zonesOfChan (s : State) (n : Nat) : List Nat :=
  (s.unit n).filterMap fun m => s.ownerOfChan m

end Sys2Proof.Machine
end

