-- ==== Sys2Proof/Machine/FieldIn.lean ====
section
/-!
DEFINITION. Field inputs, samples, capture units and GSTOP (R189 to R216).
-/
namespace Sys2Proof.Machine
open Sys2Proof

/-! ### Samples (R21, R196, R206, R218) -/

/-- Channels whose commands of both lanes are off, as a sample shows them. -/
def State.offChans (s : State) : List Nat :=
  below 64 fun n =>
    let c := s.chan (s.setHead n)
    c.mode == 2#2 && !c.cmd .a && !c.cmd .b

/-- The commands of an output are off in both lanes: what its return waits for (R218, R232). -/
def State.off (s : State) (n : Nat) : Bool :=
  let c := s.chan (s.setHead n)
  if c.mode = 3#2 then !c.nsLevel .a && !c.nsLevel .b else !c.cmd .a && !c.cmd .b

/-- FD sends one sample to both lanes: every input, feedback and GSTOP point and the capture words, under the next
sample number. An output whose holds have ended and whose commands both are off may return (R218). -/
def State.sendSample (s : State) : State :=
  let pts := (allChans.map fun n => (0x20000 + n, s.inputPt n)) ++
    (allChans.map fun n => (0x20100 + n, s.feedbackPt n)) ++ s.gstopPts
  let off := s.offChans
  let num := s.fd.sampleNum + 1#32
  let t : Trans := {
    body := .sample num pts (negPts pts) ((List.range 16).map s.capWord) off
    repA := true, repB := true, okA := true, okB := true, since := s.now }
  let s' := { s with
    fd := { s.fd with sampleNum := num }
    trans := s.trans ++ [t] }
  s'.updChans allChans fun n c =>
    { c with
      inPoint := s.inputPt n, outPoint := s.feedbackPt n,
      ret := c.ret && (s.held n || !s.off n), retG := c.retG && !s.off n }

/-- A point has changed, so a sample goes out (R196). In Dormant mode FD sends none (R455). -/
def execSample (s : State) : Host.Outcome State Fault Refusal :=
  ok (if s.pm.dstate = .dormant then s else s.sendSample)

/-- 25 µs without a sample (R196). -/
def execPeriodicSample (s : State) : Host.Outcome State Fault Refusal :=
  ok (if s.pm.dstate = .dormant then s else s.sendSample)

/-! ### Inputs -/

/-- A level with hysteresis: 1 from `on` upwards, 0 from `off` downwards, between them as it was (R191). -/
def hyst (was : Bool) (on off mv : Nat) : Bool := if on ≤ mv then true else if mv ≤ off then false else was

/-- The switch-on and switch-off thresholds of a terminal in mV, inside the tolerances of R190 with at least 1 V between them: where
in its range each stands is free (DESIGN CHOICE, log entry 67). -/
def thresholds (k : Nat) (type3 : Bool) : Nat × Nat :=
  let on := if type3 then 9000 + Config.freeThreshold k % 2001 else 13000 + Config.freeThreshold k % 2001
  let off := if type3 then 5000 + Config.freeThreshold (k + 256) % 3501 else 8000 + Config.freeThreshold (k + 256) % 4001
  (on, min off (on - 1000))

/-- The raw level of a channel (R191, R192): its terminal against the thresholds of its TYPE, or in wire-break mode against 0.75 and
0.70 of the group's supply, each within 3 % of it (DESIGN CHOICE, log entry 67). -/
def Chan.rawLevel (c : Chan) (k mv vfs : Nat) : Bool :=
  if c.wbEn then
    let on := vfs * (720 + Config.freeThreshold (k + 512) % 61) / 1000
    if on ≤ mv then true else if mv < on - vfs * 5 / 100 then false else c.raw
  else let t := thresholds k c.type3
    hyst c.raw t.1 t.2 mv

/-- A read of the raw level of a channel: a terminal above the rising threshold of wire-break mode is no broken wire (R192). -/
def Chan.readRaw (c : Chan) (k mv vfs : Nat) : Chan :=
  let v := c.rawLevel k mv vfs
  { c with raw := v, wireBreak := c.wireBreak && !v }

/-- A read of a channel in INPUT mode, and of its group's supply: where the raw level has now been read on DEBOUNCE
consecutive reads, the debounced level takes it (R194). -/
def execInputDebounce (ch : Fin 64) (r : InputRead) (s : State) : Host.Outcome State Fault Refusal :=
  ok (if (s.chan ch).mode = 1#2 then
    s.updChan ch fun c =>
      let c := c.readRaw ch r.mv r.vfs
      { c with level := if r.stood then c.raw else c.level }
   else s)

/-- One full debounce time after the last condition of R199 ended. -/
def execInputRestore (ch : Fin 64) (s : State) : Host.Outcome State Fault Refusal :=
  ok (if s.inputBad ch then s else s.updChan ch fun c => { c with restoring := false })

/-- The wire-break threshold of a channel in µA (DESIGN CHOICE, log entry 67). -/
def breakUa (k : Nat) : Nat := 280 + Config.freeThreshold (k + 768) % 71

/-- A channel in wire-break mode is classified by its terminal and, below the rising threshold, by its input current in µA (R192, R199).
Each onset of a wire break counts and posts an event, at most one in 10 ms. -/
def execWireBreak (ch : Fin 64) (r : WireRead) (s : State) : Host.Outcome State Fault Refusal :=
  let c := s.chan ch
  if c.mode = 1#2 && c.wbEn then
    let s := s.updChan ch fun c => c.readRaw ch r.mv r.vfs
    let broken := !(s.chan ch).raw && decide (r.ua < breakUa ch)
    if broken && !c.wireBreak then
      let post := s.mayPost c.wbEvAt
      let cnt := satInc c.wbCnt 255
      let s := s.updChan ch fun c =>
        { c with
          wireBreak := true, wbCnt := cnt, restoring := true,
          wbEvAt := if post then some s.now else c.wbEvAt }
      ok (if post then s.postEvent 0x06 3 (ch + fld cnt 8 8) else s)
    else ok (s.updChan ch fun c => { c with wireBreak := broken })
  else ok s

/-- The terminal rises above the over-voltage level of R190, or falls below 40 V (R199) (DESIGN CHOICE, log entry 67). -/
def execInputOv (ch : Fin 64) (mv : Nat) (s : State) : Host.Outcome State Fault Refusal :=
  let above := if 41000 + Config.freeThreshold (ch + 1024) % 1001 < mv then true else if mv < 40000 then false else (s.chan ch).ov
  ok (if (s.chan ch).mode = 1#2 then
    s.updChan ch fun c => { c with ov := above, restoring := c.restoring || above } else s)

/-! ### Channel modes (R189, R195, R209, R225) -/

/-- A channel takes a mode: entering INPUT its level starts at 0 and the point waits a debounce time; leaving an output
mode its commands and a running pulse end. -/
def Chan.enter (c : Chan) (m : BitVec 2) : Chan :=
  if c.mode = m then c
  else
    { c.cmdsOff with
      mode := m, level := false, restoring := decide (m = 1#2), wireBreak := false, ov := false,
      pulse := none, aPassed := none, fbLevel := false,
      ret := false, retG := false, nsSilent := false }

/-- WB_EN of a channel takes a value: clearing it ends a wire break, and the point waits a debounce time (R192, R199). -/
def Chan.setWb (c : Chan) (en : Bool) : Chan := { c with wbEn := en, wireBreak := c.wireBreak && en }

/-- A channel in NONSAFE_OUTPUT mode with the source HOST (R233). -/
def Chan.byHost (c : Chan) : Bool := c.mode == 3#2 && c.nsSrc == 1#2

/-- A channel that has come to NONSAFE_OUTPUT mode with the source HOST follows the last value written to FD_CH_NS_CMD (R233). -/
def State.hostSource (s : State) (n : Nat) (was : Bool) : State :=
  let c := s.chan n
  if c.byHost && !was then (s.pushFd .a (.nonsafe n c.nsOn)).pushFd .b (.nonsafe n c.nsOn) else s

/-- Outputs that stand under a hold in the modes they now have wait for their commands to have been off once it ends (R218). -/
def State.holdEntered (s : State) (ns : List Nat) : State :=
  s.updChans ns fun n c => { c with ret := c.ret || (c.isOutput && s.held n) }

/-- Channels are members of other units than before: a pulse that runs on one is over, not judged, as with a change of its mode (R225),
and a window that is open, or a pulse that waits for its end, is that of the unit its channel belongs to now (R223) (DEDUCED, log entry
66). -/
def State.newUnits (s : State) (ns : List Nat) : State :=
  (s.updChans ns fun _ c => { c with pulse := none }).updFd fun f => { f with
    pulseWin := f.pulseWin.map s.setHead
    pulseWait := f.pulseWait.map fun x => match x with
      | .pulse h l k => .pulse (s.setHead h) l k
      | w => w }

/-- FD_CH_CFG.MODE discards a value (R209). -/
def State.modeBad (s : State) (n : Nat) (m : BitVec 2) : Bool :=
  (s.chan n).member || (decide ((s.chan n).par ≠ 0#2) && decide (m.toNat < 2))

/-- A write of FD_CH_CFG that is taken, with every member of a set. -/
def State.setMode (s : State) (n : Nat) (m : BitVec 2) : State :=
  let t := (s.updChans (s.setOf n) fun _ c => c.enter m).holdEntered (s.setOf n)
  (s.setOf n).foldl (fun t k => t.hostSource k (s.chan k).byHost) t

/-- A write of FD_CH_CFG[n] (R12, R209). -/
def execChannelModeWrite (ch : Fin 64) (value : Word) (s : State) : Host.Outcome State Fault Refusal :=
  let m := BitVec.ofNat 2 (bits value 1 0)
  let t := s.judgeWl (0x18000 + 0x40 * ch)
  if s.wlLocked then ok (t.wrej 1 0 (0x18000 + 0x40 * ch))
  else if s.modeBad ch m then ok (t.wrej 3 0 (0x18000 + 0x40 * ch))
  else ok (t.setMode ch m)

/-! ### Capture units (R201 to R203, R212) -/

/-- M of the majority filter (R201). -/
def Cap.window (u : Cap) : Nat := 2 * u.filt.toNat + 1

/-- One raw read of a capture unit (R201, R202): the filtered level is the majority of the last M reads, an edge of the selected kind
counts, and every N-th advances COUNT. -/
def Cap.take (u : Cap) (raw : Bool) : Cap :=
  let h := (raw :: u.hist).take u.window
  let f := decide (u.window < 2 * (h.filter id).length)
  let hit := (u.edge.getLsbD 0 && !u.filt1 && f) || (u.edge.getLsbD 1 && u.filt1 && !f)
  let u := { u with hist := h, filt1 := f }
  if hit then
    if u.residue = u.presc.toNat then { u with count := u.count + 1#16, residue := 0 } else { u with residue := u.residue + 1 }
  else u

/-- The filter starts again from the current raw level (R203). -/
def Cap.restart (u : Cap) (raw : Bool) : Cap :=
  { u with count := 0#16, residue := 0, hist := List.replicate u.window raw, filt1 := raw }

/-- A capture unit reads the terminal of its source channel every 250 ns: each read goes through the
thresholds of the channel, its majority filter and its edge selection (R201, R202). -/
def execCaptureCount (c : Fin 16) (r : CaptureReads) (s : State) : Host.Outcome State Fault Refusal :=
  let u := s.capUnit c
  let n := u.src.toNat
  if u.en && (s.chan n).mode == 1#2 then
    ok (r.mvs.foldl (fun t mv =>
      let t := t.updChan n fun c => c.readRaw n mv r.vfs
      t.updCap c fun u => u.take (t.chan n).raw) s)
  else ok s

/-- A write of FD_CAP_CFG that is taken (R203): it writes every field, so a unit that is enabled after it starts anew; one that is
disabled discards RESIDUE and what its filter holds, and keeps COUNT. -/
def Cap.setCfg (u : Cap) (raw : Bool) (v : Word) : Cap :=
  let u' : Cap := { u with
    en := bit v 31, src := BitVec.ofNat 6 (bits v 21 16), edge := BitVec.ofNat 2 (bits v 13 12),
    filt := BitVec.ofNat 3 (bits v 10 8), presc := BitVec.ofNat 8 (bits v 7 0) }
  if !u'.en then { u' with residue := if u.en then 0 else u.residue, hist := [], filt1 := false }
  else u'.restart raw

/-- A write of FD_CAP_CFG[c] (R12, R212). -/
def execCaptureConfig (c : Fin 16) (value : Word) (s : State) : Host.Outcome State Fault Refusal :=
  let t := s.judgeWl (0x19300 + 8 * c)
  if s.wlLocked then ok (t.wrej 1 0 (0x19300 + 8 * c))
  else if bits value 13 12 = 0 || bits value 10 8 = 0 then ok (t.wrej 3 0 (0x19300 + 8 * c))
  else ok (t.updCap c fun u => u.setCfg (s.chan (bits value 21 16)).raw value)

/-! ### GSTOP (R204 to R208) -/

/-- A record of GSTOP or of a group changes from LATCHED to GONE (R312). -/
def State.recGone (s : State) (code : BitVec 16) (loc : BitVec 12) : State :=
  match s.findRec code loc with
  | some k =>
    match s.frec k with
    | some r =>
      match r.st with
      | .latched => (s.setRec k (some { r with st := .gone })).reportRec k
      | .gone => s
    | none => s
  | none => s

/-- GSTOP_DISC's location: every local safety output (R305). -/
def allGroups : BitVec 12 := 0x04F#12

/-- A read of a GSTOP terminal in mV against the TYPE3 thresholds; `stood` says that its raw level has now stood for the GSTOP debounce
of 30 µs (R204) (DESIGN CHOICE, log entry 67). -/
def Fd.readGstop (f : Fd) (pin : GstopPin) (mv : Nat) (stood : Bool) : Fd :=
  match pin with
  | .a =>
    let t := thresholds 64 true
    let v := hyst f.gsARaw t.1 t.2 mv
    { f with gsARaw := v, gsA := if stood then v else f.gsA }
  | .b =>
    let t := thresholds 65 true
    let v := hyst f.gsBRaw t.1 t.2 mv
    { f with gsBRaw := v, gsB := if stood then v else f.gsB }

/-- A GSTOP input is read, and debounces open where its raw level is 0 and has stood (R205): with GSTOP enabled a forced stop starts,
unless one is in effect. Both seen open since a latched discrepancy lets it be cleared (R207). While the device is held in reset
nothing is read (R204). -/
def State.readGstop (s : State) (pin : GstopPin) (mv : Nat) (stood : Bool) : State :=
  let s := s.updFd fun f => f.readGstop pin mv stood
  let s := s.updFd fun f => { f with gsAgreed := f.gsAgreed || f.gsA == f.gsB }
  let s := if s.fd.gstopEn && !s.fd.gsStop && (!s.fd.gsA || !s.fd.gsB) then
      (s.updFd fun f => { f with gsStop := true, gsStopCnt := satInc f.gsStopCnt 65535 }).holdChans s.safetyChans
    else s
  if s.fd.gsDisc && !s.fd.gsA && !s.fd.gsB && !s.fd.gsBothOpen then
    (s.updFd fun f => { f with gsBothOpen := true }).recGone 0x3012#16 allGroups
  else s

/-- GSTOP_OPEN: a read of the terminal that makes the input open (R205). -/
def execGstopOpen (r : GstopRead) (s : State) : Host.Outcome State Fault Refusal :=
  ok (if s.pm.inReset then s else s.readGstop r.pin r.mv r.stood)

/-- GSTOP_CLOSED: a read of the terminal that makes the input closed (R204). -/
def execGstopClosed (r : GstopRead) (s : State) : Host.Outcome State Fault Refusal :=
  ok (if s.pm.inReset then s else s.readGstop r.pin r.mv r.stood)

/-- Both inputs closed for 10 ms (R206): the forced stop ends, each output waiting for its commands to have been off. -/
def execGstopRelease (s : State) : Host.Outcome State Fault Refusal :=
  let f := s.fd
  if !s.pm.inReset && f.gsStop && f.gsA && f.gsB && !f.gsDisc && f.gstopEn then
    ok ((s.updFd fun f => { f with gsStop := false }).gstopWait s.safetyChans)
  else ok s

/-- The inputs have differed for longer than T_GDISC (R207): the discrepancy latches, or recurs where they have agreed since it did
(R312). -/
def execGstopDisc (s : State) : Host.Outcome State Fault Refusal :=
  let f := s.fd
  if f.gstopEn && decide (f.gsA ≠ f.gsB) && (!f.gsDisc || f.gsAgreed) then
    let s := (s.updFd fun f => { f with gsDisc := true, gsStop := true, gsBothOpen := false, gsAgreed := false }).holdChans s.safetyChans
    ok (s.raise 0x3012#16 allGroups true true 0 0 [])
  else ok s

/-- A write of FD_GSTOP_CFG that is taken (R208, R214). Clearing EN ends a forced stop at once; setting EN with an input
open starts one. -/
def State.gstopCfg (s : State) (v : Word) : State :=
  let en := bit v 31
  let stop := if !en then false else s.fd.gsStop || !s.fd.gsA || !s.fd.gsB || s.fd.gsDisc
  let start := stop && !s.fd.gsStop
  let t := s.updFd fun f => { f with
    gstopEn := en, tGdisc := BitVec.ofNat 10 (bits v 9 0), gsStop := stop,
    gsStopCnt := if start then satInc f.gsStopCnt 65535 else f.gsStopCnt }
  if start then t.holdChans s.safetyChans else if s.fd.gsStop && !stop then t.gstopWait s.safetyChans else t

/-- T_GDISC outside its range (R214). -/
def gstopCfgBad (v : Word) : Bool := decide (bits v 9 0 < 10) || decide (1000 < bits v 9 0)

/-- A write that clears FD_GSTOP_CFG.EN (R208). -/
def execGstopDisable (value : Word) (s : State) : Host.Outcome State Fault Refusal :=
  let t := s.judgeWl 0x19210
  if s.wlLocked then ok (t.wrej 1 0 0x19210)
  else if gstopCfgBad value then ok (t.wrej 3 0 0x19210)
  else ok (t.gstopCfg (setBit value 31 false))

end Sys2Proof.Machine
end

