-- ==== Sys2Proof/Machine/FieldOut.lean ====
section
/-!
DEFINITION. Field outputs: test pulses, readback, channel faults, group supplies, non-safety outputs (R217 to R246).
-/
namespace Sys2Proof.Machine
open Sys2Proof

/-! ### Channel faults (R227, R229) -/

/-- FD latches a fault on a channel: the fault bit on every member of its set, the set held open, and a report for
the lanes (R221, R229). -/
def State.chanFault (s : State) (n : Nat) (code : BitVec 16) (f : Chan → Chan) : State :=
  let ms := s.unit n
  ((s.updChans ms fun _ c => f c).holdChans ms).updFd fun d => { d with reports := d.reports ++ [(n, code)] }

def State.faultSwA (s : State) (n : Nat) : State := s.chanFault n 0x3001#16 fun c => { c with fltSwA := true }
def State.faultSwB (s : State) (n : Nat) : State := s.chanFault n 0x3002#16 fun c => { c with fltSwB := true }
def State.faultExt (s : State) (n : Nat) : State := s.chanFault n 0x3003#16 fun c => { c with fltExt := true }

/-- Codes whose owning zone goes FAULTED (R227, R229): not ON_FAIL and OPEN_LOAD. LOOPBACK_FAIL does so on an output
(R340); an input has no owner. -/
def faultsZone (code : BitVec 16) : Bool :=
  !(code == 0x3008#16 || code == 0x3009#16)

/-- The lanes have FD's report of a channel fault (R229): the record, and the owning zones FAULTED where R227 says so. -/
def State.laneReport (s : State) (n : Nat) (code : BitVec 16) (detail : Nat) : State :=
  s.raise code (BitVec.ofNat 12 n) true true detail 0 (if faultsZone code then s.zonesOfChan n else [])

/-- A report leaves FD's list. -/
def dropReport (n : Nat) (code : BitVec 16) : List (Nat × BitVec 16) → List (Nat × BitVec 16)
  | [] => []
  | r :: rs => if r.1 = n && r.2 = code then rs else r :: dropReport n code rs

/-- Both lanes receive a report FD has to make (R229). -/
def execChannelFaultReport (ch : Fin 64) (code : BitVec 16) (s : State) : Host.Outcome State Fault Refusal :=
  if s.fd.reports.contains (ch.val, code) then
    let s := s.updFd fun f => { f with reports := dropReport ch code f.reports }
    ok (s.laneReport ch code (if code = 0x3004#16 then (s.chan ch).partner else 0))
  else ok s

/-! ### Test pulses (R222 to R225) -/

/-- A pulse of a unit starts and opens its window: only while both switches would be closed; else it is skipped (R222). -/
def State.startPulse (s : State) (h : Nat) (lane : Lane) (period : Nat) : State :=
  let c := s.chan h
  if c.mode = 2#2 && c.tpEn && c.pulse.isNone && s.conducts h then
    (s.updChan h fun c => { c with pulse := some lane, pulsePer := period }).updFd fun f => { f with pulseWin := some h }
  else s

/-- A pulse of a unit that falls due in the window of another is counted as deferred and waits for its end (R223); one that falls due while
its output is off is skipped, not deferred (R222). -/
def State.putOff (s : State) (h : Nat) (lane : Lane) (period : Nat) : State :=
  let c := s.chan h
  if c.mode = 2#2 && c.tpEn && s.conducts h then
    (s.updChan h fun c => { c with tpDefer := satInc c.tpDefer 255 }).updFd fun f =>
      { f with pulseWait := f.pulseWait ++ [.pulse h lane period] }
  else s

/-- A pulse unit's phase falls due in a period of FD's pulse schedule, counted from the unit's configuration (R222, R223). While another
unit's window is open the pulse is counted as deferred and starts at the end of that window. -/
def execTestPulseStart (ch : Fin 64) (lane : Lane) (period : Nat) (s : State) : Host.Outcome State Fault Refusal :=
  let h := s.setHead ch
  let c := s.chan h
  if c.mode = 2#2 && c.tpEn then
    match s.fd.pulseWin with
    | some w =>
      if w = h then ok (s.startPulse h lane period) else ok (s.putOff h lane period)
    | none => ok (s.startPulse h lane period)
  else ok s

/-- The A pulse of the same period as the pulse in progress has passed (R224). -/
def Chan.aHasPassed (c : Chan) : Bool := decide (c.aPassed = some c.pulsePer)

/-- The verdict on one member at the end of a pulse of its unit: mid node and terminal above the OFF level (R224). -/
def State.judgePulse (s : State) (l : Lane) (aOk : Bool) (m : Nat) (mid term : Bool) : State :=
  match l with
  | .a => if mid then s.faultSwA m else if term then s.faultExt m else s
  | .b => if !term then s else if aOk then s.faultSwB m else s.faultExt m

/-! ### Readback (R226) -/

/-- Both lanes command the output of a channel on; the members of a set follow its lowest channel. -/
def State.commandedOn (s : State) (n : Nat) : Bool :=
  let c := s.chan (s.setHead n)
  c.cmd .a && c.cmd .b

/-- The pulse window of a channel's own unit is open (R223, R225, R226). -/
def State.inWindow (s : State) (n : Nat) : Bool :=
  (s.chan (s.setHead n)).pulse.isSome || decide (s.fd.pulseWin = some (s.setHead n))

/-- The checks of R226 run on this channel: SAFETY_OUTPUT mode, outside its own pulse windows, and not while its set waits after a
GSTOP-forced stop (R206). -/
def State.checked (s : State) (n : Nat) : Bool :=
  (s.chan n).mode == 2#2 && !s.inWindow n && !(s.unit n).any fun m => (s.chan m).retG

/-- FB_FILT equal reads of the terminal (R226); reads inside a pulse window do not count. TERM shows it in every mode (R241), the feedback
point, which a calibration had made invalid, of a SAFETY_OUTPUT channel alone (R226, R342). -/
def execFeedbackDebounce (ch : Fin 64) (level : Bool) (s : State) : Host.Outcome State Fault Refusal :=
  let c := s.chan ch
  ok (if s.inWindow ch then s
    else if c.mode = 2#2 then s.updChan ch fun c => { c with fbLevel := level, term := level, restoring := false }
    else s.updChan ch fun c => { c with term := level })

/-- A voltage on an output, which is a cross-short where that is latched (R228). -/
def State.faultTerm (s : State) (n : Nat) : State :=
  if (s.chan n).fltCross then s.chanFault n 0x3004#16 fun c => c else s.faultExt n

/-- The terminal of an output commanded off, once OFF_WIN + FB_FILT have elapsed. A voltage that is latched is a fault again only where the
terminal has been found low since (R312) (DEDUCED, log entry 66). -/
def execOffCheck (ch : Fin 64) (termHigh : Bool) (s : State) : Host.Outcome State Fault Refusal :=
  let c := s.chan ch
  if !s.checked ch || s.commandedOn ch then ok s
  else
    let s := s.updChan ch fun c => { c with offHigh := termHigh }
    ok (if termHigh && !(c.offHigh && (c.fltExt || c.fltCross)) then s.faultTerm ch else s)

/-- The mid node of an output that is off, its switch A open: above the OFF level it means SW_A_STUCK, again only where it has been found
low since that latched (R312) (DEDUCED, log entry 66). MID shows whether it stands at the ON level (R241). -/
def execMidNodeCheck (ch : Fin 64) (r : MidRead) (s : State) : Host.Outcome State Fault Refusal :=
  let c := s.chan ch
  let t := s.updChan ch fun c => { c with mid := r.atOn }
  if !s.checked ch || s.swClosed .a ch then ok t
  else
    let t := t.updChan ch fun c => { c with midHigh := r.aboveOff }
    ok (if r.aboveOff && !(c.midHigh && c.fltSwA) then t.faultSwA ch else t)

/-- The terminal of an output that conducts, 100 µs + FB_FILT after its on command and from then on. -/
def execOnCheck (ch : Fin 64) (atOn inLimit : Bool) (s : State) : Host.Outcome State Fault Refusal :=
  ok (if s.checked ch && s.conducts ch && !atOn && !inLimit then
    s.chanFault ch 0x3008#16 fun c => { c with fltOn := true } else s)

/-- The 1 ms source test of an output that is off, with OL_EN = 1; a load that is latched as open is so again only where a test has found
it connected since (R312) (DEDUCED, log entry 66). -/
def execOpenLoadTest (ch : Fin 64) (above4V : Bool) (s : State) : Host.Outcome State Fault Refusal :=
  let c := s.chan ch
  if !s.checked ch || !c.olEn || s.conducts ch then ok s
  else
    let s := s.updChan ch fun c => { c with olHigh := above4V }
    ok (if above4V && !(c.olHigh && c.fltOpen) then s.chanFault ch 0x3009#16 fun c => { c with fltOpen := true } else s)

/-- An output that is on, with OL_EN = 1, below 3 mA for 100 ms. -/
def execOpenLoad (ch : Fin 64) (s : State) : Host.Outcome State Fault Refusal :=
  ok (if s.checked ch && (s.chan ch).olEn && s.conducts ch then
    s.chanFault ch 0x3009#16 fun c => { c with fltOpen := true } else s)

/-- In current limit for the time of R219 (R227, R233). -/
def execOverload (ch : Fin 64) (s : State) : Host.Outcome State Fault Refusal :=
  ok (if (s.chan ch).isOutput then s.chanFault ch 0x3005#16 fun c => { c with fltOver := true } else s)

/-- Junction above thermal shutdown (R227, R233). -/
def execThermal (ch : Fin 64) (s : State) : Host.Outcome State Fault Refusal :=
  ok (if (s.chan ch).isOutput then s.chanFault ch 0x3006#16 fun c => { c with fltTherm := true } else s)

/-- One member of a set carries less than its share (R221). -/
def execShareFault (ch : Fin 64) (s : State) : Host.Outcome State Fault Refusal :=
  ok (if (s.chan ch).mode = 2#2 && decide (1 < (s.unit ch).length) then
    s.chanFault ch 0x3007#16 fun c => { c with fltShare := true } else s)

/-- The supply is above UV_OFF + 0.5 V (R232, R443). -/
def Grp.aboveEnd (q : Grp) : Bool := decide (q.uvOff.toNat * 10 + 50 < q.vfs.toNat)

/-- The supply is inside the band of R232: above UV_OFF + 0.5 V and below 41.0 V. -/
def Grp.inBand (q : Grp) : Bool := q.aboveEnd && decide (q.vfs.toNat < 4100)

/-- An EXT_VOLTAGE record of a channel changes to CROSS_SHORT in place (R312), FL_FIRST with it (R324). -/
def State.reclassify (s : State) (x y : Nat) : State :=
  let loc := BitVec.ofNat 12 x
  match s.findRec 0x3003#16 loc with
  | some k =>
    match s.frec k with
    | some r =>
      let f := s.fl
      let f := if f.firstCode = 0x3003#16 && f.firstLoc = loc && f.firstTime = r.time then { f with firstCode := 0x3004#16 } else f
      (({ s with fl := f }).setRec k (some { r with code := 0x3004#16, detail := BitVec.ofNat 16 y })).reportRec k
    | none => s
  | none => s.laneReport x 0x3004#16 y

/-- X's terminal falls after Y opened (R228): both are CROSS_SHORT with each other as partner, Y is latched off and its
zone goes FAULTED. Members of one set are never partners. -/
def execCrossShort (x y : Fin 64) (s : State) : Host.Outcome State Fault Refusal :=
  if (s.chan x).fltExt && (s.chan y).mode == 2#2 && !(s.unit x).contains y.val then
    let s := s.updChans (s.unit x) fun _ c => { c with fltExt := false, fltCross := true, partner := y }
    let s := (s.updChans (s.unit y) fun _ c => { c with fltCross := true, partner := x }).holdChans (s.unit y)
    let s := s.updFd fun f => { f with reports := dropReport x 0x3003#16 f.reports }
    ok ((s.reclassify x y).laneReport y 0x3004#16 x)
  else ok s

/-- The terminal or mid node of a channel whose record has GONE has been found low: the next high reading is the trigger anew (R312,
R318). -/
def Chan.foundLow (c : Chan) (code : BitVec 16) : Chan :=
  if code = 0x3001#16 then { c with midHigh := false } else { c with offHigh := false }

/-- A terminal condition that FD watches has held for 10 ms (R312): below the OFF level for the stuck-switch, external
voltage and cross-short codes. -/
def execRecordGone (k : Fin 64) (s : State) : Host.Outcome State Fault Refusal :=
  match s.frec k with
  | none => ok s
  | some r =>
    let watched := r.code = 0x3001#16 || r.code = 0x3002#16 || r.code = 0x3003#16 || r.code = 0x3004#16 ||
      r.code = 0x3010#16 || r.code = 0x3011#16
    if watched && decide (r.st = .latched) then
      let s := if r.code = 0x3010#16 || r.code = 0x3011#16 then
        s.updGrp (r.loc.toNat - 0x40) fun g => { g with stood := g.inBand }
        else s.updChan r.loc.toNat fun c => c.foundLow r.code
      ok ((s.setRec k (some { r with st := .gone })).reportRec k)
    else ok s

/-! ### Group supplies (R200, R230 to R232) -/

/-- A reading of the supply: the 10 ms of R232 start anew where it leaves the band. -/
def Grp.reads (q : Grp) (vfs : BitVec 16) : Grp :=
  let q := { q with vfs := vfs }
  { q with stood := q.stood && q.inBand }

/-- A reading below a threshold of 0.1 V steps, with 0.5 V hysteresis; `vfs` in 10 mV. -/
def belowThr (was : Bool) (thr : Nat) (vfs : BitVec 16) : Bool :=
  if was then decide (vfs.toNat < thr * 10 + 50) else decide (vfs.toNat < thr * 10)

/-- UV_WARN: an onset counts and posts an event (R230). -/
def execUvWarn (g : Fin 4) (vfs : BitVec 16) (s : State) : Host.Outcome State Fault Refusal :=
  let q := s.grp g
  let b := belowThr q.belowWarn q.uvWarn.toNat vfs
  let on := b && !q.belowWarn
  let s := s.updGrp g fun q =>
    { q.reads vfs with belowWarn := b, warnCnt := if on then satInc q.warnCnt 65535 else q.warnCnt }
  ok (if on then s.postEvent 0x07 3 (g + fld vfs.toNat 16 16) else s)

/-- UV_IN: while it holds the group's inputs are invalid, and each waits a debounce time when it ends (R199, R200). -/
def execUvIn (g : Fin 4) (vfs : BitVec 16) (s : State) : Host.Outcome State Fault Refusal :=
  let q := s.grp g
  let b := belowThr q.belowIn q.uvIn.toNat vfs
  let s := s.updGrp g fun q => { q.reads vfs with belowIn := b }
  ok (if b then s.updChans (grpChans g) fun _ c =>
    { c with restoring := c.restoring || decide (c.mode = 1#2) } else s)

/-- A group latch sets: counted, the group's outputs held (R231, R245). A second cause on a group that is latched already counts no second
time, and the hold at RUN of R443 counts as one (DESIGN CHOICE, log entry 77). -/
def State.grpLatch (s : State) (g : Nat) (f : Grp → Grp) : State :=
  let fresh := !(s.grp g).latched
  let s := s.updGrp g fun q =>
    { f q with stood := false, latchCnt := if fresh then satInc q.latchCnt 65535 else q.latchCnt }
  s.holdChans (grpChans g)

/-- A group latch sets and its fault is posted (R231). -/
def State.grpFault (s : State) (g : Nat) (code : BitVec 16) (vfs : BitVec 16) (f : Grp → Grp) : State :=
  (s.grpLatch g f).raise code (BitVec.ofNat 12 (0x40 + g)) true true (vfs.toNat / 10) 0 []

/-- UV_OFF; before RUN no group raises GROUP_UVOFF (R443). -/
def execUvOff (g : Fin 4) (vfs : BitVec 16) (s : State) : Host.Outcome State Fault Refusal :=
  let q := s.grp g
  let b := belowThr q.belowOff q.uvOff.toNat vfs
  let s := s.updGrp g fun q => { q.reads vfs with belowOff := b }
  ok (if b && !q.belowOff && s.started then s.grpFault g 0x3010#16 vfs fun q => { q with uvoffLatch := true } else s)

/-- OV: fixed 42.0 V with 1.0 V hysteresis. A rise latches the group and holds its outputs at any time (R231); one that occurs before RUN
raises no record (R443). -/
def execGroupOv (g : Fin 4) (vfs : BitVec 16) (s : State) : Host.Outcome State Fault Refusal :=
  let q := s.grp g
  let b := if q.aboveOv then decide (4100 < vfs.toNat) else decide (4200 < vfs.toNat)
  let s := s.updGrp g fun q => { q.reads vfs with aboveOv := b }
  ok (if b && !q.aboveOv then
    (if s.started then s.grpFault g 0x3011#16 vfs fun q => { q with ovLatch := true }
     else s.grpLatch g fun q => { q with ovLatch := true }) else s)

/-- A record of a group latch is held. -/
def State.grpRec (s : State) (g : Nat) : Bool :=
  (s.findRec 0x3010#16 (BitVec.ofNat 12 (0x40 + g))).isSome || (s.findRec 0x3011#16 (BitVec.ofNat 12 (0x40 + g))).isSome

/-- The supply has stood in range for 10 ms: the hold from the start of RUN ends with no clear needed and whatever its upper limit (R443);
the records' cause is gone, and with them cleared the latch ends (R232). -/
def execGroupLatchEnd (g : Fin 4) (s : State) : Host.Outcome State Fault Refusal :=
  let s := if (s.grp g).startHold && (s.grp g).aboveEnd then
      (s.updGrp g fun q => { q with startHold := false }).holdChans (grpChans g) else s
  let q := s.grp g
  if q.inBand then
    let loc := BitVec.ofNat 12 (0x40 + g)
    let s := s.updGrp g fun q => { q with stood := true }
    if s.grpRec g || s.fl.overflow then ok ((s.recGone 0x3010#16 loc).recGone 0x3011#16 loc)
    else if q.latched then
      ok ((s.updGrp g fun q => { q with ovLatch := false, uvoffLatch := false }).holdChans (grpChans g))
    else ok s
  else ok s

/-! ### Non-safety outputs (R233, R234, R240) -/

/-- A host write of FD_CH_NS_CMD: stored, and for a HOST source sent to both lanes' switches, whose word ends a silence when FD takes it
(R234). -/
def State.nsCmd (s : State) (src n : Nat) (value : Word) : State :=
  let c := s.chan n
  if c.mode ≠ 3#2 then s.wrej 3 src (0x18024 + 0x40 * n)
  else
    let on := bit value 0
    let s := s.updChan n fun c => { c with nsOn := on }
    if c.nsSrc = 1#2 then (s.pushFd .a (.nonsafe n on)).pushFd .b (.nonsafe n on) else s

def execNsCmd (ch : Fin 64) (value : Word) (s : State) : Host.Outcome State Fault Refusal := ok (s.nsCmd 0 ch value)

/-- The source has been silent for SILENT_T (R234). -/
def execNsSilent (ch : Fin 64) (s : State) : Host.Outcome State Fault Refusal :=
  let c := s.chan ch
  if c.mode = 3#2 && decide (c.nsSrc ≠ 0#2) && !c.nsSilent then
    ok ((s.updChan ch fun c => { c with nsSilent := true }).postEvent 0x08 3 (ch + fld c.silentState.toNat 8 8))
  else ok s

end Sys2Proof.Machine
end

