-- ==== Sys2Proof/Machine/Aes.lean ====
section
/-!
DEFINITION. AES-128 and AES-CMAC (R291). The manual names the algorithm, NIST SP 800-38B; its steps are those of
the standard (PRESUMED, log entry 12).
-/
namespace Sys2Proof.Machine
open Sys2Proof

/-- Multiplication by x in the field of AES. -/
def xtime (b : Nat) : Nat := if b < 128 then b * 2 else ((b * 2) ^^^ 0x1B) % 256

/-- Product in the field of AES, over `n` bits of the second factor. -/
def gmulGo : Nat → Nat → Nat → Nat
  | 0, _, _ => 0
  | n + 1, a, b => (if b % 2 = 1 then a else 0) ^^^ gmulGo n (xtime a) (b / 2)

def gmul (a b : Nat) : Nat := gmulGo 8 a b

/-- a ^ (2^n - 1), the square chain of the inverse. -/
def gpow : Nat → Nat → Nat
  | 0, _ => 1
  | n + 1, a => gmul a (gmul (gpow n a) (gpow n a))

/-- The inverse a ^ 254; 0 for 0. -/
def ginv (a : Nat) : Nat := gmul (gpow 7 a) (gpow 7 a)

/-- A byte rotated left. -/
def rotl8 (b n : Nat) : Nat := (b * 2 ^ n) % 256 + b / 2 ^ (8 - n)

/-- SubBytes of one byte. -/
def sbox (a : Nat) : Nat :=
  let b := ginv a
  b ^^^ rotl8 b 1 ^^^ rotl8 b 2 ^^^ rotl8 b 3 ^^^ rotl8 b 4 ^^^ 0x63

/-- Byte k of a block. -/
def byteAt (s : List Nat) (k : Nat) : Nat := s.getD k 0

/-- Two blocks added. -/
def xorBytes (a b : List Nat) : List Nat := (List.range 16).map fun i => byteAt a i ^^^ byteAt b i

/-- SubBytes and ShiftRows; the block is held column by column. -/
def subShift (s : List Nat) : List Nat :=
  (List.range 16).map fun i => sbox (byteAt s ((i + 4 * (i % 4)) % 16))

/-- MixColumns. -/
def mixColumns (s : List Nat) : List Nat :=
  (List.range 16).map fun i =>
    let c := i / 4 * 4
    let b (k : Nat) : Nat := byteAt s (c + (i + k) % 4)
    gmul (b 0) 2 ^^^ gmul (b 1) 3 ^^^ b 2 ^^^ b 3

/-- The round key after k, with round constant rc. -/
def nextKey (k : List Nat) (rc : Nat) : List Nat :=
  let t (i : Nat) : Nat := sbox (byteAt k (12 + (i + 1) % 4)) ^^^ (if i = 0 then rc else 0)
  let w0 := (List.range 4).map fun i => byteAt k i ^^^ t i
  let w1 := (List.range 4).map fun i => byteAt k (4 + i) ^^^ byteAt w0 i
  let w2 := (List.range 4).map fun i => byteAt k (8 + i) ^^^ byteAt w1 i
  w0 ++ w1 ++ w2 ++ (List.range 4).map fun i => byteAt k (12 + i) ^^^ byteAt w2 i

/-- Rounds 1 to 10. -/
def aesRounds : Nat → Nat → List Nat → List Nat → List Nat
  | 0, _, _, s => s
  | n + 1, rc, k, s =>
    let k := nextKey k rc
    let s := subShift s
    aesRounds n (xtime rc) k (xorBytes (if n = 0 then s else mixColumns s) k)

/-- AES-128 of a block (PRESUMED, log entry 12). -/
def aes128 (key blk : List Nat) : List Nat := aesRounds 10 1 key (xorBytes blk key)

/-- A block doubled in the field of CMAC. -/
def dbl (s : List Nat) : List Nat :=
  let v := s.foldl (fun a b => a * 256 + b) 0 * 2
  let v := if 2 ^ 128 ≤ v then (v - 2 ^ 128) ^^^ 0x87 else v
  (bytesBE 16 v).map BitVec.toNat

/-- CBC over whole blocks, `n` of them at most. -/
def cbc : Nat → List Nat → List Nat → List Nat → List Nat
  | 0, _, acc, _ => acc
  | n + 1, key, acc, m =>
    if m.length ≤ 16 then acc
    else cbc n key (aes128 key (xorBytes acc (m.take 16))) (m.drop 16)

/-- What CBC leaves of a message: its last block, whole or in part. -/
def lastBlock (m : List Nat) : List Nat := m.drop ((m.length - 1) / 16 * 16)

/-- AES-CMAC: the 16 bytes (PRESUMED, log entry 12). -/
def cmac128 (key m : List Nat) : List Nat :=
  let k1 := dbl (aes128 key (List.replicate 16 0))
  let l := lastBlock m
  let fin := if l.length = 16 then xorBytes l k1
    else xorBytes (l ++ 0x80 :: List.replicate (15 - l.length) 0) (dbl k1)
  aes128 key (xorBytes (cbc m.length key (List.replicate 16 0) m) fin)

/-- The tag of R291: the first 8 bytes of the CMAC, most significant first (PRESUMED, log entry 12). -/
def cmacTag (key : List Byte) (m : List Byte) : Word64 :=
  BitVec.ofNat 64 (((cmac128 (key.map BitVec.toNat) (m.map BitVec.toNat)).take 8).foldl (fun a b => a * 256 + b) 0)

end Sys2Proof.Machine
end

