-- ==== Sys2Proof/Machine/Frames.lean ====
section
/-!
DEFINITION. Hyger frames: their bytes, points and checks (R256 to R258, R282, R290, R291), and the transmit queue of a port
(R265).
-/
namespace Sys2Proof.Machine
open Sys2Proof

/-! ### Frame types and payloads -/

/-- FTYPE of R257. -/
def ftData : BitVec 4 := 1#4
def ftOpen : BitVec 4 := 2#4
def ftOpenAck : BitVec 4 := 3#4
def ftOpenRefuse : BitVec 4 := 4#4
def ftClose : BitVec 4 := 5#4

/-- REASON of R284. -/
def rsNoVersion : Nat := 0x01
def rsMismatch : Nat := 0x02
def rsNotReady : Nat := 0x03
def rsHostClose : Nat := 0x10
def rsRemoved : Nat := 0x11
def rsPeerFault : Nat := 0x12
def rsShutdown : Nat := 0x13

/-- Frame offsets 1 to 8 + P: from the header byte to the last payload byte (R256, R257, R290). -/
def frameBytes (f : Frame) : List Byte :=
  let h := f.ftype.toNat * 16 + f.ver.toNat * 4 + (if f.cmac then 2 else 0) + (if f.resv then 1 else 0)
  bytesBE 1 h ++ bytesBE 2 f.handle.toNat ++ [f.seq8] ++ bytesBE 4 f.tstamp.toNat ++ f.payload

/-- The bytes the CRCs cover: the implicit prefix, then the frame (R290). -/
def covered (connId seq : Word) (f : Frame) : List Byte :=
  bytesBE 4 connId.toNat ++ bytesBE 4 seq.toNat ++ frameBytes f

/-- The tag of a frame: the prefix, then offsets 1 to 16 + P, which end with CRC-B (R291). -/
def frameTag (key : BitVec 128) (connId seq : Word) (f : Frame) : Word64 :=
  cmacTag (bytesBE 16 key.toNat) (covered connId seq f ++ bytesBE 4 f.crcA.toNat ++ bytesBE 4 f.crcB.toNat)

/-- The Hyger body of a frame: offsets 1 to 16 + P + 8 × M of R256 (R263). -/
def bodyBytes (f : Frame) : List Byte :=
  frameBytes f ++ bytesBE 4 f.crcA.toNat ++ bytesBE 4 f.crcB.toNat ++ (if f.cmac then bytesBE 8 f.tag.toNat else [])

/-- The frame a body spells; a body too short for its header and CRCs spells none. -/
def frameOf (b : List Byte) : Option Frame :=
  let h := fieldBE b 0 1
  let cmac := h / 2 % 2 = 1
  let rest := 16 + (if cmac then 8 else 0)
  if b.length < rest then none
  else
    let n := b.length - rest
    some {
      ftype := BitVec.ofNat 4 (h / 16), ver := BitVec.ofNat 2 (h / 4), cmac := cmac, resv := decide (h % 2 = 1)
      handle := BitVec.ofNat 16 (fieldBE b 1 2), seq8 := BitVec.ofNat 8 (fieldBE b 3 1), tstamp := word (fieldBE b 4 4)
      payload := (b.drop 8).take n, crcA := word (fieldBE b (8 + n) 4), crcB := word (fieldBE b (12 + n) 4)
      tag := if cmac then BitVec.ofNat 64 (fieldBE b (16 + n) 8) else 0#64 }

/-- The bytes of a tunnel frame from its destination address to its FCS (R260). -/
def tunnelBytes (c : PortCfg) (ident : BitVec 16) (mac : BitVec 48) (ip : Word) (body : List Byte) : List Byte :=
  let n := body.length
  let ipHead (sum : Nat) : List Byte :=
    [0x45#8, BitVec.ofNat 8 (4 * c.dscp.toNat)] ++ bytesBE 2 (36 + n) ++ bytesBE 2 ident.toNat ++ bytesBE 2 0x4000 ++
    [c.ttl, 0x11#8] ++ bytesBE 2 sum ++ bytesBE 4 c.ip.toNat ++ bytesBE 4 ip.toNat
  let b := bytesBE 6 mac.toNat ++ bytesBE 6 c.mac.toNat ++ bytesBE 2 0x0800 ++ ipHead (0xFFFF - fold16 (sum16 (ipHead 0))) ++
    bytesBE 2 c.udpPort.toNat ++ bytesBE 2 c.udpPort.toNat ++ bytesBE 2 (16 + n) ++ bytesBE 2 0 ++
    bytesBE 2 0x4859 ++ [1#8, 0#8] ++ bytesBE 2 n ++ bytesBE 2 0 ++ body
  b ++ bytesLE 4 (fcs b).toNat

/-- The key of a connection with CMAC, where the lanes hold it. -/
def State.connKey (s : State) (d : ConnDecl) : Option (BitVec 128) := tabGet none s.otp.keys d.keyId

/-- A frame completed with both CRCs and, where CMAC is declared, its tag. -/
def State.sealFrame (s : State) (d : ConnDecl) (seq : Word) (f : Frame) : Frame :=
  let b := covered d.connId seq f
  let f := { f with crcA := crcA b, crcB := crcB b }
  if d.cmac then { f with tag := ((s.connKey d).map fun k => frameTag k d.connId seq f).getD 0#64 } else f

/-- A lane's own CRC: LA checks CRC-A alone, LB CRC-B alone (R17, R290). -/
def crcOk (l : Lane) (connId seq : Word) (f : Frame) : Bool :=
  match l with
  | .a => decide (f.crcA = crcA (covered connId seq f))
  | .b => decide (f.crcB = crcB (covered connId seq f))

/-- The CMAC, when in force (R291, R292). -/
def State.cmacOk (s : State) (d : ConnDecl) (seq : Word) (f : Frame) : Bool :=
  !d.cmac ||
  match s.connKey d with
  | some k => decide (f.tag = frameTag k d.connId seq f)
  | none => false

/-- The points of a DATA payload (R258): byte k holds points 4k to 4k + 3. A pair of bits with qualifier 0 is an invalid point,
whose value is 0 (R40) (DEDUCED, log entry 42). -/
def unpackPoints (payload : List Byte) (n : Nat) : List Pt :=
  (List.range n).map fun i =>
    let p := BitVec.ofNat 2 ((payload.getD (i / 4) 0#8).toNat / 4 ^ (i % 4))
    if isValid p then p else 0#2

/-- Payload of a direction in bytes (R154). -/
def payloadBytes (points : Nat) : Nat := max 4 (4 * ceilDiv points 16)

/-- A DATA payload of points; positions beyond the last are 0b00 (R258). -/
def packWith (pad : Pt) (ps : List Pt) : List Byte :=
  (List.range (payloadBytes ps.length)).map fun k =>
    BitVec.ofNat 8 ((List.range 4).foldl (fun a j => a + (ps.getD (4 * k + j) pad).toNat * 4 ^ j) 0)

def packPoints (ps : List Pt) : List Byte := packWith 0#2 ps

/-- A payload in negative encoding, and a frame as lane B hands it to HB: payload and CRC-B complemented, which HB complements back (R18,
R290). -/
def negBytes (p : List Byte) : List Byte := p.map (~~~ ·)
def negFrame (f : Frame) : Frame := { f with payload := negBytes f.payload, crcB := ~~~f.crcB }

/-- Versions an end offers, as VER_MAP (R283). -/
def State.offer (s : State) (d : ConnDecl) : Nat :=
  let lo := if d.cmac then 3 else if (s.port d.port).live.tunnel then max 2 d.minVer else d.minVer
  (List.range 4).foldl (fun a v => a + flag (decide (1 ≤ v) && decide (lo ≤ v)) v) 0

/-- Points from opener to listener, and back. -/
def ptsOL (d : ConnDecl) : Nat := if d.listener then d.rxPoints else d.txPoints
def ptsLO (d : ConnDecl) : Nat := if d.listener then d.txPoints else d.rxPoints

/-- FLAGS, point counts, T_CYC and WATCHDOG of a payload match a declaration (R283). -/
def agrees (d : ConnDecl) (p : List Byte) : Bool :=
  decide (fieldBE p 1 1 = (if d.cmac then 1 else 0)) && decide (fieldBE p 2 2 = ptsOL d) && decide (fieldBE p 4 2 = ptsLO d) &&
  decide (fieldBE p 12 4 = d.tCyc) && decide (fieldBE p 16 4 = d.watchdog)

/-- Payloads of R282. -/
def payOpen (verMap : Nat) (d : ConnDecl) (nonce : Word) : List Byte :=
  bytesBE 1 verMap ++ bytesBE 1 (if d.cmac then 1 else 0) ++ bytesBE 2 (ptsOL d) ++ bytesBE 2 (ptsLO d) ++ bytesBE 2 0 ++
  bytesBE 4 nonce.toNat ++ bytesBE 4 d.tCyc ++ bytesBE 4 d.watchdog

def payAck (ver : Nat) (d : ConnDecl) (nonce echo : Word) : List Byte := payOpen ver d nonce ++ bytesBE 4 echo.toNat

def payRefuse (reason verMap : Nat) (echo : Word) : List Byte :=
  bytesBE 1 reason ++ bytesBE 1 verMap ++ bytesBE 2 0 ++ bytesBE 4 echo.toNat

def payClose (reason : Nat) : List Byte := bytesBE 1 reason ++ bytesBE 7 0

/-! ### The hub links (R23) -/

/-- The first received frame that waits for a lane is lost on the hub link, which keeps their order; the lane never sees a lost DATA frame
(R22, R23). That it is the first, and not a later one, whose content is lost is DESIGN CHOICE (log entry 73). -/
def loseFirst : List RxFrame → List RxFrame
  | [] => []
  | x :: r =>
    if x.lost then x :: loseFirst r
    else if x.frame.ftype = ftData then r
    else { x with lost := true } :: r

/-- A lane's copy of a safety entry is lost on its hub link (R23). -/
def State.loseCopy (s : State) (l : Lane) (r : Nat) : State :=
  if (s.ring r).checking.isNone then s
  else s.updRing r fun q => match l with
    | .a => { q with lostA := true }
    | .b => { q with lostB := true }

/-- HB takes no event from the lanes' queues, or takes every one that waits (R379, R380). -/
def State.holdEvents (s : State) (hold : Bool) : State :=
  let s := { s with hi := { s.hi with evHold := hold } }
  if hold then s else State.takeWords (s.evqA.words.length + s.evqB.words.length + 2) s

/-! ### The transmit queue (R252, R253, R265, R269, R298) -/

/-- Ports send idle only: from reset until RUN, and once powered down (R269, R449). -/
def State.txHeld (s : State) : Bool :=
  match s.pm.dstate with
  | .load | .startTest | .config | .off => true
  | _ => false

/-- The lanes send nothing more once the connections have been closed for Dormant mode or a shutdown (R452, R454). -/
def State.txIdle (s : State) : Bool :=
  match s.pm.dstate with
  | .dormant | .off => true
  | .shutdown => s.pm.bistDue
  | _ => false

/-- An idle port that is UP starts its next queued frame (R256, R260). The first tunnel frame has Identification 0 (DESIGN CHOICE, log entry
64). -/
def State.kick (s : State) (p : Nat) : State :=
  let q := s.port p
  match q.queue, q.inFlight with
  | f :: r, none =>
    if q.st = .up && !s.txHeld then
      let b := bodyBytes f.frame
      s.updPort p fun q =>
        if q.live.tunnel then
          { q with inFlight := some f, queue := r, ident := q.ident + 1#16, wire := tunnelBytes q.live q.ident f.mac f.ip b }
        else { q with inFlight := some f, queue := r, wire := b }
    else s
  | _, _ => s

/-- A frame replaces the queued one of its connection. -/
def replaceFrame (f : TxFrame) : List TxFrame → List TxFrame
  | [] => []
  | g :: r => if g.slot = f.slot then f :: r else g :: replaceFrame f r

/-- A merged frame is queued: in place of the connection's queued frame, counted TX_STALE, or behind the others; a frame that
waits behind more than one other counts TX_LATE (R298). A DISABLED port keeps no queue (R253) (DEDUCED, log entry 42). -/
def State.enqueue (s : State) (p : Nat) (t : TxFrame) : State :=
  let q := s.port p
  if q.st = .disabled then s
  else
    let old := q.queue.any fun g => decide (g.slot = t.slot)
    let ahead := (q.queue.takeWhile fun g => decide (g.slot ≠ t.slot)).length + (if q.inFlight.isSome then 1 else 0)
    let s := s.updPort p fun q =>
      if old then { q with queue := replaceFrame t q.queue, txStale := satInc q.txStale 65535 } else { q with queue := q.queue ++ [t] }
    let s := if 1 < ahead then s.updConn t.slot fun c => { c with txLate := satInc c.txLate 3 } else s
    if old then s else s.kick p

/-- Both lanes' frames wait for the merge, lane B's in its encoding (R26). -/
def State.toMerge (s : State) (slot : Nat) (d : ConnDecl) (fa fb : Frame) : State :=
  s.updConn slot fun c => { c with
    txBuilt := c.txBuilt ++ [{ port := d.port, mac := d.partnerMac, ip := d.partnerIp, frameA := fa, frameB := fb }] }

/-- Both lanes build a frame that carries no points, for HB to merge (R26, R282, R285). Opening frames use sequence number 0. -/
def State.sendFrame (s : State) (slot : Nat) (ft : BitVec 4) (ver : Nat) (seq : Word) (payload : List Byte) : State :=
  match (s.conn slot).decl, s.txIdle with
  | none, _ => s
  | some _, true => s
  | some d, false =>
    let f : Frame := {
      ftype := ft, ver := BitVec.ofNat 2 ver, cmac := d.cmac, resv := false, handle := d.txHandle, seq8 := seq.setWidth 8,
      tstamp := s.us, payload := payload, crcA := 0#32, crcB := 0#32, tag := 0#64 }
    let g := s.sealFrame d seq f
    s.toMerge slot d g (negFrame g)

end Sys2Proof.Machine
end

