-- ==== Sys2Proof/Machine/Operands.lean ====
section
/-!
DEFINITION. Operands of blocks: how a block of a pair reads its inputs (R45, R75, R98 to R100), and the block
catalogue of R96.
-/
namespace Sys2Proof.Machine
open Sys2Proof

/-- Slots of a block (R96). -/
def kindSlots : BlockKind → Nat
  | .and | .or | .xor | .not | .sr | .restart | .ton _ | .toff _ | .pulse _ | .couple _ => 1
  | .estop _ _ | .dualeq _ _ | .dualant _ _ | .guard _ _ _ _ _ | .enable _ | .modesel _
  | .standstill _ _ _ _ | .edm _ _ | .safeout _ _ _ _ => 2
  | .glock _ _ | .twohand _ => 3
  | .curtain _ _ m _ _ _ _ => if m = 0 then 2 else 4
  | .unlisted _ => 0

/-- State words of a block (R96). -/
def kindWords : BlockKind → Nat
  | .not | .couple _ => 1
  | .and | .or | .xor | .sr | .restart | .ton _ | .toff _ | .pulse _ => 2
  | .edm _ _ => 3
  | .estop _ _ | .dualeq _ _ | .dualant _ _ | .enable _ | .modesel _ | .safeout _ _ _ _ => 4
  | .guard _ _ _ _ _ | .glock _ _ | .twohand _ => 5
  | .standstill _ _ _ _ => 6
  | .curtain _ _ _ _ _ _ _ => 10
  | .unlisted _ => 0

/-- Timer channels of a block (R96). -/
def kindTimers : BlockKind → Nat
  | .estop _ _ | .dualeq _ _ | .dualant _ _ | .glock _ _ | .enable _ | .modesel _ | .edm _ _
  | .ton _ | .toff _ | .pulse _ => 1
  | .guard _ _ _ _ _ | .restart => 2
  | .curtain _ _ _ _ _ _ _ | .twohand _ | .standstill _ _ _ _ => 3
  | _ => 0

/-- Type codes of R96. -/
def kindCode : BlockKind → Nat
  | .and => 0x01
  | .or => 0x02
  | .xor => 0x03
  | .not => 0x04
  | .sr => 0x05
  | .estop _ _ => 0x10
  | .dualeq _ _ => 0x11
  | .dualant _ _ => 0x12
  | .curtain _ _ _ _ _ _ _ => 0x14
  | .guard _ _ _ _ _ => 0x16
  | .glock _ _ => 0x17
  | .twohand _ => 0x18
  | .enable _ => 0x19
  | .modesel _ => 0x1A
  | .standstill _ _ _ _ => 0x1C
  | .restart => 0x20
  | .edm _ _ => 0x21
  | .safeout _ _ _ _ => 0x22
  | .ton _ => 0x30
  | .toff _ => 0x31
  | .pulse _ => 0x32
  | .couple _ => 0x40
  | .unlisted c => c

/-- A block whose output a block before it in the order may read (R100). -/
def kindBreaks : BlockKind → Bool
  | .sr | .ton _ | .toff _ | .pulse _ => true
  | _ => false

/-- Number of outputs that are signals, which OUT of R137 shows (R96): what the table names as an output of SAFEOUT, COUPLE and RESTART,
an output of the device, an internal point and an edge, is no signal (DESIGN CHOICE, log entry 70). -/
def blockOuts (b : Block) : Nat :=
  match b.kind with
  | .curtain _ _ _ _ _ _ _ | .glock _ _ | .edm _ _ => 2
  | .modesel _ => b.ins.length
  | .restart | .safeout _ _ _ _ | .couple _ | .unlisted _ => 0
  | _ => 1

/-! ### Initial states (R102) -/

/-- The initial state of a dual-channel machine (R109). -/
def dualInit (startTest : Nat) : Nat := if startTest = 1 then 0 else 1

/-- State codes of a block that has made no step: what its initial state is with inputs not valid yet (DEDUCED, log entry 22). -/
def initSt : BlockKind → Nat × Nat
  | .estop _ t | .dualeq _ t | .dualant _ t => (dualInit t, 0)
  | .curtain _ t m _ _ _ _ => (if m = 0 then 0 else 3, dualInit t)
  | .guard _ t _ _ _ => (0, dualInit t)
  | .twohand _ => (3, 0)
  | .enable _ => (1, 0)
  | .restart => (4, 0)
  | .edm _ _ => (3, 0)
  | _ => (0, 0)

/-- A block loaded with its initial state before its first pass (R102, R137, R178): no diagnostic holds, and a code it showed until now
has changed (R138) (DEDUCED, log entry 22). -/
def BlockRt.fresh (r : BlockRt) (k : BlockKind) : BlockRt :=
  let n := if r.diag = 0 then 0 else 1
  { r.initial with
    st := (initSt k).1, sub := (initSt k).2, diag := 0, diagCnt := satAdd r.diagCnt n 255, evCnt := satAdd r.evCnt n 255 }

/-- The output of a block as the state memory holds it; an output not written yet reads invalid (R99). -/
def sigOf (rts : List BlockRt) (blk out : Nat) : Pt :=
  match rts[blk]? with
  | some r => r.outs.getD out 0#2
  | none => 0#2

/-- An operand: a point of the frozen image, a signal of the zone, or a constant (R98). A pair of bits that
is neither valid 0 nor valid 1 reads as invalid (R40). -/
def readOperand (img : Nat → Pt) (rts : List BlockRt) : Operand → Pt
  | .point a => if isValid (img a) then img a else 0#2
  | .sig _ b o => sigOf rts b o
  | .const v => ptVal v

/-- The inputs of a block as a pass reads them; `none` is an input not declared. -/
def readIns (img : Nat → Pt) (rts : List BlockRt) (b : Block) : List (Option Pt) :=
  b.ins.map fun o => o.map (readOperand img rts)

/-- Input k, invalid where it is not declared. -/
def inp (i : List (Option Pt)) (k : Nat) : Pt := ((i[k]?).join).getD 0#2

/-- Input k, a default where it is not declared. -/
def inpD (d : Pt) (i : List (Option Pt)) (k : Nat) : Pt := ((i[k]?).join).getD d

/-- Input k is declared. -/
def declared (i : List (Option Pt)) (k : Nat) : Bool := ((i[k]?).join).isSome

end Sys2Proof.Machine
end

