-- ==== Sys2Proof/Machine/Admission.lean ====
section
/-!
DEFINITION. Deadline admission (R139 to R163): placement and capacity, connections and ports, paths, the refusal
record, the admission registers.
-/
namespace Sys2Proof.Machine
open Sys2Proof

/-! ### The set of an operation -/

/-- Zones whose STAGED version is admitted. -/
def OpKind.set : OpKind → List Nat
  | .admission zs _ => zs
  | .change zs _ _ => zs
  | _ => []

/-- Zones whose ACTIVE version moves. -/
def OpKind.copies : OpKind → List Nat
  | .change _ cs _ => cs
  | .migrate cs _ _ _ _ => cs
  | _ => []

/-- The pair they move from. -/
def OpKind.src : OpKind → Nat
  | .change _ _ p => p
  | .migrate _ p _ _ _ => p
  | _ => 0x3F

/-- It is a migration or a change, which EP_MIG_STAT reports (R187) (DEDUCED, log entry 36). -/
def OpKind.moves : OpKind → Bool
  | .change _ _ _ => true
  | .migrate _ _ _ _ _ => true
  | _ => false

/-! ### Counts and bounds -/

/-- The zone number of a version. -/
def ZoneVer.num (v : ZoneVer) : Nat := v.sec.zone.toNat

/-- The shift S of a version: 8 where its section declares none (R168). -/
def ZoneVer.shift (v : ZoneVer) : Nat := v.sec.shift.getD 8

/-- Slots, state words and timer channels of a version (R96). -/
def ZoneVer.slots (v : ZoneVer) : Nat := (v.sec.blocks.map fun b => kindSlots b.kind).sum
def ZoneVer.stWords (v : ZoneVer) : Nat := (v.sec.blocks.map fun b => kindWords b.kind).sum
def ZoneVer.timers (v : ZoneVer) : Nat := (v.sec.blocks.map fun b => kindTimers b.kind).sum

/-- Points a version reads. -/
def ZoneVer.reads (v : ZoneVer) : List Nat :=
  v.sec.blocks.flatMap fun b => b.ins.filterMap fun o =>
    match o with
    | some (.point a) => some a
    | _ => none

/-- T_pb in ns (R72). -/
def tPb (slots shift : Nat) : Nat := (slots + shift) * 4 + 500

/-- T_pb in the unit of EP_BOUND, 10 ns, rounded up (R91). -/
def boundOf (slots shift : Nat) : Nat := ceilDiv (tPb slots shift) 10

/-- Every version of every zone that holds slots on a pair: ACTIVE, ADMITTED STAGED, RETAINED (R167). -/
def State.versOn (s : State) (p : Nat) : List ZoneVer :=
  s.zones.flatMap fun e =>
    let y := e.2
    (match y.active with | some v => if v.pair = p then [v] else [] | none => []) ++
    (match y.staged with | some v => if v.admitted && v.pair = p then [v] else [] | none => []) ++
    (match y.retained with | some v => if v.pair = p then [v] else [] | none => [])

/-- Versions on a pair that count against every limit: ACTIVE and ADMITTED STAGED. -/
def State.fullOn (s : State) (p : Nat) : List ZoneVer :=
  s.zones.flatMap fun e =>
    let y := e.2
    (match y.active with | some v => if v.pair = p then [v] else [] | none => []) ++
    (match y.staged with | some v => if v.admitted && v.pair = p then [v] else [] | none => [])

/-- The ACTIVE versions that an operation has admitted onto a pair and not transferred yet: they count from their admission (R72, R142). -/
def State.copiesOn (s : State) (p : Nat) : List ZoneVer :=
  match s.op with
  | some op =>
    if op.tgt = p && decide (2 ≤ op.stage) && decide (op.stage ≤ 4) then
      op.kind.copies.filterMap fun z => match (s.zone z).active with
        | some v => if v.pair = p then none else some v
        | none => none
    else []
  | none => []

/-- N_slots of a pair (R72). -/
def State.nSlots (s : State) (p : Nat) : Nat := ((s.fullOn p ++ s.copiesOn p).map ZoneVer.slots).sum

/-- Values without repeats, last occurrences kept. -/
def distinct : List Nat → List Nat
  | [] => []
  | a :: r => if r.contains a then distinct r else a :: distinct r

/-! ### The refusal record (R162, R163, R404) -/

/-- A refusal, or the figures of an acceptance; `figs` is every figure that was computed. -/
structure AdmRec where
  reason : Nat
  zone : Option Nat := none
  fn : Option Nat := none
  safeout : Option Nat := none
  start : Option Nat := none
  pair : Option Nat := none
  port : Option Nat := none
  conn : Option Nat := none
  fails : Option Nat := none
  figure : Option Nat := none
  limit : Option Nat := none
  figs : List Nat := []
  deriving DecidableEq, Repr

/-- RESULT of a refused admission. A figure or a limit that needs more than the 32 bits of its field is kept modulo 2^32 (DESIGN CHOICE, log
entry 75). -/
def AdmRec.result (r : AdmRec) : Nat :=
  let set := flag r.zone.isSome 0 + flag r.fn.isSome 1 + flag r.safeout.isSome 2 + flag r.start.isSome 3 +
    flag r.pair.isSome 4 + flag r.port.isSome 5 + flag r.conn.isSome 6
  fld r.reason 8 0 + fld (r.zone.getD 0xFF) 8 8 + fld (r.fn.getD 0xFF) 8 16 + fld (r.pair.getD 0xFF) 8 24 +
  fld (r.safeout.getD 0x3FF) 10 32 + fld (r.port.getD 0x1F) 5 48 + fld set 7 56 + fld (r.start.getD 0x3FFFF) 18 64 +
  fld (r.conn.getD 0x7FF) 11 96 + fld (r.fails.getD 0xFFFF) 16 112 + fld (r.figure.getD 0xFFFFFFFF) 32 128 +
  fld (r.limit.getD 0xFFFFFFFF) 32 160

/-- What a steward folds of an admission step: its verdict and refusal record, and every figure (R157). -/
def AdmRec.words (r : AdmRec) : List Word := (List.range 6).map (fun i => word (r.result / 2 ^ (32 * i))) ++ r.figs.map word

/-- EP_ADM_LAST, EP_ADM_FIG and EP_ADM_LIMIT take steward A's result of an admission (R164, R165), and each steward folds its own (R157). -/
def State.storeAdm (s : State) (r rB : AdmRec) (reused : Bool) : State :=
  { s with adm :=
      { hashA := foldA s.adm.hashA r.words, hashB := foldB s.adm.hashB (rB.words.map (~~~ ·)), reason := r.reason, zone := r.zone.getD 0xFF, fn := r.fn.getD 0xFF, fnSet := r.fn.isSome,
        zoneSet := r.zone.isSome, reused := reused, valid := true,
        figure := word (r.figure.getD 0xFFFFFFFF), limit := word (r.limit.getD 0xFFFFFFFF) } }

/-! ### Placement and pair capacity (R155, R156) -/

/-- Pairs that carry zones: those whose role is CARRYING. A STOPPED or HALTED pair that still holds FAULTED zones is not counted (DESIGN
CHOICE, log entry 68). -/
def State.carrying (s : State) : List Nat := below 36 fun p => (s.pair p).role == .carrying

/-- Pairs FREE or TESTING. -/
def State.spares (s : State) : List Nat := below 36 fun p => (s.pair p).role == .free || (s.pair p).role == .testing

/-- The FREE pair with the lowest number; one whose debug halt waits for a pass end is passed over (DESIGN CHOICE, log entry 68). -/
def State.lowestFree (s : State) : Option Nat := (below 36 fun p => (s.pair p).role == .free && !(s.pair p).haltBit).head?

/-- Role codes of R87. -/
def Role.code : Role → Nat
  | .free => 0
  | .loading => 1
  | .carrying => 2
  | .testing => 3
  | .stopped => 4
  | .unusable => 5
  | .split => 6
  | .halted => 7

/-- Checks against the roles as they stand. The target of a running admission is LOADING and counts as the FREE pair it
was (R161). -/
def State.roleChecks (s : State) (p : Nat) : Option AdmRec :=
  let role := (s.pair p).role
  let free := role == .free || role == .loading
  let carry := distinct (p :: s.carrying)
  let left := (s.spares.filter (· ≠ p)).length
  if !free && role != .carrying then some { reason := 0x13, figure := some role.code, pair := some p }
  else if s.portMax < carry.length then
    some { reason := 0x11, figure := some carry.length, limit := some s.portMax, pair := some p }
  else if left = 0 then some { reason := 0x12, figure := some 0, limit := some 1, pair := some p }
  else none

/-- A limit of R61. -/
def limitCheck (code n lim p : Nat) : Option AdmRec :=
  if lim < n then some { reason := code, figure := some n, limit := some lim, pair := some p } else none

/-- The shift the target has, or takes (R156). -/
def State.admShift (s : State) (p : Nat) (run ret : List ZoneVer) : Nat :=
  if (s.pair p).role = .carrying then (s.pair p).shift else (((run ++ ret).head?).map ZoneVer.shift).getD 8

/-- Shift and capacity. `run` counts against every limit, `ret` against slots, state, timers and zones alone; a
RETAINED version of the set that the pair holds already is counted once (R183). The owned outputs are counted for each
version, so an output of two versions of one zone counts twice (DESIGN CHOICE, log entry 75). -/
def State.capacityChecks (s : State) (p : Nat) (run ret : List ZoneVer) : Option AdmRec :=
  let S := s.admShift p run ret
  match run.find? fun v => decide (v.shift ≠ S) with
  | some v => some { reason := 0x10, zone := some v.num, pair := some p, figure := some v.shift, limit := some S }
  | none =>
    let all := ((s.versOn p).filter fun v => !run.contains v) ++ run ++ ret
    let full := s.fullOn p ++ run
    let outs := full.flatMap fun v => safeouts v.sec.blocks
    (limitCheck 0x0A ((all.map ZoneVer.slots).sum) 1024 p).or <|
    (limitCheck 0x0B ((all.map ZoneVer.stWords).sum) 4096 p).or <|
    (limitCheck 0x0C (distinct (full.flatMap ZoneVer.reads)).length 4096 p).or <|
    (limitCheck 0x0D outs.length 256 p).or <|
    (limitCheck 0x0E all.length 64 p).or <|
    limitCheck 0x0F ((all.map ZoneVer.timers).sum) 256 p

/-! ### Declarations as they will stand at the commit (R169) -/

/-- The connection declarations in force, with those the versions of the set bring. -/
def State.declConns (s : State) (run : List ZoneVer) : List (Nat × ConnDecl) :=
  let news := run.flatMap fun v => v.conns
  (below 2048 fun k =>
    match news.find? (fun e => decide (e.1 = k)) with
    | some e => e.2.isSome
    | none => (s.conn k).decl.isSome).filterMap fun k =>
    match news.find? (fun e => decide (e.1 = k)) with
    | some e => e.2.map fun d => (k, d)
    | none => (s.conn k).decl.map fun d => (k, d)

/-- DEBOUNCE and FB_FILT of a channel as they will stand. -/
def State.declChan (s : State) (run : List ZoneVer) (n : Nat) : Nat × Nat :=
  match (run.flatMap fun v => v.chans).find? fun e => decide (e.1.val = n) with
  | some e => (e.2.debounce.toNat, e.2.fbFilt.toNat)
  | none => ((s.chan n).debounce.toNat, (s.chan n).fbFilt.toNat)

/-- A declaration consumes, or produces, a point. -/
def consumes (d : ConnDecl) (a : Nat) : Bool := decide (d.rxBase ≤ a) && decide (a < d.rxBase + d.rxPoints)
def produces (d : ConnDecl) (a : Nat) : Bool := decide (d.txBase ≤ a) && decide (a < d.txBase + d.txPoints)

/-! ### Connections and ports (R152 to R154) -/

/-- Framing overhead of a connection in bytes, with the framing that the port's settings hold, in force or not yet (DESIGN CHOICE, log
entry 68). -/
def State.overhead (s : State) (d : ConnDecl) : Nat :=
  (if (s.port d.port).cfg.tunnel then 90 else 24) + (if d.cmac then 8 else 0)

/-- A sum of fractions. -/
def addFrac (a b : Nat × Nat) : Nat × Nat := (a.1 * b.2 + b.1 * a.2, a.2 * b.2)

/-- Load of a port in one direction, in Mbit/s as a fraction (DEDUCED, log entry 61). -/
def State.portLoad (s : State) (cs : List (Nat × ConnDecl)) (tx : Bool) : Nat × Nat :=
  cs.foldl (fun a e =>
    addFrac a (8 * (payloadBytes (if tx then e.2.txPoints else e.2.rxPoints) + s.overhead e.2), max 1 e.2.tCyc)) (0, 1)

/-- Points of a port in both directions. -/
def pointsCheck (p : Nat) (cs : List (Nat × ConnDecl)) : Option AdmRec :=
  let pts := (cs.map fun e => e.2.rxPoints + e.2.txPoints).sum
  if 4096 < pts then some { reason := 0x06, figure := some pts, limit := some 4096, port := some p } else none

/-- Connections of a port. -/
def connsCheck (p : Nat) (cs : List (Nat × ConnDecl)) : Option AdmRec :=
  if 64 < cs.length then some { reason := 0x07, figure := some cs.length, limit := some 64, port := some p } else none

/-- Load of a port in kbit/s, rounded up; of two directions that exceed the limit receive is reported (DESIGN CHOICE, log entry 75). -/
def State.loadCheck (s : State) (p : Nat) (cs : List (Nat × ConnDecl)) : Option AdmRec :=
  let rx := s.portLoad cs false
  let tx := s.portLoad cs true
  if 800 * rx.2 < rx.1 then
    some { reason := 0x09, figure := some (ceilDiv (rx.1 * 1000) rx.2), limit := some 800000, port := some p, fn := some 0 }
  else if 800 * tx.2 < tx.1 then
    some { reason := 0x09, figure := some (ceilDiv (tx.1 * 1000) tx.2), limit := some 800000, port := some p, fn := some 1 }
  else none

/-- The connections and ports of an admission: those the set reads or writes, and every other on their ports. The checks run in the
order of R152 to R154: of several connections that fail the first or the second the one in the lowest slot is named, and the others run over
the ports in rising order (DESIGN CHOICE, log entry 75). -/
def State.connChecks (s : State) (run : List ZoneVer) : Option AdmRec :=
  let conns := s.declConns run
  let pts := run.flatMap fun v => v.reads ++ v.writes
  let used := conns.filter fun e => pts.any fun a => consumes e.2 a || produces e.2 a
  let ports := below 32 fun p => used.any fun e => decide (e.2.port = p)
  let mine := conns.filter fun e => ports.contains e.2.port
  match mine.find? fun e => decide (e.2.watchdog < 2 * e.2.tCyc) with
  | some e => some { reason := 0x04, figure := some e.2.watchdog, limit := some (2 * e.2.tCyc),
                     port := some e.2.port, conn := some e.1 }
  | none =>
    match mine.find? fun e => decide (s.portMax ≤ e.2.port) with
    | some e => some { reason := 0x05, figure := some e.2.port, limit := some (s.portMax - 1),
                       port := some e.2.port, conn := some e.1 }
    | none =>
      let on (p : Nat) := conns.filter fun e => decide (e.2.port = p)
      (ports.findSome? fun p => pointsCheck p (on p)).or <|
      (ports.findSome? fun p => connsCheck p (on p)).or <|
      if s.connMax < conns.length then some { reason := 0x08, figure := some conns.length, limit := some s.connMax }
      else ports.findSome? fun p => s.loadCheck p (on p)

/-! ### Paths (R139 to R151) -/

/-- The tables an admission reads: the versions as they will stand once the set is committed, each with its pair, T_eval of each pair
in ns, and the declarations that serve each version. A zone may stand there with its ACTIVE version and with an ADMITTED STAGED one. -/
structure World where
  vers : List ZoneVer
  eval : Nat → Nat
  deb : ZoneVer → Nat → Nat × Nat
  conns : ZoneVer → List (Nat × ConnDecl)
  standard : Nat → Bool

/-- The versions that write an internal or produced point. -/
def World.writers (w : World) (a : Nat) : List ZoneVer := w.vers.filter fun v => v.writes.contains a

/-- X_adm of R145 in ns, X in µs, rounded up. -/
def admTime (us : Nat) : Nat := us * 1000 + ceilDiv us 2 + 1000

/-- Inputs of a block that carry no deadline (R134, R140): no chain through one is checked, also one that comes to it through other blocks
(DEDUCED, log entry 68). -/
def monitoring (k : BlockKind) (i : Nat) : Bool :=
  match k with
  | .edm _ _ => true
  | .standstill _ _ _ _ => true
  | .glock _ _ => decide (i = 3) || decide (i = 4)
  | _ => false

/-- What TOFF adds to a path through it (R134, R141). -/
def toffTime (k : BlockKind) : Nat :=
  match k with
  | .toff t => admTime t
  | _ => 0

/-- A path: its start point, its T up to the output term, the zones it passes through with the pairs of their versions, and the debounce
of a start at a field input (5 of any other start). -/
structure Path where
  start : Nat
  t : Nat
  via : List (Nat × Nat)
  deb : Nat
  conn : Option (Nat × Nat)
  deriving DecidableEq, Repr

/-- The connection of a version's declarations that consumes a point. -/
def World.rxConn (w : World) (v : ZoneVer) (a : Nat) : Option (Nat × ConnDecl) :=
  if a < 0x20000 then (w.conns v).find? fun e => consumes e.2 a else none

/-- T_in of a start point that a version reads and that is not an internal point (R143). -/
def World.tIn (w : World) (v : ZoneVer) (a : Nat) : Option Nat :=
  if 0x20000 ≤ a then
    if a < 0x20040 then some ((w.deb v (a - 0x20000)).1 * 1000 + 8000)
    else if 0x20100 ≤ a && a < 0x20140 then some ((w.deb v (a - 0x20100)).2 * 1000 + 8000)
    else if 0x20200 ≤ a && a < 0x20204 then some 38000
    else none
  else (w.rxConn v a).map fun e => e.2.tCyc * 1000 + admTime e.2.watchdog + e.2.tNi * 1000 + 10000

/-- A path that starts at a point a version reads. -/
def World.pathFrom (w : World) (v : ZoneVer) (a t : Nat) (via : List (Nat × Nat)) : Path :=
  { start := a, t := t, via := via
    deb := if 0x20000 ≤ a && a < 0x20040 then (w.deb v (a - 0x20000)).1 else 5
    conn := (w.rxConn v a).map fun e => (e.2.port, e.1) }

/-- Every checked path back from an operand of a version. `t` is what the path has gathered so far without the T_eval of this zone, `hop`
says that this zone was entered by a hop, `seen` are the zones passed through, `blks` the blocks of this zone already on the chain. At a
zone already passed through a chain starts at an internal point, and ends with no start at a produced one (R139). A chain that reaches a
zone not admitted carries no deadline (R140). Of a chain that starts at an internal point the consumer's T_eval counts once, in the hop
term that R143 applies at the consumer as a first hop: no zone stands there as p0 of R141 beside it (DEDUCED, log entry 61). -/
def World.paths (w : World) : Nat → ZoneVer → Option Operand → Nat → List (Nat × Nat) → List Nat → List Path
  | 0, _, _, _, _, _ => []
  | n + 1, v, op, t, seen, blks =>
    match op with
    | none => []
    | some (.const _) => []
    | some (.sig _ b _) =>
      if blks.contains b then []
      else
        match v.sec.blocks[b]? with
        | none => []
        | some blk =>
          (List.range blk.ins.length).flatMap fun i =>
            if monitoring blk.kind i then []
            else w.paths n v ((blk.ins[i]?).join) (t + toffTime blk.kind) seen (b :: blks)
    | some (.point a) =>
      let ev := w.eval v.pair
      match w.tIn v a with
      | some tin => [w.pathFrom v a (t + ev + tin) seen]
      | none =>
        if w.standard a then []
        else
          let us := w.writers a
          if us.any fun u => seen.any fun e => decide (e.1 = u.num) then
            (if 0x20000 ≤ a then [w.pathFrom v a (t + ev + 200) seen] else [])
          else
            us.flatMap fun u =>
              let seen' := (u.num, u.pair) :: seen
              (List.range u.sec.blocks.length).flatMap fun i =>
                match u.sec.blocks[i]? with
                | none => []
                | some blk =>
                  match blk.kind with
                  | .couple x =>
                    if x = a then w.paths n u ((blk.ins[0]?).join) (t + ev + 200) seen' [i] else []
                  | .safeout (.point x) _ _ _ =>
                    if x = a then
                      w.paths n u ((blk.ins[0]?).join) (t + ev + 200) seen' [i] ++
                      w.paths n u ((blk.ins[1]?).join) (t + ev + 200) seen' [i]
                    else []
                  | _ => []

/-- A path with the function and the output it belongs to: `conn` is the port and slot of its remote end, of two the start's (DESIGN
CHOICE, log entry 68). -/
structure FnPath where
  zone : Nat
  fn : Nat
  out : Nat
  pair : Nat
  path : Path
  d : Nat
  off : Option (Nat × Nat)
  conn : Option (Nat × Nat)
  deriving DecidableEq, Repr

/-- A chain passes each version once and each block of it once, so it is shorter than this. -/
def World.pathFuel (w : World) : Nat := (w.vers.map fun v => v.sec.blocks.length + 2).sum + 2

/-- T_out of a target in ns (R144). -/
def World.tOut (w : World) (v : ZoneVer) (t : Target) (tExtra : Nat) : Nat :=
  match t with
  | .chan _ => 46000 + tExtra * 1000
  | .point a =>
    match (w.conns v).find? fun e => produces e.2 a with
    | some e => 10000 + e.2.tCyc * 1000 + e.2.tNo * 1000
    | none => 10000

/-- The checked paths of a version's functions. -/
def World.fnPaths (w : World) (v : ZoneVer) : List FnPath :=
  v.sec.fns.flatMap fun f => f.outs.flatMap fun o =>
    match v.sec.blocks[o]? with
    | none => []
    | some blk =>
      match blk.kind with
      | .safeout tgt cat delay tx =>
        let ps := w.paths w.pathFuel v ((blk.ins[0]?).join) 0 [(v.num, v.pair)] [o] ++
          w.paths w.pathFuel v ((blk.ins[1]?).join) 0 [(v.num, v.pair)] [o]
        let off := if cat = 1 then (f.dOff.map fun x => (admTime (delay * 1000), x * 1000)) else none
        let tc := match tgt with
          | .chan _ => none
          | .point a => ((w.conns v).find? fun e => produces e.2 a).map fun e => (e.2.port, e.1)
        ps.map fun p =>
          { zone := v.num, fn := f.num, out := o, pair := v.pair,
            path := { p with t := p.t + w.tOut v tgt tx }, d := f.d * 1000, off := off, conn := p.conn.or tc }
      | _ => []

/-- A path fails against D, or against D_OFF (R141, R148): the code, the figure and the limit in ns. -/
def FnPath.fails (p : FnPath) : Option (Nat × Nat × Nat) :=
  if p.d < p.path.t then some (0x01, p.path.t, p.d)
  else
    match p.off with
    | some (dl, lim) => if lim < p.path.t + dl then some (0x02, p.path.t + dl, lim) else none
    | none => none

/-- The order of R158: zone, function, SAFEOUT, start point. -/
def FnPath.le (a b : FnPath) : Bool :=
  decide (a.zone < b.zone) || (decide (a.zone = b.zone) && (decide (a.fn < b.fn) || (decide (a.fn = b.fn) &&
    (decide (a.out < b.out) || (decide (a.out = b.out) && decide (a.path.start ≤ b.path.start))))))

/-- The first of a list in that order. -/
def firstPath : List FnPath → Option FnPath
  | [] => none
  | p :: ps =>
    match firstPath ps with
    | none => some p
    | some q => if p.le q then some p else some q

/-- Figures in 10 ns, rounded up. -/
def tens (ns : Nat) : Nat := ceilDiv ns 10

/-- The record of a failing path; `own` says that its zone is in the set. A failing path of another zone reports T in either case
(R162). -/
def FnPath.refusal (p : FnPath) (own : Bool) (fails : Nat) : AdmRec :=
  let (c, f, l) := p.fails.getD (0, 0, 0)
  { reason := if own then c else 0x14, zone := some p.zone, fn := some p.fn, safeout := some p.out,
    start := some p.path.start, pair := some p.pair, port := p.conn.map Prod.fst, conn := p.conn.map Prod.snd,
    fails := some (min fails 65535), figure := some (tens (if own then f else p.path.t)), limit := some (tens l) }

/-- The larger ratio of two (figure, limit) pairs in ns with their zone and function; of two equal ones the first in zone and function
order (DESIGN CHOICE, log entry 61). -/
def worse (a b : Figures) : Figures :=
  if a.t * b.d < b.t * a.d then b
  else if a.t * b.d = b.t * a.d && (decide (b.zone < a.zone) || (decide (b.zone = a.zone) && decide (b.fn < a.fn))) then b
  else a

/-- The ratios of a path: T against D, and T + DELAY_adm against D_OFF. -/
def FnPath.figures (p : FnPath) : List Figures :=
  { t := p.path.t, d := p.d, zone := p.zone, fn := p.fn } ::
    (match p.off with
     | some (dl, lim) => [{ t := p.path.t + dl, d := lim, zone := p.zone, fn := p.fn }]
     | none => [])

/-- The largest ratio of a list. -/
def worst : List Figures → Option Figures
  | [] => none
  | f :: fs => some (fs.foldl worse f)

/-- The versions that hold slots on a pair once the set is committed, the set's own apart: the ACTIVE version of a zone of the set is
replaced, or has moved (R142). -/
def State.staysOn (s : State) (run : List ZoneVer) (q : Nat) : List ZoneVer :=
  s.zones.flatMap fun e =>
    (match e.2.active with
     | some v => if v.pair = q && !(run.any fun r => decide (r.num = e.1)) then [v] else []
     | none => []) ++
    (match e.2.staged with
     | some v => if v.admitted && v.pair = q then [v] else []
     | none => [])

/-- The versions an admission of `run` onto `p` computes with: the set on the target, and beside it the ACTIVE and the ADMITTED STAGED
version of every zone that is ADMITTED, ARMED, RUNNING or DEMANDED, each with the declarations that serve it. -/
def State.world (s : State) (p : Nat) (run : List ZoneVer) : World :=
  let set := run.map fun v => { v with pair := p }
  let others := s.zones.flatMap fun e =>
    let y := e.2
    if y.st = .withdrawn || y.st = .faulted then []
    else
      (match y.active with | some v => if run.any fun r => decide (r.num = e.1) then [] else [v] | none => []) ++
      (match y.staged with | some v => if v.admitted then [v] else [] | none => [])
  let S := s.admShift p run []
  { vers := set ++ others,
    eval := fun q =>
      let n := ((s.staysOn run q).map ZoneVer.slots).sum
      if q = p then 2 * tPb (n + (set.map ZoneVer.slots).sum) S else 2 * tPb n (s.pair q).shift,
    deb := fun v => s.declChan [v],
    conns := fun v => s.declConns [v],
    standard := fun a => tabGet none s.internals a = some .standard }

/-- The paths of R149: those of the zones being admitted and of the zones on the target, and those of any other zone that pass through
a zone on the target. -/
def State.admPaths (s : State) (p : Nat) (run : List ZoneVer) : List FnPath :=
  let w := s.world p run
  (w.vers.flatMap w.fnPaths).filter fun q => decide (q.pair = p) || q.path.via.any fun e => decide (e.2 = p)

/-- Steps 3 to 5 of R158. Of several paths with a low debounce the first in the order of step 5 is named (DESIGN CHOICE, log entry 75). -/
def State.pathChecks (s : State) (p : Nat) (run : List ZoneVer) : AdmRec :=
  let ps := s.admPaths p run
  let nums := run.map ZoneVer.num
  match firstPath (ps.filter fun q => decide (q.path.deb < 5)) with
  | some q => { reason := 0x03, zone := some q.zone, fn := some q.fn, start := some q.path.start,
                figure := some q.path.deb, limit := some 5 }
  | none =>
    if 65536 < ps.length then { reason := 0x15, figure := some ps.length, limit := some 65536 }
    else
      let bad := ps.filter fun q => q.fails.isSome
      let r : AdmRec := match firstPath (bad.filter fun q => nums.contains q.zone) with
        | some q => q.refusal true bad.length
        | none =>
          match firstPath bad with
          | some q => q.refusal false bad.length
          | none =>
            match worst (ps.flatMap FnPath.figures) with
            | some f => { reason := 0, zone := some f.zone, fn := some f.fn, figure := some (tens f.t), limit := some (tens f.d) }
            | none => { reason := 0 }
      { r with figs := ps.flatMap fun q => q.figures.map fun f => f.t }

/-- Figures in steward B's encoding, and back (R157). -/
def Figures.neg (f : Figures) : NegFigures :=
  { t := -(Int.ofNat f.t) - 1, d := -(Int.ofNat f.d) - 1, zone := -(Int.ofNat f.zone) - 1, fn := -(Int.ofNat f.fn) - 1 }
def NegFigures.neg (f : NegFigures) : Figures :=
  { t := (-f.t - 1).toNat, d := (-f.d - 1).toNat, zone := (-f.zone - 1).toNat, fn := (-f.fn - 1).toNat }

/-- A version as steward B holds it: its own copy of the section and of the declarations, its figures, which it keeps in negative encoding
(R157). -/
def ZoneVer.asB (v : ZoneVer) : ZoneVer :=
  { v with sec := v.secB, conns := v.connsB, chans := v.chansB, figs := v.figsB.map NegFigures.neg }

/-- The tables that steward B computes with: its own copy of the images with their declarations, its own connection table and its own pair
table (R157) (DEDUCED, log entry 46: both stewards carry out each register write and each change of a pair). -/
def State.stewardB (s : State) : State :=
  { s with
    zones := s.zones.map fun e => (e.1, { e.2 with
      active := e.2.active.map ZoneVer.asB, staged := e.2.staged.map ZoneVer.asB, retained := e.2.retained.map ZoneVer.asB })
    conns := s.conns.map fun e => (e.1, { e.2 with decl := e.2.declB })
    chans := s.chans.map fun e => (e.1, { e.2 with debounce := e.2.debounceB, fbFilt := e.2.fbFiltB })
    pairs := s.pairs.map fun e => (e.1, { e.2 with role := e.2.roleB, shift := e.2.shiftB })
    internals := s.internalsB }

/-- The verdict of a steward on a set (R155 to R158): reason 0 is admitted. With figures reused only placement and
capacity are checked (R150). -/
def State.admitVerdict (s : State) (p : Nat) (run ret : List ZoneVer) (reuse : Bool) : AdmRec :=
  match (s.roleChecks p).or (s.capacityChecks p run ret) with
  | some r => r
  | none =>
    if reuse then
      match worst (run.filterMap fun v => v.figs) with
      | some f => { reason := 0, zone := some f.zone, fn := some f.fn, figure := some (tens f.t), limit := some (tens f.d) }
      | none => { reason := 0 }
    else
      match s.connChecks run with
      | some r => r
      | none => s.pathChecks p run

/-- The figures kept with each version of an admitted set: the worst path of the admission, also where it is one of another zone (R150,
R165). -/
def State.figsOf (s : State) (p : Nat) (run : List ZoneVer) : Option Figures := worst ((s.admPaths p run).flatMap FnPath.figures)

end Sys2Proof.Machine
end

