-- ==== Sys2Proof/Machine/Conns.lean ====
section
/-!
DEFINITION. Safety connections (R280 to R303): states, opening, the safety layer of each lane, transmit, closing.
-/
namespace Sys2Proof.Machine
open Sys2Proof

/-! ### States (R281) -/

/-- CAUSE of R301. -/
def caWd : Nat := 0x1
def caAge : Nat := 0x2
def caPartnerClose : Nat := 0x3
def caPortDisabled : Nat := 0x4
def caReopen : Nat := 0x5
def caErrRate : Nat := 0x8
def caNoVersion : Nat := 0x9
def caMismatch : Nat := 0xA
def caWdXchk : Nat := 0xB
def caKey : Nat := 0xC

/-- A session is on: the states that send DATA frames. -/
def ConnSt.session : ConnSt → Bool
  | .negotiating | .running => true
  | _ => false

/-- The states in which a version has been negotiated (R301) (DEDUCED, log entry 42). -/
def ConnSt.versioned : ConnSt → Bool
  | .negotiating | .running | .stale => true
  | _ => false

/-- Addresses of a declaration. -/
def rxAddrs (d : ConnDecl) : List Nat := (List.range d.rxPoints).map (d.rxBase + ·)
def txAddrs (d : ConnDecl) : List Nat := (List.range d.txPoints).map (d.txBase + ·)

/-- Frames of a slot that wait for a mark are dropped: they belong to an ended session. -/
def State.dropFrames (s : State) (k : Nat) : State :=
  { s with trans := s.trans.filter fun t =>
    match t.body with
    | .frame j _ _ _ _ _ => decide (j ≠ k)
    | _ => true }

/-- Requests and DATA frames of an ended session that wait for the merge are dropped; opening frames and a CLOSE still go out. -/
def Conn.endTx (c : Conn) : Conn :=
  { c with txReq := false, txBuilt := c.txBuilt.filter fun b => decide (b.frameA.ftype ≠ ftData) }

/-- A connection takes a state. Leaving RUNNING its consumed points go invalid (R43); an event reports the change. -/
def State.setConn (s : State) (k : Nat) (st : ConnSt) (cause : Option Nat) : State :=
  let c := s.conn k
  let t := s.updConn k fun c =>
    { c with st := st, cause := cause.getD c.cause, ver := if st.versioned then c.ver else 0, wakeOpen := false }
  if c.st = st then t
  else
    let t := match c.decl with
      | some d => if c.st = ConnSt.running then t.dropPts (rxAddrs d) else t
      | none => t
    let t := if c.st.session && st.session && decide (st ≠ .negotiating) then t
      else (t.dropFrames k).updConn k Conn.endTx
    t.postEvent 0x0F 1 (k + fld st.code 8 16 + fld (t.conn k).cause 8 24)

/-- A CLOSE with the next sequence number of the direction (R282, R287). -/
def State.sendClose (s : State) (k reason : Nat) : State :=
  let c := s.conn k
  (s.sendFrame k ftClose c.ver c.txSeq (payClose reason)).updConn k fun c => { c with txSeq := c.txSeq + 1#32 }

/-- A CLOSE where a session is on. -/
def State.closeIfOn (s : State) (k reason : Nat) : State := if (s.conn k).st.session then s.sendClose k reason else s

/-- A connection goes FAULTED: the record of R306 and the cause (R281, R305). -/
def State.connFault (s : State) (k : Nat) (code : BitVec 16) (cause : Nat) : State :=
  if (s.conn k).st = .faulted then s
  else (s.setConn k .faulted (some cause)).raise code (BitVec.ofNat 12 k) true true 0 0 []

/-- The first of a value and those after it that is neither of two others. -/
def freshNonce (v x y : Word) : Word :=
  let taken (w : Word) : Bool := decide (w = x) || decide (w = y)
  if !taken v then v else if !taken (v + 1#32) then v + 1#32 else v + 2#32

/-- A new nonce, different from the one before and from the one used last (R285) (DESIGN CHOICE, log entry 5). -/
def State.newNonce (s : State) (k : Nat) : State :=
  let (n, s) := s.draw
  s.updConn k fun c => { c with nonce := freshNonce (Config.freeNonce n) c.nonce c.usedNonce }

/-- The first OPEN, or an OPEN again, with the current nonce. -/
def State.sendOpen (s : State) (k : Nat) : State :=
  match (s.conn k).decl with
  | some d =>
    (s.sendFrame k ftOpen 0 0#32 (payOpen (s.offer d) d (s.conn k).nonce)).updConn k fun c => { c with usedNonce := c.nonce }
  | none => s

/-- A connection enters OPENING with a new nonce, the partner's forgotten; one whose key the lanes do not hold goes FAULTED (R285, R291). -/
def State.enterOpening (s : State) (k : Nat) (cause : Option Nat) (backoff : Option Nat) : State :=
  let s := s.setConn k .opening cause
  match (s.conn k).decl with
  | none => s
  | some d =>
    if d.cmac && (s.connKey d).isNone then s.connFault k 0x4005#16 caKey
    else (s.newNonce k).updConn k fun c => { c with backoff := backoff.getD c.backoff, stagger := false, peerNonce := none }

/-- An opener that has entered OPENING sends its first OPEN at once (R285). -/
def State.firstOpen (s : State) (k : Nat) : State :=
  let c := s.conn k
  match c.decl with
  | some d => if c.st = .opening && !d.listener then s.sendOpen k else s
  | none => s

/-- A connection goes STALE with a cause. -/
def State.stale (s : State) (k cause : Nat) : State := s.setConn k .stale (some cause)

/-- NEGOTIATING: the sequence numbers start at the nonces (R287, R288), the age check at the next frame (R294); frames of the session
before do not count for it. -/
def State.negotiate (s : State) (k ver : Nat) (peer : Word) (cause : Option Nat) : State :=
  ((s.setConn k .negotiating cause).dropFrames k).updConn k fun c =>
    { c.endTx with
      ver := ver, peerNonce := some peer, txSeq := peer,
      rxA := { c.rxA with eSeq := c.nonce - 1#32, ts := none, named := none, e := 0 },
      rxB := { c.rxB with eSeq := c.nonce - 1#32, ts := none, named := none, e := 0 } }

/-- At RUN every CLOSED connection enters OPENING; the first OPENs are staggered (R270, R281). -/
def State.connsAtRun (s : State) : State :=
  s.conns.foldl (fun t e =>
    match (t.conn e.1).decl with
    | some d =>
      if (t.conn e.1).st = .closed then
        let t := t.enterOpening e.1 none none
        if (t.conn e.1).st = .opening && !d.listener then t.updConn e.1 fun c => { c with stagger := true } else t
      else t
    | none => t) s

/-- A CLOSE with SHUTDOWN on every RUNNING connection, and every connection CLOSED (R300, R452, R454). -/
def State.closeAllConns (s : State) : State :=
  s.conns.foldl (fun t e =>
    let c := t.conn e.1
    if c.st = .withdrawn || c.st = .closed then t
    else
      let t := if c.st = .running then t.sendClose e.1 rsShutdown else t
      t.setConn e.1 .closed none) s

/-- What the ports still send once the connections are closed: their CLOSE frames, then idle only (R452, R454) (DEDUCED, log entry 42). -/
def State.dropOthers (s : State) : State :=
  let s := s.conns.foldl (fun t e => t.updConn e.1 fun c =>
    { c with txReq := false, txBuilt := c.txBuilt.filter fun b => decide (b.frameA.ftype = ftClose) }) s
  (List.range 32).foldl (fun t p => t.updPort p fun q =>
    { q with queue := q.queue.filter fun f => decide (f.frame.ftype = ftClose) }) s

/-- A declaration takes effect in each lane die's copy of the image: the slot is CLOSED (R281). -/
def State.declareConn (s : State) (k : Nat) (d : ConnDecl) (b : Option ConnDecl) : State :=
  (s.updConn k fun c => { decl := some d, declB := b, txBuilt := c.txBuilt }).setConn k .closed none

/-- A declaration is removed: a CLOSE where a session is on, then WITHDRAWN and out of the Gatehouse (R281, R300). -/
def State.removeConn (s : State) (k : Nat) : State :=
  let c := s.conn k
  if c.decl.isNone then s
  else (((s.closeIfOn k rsRemoved).setConn k .withdrawn none)).updConn k fun c => { c with decl := none, declB := none }

/-! ### Failures and rates (R295, R302) -/

/-- What a lane keeps of a connection. -/
def Conn.rx (c : Conn) : Lane → RxLane
  | .a => c.rxA
  | .b => c.rxB

def Conn.setRx (c : Conn) (l : Lane) (r : RxLane) : Conn :=
  match l with
  | .a => { c with rxA := r }
  | .b => { c with rxB := r }

/-- One second of device time in ticks. -/
def oneSecond : Nat := 100000000

/-- A lane counts a frame that failed a CRC, the CMAC or the TIMESTAMP check; more than 8 within 1 s fault the connection. -/
def State.rxFail (s : State) (l : Lane) (k : Nat) (count cmac : Bool) : State :=
  let c := s.conn k
  let r := c.rx l
  let es := (r.errAt.filter fun t => decide (s.since t < oneSecond)) ++ [s.now]
  let s := s.updConn k fun c =>
    let c := c.setRx l { r with errAt := es }
    if !count then c
    else if cmac then { c with cmacFail := satInc c.cmacFail 7 } else { c with crcFail := satInc c.crcFail 255 }
  if decide (8 < es.length) && (c.st.session || c.st = .opening || c.st = .stale) then
    (s.closeIfOn k rsPeerFault).connFault k 0x4001#16 caErrRate
  else s

/-- Why a lane discards a frame at steps 3 to 5 of R292: `some true` for the CMAC alone. -/
def State.checkFrame (s : State) (l : Lane) (d : ConnDecl) (seq : Word) (f : Frame) (ts : Option Word) : Option Bool :=
  if !crcOk l d.connId seq f then some false
  else if !s.cmacOk d seq f then some true
  else
    match ts with
    | some t =>
      let x := (f.tstamp - t).toNat
      if 1 ≤ x && decide (x ≤ 2 ^ 31 - 1) then none else some false
    | none => none

/-- d of R288. -/
def seqStep (r : RxLane) (f : Frame) : Nat := (f.seq8 - r.eSeq.setWidth 8).toNat

/-! ### Transactions of received frames (R69, R292) -/

/-- The transaction a lane's report of a frame joins: same slot and sequence number, this lane not reported yet. -/
def Trans.waits (t : Trans) (l : Lane) (k : Nat) (seq : Word) : Bool :=
  match t.body with
  | .frame j q _ _ _ _ => decide (j = k) && decide (q = seq) && !(match l with | .a => t.repA | .b => t.repB)
  | _ => false

/-- What a lane reports of a frame: accepted or rejected, for its CMAC or else, the frames lost before it as the lane counts them, its
points in the lane's encoding. -/
structure RxReport where
  good : Bool
  cmac : Bool
  tstamp : Word
  lost : Nat
  pts : List Pt
  deriving DecidableEq, Repr

/-- A lane's report joined to a transaction; the frames lost are those lane A counts. -/
def Trans.join (t : Trans) (l : Lane) (r : RxReport) : Trans :=
  match t.body with
  | .frame j q ts n xs ys =>
    let ts := if r.good then r.tstamp else ts
    let t := { t with cmac := t.cmac || r.cmac }
    match l with
    | .a => { t with body := .frame j q ts r.lost r.pts ys, repA := true, okA := r.good }
    | .b => { t with body := .frame j q ts n xs r.pts, repB := true, okB := r.good }
  | _ => t

/-- A lane reports a frame's tag to lane A. -/
def State.report (s : State) (l : Lane) (k : Nat) (seq : Word) (r : RxReport) : State :=
  if s.trans.any fun t => t.waits l k seq then
    { s with trans := s.trans.map fun t => if t.waits l k seq then t.join l r else t }
  else
    let a := decide (l = .a)
    { s with trans := s.trans ++ [{
        body := .frame k seq r.tstamp (if a then r.lost else 0) (if a then r.pts else []) (if a then [] else r.pts)
        repA := a, repB := !a, okA := a && r.good, okB := !a && r.good, since := s.now, cmac := r.cmac }] }

/-- The other lane has already reported this tag, and rejected it for the same reason. -/
def State.otherFailed (s : State) (l : Lane) (k : Nat) (seq : Word) (cm : Bool) : Bool :=
  s.trans.any fun t => t.waits l k seq && !(t.okA || t.okB) && t.cmac == cm

/-! ### What HB hands to the lanes (R22, R23, R263) -/

/-- A frame a lane can take next: the first HB has handed to it, its content not lost. -/
def State.rxFront (s : State) (l : Lane) (slot : Nat) (f : Frame) : Bool :=
  match (s.lane l).rxq with
  | x :: _ => decide (x.slot = slot) && decide (x.frame = f)
  | [] => false

/-- It is lost. -/
def State.rxLost (s : State) (l : Lane) : Bool :=
  match (s.lane l).rxq with
  | x :: _ => x.lost
  | [] => false

/-- A lane has taken it. -/
def State.rxTake (s : State) (l : Lane) : State := s.updLane l fun d => { d with rxq := d.rxq.tail }

/-- The lanes' checks of a frame that has no points, where both have reached it: what each has of it, and the state in which both have
taken it. -/
def State.rxBoth (s : State) (slot : Nat) (f : Frame) : Option (Bool × Bool × State) :=
  if s.rxFront .a slot f && s.rxFront .b slot f then some (!s.rxLost .a, !s.rxLost .b, (s.rxTake .a).rxTake .b) else none

/-- A lane runs the receive checks on a DATA frame (R288, R292 steps 1 to 5), the next of those HB has handed to it; LOST is counted at
its naming mark (DEDUCED, log entry 42). -/
def execDataFrame (lane : Lane) (slot : Fin 2048) (f : Frame) (s : State) : Host.Outcome State Fault Refusal :=
  if !s.rxFront lane slot f || s.rxLost lane || decide (f.ftype ≠ ftData) then ok s
  else
    let s := s.rxTake lane
    let c := s.conn slot
    match c.decl with
    | none => ok s
    | some d =>
      if !c.st.session || decide (f.handle ≠ d.rxHandle) then ok s
      else
        let r := c.rx lane
        let n := seqStep r f
        if n = 0 || 128 < n then
          ok (if lane = .a then s.updConn slot fun c => { c with seqDrop := satInc c.seqDrop 255 } else s)
        else
          let seq := r.eSeq + BitVec.ofNat 32 n
          match s.checkFrame lane d seq f r.ts with
          | some cm =>
            let s' := s.rxFail lane slot (!s.otherFailed lane slot seq cm) cm
            ok (if (s'.conn slot).st.session then
              s'.report lane slot seq { good := false, cmac := cm, tstamp := f.tstamp, lost := 0, pts := [] } else s')
          | none =>
            let s := s.updConn slot fun c => c.setRx lane { r with eSeq := seq, ts := some f.tstamp }
            let ps := unpackPoints f.payload d.rxPoints
            ok (s.report lane slot seq { good := true, cmac := false, tstamp := f.tstamp, lost := n - 1, pts := match lane with
              | .a => ps
              | .b => ps.map (~~~ ·) })

/-- The excess delay after a named frame (R294): marks are 100 ns apart. -/
def nextE (r : RxLane) (tstamp mark : Word) : Nat :=
  match r.named with
  | none => 0
  | some (ts, m) =>
    let da := ceilDiv (mark - m).toNat 10
    let dts := (tstamp - ts).toNat
    r.e + da - dts - ceilDiv (dts * 5) 10000

/-- A named frame reaches a lane that accepted it: the age figures follow (versions 2 and 3). -/
def RxLane.name (r : RxLane) (tstamp mark : Word) : RxLane :=
  { r with e := nextE r tstamp mark, named := some (tstamp, mark) }

/-- A mark names a received frame (R292 step 6, R294): an ended session takes nothing; an age failure makes the connection
STALE; otherwise each lane that accepted the frame applies its points, and the frame is accepted: the frames lost before it count (R288).
A connection comes to RUNNING, and its points to qualifier 1, with a frame that both lanes accept (R43); one that a single lane accepts
before leaves both as they are (DEDUCED, log entry 42). -/
def State.nameFrame (s : State) (k : Nat) (tstamp : Word) (lost : Nat) (ptsA ptsB : List Pt) (okA okB : Bool) : State :=
  let c := s.conn k
  match c.decl with
  | none => s
  | some d =>
    if !c.st.session then s
    else
      let s := if okA ≠ okB then s.updConn k fun c => { c with laneSplit := satInc c.laneSplit 7 } else s
      if !okA && !okB then s
      else
        let age := decide (2 ≤ c.ver)
        let rA := if okA then c.rxA.name tstamp s.markNum else c.rxA
        let rB := if okB then c.rxB.name tstamp s.markNum else c.rxB
        let old := age && (okA && decide (d.watchdog - d.tCyc < rA.e) || okB && decide (d.watchdog - d.tCyc < rB.e))
        let s := s.updConn k fun c =>
          { c with eMax := if age && okA then min 65535 (max c.eMax rA.e) else c.eMax }
        if old then s.stale k caAge
        else
          let s := s.updConn k fun c => { c with rxA := rA, rxB := rB, lost := if okA then satAdd c.lost lost 255 else c.lost }
          let put (l : Lane) (ps : List Pt) (t : State) : State :=
            (List.range ps.length).foldl (fun t i => t.putPt l (d.rxBase + i) (ps.getD i (inLane l 0#2))) t
          if c.st = .negotiating && decide (okA ≠ okB) then s
          else
            let s := if okA then put .a ptsA s else s
            let s := if okB then put .b ptsB s else s
            if c.st = .negotiating then (s.setConn k .running none).updConn k fun c => { c with backoff := 0 } else s

/-! ### Opening frames (R282 to R286) -/

/-- Failures of a frame that both lanes check: each counts in its lane for ERR_RATE, and once in the counter of its kind. -/
def State.rxFails (s : State) (k : Nat) (a b : Option Bool) : State :=
  let s := match a with
    | some cm => s.rxFail .a k true cm
    | none => s
  match b with
  | some cm => s.rxFail .b k (decide (a ≠ some cm)) cm
  | none => s

/-- One more frame accepted in one lane only. -/
def State.laneSplit (s : State) (k : Nat) : State := s.updConn k fun c => { c with laneSplit := satInc c.laneSplit 7 }

/-- Both lanes check an opening frame, whose sequence number is 0, each where it has it; one that passes in one lane alone counts as
LANE_SPLIT (R292). -/
def State.checkOpening (s : State) (k : Nat) (d : ConnDecl) (f : Frame) (hasA hasB : Bool) : Bool × State :=
  let a := if hasA then s.checkFrame .a d 0#32 f none else none
  let b := if hasB then s.checkFrame .b d 0#32 f none else none
  let okA := hasA && a.isNone
  let okB := hasB && b.isNone
  let s := s.rxFails k a b
  (okA && okB, if okA ≠ okB then s.laneSplit k else s)

/-- The highest version of a VER_MAP, 0 where it is empty. -/
def topVersion (m : Nat) : Nat := if m / 8 % 2 = 1 then 3 else if m / 4 % 2 = 1 then 2 else if m / 2 % 2 = 1 then 1 else 0

/-- A listener answers an OPEN (R281, R283, R285) with the nonce it chose on entry to OPENING; one that is CLOSED since Dormant mode opens
with the partner's OPEN (R456) (DEDUCED, log entry 42). -/
def State.listen (s : State) (k : Nat) (d : ConnDecl) (p : List Byte) : State :=
  let c := s.conn k
  let nonce : Word := word (fieldBE p 8 4)
  let mine := s.offer d
  let ver := topVersion (mine &&& fieldBE p 0 1)
  let refuse (t : State) (r : Nat) : State := t.sendFrame k ftOpenRefuse 0 0#32 (payRefuse r mine nonce)
  let agree (t : State) (cause : Option Nat) : State :=
    let t := (t.negotiate k ver nonce cause).updConn k fun c => { c with usedNonce := c.nonce }
    t.sendFrame k ftOpenAck 0 0#32 (payAck ver d (t.conn k).nonce nonce)
  let bad : Option Nat := if ver = 0 then some rsNoVersion else if !agrees d p then some rsMismatch else none
  match c.st with
  | .withdrawn => s
  | .closed =>
    if c.wakeOpen then
      match bad with
      | some r => refuse s r
      | none =>
        let t := s.enterOpening k none (some 0)
        if (t.conn k).st = .opening then agree t none else refuse t rsNotReady
    else refuse s rsNotReady
  | .faulted => refuse s rsNotReady
  | .opening =>
    match bad with
    | some r =>
      (refuse s r).connFault k (if r = rsNoVersion then 0x4002#16 else 0x4003#16)
        (if r = rsNoVersion then caNoVersion else caMismatch)
    | none => agree s none
  | st =>
    if c.peerNonce = some nonce then
      (if st = .negotiating then s.sendFrame k ftOpenAck 0 0#32 (payAck c.ver d c.nonce nonce) else s)
    else
      match bad with
      | some r => refuse s r
      | none => agree (s.newNonce k) (some caReopen)

/-- Both lanes have reached an opening frame; it is one of a type that this end takes now (R292 step 1), with the handle of R282. -/
def State.takeOpening (s : State) (slot : Nat) (f : Frame) (ft : BitVec 4) (takes : ConnDecl → Bool) : Bool × State :=
  if f.ftype ≠ ft then (false, s)
  else
    match s.rxBoth slot f with
    | none => (false, s)
    | some (a, b, s) =>
      match (s.conn slot).decl with
      | none => (false, s)
      | some d => if !takes d || decide (f.handle ≠ d.rxHandle) then (false, s) else s.checkOpening slot d f a b

/-- A listener receives an OPEN; at an opener it is discarded (R300). -/
def execOpenFrame (slot : Fin 2048) (f : Frame) (s : State) : Host.Outcome State Fault Refusal :=
  let r := s.takeOpening slot f ftOpen fun d => d.listener
  match (s.conn slot).decl with
  | none => ok r.2
  | some d => ok (if r.1 && !s.txIdle then r.2.listen slot d f.payload else r.2)

/-- An opener that waits for an answer. -/
def State.awaits (s : State) (slot : Nat) (d : ConnDecl) : Bool := !d.listener && decide ((s.conn slot).st = .opening)

/-- An opener in OPENING receives an OPEN_ACK; `rtt` is the round trip in µs to its naming mark (R283, R286) (DEDUCED, log
entry 42). -/
def execOpenAck (slot : Fin 2048) (f : Frame) (rtt : Nat) (s : State) : Host.Outcome State Fault Refusal :=
  let r := s.takeOpening slot f ftOpenAck (s.awaits slot)
  match (s.conn slot).decl with
  | none => ok r.2
  | some d =>
    let s := r.2
    let c := s.conn slot
    let p := f.payload
    let ver := fieldBE p 0 1
    let peer : Word := word (fieldBE p 8 4)
    if !r.1 || decide (fieldBE p 20 4 ≠ c.nonce.toNat) || decide (c.st ≠ .opening) then ok s
    else if !(decide (1 ≤ ver) && decide (ver ≤ 3) && decide (s.offer d / 2 ^ ver % 2 = 1)) || !agrees d p then
      let v := if 1 ≤ ver && decide (ver ≤ 3) then ver else topVersion (s.offer d)
      ok ((s.sendFrame slot ftClose v peer (payClose rsMismatch)).connFault slot 0x4003#16 caMismatch)
    else
      let s := s.updConn slot fun c => { c with rtt := min 65535 rtt }
      ok (if d.watchdog - d.tCyc < rtt then s else s.negotiate slot ver peer none)

/-- An opener in OPENING receives an OPEN_REFUSE (R281, R284). -/
def execOpenRefuse (slot : Fin 2048) (f : Frame) (s : State) : Host.Outcome State Fault Refusal :=
  let r := s.takeOpening slot f ftOpenRefuse (s.awaits slot)
  let s := r.2
  let c := s.conn slot
  if !r.1 || decide (fieldBE f.payload 4 4 ≠ c.nonce.toNat) || decide (c.st ≠ .opening) then ok s
  else
    let reason := fieldBE f.payload 0 1
    if reason = rsNoVersion then ok (s.connFault slot 0x4002#16 caNoVersion)
    else if reason = rsMismatch then ok (s.connFault slot 0x4003#16 caMismatch)
    else ok s

/-- The sequence pre-check of a CLOSE in a lane that has it, and the lane's checks (R288, R292): whether it is in the window, why it
fails. -/
def State.closeCheck (s : State) (l : Lane) (k : Nat) (d : ConnDecl) (f : Frame) (has : Bool) : Bool × Option Bool :=
  let r := (s.conn k).rx l
  let n := seqStep r f
  if has && decide (1 ≤ n) && decide (n ≤ 128) then (true, s.checkFrame l d (r.eSeq + BitVec.ofNat 32 n) f none) else (false, none)

/-- A CLOSE accepted in both lanes: their E_SEQ move, the frames lost before it count as lane A counts them (R288). -/
def Conn.accept (c : Conn) (f : Frame) : Conn :=
  let nA := seqStep c.rxA f
  let nB := seqStep c.rxB f
  { c with
    rxA := { c.rxA with eSeq := c.rxA.eSeq + BitVec.ofNat 32 nA }, rxB := { c.rxB with eSeq := c.rxB.eSeq + BitVec.ofNat 32 nB }
    lost := satAdd c.lost (nA - 1) 255 }

/-- A CLOSE at its naming mark (R281, R284, R288): both lanes check it, and it acts only when both accept it; one that a single lane
accepts is discarded in both. -/
def execClose (slot : Fin 2048) (f : Frame) (s : State) : Host.Outcome State Fault Refusal :=
  if f.ftype ≠ ftClose then ok s
  else
    match s.rxBoth slot f with
    | none => ok s
    | some (hasA, hasB, s) =>
      match (s.conn slot).decl with
      | none => ok s
      | some d =>
        if !(s.conn slot).st.session || decide (f.handle ≠ d.rxHandle) then ok s
        else
          let a := s.closeCheck .a slot d f hasA
          let b := s.closeCheck .b slot d f hasB
          let okA := a.1 && a.2.isNone
          let okB := b.1 && b.2.isNone
          let s := if hasA && !a.1 then s.updConn slot fun c => { c with seqDrop := satInc c.seqDrop 255 } else s
          let s := s.rxFails slot a.2 b.2
          if !(s.conn slot).st.session then ok s
          else if okA ≠ okB then ok (s.laneSplit slot)
          else if okA && okB then
            let s := s.updConn slot fun c => c.accept f
            let reason := fieldBE f.payload 0 1
            if reason = rsNoVersion then ok (s.connFault slot 0x4002#16 caNoVersion)
            else if reason = rsMismatch then ok (s.connFault slot 0x4003#16 caMismatch)
            else ok (s.stale slot caPartnerClose)
          else ok s

/-! ### Waits and watchdogs (R270, R281, R285, R293) -/

/-- A staggered first OPEN falls due (R270). -/
def execOpenStagger (slot : Fin 2048) (s : State) : Host.Outcome State Fault Refusal :=
  let c := s.conn slot
  ok (if c.st = .opening && c.stagger then (s.updConn slot fun c => { c with stagger := false }).firstOpen slot else s)

/-- The wait of the current stage is over: OPEN again with the same nonce, the next stage (R285). -/
def execOpenRetry (slot : Fin 2048) (s : State) : Host.Outcome State Fault Refusal :=
  let c := s.conn slot
  match c.decl with
  | none => ok s
  | some d =>
    ok (if c.st = .opening && !d.listener && !c.stagger then
      (s.updConn slot fun c => { c with backoff := min 8 (c.backoff + 1) }).sendOpen slot else s)

/-- An opener has been STALE for 1 ms with its port UP (R281). -/
def execStaleReopen (slot : Fin 2048) (s : State) : Host.Outcome State Fault Refusal :=
  let c := s.conn slot
  match c.decl with
  | none => ok s
  | some d =>
    ok (if c.st = .stale && !d.listener && decide ((s.port d.port).st = .up) then
      (s.enterOpening slot none (some 0)).firstOpen slot else s)

/-- The watchdog check of the two lanes fails (R293). -/
def State.wdXchk (s : State) (k : Nat) : State := (s.closeIfOn k rsPeerFault).connFault k 0x4004#16 caWdXchk

/-- Lane A's watchdog expires; `elapsedB` is what lane B's own watchdog has counted, in ns (R281, R293). -/
def execWatchdogExpiry (slot : Fin 2048) (elapsedB : Nat) (s : State) : Host.Outcome State Fault Refusal :=
  let c := s.conn slot
  match c.decl with
  | none => ok s
  | some d =>
    if !c.st.session then ok s
    else if elapsedB * 10000 + 10000000 < d.watchdog * 1000 * 9995 then ok (s.wdXchk slot)
    else if c.st = .running then ok (s.stale slot caWd)
    else ok (s.enterOpening slot none none)

/-- Lane B's window passes with no expiry from lane A (R293). -/
def execWdXchk (slot : Fin 2048) (s : State) : Host.Outcome State Fault Refusal :=
  ok (if (s.conn slot).st.session then s.wdXchk slot else s)

/-! ### Transmit (R26, R58, R287, R297) -/

/-- HB requests a frame of a connection from both lanes. -/
def execTxRequest (slot : Fin 2048) (s : State) : Host.Outcome State Fault Refusal :=
  ok (if (s.conn slot).st.session then s.updConn slot fun c => { c with txReq := true } else s)

/-- A produced point as a lane puts it into a frame, in its encoding: in bench mode invalid (R446); a point commanded off since the last
frame carries 0 once (R58). -/
def State.txPoint (s : State) (l : Lane) (a : Nat) : Pt :=
  let o := tabGet (false, false) s.owed a
  let owed := match l with | .a => o.1 | .b => o.2
  let p := match l with | .a => s.ptA a | .b => s.ptB a
  if s.pm.bench || !(p == inLane l 3#2 || p == inLane l 2#2) then inLane l 0#2 else if owed then inLane l 2#2 else p

/-- Both lanes build a requested frame at a release mark (R297) (DESIGN CHOICE, log entry 64). -/
def State.buildFrame (s : State) (k : Nat) : State :=
  let c := s.conn k
  match c.decl with
  | none => s
  | some d =>
    if !c.txReq then s
    else
      let s := s.updConn k fun c => { c with txReq := false }
      if !c.st.session then s
      else
        let mk (payload : List Byte) : Frame := s.sealFrame d c.txSeq {
          ftype := ftData, ver := BitVec.ofNat 2 c.ver, cmac := d.cmac, resv := false, handle := d.txHandle,
          seq8 := c.txSeq.setWidth 8, tstamp := s.us, payload := payload, crcA := 0#32, crcB := 0#32, tag := 0#64 }
        let fa := mk (packPoints ((txAddrs d).map (s.txPoint .a)))
        let fb := negFrame (mk (negBytes (packWith 3#2 ((txAddrs d).map (s.txPoint .b)))))
        let s := (s.updConn k fun c => { c with txSeq := c.txSeq + 1#32 }).toMerge k d fa fb
        if fa.payload = negBytes fb.payload then
          { s with owed := (txAddrs d).foldl (fun t a => tabSet (false, false) t a (false, false)) s.owed }
        else s

/-- Every requested frame is built. -/
def State.buildAll (s : State) : State := s.conns.foldl (fun t e => t.buildFrame e.1) s

/-- Lane payloads that disagree or go missing are counted on the port (R26) (DESIGN CHOICE, log entry 64). -/
def State.txLost (s : State) (p : Nat) : State :=
  s.updPort p fun q => { q with txMismatch := satInc q.txMismatch 65535 }

/-- The produced points that a DATA frame carries with value 0 are handed over so (R180). -/
def State.handPoints (s : State) (k : Nat) (f : Frame) : State :=
  match (s.conn k).decl with
  | some d =>
    if f.ftype = ftData then
      let ps := unpackPoints f.payload d.txPoints
      { s with handed := (List.range d.txPoints).foldl (fun t i =>
          tabSet false t (d.txBase + i) (!isOne (ps.getD i 0#2))) s.handed }
    else s
  | none => s

/-- The oldest frame of a connection that waits for the merge has left it. -/
def State.txPop (s : State) (k : Nat) : State := s.updConn k fun c => { c with txBuilt := c.txBuilt.tail }

/-- HB has both lanes' frames, of any type: it sends one made of LA's payload and both CRCs, or discards both (R26, R285)
(DESIGN CHOICE, log entry 64). -/
def execTxMerge (slot : Fin 2048) (s : State) : Host.Outcome State Fault Refusal :=
  match (s.conn slot).txBuilt with
  | [] => ok s
  | b :: _ =>
    let s := s.txPop slot
    if b.frameA.payload = negBytes b.frameB.payload then
      let f := { b.frameA with crcB := ~~~b.frameB.crcB }
      ok ((s.handPoints slot f).enqueue b.port { slot := slot, mac := b.mac, ip := b.ip, frame := f })
    else ok (s.txLost b.port)

/-- One payload is still missing 2 µs after the other: HB discards both (R26) (DESIGN CHOICE, log entry 64). -/
def execTxMergeTimeout (slot : Fin 2048) (s : State) : Host.Outcome State Fault Refusal :=
  match (s.conn slot).txBuilt with
  | [] => ok s
  | b :: _ => ok ((s.txPop slot).txLost b.port)

/-! ### Commands (R281, R299) -/

/-- CONN_OPEN (DEDUCED, log entry 42). -/
def State.startConnOpen (s : State) (o : Origin) (slot : BitVec 16) : State :=
  let k := slot.toNat
  let c := s.conn k
  if 2047 < k then s.complete o 0x20 stBadParam 0
  else
    match c.decl with
    | none => s.complete o 0x20 stBadState c.st.code
    | some d =>
      if s.portMax ≤ d.port then s.complete o 0x20 stFeatureAbsent c.st.code
      else if c.st ≠ .closed then s.complete o 0x20 stBadState c.st.code
      else
        let s := (s.enterOpening k none (some 0)).firstOpen k
        s.complete o 0x20 stSuccess (s.conn k).st.code

/-- Versions that keep a connection in use: ACTIVE, ADMITTED STAGED, RETAINED (R299). -/
def State.usersOf (s : State) (d : ConnDecl) : Bool :=
  s.zones.any fun e =>
    let y := e.2
    let vs := (match y.active with | some v => [v] | none => []) ++
      (match y.staged with | some v => if v.admitted then [v] else [] | none => []) ++
      (match y.retained with | some v => [v] | none => [])
    vs.any fun v => (v.reads ++ v.writes).any fun a => consumes d a || produces d a

/-- CONN_CLOSE. -/
def State.startConnClose (s : State) (o : Origin) (slot : BitVec 16) : State :=
  let k := slot.toNat
  let c := s.conn k
  if 2047 < k then s.complete o 0x21 stBadParam 0
  else
    match c.decl with
    | none => s.complete o 0x21 stBadState c.st.code
    | some d =>
      if c.st = .withdrawn || c.st = .closed then s.complete o 0x21 stBadState c.st.code
      else if s.usersOf d then s.complete o 0x21 0x30 c.st.code
      else ((s.closeIfOn k rsHostClose).setConn k .closed none).complete o 0x21 stSuccess 1

end Sys2Proof.Machine
end

