-- ==== Sys2Proof/Machine/Entries.lean ====
section
/-!
DEFINITION. Submission entries and the commands they spell (R392 to R401): the fields of PARAM, the command of an entry, and when a ring
starts its next command.
-/
namespace Sys2Proof.Machine
open Sys2Proof

/-! ### PARAM (R393, R401) -/

/-- The number in n bytes of PARAM from an entry offset, least significant byte first. -/
def entryField (e : Entry) (off n : Nat) : Nat := e.param.toNat / 2 ^ (8 * (off - 24)) % 2 ^ (8 * n)

/-- Byte at an entry offset of PARAM. -/
def entryByte (e : Entry) (off : Nat) : Nat := entryField e off 1

/-- The PARAM bytes a command uses, by entry offset. -/
def paramUsed (e : Entry) : List Nat :=
  let r (a n : Nat) : List Nat := (List.range n).map (a + ·)
  match e.opcode.toNat with
  | 0x01 => r 24 8
  | 0x10 => r 24 33
  | 0x11 => r 24 1 ++ r 28 4
  | 0x12 => r 24 1
  | 0x13 => r 24 34
  | 0x14 => r 24 1
  | 0x20 => r 24 2
  | 0x21 => r 24 2
  | 0x22 => r 24 1
  | 0x23 => r 24 1
  | 0x30 => r 24 2
  | 0x31 => r 24 1 ++ r 26 4
  | 0x32 => r 24 8
  | 0x40 => r 24 2
  | 0x41 => r 24 2 ++ (if entryByte e 24 = 0 then r 32 8 else [])
  | 0x42 => r 24 2 ++ (if entryByte e 24 = 0 then r 32 8 else [])
  | _ => []

/-- TARGET of OTP_PROGRAM, ACTION of OTP_SHADOW or ITEM of BIST_RUN names nothing. -/
def paramNamesNothing (e : Entry) : Bool :=
  match e.opcode.toNat with
  | 0x30 => decide (8 < entryByte e 24)
  | 0x41 => decide (2 < entryByte e 24)
  | 0x42 => decide (1 < entryByte e 24)
  | _ => false

/-- Reserved bits set, unused PARAM bytes not 0, a value that names nothing, ROLLBACK on another command than ZONE_COMMIT, an unaligned
address or length (R393, R401, R406) (DEDUCED, log entry 48). -/
def entryBad (e : Entry) : Bool :=
  let op := e.opcode.toNat
  let f := e.flags.toNat
  decide (8 ≤ f) || (e.flags.getLsbD 2 && decide (op ≠ 0x11)) ||
  decide (e.addr.toNat % 4 ≠ 0) || decide (e.len.toNat % 4 ≠ 0) || paramNamesNothing e ||
  (List.range 40).any fun i => !(paramUsed e).contains (24 + i) && decide (entryByte e (24 + i) ≠ 0)

/-! ### The command of an entry (R400, R401) -/

/-- The command an entry of ring r spells, of the kind of `like`: its opcode and FLAGS name the command, PARAM and LEN give its operands.
What the command meets as it runs, the bus, a buffer's content, a temperature, the pulses of a program, is as in `like`. -/
def entryCommand (e : Entry) (r : Fin 16) (like : Instr) : Option Instr :=
  let o : Origin := { ring := r, cid := e.cid, progress := e.flags.getLsbD 1 }
  let f := entryField e
  let op (n : Nat) (c : Instr) : Option Instr := if e.opcode.toNat = n then some c else none
  let kind (n k : Nat) (c : Instr) : Option Instr := if f 24 1 = k then op n c else none
  match like with
  | .imgLoad _ _ _ _ bus a b => op 0x01 (.imgLoad o (word (f 24 4)) (word (f 28 4)) e.len bus a b)
  | .imgVerify _ => op 0x02 (.imgVerify o)
  | .zoneAdmit _ _ _ => op 0x10 (.zoneAdmit o (BitVec.ofNat 256 (f 24 32)) (BitVec.ofNat 8 (f 56 1)))
  | .zoneCommit _ _ _ =>
    if e.flags.getLsbD 2 then none else op 0x11 (.zoneCommit o (BitVec.ofNat 8 (f 24 1)) (word (f 28 4)))
  | .rollback _ _ _ =>
    if e.flags.getLsbD 2 then op 0x11 (.rollback o (BitVec.ofNat 8 (f 24 1)) (word (f 28 4))) else none
  | .zoneWithdraw _ _ => op 0x12 (.zoneWithdraw o (BitVec.ofNat 8 (f 24 1)))
  | .zoneMigrate _ _ _ _ =>
    op 0x13 (.zoneMigrate o (BitVec.ofNat 256 (f 24 32)) (BitVec.ofNat 8 (f 56 1)) (BitVec.ofNat 8 (f 57 1)))
  | .zoneRestart _ _ => op 0x14 (.zoneRestart o (BitVec.ofNat 8 (f 24 1)))
  | .connOpen _ _ => op 0x20 (.connOpen o (BitVec.ofNat 16 (f 24 2)))
  | .connClose _ _ => op 0x21 (.connClose o (BitVec.ofNat 16 (f 24 2)))
  | .portEnable _ _ => op 0x22 (.portEnable o (BitVec.ofNat 8 (f 24 1)))
  | .portDisable _ _ => op 0x23 (.portDisable o (BitVec.ofNat 8 (f 24 1)))
  | .bistRun _ _ _ => if f 24 1 = 8 then none else op 0x30 (.bistRun o (BitVec.ofNat 8 (f 24 1)) (BitVec.ofNat 8 (f 25 1)))
  | .channelCal _ _ => kind 0x30 8 (.channelCal o (BitVec.ofNat 8 (f 25 1)))
  | .diagRead _ _ _ _ _ bus =>
    op 0x31 (.diagRead o (BitVec.ofNat 8 (f 24 1)) (BitVec.ofNat 16 (f 26 2)) (BitVec.ofNat 16 (f 28 2)) e.len bus)
  | .snapshot _ _ _ _ bus => op 0x32 (.snapshot o (word (f 24 4)) (word (f 28 4)) e.len bus)
  | .otpRead _ _ _ => op 0x40 (.otpRead o (BitVec.ofNat 8 (f 24 1)) (BitVec.ofNat 8 (f 25 1)))
  | .otpProgram _ _ _ tj out => kind 0x41 0 (.otpProgram o (BitVec.ofNat 8 (f 25 1)) (BitVec.ofNat 64 (f 32 8)) tj out)
  | .writeLock _ _ tj pulses copies => kind 0x41 1 (.writeLock o (BitVec.ofNat 8 (f 25 1)) tj pulses copies)
  | .readLock _ _ tj pulses copies => kind 0x41 2 (.readLock o (BitVec.ofNat 8 (f 25 1)) tj pulses copies)
  | .otpShadowSet _ _ _ => kind 0x42 0 (.otpShadowSet o (BitVec.ofNat 8 (f 25 1)) (BitVec.ofNat 64 (f 32 8)))
  | .otpShadowRemove _ _ => kind 0x42 1 (.otpShadowRemove o (BitVec.ofNat 8 (f 25 1)))
  | .timeSync _ => op 0x50 (.timeSync o)
  | .shutdown _ => op 0x51 (.shutdown o)
  | _ => none

/-! ### Waits (R160, R392, R448) -/

/-- A command that needs the stewards and so may wait for them: its origin and opcode. -/
def waitOrigin : Instr → Option (Origin × Nat)
  | .imgVerify o => some (o, 0x02)
  | .zoneAdmit o _ _ => some (o, 0x10)
  | .zoneCommit o _ _ => some (o, 0x11)
  | .rollback o _ _ => some (o, 0x11)
  | .zoneWithdraw o _ => some (o, 0x12)
  | .zoneMigrate o _ _ _ => some (o, 0x13)
  | .zoneRestart o _ => some (o, 0x14)
  | .connOpen o _ => some (o, 0x20)
  | .connClose o _ => some (o, 0x21)
  | .bistRun o _ _ => some (o, 0x30)
  | .channelCal o _ => some (o, 0x30)
  | .shutdown o => some (o, 0x51)
  | _ => none

/-- A command that is a long operation of the stewards, one at a time (R160, R392). -/
def isLong : Instr → Bool
  | .imgVerify _ => true
  | .zoneAdmit _ _ _ => true
  | .zoneCommit _ _ _ => true
  | .rollback _ _ _ => true
  | .zoneMigrate _ _ _ _ => true
  | _ => false

/-- Opcodes of those commands. -/
def longOpcodes : List Nat := [0x02, 0x10, 0x11, 0x13]

/-! ### Starting a ring's next command (R392, R394, R397) -/

/-- An origin names a command of a ring. -/
def ofTaken (r : Nat) (t : Taken) (o : Origin) : Bool := decide (o.ring.val = r) && decide (o.cid = t.cid)

/-- The command of a ring that starts next: the first of the accepted entries that has not. -/
def Ring.next (q : Ring) : Option Taken := q.outs.find? fun t => !t.started

/-- A ring may start its next command: no completion is held for it, and every one before has completed or has reached a wait for the
stewards; a BIST_RUN has where it waits for its slot or window (R392). -/
def State.mayStart (s : State) (r : Nat) : Bool :=
  let q := s.ring r
  q.st == .enabled && q.held.isEmpty && q.outs.all fun t => !t.started || t.waited

/-- No long operation whose checks completed earlier waits for its ring (R160, R392). -/
def State.longTurn (s : State) (ord : Nat) : Bool :=
  (List.range 16).all fun r => (s.ring r).outs.all fun t =>
    t.started || !longOpcodes.contains t.opcode.toNat || decide (ord ≤ t.ord)

/-- A command has an accepted entry behind it: the next of its ring in ring order, one that spells this command, and its turn has
come. In OFF the device does nothing further (R449). -/
def State.takes (s : State) (o : Origin) (c : Instr) : Bool :=
  s.mayStart o.ring && s.pm.dstate != .off &&
  match (s.ring o.ring).next with
  | none => false
  | some t => (!isLong c || s.longTurn t.ord) && match t.entry with
    | some e => decide (entryCommand e o.ring c = some c)
    | none => false

/-- The first accepted entry that has not started starts. -/
def startFirst : List Taken → List Taken
  | [] => []
  | t :: r => if t.started then t :: startFirst r else { t with started := true } :: r

/-- The ring of a command has started it. -/
def State.begun (s : State) (o : Origin) : State := s.updRing o.ring fun q => { q with outs := startFirst q.outs }

/-- A command of the host: its effect where an accepted entry stands behind it, and no effect without one (R394, R395, R400). -/
def State.command (s : State) (o : Origin) (c : Instr) (effect : State → Host.Outcome State Fault Refusal) :
    Host.Outcome State Fault Refusal :=
  if s.takes o c then effect (s.begun o) else ok s

end Sys2Proof.Machine
end

