-- ==== Sys2Proof/Machine/Moves.lean ====
section
/-!
DEFINITION. The commands that move data, IMG_LOAD, DIAG_READ and SNAPSHOT, and the steps in which they move it (R137, R169, R398, R402).
-/
namespace Sys2Proof.Machine
open Sys2Proof

/-! ### Commands that have started -/

/-- The command of an origin changes in its ring's list. -/
def State.updTaken (s : State) (o : Origin) (op : Nat) (f : Taken → Taken) : State :=
  s.updRing o.ring fun q => { q with
    outs := q.outs.map fun t => if t.started && t.cid = o.cid && decide (t.opcode.toNat = op) then f t else t }

/-- A command has reached a wait for the stewards, for its slot or its window: its ring may start the next (R392). -/
def State.parked (s : State) (o : Origin) (op : Nat) : State := s.updTaken o op fun t => { t with waited := true }

/-- A command begins to move its data (R398). -/
def State.startMove (s : State) (o : Origin) (op : Nat) (m : Move) : State := s.updTaken o op fun t => { t with move := some m }

/-- A command has made a step: counted and, with PROGRESS, reported with the bytes it has moved, at most once in 10 ms (R398). -/
def State.countTaken (s : State) (r : Fin 16) (t : Taken) (m : Option Move) : State :=
  let o : Origin := { ring := r, cid := t.cid, progress := (t.entry.map fun e => e.flags.getLsbD 1).getD false }
  let due := o.progress && s.mayPost t.progAt && !(s.ring r).holds
  let t' := { t with steps := t.steps + 1, progAt := if due then some s.now else t.progAt, move := m }
  let s := s.updRing r fun q => { q with
    outs := q.outs.map fun x => if x.ord = t.ord && x.cid = t.cid && x.opcode = t.opcode then t' else x }
  if due then s.progress o t.opcode.toNat (fld t'.steps 32 0 + fld ((m.map fun m => m.moved).getD 0) 32 64) else s

/-! ### DIAG_READ (R137) -/

/-- The status record of block n of a version (DEDUCED, log entry 22). -/
def ZoneVer.diagRecord (v : ZoneVer) (n : Nat) (b : Block) : Word × Word :=
  let r := v.rt.getD n (({} : BlockRt).fresh b.kind)
  (word (fld (kindCode b.kind) 8 24 + fld r.diag 8 16 + fld r.st 4 12 + fld r.sub 4 8 + fld r.diagCnt 8 0),
   word (fld r.inValid 16 16 + (List.range (blockOuts b)).foldl (fun a j => a + fld (r.outs.getD j 0#2).toNat 2 (2 * j)) 0))

/-- The records of n blocks from f of a zone's ACTIVE version as they stand; reading them clears their DIAG_CNT. -/
def State.readDiag (s : State) (z f n : Nat) : List (Word × Word) × State :=
  match (s.zone z).active with
  | none => ([], s)
  | some v =>
    let recs := (List.range n).filterMap fun i => (v.sec.blocks[f + i]?).map fun b => v.diagRecord (f + i) b
    let cleared := v.setRt ((List.range v.rt.length).map fun i =>
      let r := v.rt.getD i {}
      if f ≤ i && i < f + n then { r with diagCnt := 0 } else r)
    (recs, s.updZone z fun y => { y with active := some cleared })

/-! ### A step (R398) -/

/-- A move reaches k bytes: the records among them are read (DEDUCED, log entry 50). -/
def State.moveTo (s : State) (m : Move) (k : Nat) : Move × State :=
  match m.kind with
  | .diag z f =>
    let e := s.readDiag z (f + m.moved / 8) (k / 8 - m.moved / 8)
    ({ m with moved := k, recs := m.recs ++ e.1 }, e.2)
  | _ => ({ m with moved := k }, s)

/-- All the bytes of a command have moved: it has its effect and completes (R401, R402). An IMG_LOAD that another has overtaken is out of
order (DESIGN CHOICE, log entry 16). -/
def State.endMove (s : State) (o : Origin) (m : Move) : State :=
  match m.kind with
  | .load off total a b =>
    if s.buf.loaded ≠ off || s.buf.total ≠ total then s.complete o 0x01 0x16 s.buf.loaded
    else
      let l := off + m.bytes
      ({ s with buf := { total := total, loaded := l, imgA := some a, imgB := some b } } : State).complete o 0x01 stSuccess l
  | .diag _ _ => ({ s with diagBuf := { recs := m.recs } } : State).complete o 0x31 stSuccess m.recs.length
  | .sheet => s.complete o 0x32 stSuccess ((s.snap.sheet.map fun x => x.2.1.toNat).getD 0)

/-- A command moves n bytes in a step. A buffer that fails on the bus ends it with BUFFER_ERROR. -/
def State.moveStep (s : State) (r : Fin 16) (t : Taken) (m : Move) (n : Nat) : State :=
  let o : Origin := { ring := r, cid := t.cid, progress := (t.entry.map fun e => e.flags.getLsbD 1).getD false }
  let (m, s) := s.moveTo m (min m.bytes (m.moved + n))
  if !m.busOk then s.complete o t.opcode.toNat stBufferError 0
  else
    let s := s.countTaken r t (some m)
    if m.moved = m.bytes then s.endMove o m else s

/-- The command of a ring that moves data now: a SNAPSHOT does once its sheet is taken. -/
def Ring.moving (q : Ring) : Option (Taken × Move) :=
  q.outs.findSome? fun t => match t.move with
    | some m => if m.ready then some (t, m) else none
    | none => none

/-- Each ring's command that moves data makes a step of the bytes given for the ring, in ring order; with none given it makes none. -/
def State.moveAll (s : State) (bytes : List Nat) : State :=
  (List.finRange 16).foldl (fun t (r : Fin 16) =>
    match (t.ring r).moving with
    | some (x, m) => if 0 < bytes.getD r.val 0 then t.moveStep r x m (bytes.getD r.val 0) else t
    | none => t) s

/-- The commands that move data end with a shutdown (R453). -/
def State.abortMoves (s : State) : State :=
  (List.finRange 16).foldl (fun t (r : Fin 16) =>
    match ((t.ring r).outs.find? fun x => x.move.isSome) with
    | some x => t.completion r x.cid.toNat x.opcode.toNat stAborted false 0
    | none => t) s

/-- A Contact Sheet moves into its buffer: the next waits (R402). -/
def State.sheetBusy (s : State) : Bool :=
  (List.range 16).any fun r => (s.ring r).outs.any fun t => match t.move with
    | some m => m.kind == .sheet && m.ready
    | none => false

end Sys2Proof.Machine
end

