-- ==== Sys2Proof/Machine/Versions.lean ====
section
/-!
DEFINITION. Versions of zones on pairs: slots and pair roles, change of owner, withdrawal (R31, R32, R54, R64, R72,
R166, R167, R180, R184, R185).
-/
namespace Sys2Proof.Machine
open Sys2Proof

/-! ### Pairs -/

/-- Both stewards write T_pb of a pair (R72). -/
def State.rebound (s : State) (p : Nat) : State :=
  s.updPair p fun q => { q with bound := boundOf (s.nSlots p) q.shift }

/-- A pair returns to FREE: slots and stop bits cleared, the default shift until it is loaded (R64, R91) (DEDUCED, log entry 28). -/
def Pair.freed (q : Pair) : Pair :=
  { q with role := .free, stopA := false, stopB := false, run := none, trig := false, timerLost := false, timerLate := false,
           shift := 8, bound := 0x36 }

/-- Slots of a pair were given up: what they leave in its memories is no zero of a quick start any more (DESIGN CHOICE, log entry 8). One
that holds nothing returns to FREE, a STOPPED one that carries no zone takes the next rolling slot, though RETAINED versions lie on it
(R64, R161, R337, R338); of any other T_pb follows (DEDUCED, log entry 28; DEDUCED, log entry 29). -/
def State.vacate (s : State) (p : Nat) : State :=
  let s := { s with bist := { s.bist with zeroed := s.bist.zeroed &&& ~~~(1#36 <<< p) } }
  let none? := (s.versOn p).isEmpty
  match (s.pair p).role with
  | .carrying | .loading => if none? then s.updPair p Pair.freed else s.rebound p
  | .stopped => if (s.fullOn p).isEmpty && !s.commonFault then s.bistAsk p 1 else s
  | _ => s

/-- A FREE pair is selected: LOADING, pass number 0, comparator codes 0b01 (R64, R68, R79) (DEDUCED, log entry 28). -/
def State.load (s : State) (p : Nat) : State :=
  s.updPair p fun q => { q with
    role := .loading, nextPass := 0#32, codeA := 1#2, codeB := 1#2, run := none, trig := false, timerLost := false, timerLate := false }

/-- A pass is asked for (R66). -/
def State.trigger (s : State) (p : Nat) : State := s.updPair p fun q => { q with trig := true }

/-! ### Outputs and owners -/

/-- The outputs of a version. -/
def ZoneVer.targets (v : ZoneVer) : List Target := safeouts v.sec.blocks

/-- The channels a version drives, every member of a paralleled set among them (R55). -/
def State.chansOf (s : State) (v : ZoneVer) : List Nat :=
  v.targets.flatMap fun t =>
    match t with
    | .chan n => s.unit n
    | .point _ => []

/-- Both lanes write a pending change of owner of channels into their copies (R32). -/
def State.sendOwner (s : State) (chs : List Nat) (old new : Nat) (boundary : Word) : State :=
  let w (n : Nat) : FdCmd := .owner n (BitVec.ofNat 6 old) (BitVec.ofNat 6 new) boundary
  chs.foldl (fun t n => (t.pushFd .a (w n)).pushFd .b (w n)) s

/-- Both lanes signal, in the switch commands of the pass, the boundary at which the changes complete (R32). -/
def State.sendBoundary (s : State) (chs : List Nat) (boundary : Word) : State :=
  chs.foldl (fun t n => (t.pushFd .a (.boundary n boundary)).pushFd .b (.boundary n boundary)) s

/-- The owner of produced points in the record of each lane's transmit engine, lane B's in negative encoding (R18, R54). -/
def State.ownPoints (s : State) (as : List Nat) (p : Nat) : State :=
  let o : BitVec 6 := BitVec.ofNat 6 p
  { s with
    prodOwnA := as.foldl (fun t a => tabSet 0x3F#6 t a o) s.prodOwnA
    prodOwnB := as.foldl (fun t a => tabSet 0#6 t a (~~~o)) s.prodOwnB }

/-- A category 1 delay runs on an output in a lane, or in either. -/
def State.cat1On (s : State) (t : Target) : Bool :=
  let f := tabGet (false, false) s.cat1 (targetKey t)
  f.1 || f.2

/-- CAT1_ACTIVE of a zone (R53). -/
def State.cat1Zone (s : State) (z : Nat) : Bool :=
  match (s.zone z).active with
  | some v => v.targets.any s.cat1On
  | none => false

/-- A produced output is confirmed off: its last frame carried value 0, or no session carries it (R180) (DEDUCED, log entry 30). -/
def State.pointOff (s : State) (a : Nat) : Bool :=
  let c := s.conns.find? fun e =>
    match e.2.decl with
    | some d => produces d a
    | none => false
  match c with
  | some e => !e.2.st.session || (!isOne (s.ptA a) && !isOne (s.ptOf .b a) && tabGet false s.handed a)
  | none => true

/-- An output is confirmed off: a channel by a sample that showed it off, or because it is no safety output (DEDUCED, log entry 30). -/
def State.confirmedOff (s : State) (seen : List Target) (t : Target) : Bool :=
  match t with
  | .chan n => seen.contains t || decide ((s.chan n).mode ≠ 2#2)
  | .point a => s.pointOff a

/-- The channels among outputs that a sample shows off: the feedback reads valid 0 and both lanes' commands are off. -/
def offShown (ts : List Target) (pts : List (Nat × Pt)) (cmdOff : List Nat) : List Target :=
  ts.filter fun t =>
    match t with
    | .chan n => cmdOff.contains n && pts.any fun e => decide (e.1 = 0x20100 + n) && isZero e.2
    | .point _ => false

/-- A record is latched that R316 counts against a zone. -/
def State.blocked (s : State) (z : Nat) : Bool :=
  let y := s.zone z
  let chs := match y.active with
    | some v => s.chansOf v
    | none => []
  s.fl.recs.any fun e =>
    match e.2 with
    | none => false
    | some r =>
      match faultClass r.code with
      | 1 => decide (r.loc.toNat = y.faultPair)
      | 3 => chs.contains r.loc.toNat
      | 2 => true
      | 5 => true
      | _ => false

/-! ### Events of blocks (R138) -/

/-- BLOCK_DIAG of one block, at most one in 10 ms (R138): with DIAG_CNT, and where it carries a change that had to wait, with the count
since the previous event (DEDUCED, log entry 39). -/
def State.diagEvent (s : State) (z n : Nat) (old r : BlockRt) : State × BlockRt :=
  if decide (r.diag ≠ old.diag) || r.evPend then
    if s.mayPost r.evAt then
      (s.postEvent 0x03 1 (z + fld n 16 16 + fld r.diag 8 32 + fld (if r.evPend then r.evCnt else r.diagCnt) 8 40),
        { r with evAt := some s.now, evPend := false, evCnt := 0 })
    else (s, { r with evPend := true })
  else (s, r)

/-- The changes of DIAG that the blocks of a version show against the state they had are reported. -/
def State.diagEvents (s : State) (z : Nat) (v : ZoneVer) (rts : List BlockRt) : State × List BlockRt :=
  (List.range rts.length).foldl (fun a n =>
    let e := a.1.diagEvent z n (v.rt.getD n {}) (rts.getD n {})
    (e.1, a.2 ++ [e.2])) (s, [])

/-- What the stewards keep for the events of a block, beside a lane's own state of it. -/
def BlockRt.keptFrom (r q : BlockRt) : BlockRt := { r with evAt := q.evAt, evPend := q.evPend, evCnt := q.evCnt }

/-- Lane memories of a version take block state that differs between the lanes at most in what each has computed; changes of DIAG are
reported. -/
def State.storeRt (s : State) (z : Nat) (v : ZoneVer) (ra rb : List BlockRt) : State × ZoneVer :=
  let e := s.diagEvents z v ra
  (e.1, { v with rt := e.2, rtB := (List.range rb.length).map fun n => (rb.getD n {}).keptFrom (e.2.getD n {}) })

/-- The blocks of a version that begins anew with what a pair kept of it take their initial states at once (R102, R178, R183). -/
def State.restartRt (s : State) (z : Nat) (v : ZoneVer) : State × ZoneVer :=
  let rt := (List.range v.rt.length).map fun n => (v.rt.getD n {}).fresh (((v.sec.blocks[n]?).map fun b => b.kind).getD (.unlisted 0))
  let e := s.storeRt z v rt (rt.map BlockRt.neg)
  (e.1, { e.2 with first := true })

/-- The changes that the RETAINED version's blocks had still to report when it was replaced are reported once 10 ms have passed (R138)
(DEDUCED, log entry 39). -/
def State.lateEvents (s : State) (z : Nat) : State :=
  match (s.zone z).retained with
  | none => s
  | some v =>
    let e := s.storeRt z v v.rt v.rtB
    e.1.updZone z fun y => { y with retained := some e.2 }

/-! ### Withdrawal (R185) -/

/-- Steps 3 to 5: evaluation stops, ownership goes to no owner, the points read invalid, every version's slots are freed. -/
def State.endWithdraw (s : State) (z : Nat) : State :=
  let y := s.zone z
  match y.active, y.wd with
  | some v, some w =>
    let chs := s.chansOf v
    let b := (s.pair v.pair).nextPass
    let s := (s.sendOwner chs v.pair 0x3F b).sendBoundary chs b
    let s := (s.ownPoints (targetPts v.targets) 0x3F).dropPts v.writes
    let s := { s with cat1 := v.targets.foldl (fun t k => tabSet (false, false) t (targetKey k) (false, false)) s.cat1 }
    let ps := [v.pair] ++ (match y.staged with | some u => [u.pair] | none => []) ++
      (match y.retained with | some u => [u.pair] | none => [])
    let s := s.setZoneSt z .withdrawn
    let s := s.updZone z fun _ => Zone.init
    let s := (distinct ps).foldl State.vacate s
    w.os.foldl (fun t o => t.complete o 0x12 stSuccess 0) s
  | _, _ => s

/-- Step 1 has taken effect in both lanes and every output is confirmed off. -/
def State.withdrawn? (s : State) (z : Nat) : Bool :=
  let y := s.zone z
  match y.active, y.wd with
  | some v, some w =>
    !v.rt.any (fun r => r.c) && !s.cat1Zone z && v.targets.all (s.confirmedOff w.confirmed)
  | _, _ => false

/-- A withdrawal starts: the outputs fall at the end of the next pass; a zone that runs no pass has none on. `cut` drops category 1
delays at once (R452) (DEDUCED, log entry 35). -/
def State.startWithdraw (s : State) (z : Nat) (os : List Origin) (cut : Bool) : State :=
  let y := s.zone z
  match y.active with
  | none => s
  | some v =>
    let s := s.updZone z fun y => { y with
      wd := match y.wd with
        | some w => some { w with os := w.os ++ os, dropped := w.dropped || cut }
        | none => some { os := os, sample0 := s.fd.sampleNum, confirmed := [], dropped := cut }
      restartReq := false }
    let s := if cut then
      v.targets.foldl (fun t k =>
        let t := if t.cat1On k then (t.commandLane .a k false).commandLane .b k false else t
        { t with cat1 := tabSet (false, false) t.cat1 (targetKey k) (false, false) }) s
      else s
    s.trigger v.pair

/-- A zone whose only version is STAGED is discarded (R185). -/
def State.discardStaged (s : State) (z : Nat) : State :=
  match (s.zone z).staged with
  | some v =>
    let s := if (s.zone z).active.isNone then s.setZoneSt z .withdrawn else s
    let s := s.updZone z fun y => { y with staged := none, accFails := 0 }
    if v.admitted then s.vacate v.pair else s
  | none => s

/-- RETAINED version of a zone is released (R184). -/
def State.dropRetained (s : State) (z : Nat) : State :=
  match (s.zone z).retained with
  | some v => (s.updZone z fun y => { y with retained := none }).vacate v.pair
  | none => s

/-- The RETAINED-only pair with the lowest number, apart from two pairs in use (R184). -/
def State.retainedOnly (s : State) (src tgt : Nat) : Option Nat :=
  (below 36 fun p => (s.pair p).role == .carrying && decide (p ≠ src) && decide (p ≠ tgt) && (s.fullOn p).isEmpty &&
    !(s.versOn p).isEmpty).head?

/-- The RETAINED versions of a pair are released (R184). -/
def State.dropRetainedOn (s : State) (p : Nat) : State :=
  s.zones.foldl (fun t e => match e.2.retained with
    | some v => if v.pair = p then t.dropRetained e.1 else t
    | none => t) s

/-- It is released, with an event for each version (R184, R408). -/
def State.releaseRetained (s : State) (p : Nat) : State :=
  s.zones.foldl (fun t e =>
    match e.2.retained with
    | some v =>
      if v.pair = p then
        (t.dropRetained e.1).postEvent 0x0C 1 (e.1 + fld v.sec.version.toNat 16 16 + fld p 8 32)
      else t
    | none => t) s

end Sys2Proof.Machine
end

