-- ==== Sys2Proof/Machine/Image.lean ====
section
/-!
DEFINITION. Images: IMG_LOAD, and the checks and effects of IMG_VERIFY (R38, R44, R48 to R50, R55, R59, R60, R97, R98,
R105, R120, R125, R128, R130, R133, R148, R168, R169, R223, R226, R236 to R239, R280, R317, R472 to R474).
-/
namespace Sys2Proof.Machine
open Sys2Proof

/-- What IMG_RULE reports (R401): the rule broken, the zone, the block, the point address; and the parameter k as k, or the input k
as 16 + k, which R97 names too and the result has no place for (DESIGN CHOICE, log entry 70). -/
structure Bad where
  rule : Nat
  zone : Option Nat := none
  blk : Option Nat := none
  point : Option Nat := none
  item : Option Nat := none
  deriving DecidableEq, Repr

/-- A check: the item where a condition holds. -/
def badIf (c : Bool) (b : Bad) : Option Bad := if c then some b else none

def inRange (lo hi n : Nat) : Bool := decide (lo ≤ n) && decide (n ≤ hi)

/-! ### Blocks (R97) -/

/-- Each parameter lies on its step (R108 to R132), in the order of the declaration. -/
def paramSteps (d : BlockDecl) : List Bool :=
  let onMs (x : Option Nat) : Bool := x.all fun t => decide (t % 1000000 = 0)
  let onUs (x : Option Nat) : Bool := x.all fun t => decide (t % 1000 = 0)
  match d with
  | .estop d _ | .dualeq d _ | .dualant d _ => [onMs d, true]
  | .curtain d _ _ sy mx ov _ => [onMs d, true, true, onMs sy, onMs mx, onMs ov, true]
  | .guard d _ _ c _ => [onMs d, true, true, onMs c, true]
  | .glock _ t => [true, onMs t]
  | .twohand t | .enable t | .modesel t => [onMs t]
  | .standstill _ _ s d => [true, true, onMs s, onMs d]
  | .edm _ t => [true, onMs t]
  | .safeout _ _ d x => [true, true, onMs d, onUs x]
  | .ton t | .toff t | .pulse t => [onUs t]
  | _ => []

/-- Each parameter lies in its range (R108 to R133), in the same order. -/
def paramRanges (k : BlockKind) : List Bool :=
  match k with
  | .estop d st | .dualeq d st | .dualant d st => [inRange 1 10000 d, decide (st ≤ 1)]
  | .curtain d st m sy mx ov dir =>
    [inRange 1 10000 d, decide (st ≤ 1), decide (m ≤ 2), inRange 10 5000 sy, inRange 1000 600000 mx, inRange 1000 600000 ov,
     decide (dir ≤ 1)]
  | .guard d st m c p => [inRange 1 10000 d, decide (st ≤ 1), decide (m ≤ 1), inRange 10 10000 c, decide (p ≤ 1)]
  | .glock p t => [decide (p ≤ 1), inRange 10 10000 t]
  | .twohand t => [inRange 10 1000 t]
  | .enable d => [inRange 1 10000 d]
  | .modesel t => [inRange 10 5000 t]
  | .standstill a b s d => [decide (a ≤ 15), decide (b ≤ 15), inRange 1 10000 s, inRange 10 10000 d]
  | .edm _ t => [true, inRange 10 2000 t]
  | .safeout _ c d x => [true, decide (c ≤ 1), decide (d ≤ 30000), decide (x ≤ 1000000)]
  | .ton t | .toff t | .pulse t => [inRange 10 600000000 t]
  | .couple a => [inRange 0x21000 0x217FF a]
  | _ => []

/-- The first parameter outside its range or off its step (R97). -/
def badParam (d : BlockDecl) : Option Nat := (paramRanges d.kind).findIdx? (!·) |>.or ((paramSteps d).findIdx? (!·))

/-- What a block says of an input: 0 not to be declared, 1 optional, 2 required (R96). AND, OR and MODESEL require every input up to the
last one declared (DESIGN CHOICE, log entry 70). -/
def inputNeeds (k : BlockKind) (n : Nat) : List Nat :=
  match k with
  | .and | .or | .modesel _ => List.replicate (max 2 (min n 8)) 2
  | .xor | .sr => [2, 2]
  | .not | .ton _ | .toff _ | .pulse _ | .couple _ | .restart => [2]
  | .estop _ _ | .dualeq _ _ | .dualant _ _ | .standstill _ _ _ _ => [2, 2]
  | .curtain _ _ m _ _ _ _ =>
    if m = 0 then [2, 2, 0, 0, 0, 0, 0, 0, 0] else if m = 1 then [2, 2, 2, 2, 0, 0, 1, 1, 1] else [2, 2, 2, 2, 2, 2, 1, 1, 1]
  | .guard _ _ _ _ _ | .enable _ => [2, 2, 1]
  | .glock _ _ => [2, 2, 1, 2, 2]
  | .twohand _ => [2, 2, 2, 2]
  | .edm _ _ | .safeout _ _ _ _ => [2, 1]
  | .unlisted _ => []

/-- The first input that is missing or one too many (R97). -/
def badInput (k : BlockKind) (ins : List (Option Operand)) : Option Nat :=
  let needs := inputNeeds k ins.length
  (List.range (max ins.length needs.length)).find? fun i =>
    let given := ((ins[i]?).join).isSome
    match needs[i]? with
    | none => true
    | some 2 => !given
    | some 0 => given
    | _ => false

/-- A type that the table of R96 does not have. -/
def isListed : BlockDecl → Bool
  | .unlisted _ => false
  | _ => true

/-- What R97 refuses of a block: its type, a parameter, an input with the point it names. -/
def formBad (zn : Option Nat) (n : Nat) (b : Block) : Option Bad :=
  let at' : Bad := { rule := 97, zone := zn, blk := some n }
  (badIf (!isListed b.decl) at').or <|
  ((badParam b.decl).map fun i => { at' with item := some i }).or <|
  (badInput b.kind b.ins).map fun i => { at' with
    item := some (16 + i), point := match (b.ins[i]?).join with
      | some (Operand.point a) => some a
      | _ => none }

/-! ### Reachability (R105, R120, R60) -/

/-- One round of reachability from outputs (block, output): the blocks that read a reached output reach with all theirs. -/
def reachStep (bs : List Block) (from0 : List (Nat × Nat)) : List (Nat × Nat) :=
  let hit (b : Block) : Bool := b.ins.any fun i =>
    match i with
    | some (.sig _ k o) => from0.contains (k, o)
    | _ => false
  from0 ++ (List.range bs.length).flatMap fun n =>
    match bs[n]? with
    | some b => if hit b then ((List.range (blockOuts b)).map fun o => (n, o)).filter fun e => !from0.contains e else []
    | none => []

/-- Every output reached from one, through any chain of blocks. -/
def reach (bs : List Block) : Nat → List (Nat × Nat) → List (Nat × Nat)
  | 0, f => f
  | n + 1, f =>
    let g := reachStep bs f
    if g.length = f.length then f else reach bs n g

/-- Blocks with an input in a set of outputs: block number, input number. -/
def readers (bs : List Block) (outs : List (Nat × Nat)) : List (Nat × Nat) :=
  (List.range bs.length).flatMap fun n =>
    match bs[n]? with
    | some b => (List.range b.ins.length).filterMap fun i =>
        match (b.ins[i]?).join with
        | some (Operand.sig _ k o) => if outs.contains (k, o) then some (n, i) else none
        | _ => none
    | none => []

def isSafeout (bs : List Block) (n : Nat) : Bool :=
  match (bs[n]?).map fun b => b.kind with
  | some (BlockKind.safeout _ _ _ _) => true
  | _ => false

def isCouple (bs : List Block) (n : Nat) : Bool :=
  match (bs[n]?).map fun b => b.kind with
  | some (BlockKind.couple _) => true
  | _ => false

/-- An output reaches a SAFEOUT PERMIT input or a COUPLE block (R105). -/
def reachesPermit (bs : List Block) (n o : Nat) : Bool :=
  (readers bs (reach bs bs.length [(n, o)])).any fun e => isCouple bs e.1 || (isSafeout bs e.1 && decide (e.2 = 0))

/-! ### Declarations as they will stand -/

/-- The mode, set and readback of a channel an image leaves in force. -/
def State.imgChan (s : State) (img : Image) (n : Nat) : ChanDecl :=
  match img.chans.find? fun e => decide (e.1.val = n) with
  | some e => e.2
  | none =>
    let c := s.chan n
    { mode := c.mode, type3 := c.type3, wbEn := c.wbEn, debounce := c.debounce, par := c.par, olEn := c.olEn,
      fbFilt := c.fbFilt, offWin := c.offWin, tpEn := c.tpEn, width := c.width, period := c.period, phaseA := c.phaseA,
      phaseB := c.phaseB, nsSrc := c.nsSrc, silentState := c.silentState, tilePair := c.tilePair, tileLane := c.tileLane,
      silentT := c.silentT }

/-- A channel is a member, not the head, of a set as an image leaves it (R220). -/
def State.imgMember (s : State) (img : Image) (n : Nat) : Bool :=
  (List.range n).any fun h =>
    ((s.imgChan img h).par = 1#2 && decide (n = h + 1)) || ((s.imgChan img h).par = 2#2 && decide (n < h + 4))

/-- The connections declared in the image, or in force and left unchanged by it. -/
def State.imgConns (s : State) (img : Image) : List (Nat × ConnDecl) :=
  (img.conns.filterMap fun e => e.2.map fun d => (e.1, d)) ++
  (s.conns.filterMap fun e =>
    if img.conns.any (fun i => decide (i.1 = e.1)) then none else e.2.decl.map fun d => (e.1, d))

/-- The declaration of an internal point, in the image or in force. -/
def State.imgPoint (s : State) (img : Image) (a : Nat) : Option PointClass :=
  match img.internals.find? fun e => decide (e.1 = a) with
  | some e => some e.2
  | none => tabGet none s.internals a

/-- A section replaces the zone's STAGED version: its version is not the ACTIVE one's (R169). -/
def State.isNew (s : State) (z : ZoneSection) : Bool :=
  match (s.zone z.zone.toNat).active with
  | some v => decide (v.sec.version ≠ z.version)
  | none => true

/-- Sections of the zone versions the device holds after the verify, ACTIVE or STAGED. -/
def State.heldSections (s : State) (img : Image) : List ZoneSection :=
  let news := img.zones.filter s.isNew
  news ++ s.zones.flatMap fun e =>
    (match e.2.active with | some v => [v.sec] | none => []) ++
    (match e.2.staged with
     | some v => if news.any (fun z => decide (z.zone.toNat = e.1)) then [] else [v.sec]
     | none => [])

/-- Points a section writes. -/
def sectionWrites (z : ZoneSection) : List Nat := couples z.blocks ++ targetPts (safeouts z.blocks)

/-- Tile sections in force that an image leaves as they are. -/
def State.tilesKept (s : State) (img : Image) : List TileSection :=
  s.tiles.filterMap fun e =>
    match e.2.sec with
    | some t => if img.tiles.any fun u => decide (u.pair = t.pair) && u.lane == t.lane then none else some t
    | none => none

/-- A point has a writer (R44). -/
def State.hasWriter (s : State) (img : Image) (a : Nat) : Bool :=
  if 0x21000 ≤ a then
    (s.heldSections img).any (fun z => (couples z.blocks).contains a) ||
    ((img.tiles ++ s.tilesKept img).any fun t => (couples t.blocks).contains a)
  else if 0x20000 ≤ a then true
  else (s.imgConns img).any fun e => consumes e.2 a || produces e.2 a

/-! ### Rules of one zone section -/

/-- An address an image reads or writes: assigned (R38), and, an internal point, declared (R60). -/
def State.addrBad (s : State) (img : Image) (at' : Nat → Option Nat → Bad) (a : Nat) : Option Bad :=
  (badIf (!assigned a) (at' 38 (some a))).or <|
  badIf (decide (0x21000 ≤ a) && (s.imgPoint img a).isNone) (at' 60 (some a))

/-- A signal of the section (R98) from a block stepped before, or after where its type breaks cycles (R59, R100). -/
def sigBad (bs : List Block) (at' : Nat → Option Nat → Bad) (n k o : Nat) : Option Bad :=
  match bs[k]? with
  | none => some (at' 98 none)
  | some b => (badIf (decide (blockOuts b ≤ o)) (at' 98 none)).or <| badIf (decide (n ≤ k) && !kindBreaks b.kind) (at' 59 none)

/-- Checks of an operand of block n of a zone: its address, a writer (R44), a signal of the zone. -/
def State.operandBad (s : State) (img : Image) (z : ZoneSection) (n : Nat) (x : Operand) : Option Bad :=
  let at' (r : Nat) (p : Option Nat) : Bad := { rule := r, zone := some z.zone.toNat, blk := some n, point := p }
  match x with
  | .const _ => none
  | .point a => (s.addrBad img at' a).or <| badIf (!s.hasWriter img a) (at' 44 (some a))
  | .sig y k o => (badIf (decide (y ≠ z.zone.toNat)) (at' 98 none)).or <| sigBad z.blocks at' n k o

/-- A STANDARD point is read by an AND gate alone, another input of which lies on the permit path (R60): a signal or a point that is not
STANDARD, since a constant lies on no path (DEDUCED, log entry 65). -/
def State.standardBad (s : State) (img : Image) (z : ZoneSection) (n : Nat) (b : Block) : Option Bad :=
  let std (i : Option Operand) : Bool :=
    match i with
    | some (.point a) => decide (s.imgPoint img a = some .standard)
    | _ => false
  let path (i : Option Operand) : Bool :=
    match i with
    | some (.sig _ _ _) => true
    | some (.point _) => !std i
    | _ => false
  match b.ins.find? std with
  | some (some (.point a)) =>
    badIf (!(b.kind == .and && b.ins.any path && reachesPermit z.blocks n 0))
      { rule := 60, zone := some z.zone.toNat, blk := some n, point := some a }
  | _ => none

/-- Checks of one block. -/
def State.blockBad (s : State) (img : Image) (z : ZoneSection) (n : Nat) (b : Block) : Option Bad :=
  let at' (r : Nat) (p : Option Nat) : Bad := { rule := r, zone := some z.zone.toNat, blk := some n, point := p }
  (match b.kind with
   | .couple a => badIf (!assigned a) (at' 38 (some a))
   | _ => none).or <|
  (formBad (some z.zone.toNat) n b).or <|
  (b.ins.findSome? fun i => match i with
    | some x => s.operandBad img z n x
    | none => none).or <|
  (s.standardBad img z n b).or <|
  match b.kind with
  | .estop _ _ | .guard _ _ _ _ _ | .curtain _ _ _ _ _ _ _ | .glock _ _ =>
    badIf (!reachesPermit z.blocks n 0) (at' 105 none)
  | .standstill c d _ _ => badIf (decide (c = d)) (at' 125 none)
  | .edm mon _ =>
    badIf (!isSafeout z.blocks mon || ((List.range n).any fun m =>
      match (z.blocks[m]?).map Block.kind with
      | some (BlockKind.edm mon' _) => decide (mon' = mon)
      | _ => false)) (at' 128 none)
  | .safeout t c d x =>
    let base := badIf (decide (c = 0) && decide (d ≠ 0)) (at' 130 none)
    match t with
    | .chan ch =>
      let k := s.imgChan img ch
      base.or <| (badIf (decide (63 < ch) || decide (k.mode ≠ 2#2)) (at' 130 none)).or <|
        (badIf (s.imgMember img ch) (at' 55 (some (0x20100 + ch)))).or <|
        badIf (decide (k.offWin.toNat * 100 < 40 + x)) (at' 226 none)
    | .point a =>
      base.or <| (badIf (decide (x ≠ 0)) (at' 130 (some a))).or <|
        badIf (!(s.imgConns img).any fun e => produces e.2 a) (at' 130 (some a))
  | .couple a => badIf ((s.imgPoint img a).isNone) (at' 60 (some a))
  | _ => none

/-- Rules of a lock zone (R120). -/
def lockBad (z : ZoneSection) : Option Bad :=
  let locks := below z.blocks.length fun n =>
    match (z.blocks[n]?).map fun b => b.kind with
    | some (BlockKind.glock _ _) => true
    | _ => false
  let acts := reach z.blocks z.blocks.length (locks.map fun n => (n, 1))
  let outs := below z.blocks.length (isSafeout z.blocks)
  let reached (n : Nat) : Bool := (readers z.blocks acts).any fun e => decide (e.1 = n)
  if outs.any reached then
    ((outs.find? fun n => !reached n).map fun n => { rule := 120, zone := some z.zone.toNat, blk := some n }).or <|
    (locks.find? fun n => !(readers z.blocks (reach z.blocks z.blocks.length [(n, 0)])).any
      fun e => isCouple z.blocks e.1).map fun n => { rule := 120, zone := some z.zone.toNat, blk := some n }
  else none

/-- Functions of a section (R48, R49, R148). -/
def fnsBad (z : ZoneSection) : Option Bad :=
  let zn := some z.zone.toNat
  let nums := z.fns.map fun f => f.num
  (badIf (z.fns.isEmpty || decide (256 < z.fns.length) || nums.any (fun n => decide (255 < n)) ||
    decide ((distinct nums).length ≠ nums.length)) { rule := 48, zone := zn }).or <|
  z.fns.findSome? fun f =>
    let cat1 := f.outs.any fun o =>
      match (z.blocks[o]?).map fun b => b.kind with
      | some (BlockKind.safeout _ c _ _) => decide (c = 1)
      | _ => false
    (badIf (!inRange 200 10000000 f.d || f.outs.isEmpty) { rule := 49, zone := zn }).or <|
    ((f.outs.find? fun o => !isSafeout z.blocks o).map fun o => { rule := 48, zone := zn, blk := some o }).or <|
    badIf (match f.dOff with | some x => !inRange 1000 40000000 x | none => cat1) { rule := 148, zone := zn }

/-- Checks of a section: size (R48, R97), restart mode (R50), functions, blocks, lock zone. -/
def State.sectionBad (s : State) (img : Image) (z : ZoneSection) : Option Bad :=
  let zn := some z.zone.toNat
  let slots := (z.blocks.map fun b => kindSlots b.kind).sum
  let isRestart (b : Block) : Bool := b.kind == .restart
  let guarded (b : Block) : Bool :=
    match b.kind with
    | .estop _ _ => true
    | .guard _ _ _ _ p => decide (p = 1)
    | _ => false
  (badIf (!inRange 1 1024 slots) { rule := 48, zone := zn }).or <|
  (badIf (decide (1024 < z.blocks.length)) { rule := 97, zone := zn }).or <|
  (if z.auto then
    ((below z.blocks.length fun n => ((z.blocks[n]?).map guarded).getD false).head?).map fun n =>
      { rule := 50, zone := zn, blk := some n }
   else badIf (!z.blocks.any isRestart) { rule := 50, zone := zn }).or <|
  (fnsBad z).or <|
  ((List.range z.blocks.length).findSome? fun n =>
    match z.blocks[n]? with
    | some b => s.blockBad img z n b
    | none => none).or <|
  lockBad z

/-! ### Rules of the image -/

/-- The first value a list holds twice. -/
def repeated : List Nat → Option Nat
  | [] => none
  | a :: r => if r.contains a then some a else repeated r

/-- An address that two connections of a list consume: the later base of two spans that overlap. -/
def consumedTwice : List (Nat × ConnDecl) → Option Nat
  | [] => none
  | e :: r =>
    ((r.find? fun f => decide (0 < e.2.rxPoints) && decide (0 < f.2.rxPoints) &&
        decide (e.2.rxBase < f.2.rxBase + f.2.rxPoints) && decide (f.2.rxBase < e.2.rxBase + e.2.rxPoints)).map
      fun f => max e.2.rxBase f.2.rxBase).or (consumedTwice r)

/-- One writer for each point and output (R44, R55, R130), no remote address both consumed and produced. Points that a tile section in
force, or an ACTIVE version, writes count beside those of the image's zones and tiles (DEDUCED, log entry 65). -/
def State.writersBad (s : State) (img : Image) : Option Bad :=
  let newTiles := img.tiles.flatMap fun t => couples t.blocks
  let kept := (s.tilesKept img).flatMap fun t => couples t.blocks
  let pts := img.zones.flatMap sectionWrites ++ newTiles ++ kept
  let actives := s.zones.flatMap fun e => match e.2.active with | some v => couples v.sec.blocks | none => []
  let chs := img.zones.flatMap fun z => (safeouts z.blocks).filterMap fun t =>
    match t with
    | .chan n => some n
    | .point _ => none
  ((repeated pts).map fun a => { rule := 44, point := some a }).or <|
  ((newTiles.find? fun a => actives.contains a).map fun a => { rule := 44, point := some a }).or <|
  ((repeated chs).map fun n => { rule := 130, point := some (0x20100 + n) }).or <|
  ((consumedTwice (s.imgConns img)).map fun a => { rule := 44, point := some a }).or <|
  (s.imgConns img).findSome? fun e =>
    ((List.range e.2.rxPoints).find? fun i => (s.imgConns img).any fun f => produces f.2 (e.2.rxBase + i)).map fun i =>
      { rule := 44, point := some (e.2.rxBase + i) }

/-- The head of the set that a channel is a member of as an image leaves it (R220). -/
def State.imgHead (s : State) (img : Image) (n : Nat) : Option Nat :=
  if n % 2 ≠ 0 && (s.imgChan img (n / 2 * 2)).par = 1#2 then some (n / 2 * 2)
  else if n % 4 ≠ 0 && (s.imgChan img (n / 4 * 4)).par = 2#2 then some (n / 4 * 4)
  else none

/-- A channel declaration within the ranges its registers take (R210, R220, R222, R236 to R239): every member of a set has the mode of its
head, whichever of the two the image declares. A set of channels in UNUSED or INPUT mode is refused, of which no rule speaks (DESIGN CHOICE,
log entry 77). -/
def State.chanBad (s : State) (img : Image) (n : Nat) (d : ChanDecl) : Option Nat :=
  let strange := match s.imgHead img n with
    | some h => decide (d.mode ≠ (s.imgChan img h).mode) || decide (d.par ≠ 0#2)
    | none => false
  let members := if d.par = 1#2 then [n + 1] else if d.par = 2#2 then [n + 1, n + 2, n + 3] else []
  if d.debounce = 0#16 then some 210
  else if d.fbFilt = 0#10 || decide (1000 < d.fbFilt.toNat) || decide (d.offWin = 0#14) || decide (d.par = 3#2) then some 236
  else if (d.par = 1#2 && decide (n % 2 ≠ 0)) || (d.par = 2#2 && decide (n % 4 ≠ 0)) ||
    strange || members.any (fun m => decide ((s.imgChan img m).mode ≠ d.mode)) || (decide (d.par ≠ 0#2) && decide (d.mode.toNat < 2)) then
    some 220
  else if !inRange 10 60000 d.period.toNat || !inRange 10 100 d.width.toNat then some 237
  else if 100 * d.period.toNat ≤ d.phaseA.toNat || 100 * d.period.toNat ≤ d.phaseB.toNat then some 237
  else if d.silentT = 0#10 || decide (1000 < d.silentT.toNat) || decide (d.silentState = 3#2) || decide (d.nsSrc = 3#2) ||
    decide (35 < d.tilePair.toNat) then some 239
  else none

/-- Pulse windows of all units (R223): the sum of 2 × (W + 50 µs) / P exceeds 0.5. -/
def State.pulsesBad (s : State) (img : Image) : Bool :=
  let units := (List.range 64).filterMap fun n =>
    let d := s.imgChan img n
    if d.mode = 2#2 && d.tpEn && !s.imgMember img n then some (2 * (10 * d.width.toNat + 50), 1000 * d.period.toNat) else none
  let sum := units.foldl addFrac (0, 1)
  decide (sum.2 < 2 * sum.1)

/-- A span of points lies in the range of a port; else its base. -/
def spanBad (port base n : Nat) : Option Nat :=
  if 1024 < n || (decide (0 < n) && (decide (base < 4096 * port) || decide (4096 * (port + 1) < base + n))) then some base else none

/-- A connection declaration within its ranges (R152, R280). -/
def connBad (k : Nat) (d : ConnDecl) : Option Bad :=
  (badIf (decide (2047 < k) || decide (31 < d.port) || decide (d.rxHandle = 0#16) || decide (d.txHandle = 0#16)) { rule := 280 }).or <|
  ((spanBad d.port d.rxBase d.rxPoints).map fun a => { rule := 280, point := some a }).or <|
  ((spanBad d.port d.txBase d.txPoints).map fun a => { rule := 280, point := some a }).or <|
  badIf (!inRange 25 100000 d.tCyc || !inRange 50 1000000 d.watchdog || decide (1000000 < d.tNi) || decide (1000000 < d.tNo) ||
    decide (d.tCyc ≤ d.txPhase) || !inRange 1 3 d.minVer || decide (27 < d.keyId)) { rule := 280 }

/-- Two connections of one port with one receive handle (R280). -/
def State.handlesBad (s : State) (img : Image) : Bool :=
  (repeated ((s.imgConns img).map fun e => 65536 * e.2.port + e.2.rxHandle.toNat)).isSome

/-- The SPLIT pairs (R472). -/
def State.splitPairs (s : State) : BitVec 36 :=
  (List.range 36).foldl (fun v p => setBit v p ((s.pair p).role == .split)) 0#36

/-- A block that a tile runs (R473). -/
def tileBlock : BlockKind → Bool
  | .and | .or | .xor | .not | .sr | .ton _ | .toff _ | .pulse _ | .couple _ => true
  | _ => false

/-- Checks of an operand of a tile: its address and declaration (R38, R60), a signal of the section. -/
def State.tileOperandBad (s : State) (img : Image) (t : TileSection) (n : Nat) (x : Operand) : Option Bad :=
  let at' (r : Nat) (p : Option Nat) : Bad := { rule := r, blk := some n, point := p }
  match x with
  | .const _ => none
  | .point a => s.addrBad img at' a
  | .sig _ k o => sigBad t.blocks at' n k o

/-- A block of a tile section. -/
def State.tileBlockBad (s : State) (img : Image) (t : TileSection) (n : Nat) (b : Block) : Option Bad :=
  let at' (r : Nat) (p : Option Nat) : Bad := { rule := r, blk := some n, point := p }
  (badIf (!tileBlock b.kind) (at' 473 none)).or <|
  (match b.kind with
   | .couple a => (badIf (!assigned a) (at' 38 (some a))).or <|
     badIf (decide (s.imgPoint img a ≠ some PointClass.standard)) (at' 473 (some a))
   | _ => none).or <|
  (formBad none n b).or <|
  b.ins.findSome? fun i => match i with
    | some x => s.tileOperandBad img t n x
    | none => none

/-- The points a tile section reads, each once. -/
def tilePoints (t : TileSection) : List Nat :=
  let at' (x : Operand) : List Nat := match x with
    | .point a => [a]
    | _ => []
  distinct ((t.blocks.flatMap fun b => b.ins.flatMap fun i => match i with
    | some x => at' x
    | none => []) ++ t.outs.flatMap fun e => at' e.2)

/-- Tile sections (R38, R60, R61, R473): the limits of a pair hold for a tile, its input image among them. -/
def State.tileBad (s : State) (img : Image) (t : TileSection) : Option Bad :=
  let kinds := t.blocks.map Block.kind
  (badIf ((s.pair t.pair).role != .split || decide (1024 < (kinds.map kindSlots).sum) || decide (4096 < (kinds.map kindWords).sum) ||
    decide (256 < (kinds.map kindTimers).sum) || decide (4096 < (tilePoints t).length)) { rule := 473 }).or <|
  ((List.range t.blocks.length).findSome? fun n => match t.blocks[n]? with
    | some b => s.tileBlockBad img t n b
    | none => none).or <|
  t.outs.findSome? fun e =>
    let d := s.imgChan img e.1
    (badIf (!(decide (e.1 < 64) && d.mode == 3#2 && d.nsSrc == 2#2 && decide (d.tilePair.toNat = t.pair) &&
      (d.tileLane == decide (t.lane = .b)))) { rule := 473, point := some (0x20100 + e.1) }).or <|
    s.tileOperandBad img t t.blocks.length e.2

/-- The acknowledgement channel, named by the image or in force, is in INPUT mode, and no zone reads it (R317). -/
def State.ackBad (s : State) (img : Image) : Bool :=
  let read (n : Nat) : Bool :=
    (s.heldSections img).any fun z => z.blocks.any fun b => b.ins.any fun i => decide (i = some (.point (0x20000 + n)))
  match img.ack with
  | some n => decide ((s.imgChan img n).mode ≠ 1#2) || read n
  | none => s.fl.ackEn && read s.fl.ackCh.toNat

/-- An ACTIVE version of a zone drives a member of a set whose head an image gives, or leaves, to another zone (R55): the channel. -/
def State.setSplit (s : State) (img : Image) : Option Nat :=
  let drives (z : ZoneSection) (n : Nat) : Bool := (safeouts z.blocks).contains (.chan n)
  (below 64 (s.imgMember img)).find? fun m =>
    s.zones.any fun e => match e.2.active with
      | some v => drives v.sec m &&
        !(img.zones.any fun z => decide (z.zone.toNat = e.1) && s.isNew z && !drives z m)
      | none => false

/-- Rules that a re-declaration of internal points breaks for zones and tiles that the image leaves as they are (R60). -/
def State.keptBad (s : State) (img : Image) : Option Bad :=
  ((s.heldSections img).findSome? fun z => (List.range z.blocks.length).findSome? fun n => match z.blocks[n]? with
    | some b => s.standardBad img z n b
    | none => none).or <|
  ((s.tilesKept img).findSome? fun t => (couples t.blocks).find? fun a => decide (s.imgPoint img a ≠ some PointClass.standard)).map
    fun a => { rule := 60, point := some a }

/-- The block and point rules of R168 with the rules of the chapters that name IMG_VERIFY. -/
def State.imageBad (s : State) (img : Image) : Option Bad :=
  (badIf (decide (img.splitMask ≠ s.splitPairs)) { rule := 472 }).or <|
  (img.chans.findSome? fun e => (s.chanBad img e.1 e.2).map fun r => { rule := r, point := some (0x20000 + e.1.val) }).or <|
  (badIf (s.pulsesBad img) { rule := 223 }).or <|
  (img.conns.findSome? fun e => match e.2 with | some d => connBad e.1 d | none => none).or <|
  (badIf (s.handlesBad img) { rule := 280 }).or <|
  ((img.internals.find? fun e => !inRange 0x21000 0x217FF e.1).map fun e => { rule := 60, point := some e.1 }).or <|
  (s.writersBad img).or <|
  (img.zones.findSome? (s.sectionBad img)).or <|
  (img.tiles.findSome? (s.tileBad img)).or <|
  (s.keptBad img).or <|
  ((s.setSplit img).map fun n => { rule := 55, point := some (0x20100 + n) }).or <|
  badIf (s.ackBad img) { rule := 317 }

/-! ### Conflicts with versions in force (R168, R169) -/

/-- The members of the set a channel heads as an image leaves it (R220). -/
def State.imgSet (s : State) (img : Image) (h : Nat) : List Nat :=
  if (s.imgChan img h).par = 1#2 then [h, h + 1]
  else if (s.imgChan img h).par = 2#2 then [h, h + 1, h + 2, h + 3]
  else [h]

/-- Every channel that a list of targets drives, the members of a set with its head (R55). -/
def drivenBy (set : Nat → List Nat) (ts : List Target) : List Nat :=
  ts.flatMap fun t => match t with
    | .chan n => set n
    | .point _ => []

/-- A point or output the image assigns to a zone is written by the ACTIVE version of another zone: of a paralleled set every member is. -/
def State.writerConflict (s : State) (img : Image) : Bool :=
  img.zones.any fun z => s.zones.any fun e =>
    decide (e.1 ≠ z.zone.toNat) &&
    (match e.2.active with
     | some v =>
       let mine := drivenBy (s.imgSet img) (safeouts z.blocks)
       ((drivenBy s.unit v.targets).any fun n => mine.contains n) || (v.writes.any fun a => (sectionWrites z).contains a)
     | none => false)

/-- A section uses a connection, or a channel. -/
def usesConn (z : ZoneSection) (d : ConnDecl) : Bool :=
  let v : ZoneVer := { imageId := 0#32, sec := z }
  (v.reads ++ v.writes).any fun a => consumes d a || produces d a

def usesChan (z : ZoneSection) (n : Nat) : Bool :=
  let v : ZoneVer := { imageId := 0#32, sec := z }
  v.targets.contains (.chan n) || v.reads.contains (0x20000 + n) || v.reads.contains (0x20100 + n)

/-- The connection slots whose declaration in force the image changes or removes, and the channels whose declaration it
changes. -/
def State.changedConns (s : State) (img : Image) : List (Nat × Option ConnDecl) :=
  img.conns.filter fun e => (s.conn e.1).decl.isSome && decide ((s.conn e.1).decl ≠ e.2)

def State.changedChans (s : State) (img : Image) : List (Fin 64 × ChanDecl) :=
  img.chans.filter fun e => (s.chan e.1).decl.isSome && decide ((s.chan e.1).decl ≠ some e.2)

/-- The zones of the ACTIVE versions, and of the versions that the image stages, with their sections. -/
def State.usersAll (s : State) (img : Image) : List (Nat × ZoneSection) :=
  ((img.zones.filter s.isNew).map fun z => (z.zone.toNat, z)) ++
  s.zones.filterMap fun e => e.2.active.map fun v => (e.1, v.sec)

/-- The zones that use a slot under the declaration in force or the new one; a channel. -/
def State.connUsers (s : State) (img : Image) (e : Nat × Option ConnDecl) : List Nat :=
  let ds := (match (s.conn e.1).decl with | some d => [d] | none => []) ++ (match e.2 with | some d => [d] | none => [])
  distinct (((s.usersAll img).filter fun u => ds.any (usesConn u.2)).map Prod.fst)

/-- A channel and the head of a set it is a member of, in force or in the image: a set belongs to the zone that targets its head (R55). -/
def State.chanHeads (s : State) (img : Image) (n : Nat) : List Nat :=
  let heads (par : BitVec 2) (h : Nat) : Bool := (par = 1#2 && decide (n = h + 1)) || (par = 2#2 && decide (n < h + 4))
  n :: below n fun h => heads (s.chan h).par h || heads (s.imgChan img h).par h

def State.chanUsers (s : State) (img : Image) (n : Nat) : List Nat :=
  distinct (((s.usersAll img).filter fun u =>
    usesChan u.2 n || (s.chanHeads img n).any fun h => (safeouts u.2.blocks).contains (.chan h)).map Prod.fst)

/-- The image does not change a zone. -/
def State.unchanged (s : State) (img : Image) (z : Nat) : Bool :=
  !img.zones.any fun y => decide (y.zone.toNat = z) && s.isNew y

/-- CONFIG_IN_USE. -/
def State.configInUse (s : State) (img : Image) : Bool :=
  let bad (zs : List Nat) : Bool := decide (1 < zs.length) || zs.any (s.unchanged img)
  (s.changedConns img).any (fun e => bad (s.connUsers img e)) ||
  (s.changedChans img).any (fun e => bad (s.chanUsers img e.1))

/-! ### What IMG_VERIFY does (R169, R317, R473, R493, R494) -/

/-- A channel declaration takes effect, `b` of it in lane die B's copy (R157): the registers take its values; where it changes the channel
the input point waits one full debounce time of its new setting (R43, R181). -/
def State.applyChan (s : State) (n : Nat) (d : ChanDecl) (b : Option ChanDecl) : State :=
  let changed := (s.chan n).decl != some d
  let was := (s.chan n).byHost
  let old := s.setOf n
  let par := decide ((s.chan n).par ≠ d.par)
  let s := s.updChans old fun m c => if m = n then c else { c with member := false }
  let s := s.updChan n fun c =>
    { ((c.enter d.mode).setWb d.wbEn) with
      type3 := d.type3, debounce := d.debounce, par := d.par, olEn := d.olEn, fbFilt := d.fbFilt,
      offWin := d.offWin, tpEn := d.tpEn, width := d.width, period := d.period, phaseA := d.phaseA, phaseB := d.phaseB,
      nsSrc := d.nsSrc, silentState := d.silentState, tilePair := d.tilePair, tileLane := d.tileLane, silentT := d.silentT,
      aPassed := if changed then none else c.aPassed,
      restoring := (decide (d.mode = 1#2) && changed) || (c.enter d.mode).restoring, decl := some d,
      debounceB := (b.getD d).debounce, fbFiltB := (b.getD d).fbFilt }
  let s := s.hostSource n was
  let s := (s.updChans (s.setOf n) fun m c => if m = n then c else { (c.enter d.mode) with member := true }).holdEntered (s.setOf n)
  if par then s.newUnits (old ++ s.setOf n) else s

/-- What a list of declarations says of a channel. -/
def chanOf (cs : List (Fin 64 × ChanDecl)) (n : Nat) : Option ChanDecl := (cs.find? fun e => decide (e.1.val = n)).map Prod.snd

/-- What a list of declarations says of a slot. -/
def declOf (cs : List (Nat × Option ConnDecl)) (k : Nat) : Option ConnDecl := ((cs.find? fun e => decide (e.1 = k)).map Prod.snd).join

/-- A connection declaration takes effect, or is removed, in each lane die's copy (R281). -/
def State.applyConn (s : State) (k : Nat) (d b : Option ConnDecl) : State :=
  if (s.conn k).decl = d then s
  else
    let s := s.removeConn k
    match d with
    | some d => s.declareConn k d b
    | none => s

/-- The declarations the image adds take effect at once, and those it changes that no zone uses, which R169 does not speak of (DESIGN
CHOICE, log entry 76). -/
def State.applyAdded (s : State) (img imgB : Image) : State :=
  let later (e : Nat × Option ConnDecl) : Bool := (s.changedConns img).contains e && !(s.connUsers img e).isEmpty
  let laterCh (e : Fin 64 × ChanDecl) : Bool := (s.changedChans img).contains e && !(s.chanUsers img e.1).isEmpty
  let t := (img.conns.filter fun e => !later e).foldl (fun t e => t.applyConn e.1 e.2 (declOf imgB.conns e.1)) s
  (img.chans.filter fun e => !laterCh e).foldl (fun t e => t.applyChan e.1 e.2 (chanOf imgB.chans e.1)) t

/-- A changed section becomes the zone's STAGED version in each lane die, with the changed declarations that serve it alone. -/
def State.stage (s : State) (img imgB : Image) (z : ZoneSection) (t : State) : State :=
  let n := z.zone.toNat
  let v : ZoneVer := {
    imageId := img.imageId, sec := z
    secB := (imgB.zones.find? fun y => decide (y.zone = z.zone)).getD z
    conns := (s.changedConns img).filter fun e => (s.connUsers img e).contains n
    connsB := (s.changedConns imgB).filter fun e => (s.connUsers imgB e).contains n
    chans := (s.changedChans img).filter fun e => (s.chanUsers img e.1).contains n
    chansB := (s.changedChans imgB).filter fun e => (s.chanUsers imgB e.1).contains n }
  t.updZone n fun y => { y with staged := some v, accFails := 0 }

/-- A tile section takes effect with every block in its initial state (R473, R474); a point that the section it replaces wrote and it does
not loses its writer and reads invalid (R43, R44). -/
def State.applyTile (s : State) (t : TileSection) : State :=
  let k := 2 * t.pair + (if t.lane = .b then 1 else 0)
  let old := match (s.tileAt k).sec with
    | some u => (couples u.blocks).filter fun a => !(couples t.blocks).contains a
    | none => []
  let s := s.dropPts old
  let s := s.updTile k fun _ => { sec := some t }
  let other := (s.tileAt (2 * t.pair)).stopped || (s.tileAt (2 * t.pair + 1)).stopped
  { s with db := { s.db with tileStop := setBit s.db.tileStop t.pair other } }

/-- Everything IMG_VERIFY does with an image that passes. -/
def State.applyImage (s : State) (img imgB : Image) (boot : Bool) : State :=
  let t := s.applyAdded img imgB
  let t := (img.zones.filter s.isNew).foldl (fun t z => s.stage img imgB z t) t
  let t := { t with
    internals := img.internals.foldl (fun u e => tabSet none u e.1 (some e.2)) t.internals
    internalsB := imgB.internals.foldl (fun u e => tabSet none u e.1 (some e.2)) t.internalsB
    gc := { t.gc with imgId := img.imageId, verified := true, fromFlash := boot }
    fl := match img.ack with
      | some n => { t.fl with
        ackEn := true, ackCh := BitVec.ofNat 6 n.val, ackEnB := false, ackChB := ~~~(BitVec.ofNat 6 n.val) }
      | none => t.fl
    boot := if boot then img.boot else t.boot
    buf := {} }
  img.tiles.foldl State.applyTile t

/-- RESULT of IMG_RULE (R401); an item the rule does not name is an open value. -/
def Bad.result (b : Bad) (open' : Nat) : Nat :=
  fld (b.zone.getD open') 8 64 + fld (b.blk.getD 0xFFFF) 16 80 + fld (b.point.getD 0xFFFFFFFF) 32 96 + fld b.rule 16 128

/-- The verdict on the loaded image, and what follows: status and result (DESIGN CHOICE, log entry 6; DESIGN CHOICE, log entry 16). Two
sections with one zone number are IMG_FORMAT, and of several items that fail the first names the status, in this order: format and sections,
the image check, the rules, the writers, the declarations, STAGE_BUSY (DESIGN CHOICE, log entry 76). -/
def State.verifyImage (s : State) (boot : Bool) : Nat × Nat × State :=
  match s.buf.imgA, s.buf.imgB with
  | some a, some b =>
    if s.buf.loaded < s.buf.total then (stBadState, 0, s)
    else
      let id := a.imageId.toNat
      if decide (a.major ≠ 1) || decide (3 < a.minor) || decide (2097152 < a.size) || decide (256 < a.zones.length) ||
        (repeated (a.zones.map fun z => z.zone.toNat)).isSome ||
        a.zones.any (fun z => match z.shift with | some x => !inRange 2 16 x | none => false) then (0x10, id, s)
      else if decide (crcA a.bytes ≠ a.crcA) || decide (crcB b.bytes ≠ b.crcB) then (0x11, id, s)
      else if a ≠ b then (stAborted, id, (s.laneFault .a 0x2003#16 0).laneFault .b 0x2003#16 0)
      else
        match s.imageBad a with
        | some r =>
          let (n, s) := s.draw
          let s := { s with buf := { s.buf with badItem := r.item } }
          (0x12, id + r.result (Config.freeMeasure n).toNat, s)
        | none =>
          if s.writerConflict a then (0x13, id, s)
          else if s.configInUse a then (0x14, id, s)
          else if a.zones.any (fun z => match (s.zone z.zone.toNat).staged with | some v => v.admitted | none => false) then
            (0x15, id, s)
          else
            let news := (a.zones.filter s.isNew).length
            (stSuccess, id + fld news 16 32 + fld (a.zones.length - news) 16 48, s.applyImage a b boot)
  | _, _ => (stBadState, 0, s)

/-- IMG_LOAD: one chunk into each lane die's load buffer (R169, R398, R401) (DESIGN CHOICE, log entry 16). -/
def execImgLoad (o : Origin) (offset total len : Word) (busOk : Bool) (imgA imgB : Image) (s : State) :
    Host.Outcome State Fault Refusal :=
  s.command o (.imgLoad o offset total len busOk imgA imgB) fun s =>
  let n := len.toNat
  if decide (total.toNat = 0) || decide (2097152 < total.toNat) || !inRange 4 65536 n || decide (n % 4 ≠ 0) ||
    decide (total.toNat + 3 < offset.toNat + n) then ok (s.complete o 0x01 stBadParam 0)
  else if offset ≠ 0#32 && decide (offset.toNat ≠ s.buf.loaded) then ok (s.complete o 0x01 0x16 s.buf.loaded)
  else if offset ≠ 0#32 && decide (total.toNat ≠ s.buf.total) then ok (s.complete o 0x01 stBadParam 0)
  else
    let s := if offset = 0#32 then { s with buf := { total := total.toNat } } else s
    ok (s.startMove o 0x01 { kind := .load offset.toNat total.toNat imgA imgB, bytes := n, busOk := busOk })

end Sys2Proof.Machine
end

