-- ==== Sys2Proof/Machine/TileAccess.lean ====
section
/-!
DEFINITION. What a debug access finds and changes in the memories of a halted pair (R469, R470, R477). The manual gives the words no
layout, so which word holds what is free (DESIGN CHOICE, log entry 8); what a written word does is not.
-/
namespace Sys2Proof.Config
open Sys2Proof Sys2Proof.Machine

/-- The block whose state a word of a pair's state memory holds: the place of its zone among those of the pair and its number; none where
the word holds no block's. Log entry 8. -/
opaque blockAt (pair idx : Nat) (zones : List ZoneSection) : Option (Nat × Nat)

/-- The word of a state memory that holds a part of a block. Log entry 8. -/
opaque blockWord (idx : Nat) (r : BlockRt) : BitVec 32

/-- A block after one word of its state is written; none where no part of it is in the word. Log entry 8. -/
opaque blockWritten (idx : Nat) (w : BitVec 32) (r : BlockRt) : Option BlockRt

/-- A word of the slot memory of a pair that carries zones. Log entry 8. -/
opaque slotWord (pair idx : Nat) (zones : List ZoneSection) : BitVec 32

/-- The points of a pair's input image in the order of its words, sixteen to a word. Log entry 8. -/
opaque imageOrder (pair : Nat) (zones : List ZoneSection) : List Nat

/-- What a word of the input image shows where no point lies in it. Log entry 8. -/
opaque imageRest (pair idx : Nat) : BitVec 32

/-- A word of the output vector of a pair, as the blocks of its zones stand. Log entry 8. -/
opaque outputWord (pair idx : Nat) (zones : List (ZoneSection × List BlockRt)) : BitVec 32

end Sys2Proof.Config

namespace Sys2Proof.Machine
open Sys2Proof

/-- The ACTIVE versions on a pair, in the order of their zones. -/
def State.activeOn (s : State) (p : Nat) : List (Nat × ZoneVer) :=
  (s.zonesOn p).filterMap fun z => (s.zone z).active.map fun v => (z, v)

/-- The block a word of state memory belongs to: its zone, its number, its contents in lane A and, in true form, in lane B. -/
def State.blockAt (s : State) (p idx : Nat) : Option (Nat × Nat × BlockRt × BlockRt) :=
  let vs := s.activeOn p
  (Config.blockAt p idx (vs.map fun e => e.2.sec)).bind fun (i, n) =>
    (vs[i]?).bind fun (z, v) =>
      if n < v.sec.blocks.length then some (z, n, v.rt.getD n {}, (v.rtB.getD n (BlockRt.neg {})).neg) else none

/-- The list with one entry more or another in its place; a place below it that is not there yet is filled. -/
def setPad {α : Type} (d : α) (n : Nat) (x : α) (xs : List α) : List α :=
  (List.range (max xs.length (n + 1))).map fun i => if i = n then x else xs.getD i d

/-- The points of a word of the input image. -/
def State.imagePoints (s : State) (p idx : Nat) : List Nat :=
  ((Config.imageOrder p ((s.activeOn p).map fun e => e.2.sec)).drop (16 * idx)).take 16

/-- A word of the live image as lane A holds it. -/
def State.imageWord (s : State) (p idx : Nat) : Word :=
  let xs := s.imagePoints p idx
  word ((List.range 16).foldl (fun w k =>
    w + (match xs[k]? with
      | some a => (s.ptA a).toNat
      | none => bits (Config.imageRest p idx) (2 * k + 1) (2 * k)) * 4 ^ k) 0)

/-- The points that written words of the live image stand for, over the image the marks have left. -/
def State.overImage (s : State) (p : Nat) (ws : List (Nat × Word)) (pts : Points) (init : Pt) : Points :=
  ws.foldl (fun t e =>
    let xs := s.imagePoints p e.1
    (List.range 16).foldl (fun t k => match xs[k]? with
      | some a => tabSet init t a (BitVec.ofNat 2 (bits e.2 (2 * k + 1) (2 * k)))
      | none => t) t) pts

/-- The word written last at an index, if any. -/
def wordAt (ws : List (Nat × Word)) (idx : Nat) : Option Word := (ws.find? fun e => decide (e.1 = idx)).map (·.2)
def putWord (ws : List (Nat × Word)) (idx : Nat) (w : Word) : List (Nat × Word) := (idx, w) :: ws.filter fun e => decide (e.1 ≠ idx)

/-- The block a place of debug access belongs to, with its contents in lane A: only a word of state memory may have one. -/
def State.placeBlock (s : State) (k idx : Nat) : Option BlockRt :=
  if k / 64 = 0 then (s.blockAt (k % 64) idx).map fun b => b.2.2.1 else none

/-- The word an access has named, while the memory under it is as that access left it. -/
def State.knownWord (s : State) (k idx : Nat) : Option Word :=
  (tabGet [] s.db.tile k).findSome? fun e => if e.idx = idx && decide (e.block = s.placeBlock k idx) then some e.value else none

def State.setKnown (s : State) (k idx : Nat) (v : Word) : State :=
  let t := (tabGet [] s.db.tile k).filter fun e => decide (e.idx ≠ idx)
  { s with db := { s.db with tile := tabSet [] s.db.tile k ({ idx := idx, value := v, block := s.placeBlock k idx } :: t) } }

/-- The memories of a pair hold what a quick start and its zones have put there, zones that evaluate alone (R336) (DESIGN CHOICE, log entry
8). -/
def State.zeroed (s : State) (p : Nat) : Bool :=
  s.bist.zeroed.getLsbD p && s.zones.all fun e => (e.2.staged.toList ++ e.2.retained.toList).all fun v => decide (v.pair ≠ p)

/-- A debug read of lane A: the word, and the state that knows it from then on. A word that no block and no point has a part in is 0 as a
quick start has left it (R336), else free, and stands once it is read (DESIGN CHOICE, log entry 8). -/
def State.readTile (s : State) (k idx : Nat) : Word × State :=
  let p := k % 64
  match k / 64 with
  | 1 => (Config.slotWord p idx ((s.activeOn p).map fun e => e.2.sec), s)
  | 2 => ((wordAt s.db.inA idx).getD (s.imageWord p idx), s)
  | 3 => (Config.outputWord p idx ((s.activeOn p).map fun e => (e.2.sec, e.2.rt)), s)
  | _ =>
    match s.knownWord k idx, s.placeBlock k idx with
    | some v, _ => (v, s)
    | none, some r => (Config.blockWord idx r, s)
    | none, none =>
      if k / 64 = 0 && s.zeroed p then (0#32, s)
      else
      let (n, s) := s.draw
      (Config.freeTileWord n, s.setKnown k idx (Config.freeTileWord n))

/-- A debug write reaches a lane: the word given is lane A's, lane B writes its complement at the same place (R18, R470). A word of state
memory changes the block it belongs to; a word of the live image is what the passes read until the pair runs again. -/
def State.writeTile (s : State) (l : Lane) (k idx : Nat) (w : Word) : State :=
  let p := k % 64
  match k / 64 with
  | 0 =>
    let s := match s.blockAt p idx with
      | none => s
      | some (z, n, ra, rb) => s.updZone z fun y => { y with active := y.active.map fun v => match l with
          | .a => { v with rt := setPad {} n ((Config.blockWritten idx w ra).getD ra) v.rt }
          | .b => { v with rtB := setPad (BlockRt.neg {}) n ((Config.blockWritten idx w rb).getD rb).neg v.rtB } }
    match l with
    | .a => s.setKnown k idx w
    | .b => s
  | 2 =>
    if (s.pair p).role ≠ .halted then s
    else { s with db := match l with
      | .a => { s.db with inA := putWord s.db.inA idx w }
      | .b => { s.db with inB := putWord s.db.inB idx (~~~w) } }
  | _ => s.setKnown k idx w

/-- A slice has marched through the memories of a pair: what accesses knew of them no longer stands. -/
def State.forgetTile (s : State) (p : Nat) : State :=
  { s with db := { s.db with tile := s.db.tile.filter fun e => decide (e.1 % 64 ≠ p) || decide (256 ≤ e.1) } }

end Sys2Proof.Machine
end

