-- ==== Sys2Proof/Machine/Change.lean ====
section
/-!
DEFINITION. The long operation of the stewards (R157 to R161, R171 to R184): admission, change, migration, re-admission
and commit, stage by stage, and the events that end one early.
-/
namespace Sys2Proof.Machine
open Sys2Proof

/-! ### What an operation is -/

/-- The opcode its completion carries (R400). -/
def OpKind.opcode : OpKind → Nat
  | .verify _ => 0x02
  | .admission _ _ => 0x10
  | .change _ _ _ => 0x10
  | .migrate _ _ _ _ _ => 0x13
  | .commit _ _ _ => 0x11

/-- It is a step of the hostless start (R448). -/
def OpKind.isBoot : OpKind → Bool
  | .verify b => b
  | .admission _ b => b
  | .commit _ _ b => b
  | _ => false

/-- The RETAINED versions of the source move too (R171, R179). -/
def OpKind.movesRetained : OpKind → Bool
  | .change _ _ _ => true
  | .migrate _ _ whole _ _ => whole
  | _ => false

/-- It is a re-admission from a STOPPED pair (R178). -/
def OpKind.readmit : OpKind → Bool
  | .migrate _ _ _ r _ => r
  | _ => false

/-- It empties a pair for its slice (R338). -/
def OpKind.forSlice : OpKind → Bool
  | .migrate _ _ _ _ b => b
  | _ => false

/-- The versions an admission places: those that count against every limit, in rising zone order, and RETAINED ones. -/
def State.opSets (s : State) (k : OpKind) : List ZoneVer × List ZoneVer :=
  let run := (List.range 256).filterMap fun z =>
    if k.set.contains z then (s.zone z).staged
    else if k.copies.contains z then (s.zone z).active
    else none
  let ret := if k.movesRetained then
    s.zones.filterMap fun e => match e.2.retained with
      | some v => if v.pair = k.src then some v else none
      | none => none
    else []
  match k with
  | .commit z true _ => ((match (s.zone z).retained with | some v => [v] | none => []), [])
  | _ => (run, ret)

/-! ### Ends -/

/-- BOOT_ERR and STATUS keep the first failure of the hostless start (R448, R462). -/
def State.bootFail (s : State) (err st : Nat) : State :=
  if s.pm.bootErr = 0#4 then s.updPm fun p => { p with bootErr := BitVec.ofNat 4 err, status := BitVec.ofNat 8 st } else s

/-- BIST_RUN commands that wait for a pair or an item complete (R341). -/
def State.completeAsks (s : State) (item idx status res : Nat) : State :=
  let hit (e : Origin × Byte × Byte) : Bool := decide (e.2.1.toNat = item) && decide (e.2.2.toNat = idx)
  let due := s.bist.asked.filter hit
  let s := { s with bist := { s.bist with asked := s.bist.asked.filter fun e => !hit e } }
  due.foldl (fun t e => t.complete e.1 0x30 status res) s

/-- A slot is lost (R338, R344) (DESIGN CHOICE, log entry 40). -/
def State.skipSlot (s : State) : State := { s with bist := { s.bist with skipCnt := satInc s.bist.skipCnt 65535 } }

/-- The slice of a pair starts, or its repeat: a FREE pair becomes TESTING, a STOPPED one stays STOPPED (R64, R338). -/
def State.startSlice (s : State) (p : Nat) (again : Bool) : State :=
  { (s.forgetTile p).updPair p fun q => { q with role := if q.role = .free then .testing else q.role, run := none, trig := false } with
    bist := { s.bist with
      slice := some (p, again), sliceRows := if again then s.bist.sliceRows else [], slicePoison := false
      zeroed := s.bist.zeroed &&& ~~~(1#36 <<< p)
      queue := s.bist.queue.filter fun e => decide (e.1 ≠ p) } }

/-- A migration for a slice did not take place: the slot is lost, requests for the pair end (DESIGN CHOICE, log entry 40). -/
def State.sliceLost (s : State) (k : OpKind) (st : Nat) : State :=
  if k.forSlice then s.skipSlot.completeAsks 0 k.src st 0 else s

/-- The operation ends with its completion (DEDUCED, log entry 36). -/
def State.closeOp (s : State) (status res : Nat) : State :=
  match s.op with
  | none => s
  | some op =>
    ({ s with op := none, mig := { s.mig with stage := 0 } }).completeOpt op.o op.kind.opcode status res

/-- The operation reaches a stage of R187; 7 is a commit past its commit point (DEDUCED, log entry 36). -/
def State.setStage (s : State) (n : Nat) : State :=
  match s.op with
  | none => s
  | some op =>
    let shown := match op.kind with
      | .verify _ => false
      | .admission _ _ => false
      | _ => true
    { s with
      op := some { op with stage := n, armed := false, half := none }
      mig := if shown then { s.mig with stage := if n = 7 then 6 else n } else s.mig }

/-- Device time since take-up in µs. -/
def State.opUs (s : State) (op : LongOp) : Nat := s.since op.start / 100

/-- RESULT of ZONE_MIGRATE (R401). -/
def State.moveResult (s : State) (op : LongOp) (code : Nat) : Nat :=
  match op.kind with
  | .migrate _ _ _ _ _ => fld code 8 0 + fld op.tgt 8 8 + fld (s.opUs op) 32 32
  | _ => 0

/-- The load of the target is cleared (R64, R161). -/
def State.dropLoad (s : State) (op : LongOp) : State :=
  match (s.pair op.tgt).role with
  | .loading => if op.loaded then s.updPair op.tgt Pair.freed else s
  | .stopped => s.vacate op.tgt
  | .carrying => s.rebound op.tgt
  | _ => s

/-- An admission ends refused, its command with a status (R161 to R163, R405, R453) (DEDUCED, log entry 33). -/
def State.refuseAs (s : State) (r : AdmRec) (code status : Nat) : State :=
  match s.op with
  | none => s
  | some op =>
    let s := (s.storeAdm r r op.reused).dropLoad op
    let s := if op.kind.moves then { s with mig := { s.mig with result := code } } else s
    let s := if op.kind.isBoot then s.bootFail 4 stRefused else s
    let s := match op.kind with
      | .commit z _ _ => s.updZone z fun y => { y with holdRestart := false }
      | _ => s
    (s.sliceLost op.kind 0x28).closeOp status r.result

/-- An admission is refused (R405). -/
def State.refuse (s : State) (r : AdmRec) (code : Nat) : State := s.refuseAs r code stRefused

/-- A STAGED version returns to VERIFIED. -/
def State.unplace (s : State) (z : Nat) : State :=
  s.updZone z fun y => { y with staged := y.staged.map fun v => { v with admitted := false, pair := 0x3F, figs := none } }

/-- A migration is aborted after its admission (R174, R177): the source continues, the target's load is cleared. -/
def State.opAbort (s : State) (code status : Nat) : State :=
  match s.op with
  | none => s
  | some op =>
    let s := op.kind.copies.foldl (fun t z => t.updZone z fun y => { y with migrating := false }) s
    let s := { op.kind.set.foldl State.unplace s with op := some { op with stage := 1 } }.dropLoad op
    let s := { s with mig := { s.mig with
      result := code, agree := if code = 2 then 0 else s.mig.agree
      mismatchCnt := if code = 2 then satInc s.mig.mismatchCnt 255 else s.mig.mismatchCnt } }
    let s := if code = 2 then s.bistAsk op.tgt 2 else s
    (s.sliceLost op.kind stAborted).closeOp status (s.moveResult op code)

/-! ### Admission (R155 to R161, R184) -/

/-- The verdict, with RETAINED-only pairs released where it would be NO_SPARE or PAIR_COUNT (R184). -/
def State.judge (run ret : List ZoneVer) (reuse : Bool) (src p : Nat) : Nat → State → State × AdmRec
  | 0, s => (s, s.admitVerdict p run ret reuse)
  | n + 1, s =>
    let r := s.admitVerdict p run ret reuse
    if r.reason = 0x11 || r.reason = 0x12 then
      match s.retainedOnly src p with
      | some q => State.judge run ret reuse src p n (s.releaseRetained q)
      | none => (s, r)
    else (s, r)

/-- The steward chooses a target: the lowest FREE pair, after a release where there is none (R155, R171, R184). -/
def State.chooseTarget (s : State) (src : Nat) : State × Option Nat :=
  match s.lowestFree with
  | some p => (s, some p)
  | none =>
    match s.retainedOnly src 0x3F with
    | some q =>
      let s := s.releaseRetained q
      (s, s.lowestFree)
    | none => (s, none)

/-- The figures of the original admission serve again (R150): every ACTIVE version has had one, and a version that owns no checked path
has none to reuse. -/
def State.reuses (s : State) (k : OpKind) (free : Bool) : Bool :=
  match k with
  | .migrate cs src _ _ _ => free && decide (cs = s.zonesOn src)
  | _ => false

/-- An admission is taken up: a FREE target enters LOADING (R64); a target that is neither FREE nor CARRYING is refused at once
(DEDUCED, log entry 35), as is one whose debug halt waits for its pass end (DESIGN CHOICE, log entry 68). -/
def State.beginAdmission (s : State) (k : OpKind) (o : Option Origin) (named : Nat) : State :=
  let s := if k.moves then { s with mig := { s.mig with src := k.src, tgt := 0x3F, agree := 0 } } else s
  let (s, tgt) := if named = 0x3F then s.chooseTarget k.src else (s, some named)
  match tgt with
  | none =>
    let op : LongOp := { kind := k, o := o, start := s.now, req0 := s.commonFault }
    { s with op := some op }.refuse { reason := 0x12, figure := some 0, limit := some 1 } 6
  | some p =>
    let role := if (s.pair p).haltBit then .halted else (s.pair p).role
    let free := role == .free
    let op : LongOp := {
      kind := k, o := o, start := s.now, tgt := p, loaded := free, reused := s.reuses k free, req0 := s.commonFault }
    let s := { s with op := some op, mig := if k.moves then { s.mig with tgt := p } else s.mig }
    let s := s.setStage 1
    if free then s.load p
    else if role == .carrying then s
    else s.refuse { reason := 0x13, figure := some role.code, pair := some p } 6

/-! ### Placing versions -/

/-- A version takes each steward's figures of its admission; reused ones stay (R150). -/
def ZoneVer.takeFigs (v : ZoneVer) (f : Option (Option Figures × Option NegFigures)) : ZoneVer :=
  match f with
  | some (a, b) => { v with figs := a, figsB := b }
  | none => v

/-- A STAGED version is admitted onto a pair with its figures; a zone with no ACTIVE version is ADMITTED (R51). -/
def State.placeStaged (s : State) (p z : Nat) (f : Option (Option Figures × Option NegFigures)) : State :=
  let s := s.updZone z fun y => { y with staged := y.staged.map fun v =>
    { (v.setRt []).takeFigs f with admitted := true, pair := p, first := true } }
  if (s.zone z).active.isNone then s.setZoneSt z .admitted else s

/-- Channels and produced points of the copies. -/
def State.copyChans (s : State) (op : LongOp) : List Nat :=
  op.kind.copies.flatMap fun z => match (s.zone z).active with
    | some v => s.chansOf v
    | none => []

def State.copyPts (s : State) (op : LongOp) : List Nat :=
  op.kind.copies.flatMap fun z => match (s.zone z).active with
    | some v => targetPts v.targets
    | none => []

/-! ### Transfer and release (R172, R175, R178) -/

/-- Each lane sends the target as the new owner of the copies' outputs, the change to complete at a boundary: TRANSFER begins. -/
def State.sendCopies (s : State) (op : LongOp) : State :=
  let chs := s.copyChans op
  let b := (s.pair op.tgt).nextPass
  let s := (s.sendOwner chs op.kind.src op.tgt b).setStage 4
  { s with op := s.op.map fun (o : LongOp) => { o with sent := chs, boundary := b } }

def State.transferStart (s : State) (op : LongOp) : State := ((s.sendCopies op).trigger op.kind.src).trigger op.tgt

/-- The state of a zone's blocks at the end of a transfer: the target's (R102, R175), with what the stewards keep for the events of the
blocks (R138). A FAULTED zone's is its own. -/
def State.handOver (s : State) (op : LongOp) (z : Nat) (v : ZoneVer) : ZoneVer :=
  match op.copies.find? fun c => decide (c.zone = z) with
  | some c =>
    if (s.zone z).st = .faulted then v
    else
      v.setRt ((List.range c.rt.length).map fun n =>
        let r := v.rt.getD n {}
        { c.rt.getD n {} with diagCnt := r.diagCnt, evAt := r.evAt, evPend := r.evPend, evCnt := r.evCnt })
  | none => v

/-- The transfer completes: the copies are the target's, with the figures of their admission, their produced points (R54) and the RETAINED
versions that move. -/
def State.transferEnd (s : State) (op : LongOp) : State :=
  let src := op.kind.src
  let s := (s.sendBoundary op.sent op.boundary).ownPoints (s.copyPts op) op.tgt
  let s := op.kind.copies.foldl (fun t z => t.updZone z fun y =>
    { y with migrating := false, active := y.active.map fun v => { (t.handOver op z v).takeFigs op.figs with pair := op.tgt } }) s
  let s := if op.kind.movesRetained then
      s.zones.foldl (fun t e => t.updZone e.1 fun y => { y with retained := y.retained.map fun v =>
        if v.pair = src then { v with pair := op.tgt } else v }) s
    else s
  let s := s.updPair op.tgt fun q => { q with role := if q.role = .loading then .carrying else q.role }
  (s.rebound op.tgt).setStage 5

/-- The zones of a set go FAULTED with the stop of a pair, and are counted in its record (R31, R177, R181). -/
def State.faultSet (s : State) (zs : List Nat) (p : Nat) : State :=
  let due := s.toFault zs
  let s := due.foldl State.faultZone s
  match (s.fl.recs.find? fun e => match e.2 with
    | some r => decide (faultClass r.code = 1) && decide (r.loc.toNat = p)
    | none => false), due with
  | some (k, some r), z :: _ =>
    s.setRec k (some { r with
      firstZone := if r.zoneCnt = 0 then z else min z r.firstZone, zoneCnt := satAdd r.zoneCnt due.length 255 })
  | _, _ => s

/-- RELEASE ends (R172, R188): the source's slots of the set are cleared, the command completes. -/
def State.release (s : State) (op : LongOp) (status : Nat) : State :=
  let s := s.vacate op.kind.src
  let us := s.opUs op
  let s := { s with mig := { s.mig with
    result := 1, lastTime := min 65535 us, maxTime := max s.mig.maxTime (min 65535 us) } }
  let res := match op.kind with
    | .migrate _ _ _ _ _ => s.moveResult op 1
    | _ => fld op.tgt 8 0 + flag op.reused 8
  let s := s.closeOp status res
  if op.kind.forSlice then { s with bist := { s.bist with sliceFor := some op.kind.src } } else s

/-- COPY begins (R172); with nothing to copy the transfer is over at once. -/
def State.startCopy (s : State) (op : LongOp) : State :=
  if op.kind.copies.isEmpty then s.transferEnd op
  else
    let s := op.kind.copies.foldl (fun t z => t.updZone z fun y => { y with migrating := true }) s
    (s.setStage 2).rebound op.tgt

/-- A re-admission (R178): every block in its initial state, the limit on its events kept (R138), the owners sent at once. -/
def State.startReadmit (s : State) (op : LongOp) : State :=
  let s := op.kind.copies.foldl (fun t z =>
    match (t.zone z).active with
    | some v =>
      let e := t.restartRt z v
      e.1.updZone z fun y => { y with migrating := true, active := some e.2 }
    | none => t.updZone z fun y => { y with migrating := true }) s
  ((s.sendCopies op).rebound op.tgt).trigger op.tgt

/-! ### Commit (R180 to R183) -/

/-- The version a commit makes ACTIVE. -/
def State.commitVer (s : State) (z : Nat) (rollback : Bool) : Option ZoneVer :=
  let y := s.zone z
  if rollback then y.retained
  else match y.staged with
    | some v => if v.admitted then some v else none
    | none => none

/-- The wait for the outputs begins; RESTART edges are discarded from now on (R180). -/
def State.commitWait (s : State) (z tgt : Nat) : State :=
  let s := s.updZone z fun y => { y with holdRestart := y.active.isSome }
  let s := s.setStage 6
  { s with op := s.op.map fun op => { op with tgt := tgt, sample0 := s.fd.sampleNum, confirmed := [] } }

/-- The conditions of R180 hold. -/
def State.commitReady (s : State) (op : LongOp) (z : Nat) (new : ZoneVer) : Bool :=
  let y := s.zone z
  let off (v : ZoneVer) : Bool := v.targets.all (s.confirmedOff op.confirmed)
  match y.active with
  | none => off new
  | some old =>
    (match y.st with
     | .armed => true
     | .demanded => !s.cat1Zone z
     | .faulted => !s.blocked z
     | _ => false) && y.wd.isNone && off old && off new

/-- A commit ends before its commit point (DEDUCED, log entry 34). -/
def State.commitFail (s : State) (status : Nat) : State :=
  match s.op with
  | none => s
  | some op =>
    match op.kind with
    | .commit z _ boot =>
      let s := s.updZone z fun y => { y with holdRestart := false }
      let s := if boot then s.bootFail 5 status else s
      (s.rebound op.tgt).closeOp status 0
    | _ => s

/-- The commit point (R181). RESTART edges are discarded until the commit completes (R180). The declarations that served a version are in
force from its commit point and no longer kept with it: a rollback leaves those in force that stand then (DESIGN CHOICE, log entry 76).
What the blocks of the replaced version had still to report is kept with it (R138). -/
def State.commitPoint (s : State) (op : LongOp) (z : Nat) (rollback : Bool) (new : ZoneVer) : State :=
  let y := s.zone z
  let tgt := op.tgt
  let oldPair := match y.active with
    | some v => v.pair
    | none => 0x3F
  let oldChs := match y.active with
    | some v => s.chansOf v
    | none => []
  let oldPts := match y.active with
    | some v => v.writes
    | none => []
  let s := new.conns.foldl (fun t e => t.applyConn e.1 e.2 (declOf new.connsB e.1)) s
  let s := new.chans.foldl (fun t e => t.applyChan e.1 e.2 (chanOf new.chansB e.1)) s
  let s := if rollback then s else s.dropRetained z
  let keep (v : ZoneVer) : ZoneVer := { v with conns := [], connsB := [], chans := [], chansB := [] }
  let (s, new) := s.restartRt z new
  let s := s.updZone z fun y => { y with
    active := some { keep new with admitted := false, pair := tgt }
    retained := y.active.map fun v => { (keep v).setRt (v.rt.map BlockRt.initial) with first := true }
    staged := if rollback then y.staged else none
    accFails := if rollback then y.accFails else 0
    holdRestart := true, restartReq := false, demand := false, faultPair := 0x3F }
  let newChs := s.chansOf new
  let b := (s.pair tgt).nextPass
  let gone := oldChs.filter fun n => !newChs.contains n
  let s := s.sendOwner gone oldPair 0x3F b
  let s := s.sendOwner (newChs.filter oldChs.contains) oldPair tgt b
  let s := s.sendOwner (newChs.filter fun n => !oldChs.contains n) 0x3F tgt b
  let s := s.dropPts (oldPts.filter fun a => !new.writes.contains a)
  let s := s.ownPoints (oldPts.filter fun a => !new.writes.contains a) 0x3F
  let s := s.ownPoints (targetPts new.targets) tgt
  let s := ((s.setZoneSt z .armed).rebound tgt).rebound oldPair
  let s := (s.setStage 7).trigger tgt
  let down := (s.pair oldPair).stopA || (s.pair oldPair).stopB
  { s with op := s.op.map fun o => { o with oldStopped := down, sent := gone ++ newChs, boundary := b } }

/-- The commit completes (R181, R401). -/
def State.commitDone (s : State) (op : LongOp) (z : Nat) (boot : Bool) : State :=
  let y := s.zone z
  let s := (s.sendBoundary op.sent op.boundary).updZone z fun y => { y with holdRestart := false }
  let ver (v : Option ZoneVer) : Nat := match v with
    | some v => v.sec.version.toNat
    | none => 0xFFFF
  let s := if boot then s.updPm fun p => { p with zonesStarted := satInc p.zonesStarted 255 } else s
  s.closeOp stSuccess (fld (ver y.active) 16 0 + fld (ver y.retained) 16 16 + fld op.tgt 8 32)

/-- The acceptance code of a version (R170). -/
def ZoneVer.accept (v : ZoneVer) : Word :=
  crcA (bytesLE 4 v.imageId.toNat ++ bytesLE 2 v.num ++ bytesLE 2 v.sec.version.toNat ++ v.sec.bytes)

/-! ### Stages -/

/-- The admission ends (R157 to R163): each steward's verdict, and what follows for each kind. Where the two differ the hashes do, so the
stewards have mismatched (R19) and the admission is refused with ABORTED (R161). -/
def State.endAdmit (s : State) (op : LongOp) : State :=
  let p := op.tgt
  let sets := s.opSets op.kind
  let (s, r) := State.judge sets.1 sets.2 op.reused op.kind.src p 36 s
  let b := s.stewardB
  let setsB := b.opSets op.kind
  let rB := b.admitVerdict p setsB.1 setsB.2 op.reused
  if r ≠ rB then
    (((s.foldBoth r.words rB.words).laneFault .a 0x2003#16 0).laneFault .b 0x2003#16 0).refuse { reason := 0x17 } 5
  else if r.reason ≠ 0 then s.refuse r 6
  else
    let figs := if op.reused then none else some (s.figsOf p sets.1, (b.figsOf p setsB.1).map Figures.neg)
    let s := s.storeAdm r rB op.reused
    let s := { s with op := s.op.map fun (o : LongOp) => { o with figs := figs } }
    let S := s.admShift p sets.1 sets.2
    let s := s.updPair p fun q => { q with shift := if q.role = .loading then S else q.shift }
    match op.kind with
    | .verify _ => s
    | .admission zs _ =>
      let s := zs.foldl (fun t z => t.placeStaged p z figs) s
      let s := s.updPair p fun q => { q with role := if q.role = .loading then .carrying else q.role }
      (s.rebound p).closeOp stSuccess (fld p 8 0 + flag op.reused 8)
    | .change zs _ _ =>
      let s := (zs.foldl (fun t z => t.placeStaged p z figs) s).rebound p
      let s := match op.o with
        | some o => s.completion o.ring.val o.cid.toNat 0x10 stInProgress true (fld op.steps 32 0 + fld 1 8 32)
        | none => s
      s.startCopy { op with figs := figs }
    | .migrate _ _ _ re _ =>
      let op := { op with figs := figs }
      if re then s.startReadmit op else s.startCopy op
    | .commit z _ _ =>
      let s := s.updZone z fun y => { y with retained := y.retained.map fun v => v.takeFigs figs }
      s.commitWait z p

/-- A zone as the source holds it at the end of COPY (R172). -/
def State.copyOf (s : State) (z : Nat) : Option Copy :=
  (s.zone z).active.map fun v => { zone := z, st := (s.zone z).st, first := v.first, rt := v.rt, rtB := v.rtB }

/-- A fault or a restart that has reached a zone outside its passes reaches its copy (R177). -/
def State.syncCopy (s : State) (c : Copy) : Copy :=
  let y := s.zone c.zone
  let c := if y.st = .faulted then c.setRt (c.rt.map fun r => { r with c := false }) else c
  { c with st := y.st, first := (y.active.map fun v => v.first).getD c.first }

/-- Source and target agree on every zone that is not FAULTED by now (R174). -/
def State.viewsAgree (s : State) (xs ys : List CopyView) : Bool :=
  let live (vs : List CopyView) : List CopyView := vs.filter fun v => decide ((s.zone v.zone).st ≠ .faulted)
  decide (live xs = live ys)

/-- A coupled pass of both pairs has ended (R174, R175) (DEDUCED, log entry 32). -/
def State.coupledEnd (s : State) (op : LongOp) (bad : Bool) : State :=
  let n := if bad then 0 else op.agree + 1
  let op := { op with agree := n, half := none, copies := op.copies.map s.syncCopy }
  let s := { s with op := some op, mig := { s.mig with agree := min 31 n } }
  if op.stage = 4 then
    let s := s.transferEnd op
    if bad then s.pairFault2 op.tgt 0x1007#16 0 else s
  else if bad then s.opAbort 2 0x26
  else if 2 ≤ n then s.transferStart op
  else (s.trigger op.kind.src).trigger op.tgt

/-- A pass of a pair has ended with a valid toggle: what the operation makes of it. `coupled` says that the pass was a coupled one, `va`
and `vb` are what each lane has seen of the migrating zones. -/
def State.opPass (s : State) (p : Nat) (coupled mismatch : Bool) (va vb : List CopyView) : State :=
  match s.op with
  | none => s
  | some op =>
    let src := op.kind.src
    match op.stage with
    | 2 =>
      if p = src && op.armed then
        let s := { s with mig := { s.mig with agree := 0 }, op := some { op with copies := op.kind.copies.filterMap s.copyOf } }
        ((s.setStage 3).trigger src).trigger op.tgt
      else s
    | 3 | 4 =>
      if op.kind.readmit then (if p = op.tgt then s.transferEnd op else s)
      else if coupled && (p = src || p = op.tgt) then
        match op.half with
        | none => { s with op := some { op with half := some { pair := p, viewsA := va, viewsB := vb, bad := mismatch } } }
        | some h =>
          if h.pair = p then s
          else s.coupledEnd op (h.bad || mismatch || !s.viewsAgree h.viewsA va || !s.viewsAgree h.viewsB vb)
      else s
    | 6 =>
      match op.kind with
      | .commit z rb _ =>
        match s.commitVer z rb with
        | some v => if p = op.tgt && op.armed && s.commitReady op z v then s.commitPoint op z rb v else s
        | none => s
      | _ => s
    | 7 =>
      match op.kind with
      | .commit z _ b => if p = op.tgt then s.commitDone op z b else s
      | _ => s
    | _ => s

/-! ### Events that reach an operation (R161, R177, R180, R181) -/

/-- A stop bit of a pair is latched (DEDUCED, log entry 31). -/
def State.down (s : State) (p : Nat) : Bool := (s.pair p).stopA || (s.pair p).stopB

/-- A zone of the set has been withdrawn, is being withdrawn, or has lost the version the operation works on. -/
def State.setGone (s : State) (op : LongOp) : Bool :=
  let admitted := decide (2 ≤ op.stage)
  (op.kind.set.any fun z =>
    (s.zone z).wd.isSome || match (s.zone z).staged with
      | some v => decide (v.admitted ≠ admitted)
      | none => true) ||
  (op.kind.copies.any fun z =>
    (s.zone z).wd.isSome || match (s.zone z).active with
      | some v => decide (v.pair ≠ op.kind.src)
      | none => true) ||
  match op.kind with
  | .commit z true _ => (s.zone z).wd.isSome || (s.zone z).retained.isNone
  | _ => false

/-- An admission in progress, and what ends it (DEDUCED, log entry 33). -/
def State.checkAdmit (s : State) (op : LongOp) : State :=
  if s.commonFault && !op.req0 then s.refuse { reason := 0x17 } 5
  else if s.down op.tgt then s.refuse { reason := 0x16, pair := some op.tgt } 3
  else if op.kind.moves && !op.kind.readmit && s.down op.kind.src then s.refuse { reason := 0x17 } 4
  else if s.setGone op then s.refuse { reason := 0x17 } 5
  else s

/-- COPY and PARALLEL, and what ends them. -/
def State.checkMove (s : State) (op : LongOp) : State :=
  if s.commonFault && !op.req0 then s.opAbort 5 stAborted
  else if s.down op.tgt then s.opAbort 3 stAborted
  else if s.down op.kind.src then s.opAbort 4 stAborted
  else if s.setGone op then s.opAbort 5 stAborted
  else s

/-- A stop in TRANSFER: the transfer is over, its zones are FAULTED. -/
def State.checkTransfer (s : State) (op : LongOp) : State :=
  if s.down op.tgt then (s.transferEnd op).faultSet op.kind.copies op.tgt
  else if !op.kind.readmit && s.down op.kind.src then (s.transferEnd op).faultSet op.kind.copies op.kind.src
  else s

/-- A commit before its commit point: its version is lost with its pair, or its zone is withdrawn; else it asks for a target
pass once the conditions hold (DEDUCED, log entry 34). -/
def State.checkCommit (s : State) (op : LongOp) (z : Nat) (rb : Bool) : State :=
  let y := s.zone z
  let here := if rb then y.retained else y.staged
  if here.isNone || y.wd.isSome then s.commitFail stAborted
  else
    match s.commitVer z rb with
    | none => s.commitFail stPairUnavailable
    | some v =>
      if s.down op.tgt then s.commitFail stPairUnavailable
      else if !op.armed && s.commitReady op z v then
        { s with op := some { op with armed := true } }.trigger op.tgt
      else s

/-- A commit past its commit point: a stop of either pair leaves the zone FAULTED. -/
def State.checkCommitted (s : State) (op : LongOp) (z : Nat) (boot : Bool) : State :=
  let old := match (s.zone z).retained with
    | some v => v.pair
    | none => 0x3F
  if s.down op.tgt then (s.faultSet [z] op.tgt).commitDone op z boot
  else if s.down old && !op.oldStopped then
    { s.faultSet [z] old with op := some { op with oldStopped := true } }
  else s

/-- A verify ends without a verdict; at the hostless start its step has failed, with nothing to start (R448, R462). -/
def State.abortVerify (s : State) (boot : Bool) : State :=
  (if boot then { s.bootFail 3 stAborted with boot := [] } else s).closeOp stAborted 0

/-- The commit in progress looks at its conditions as a pass ends, whatever met them since the last look: the first target pass that ends
after they hold is the one whose end is the commit point (R181). -/
def State.armDue (s : State) : State :=
  match s.op with
  | none => s
  | some op =>
    match op.kind, op.stage with
    | .commit z rb _, 6 => s.checkCommit op z rb
    | _, _ => s

/-- What has reached the operation since the last look (DESIGN CHOICE, log entry 37). -/
def State.opCheck (s : State) : State :=
  match s.op with
  | none => s
  | some op =>
    match op.kind, op.stage with
    | .verify b, _ => if s.commonFault && !op.req0 then s.abortVerify b else s
    | _, 1 => s.checkAdmit op
    | _, 2 => s.checkMove op
    | _, 3 => s.checkMove op
    | _, 4 => s.checkTransfer op
    | .commit z rb _, 6 => s.checkCommit op z rb
    | .commit z _ b, 7 => s.checkCommitted op z b
    | _, _ => s

/-- A ring disable or a shutdown reaches the operation (R161, R177, R181, R399, R453): it ends, or goes on to its end. An admission ends
with ADMISSION_REFUSED at a ring disable and with ABORTED at a shutdown; a migration in RELEASE is done and ends with ABORTED (DEDUCED, log
entry 35). -/
def State.cancelOp (s : State) (admitted : Nat) : State :=
  match s.op with
  | none => s
  | some op =>
    match op.kind, op.stage with
    | .verify b, _ => s.abortVerify b
    | _, 1 => s.refuseAs { reason := 0x17 } 5 admitted
    | _, 2 => s.opAbort 5 stAborted
    | _, 3 => s.opAbort 5 stAborted
    | _, 5 => s.release op stAborted
    | _, 6 => s.commitFail stAborted
    | _, _ => s

end Sys2Proof.Machine
end

