-- ==== Sys2Proof/Machine/Slots.lean ====
section
/-!
DEFINITION. Rolling slots and slices (R64, R329, R330, R337 to R339, R341).
-/
namespace Sys2Proof.Machine
open Sys2Proof

/-! ### Test conditions (R329) -/

def condOk (c : TestCond) : Bool := c.vcore && c.timebase && c.tj

/-- The conditions as a test finds them. -/
def State.seeCond (s : State) (c : TestCond) : State := { s with bist := { s.bist with deferred := !condOk c } }

/-- A test is deferred: counted, its conditions kept, an event in 10 s. -/
def State.defer (s : State) (c : TestCond) : State :=
  let b := s.bist
  let post := match b.deferEvAt with
    | none => true
    | some t => decide (1000000000 ≤ s.since t)
  let s := { s.seeCond c with bist := { (s.seeCond c).bist with
    deferCnt := satInc b.deferCnt 65535, condTj := !c.tj, condTb := !c.timebase, condVcore := !c.vcore,
    deferEvAt := if post then some s.now else b.deferEvAt } }
  if post then s.postEvent 0x0A 3 (flag (!c.vcore) 0 + flag (!c.timebase) 1 + flag (!c.tj) 2) else s

/-! ### Results (R334, R341, R345, R401) -/

/-- The eight bytes of an entry (R334). -/
def entryBytes (e : BistEntry) : List Byte :=
  [BitVec.ofNat 8 e.pair.toNat, match e.lane with | .a => 0#8 | .b => 1#8, BitVec.ofNat 8 e.mem.toNat] ++
  bytesLE 2 e.row.toNat ++ [e.bit, BitVec.ofNat 8 e.action.toNat, 0#8]

/-- The rows of a lane's tile that spare rows replace. -/
def Pair.rows (q : Pair) : Lane → List (Nat × Nat)
  | .a => q.rowsA
  | .b => q.rowsB

/-- Spare rows of a tile in use, at most 16 (R345). -/
def Pair.spares (q : Pair) (l : Lane) : Nat := min 16 (q.rows l).length

/-- A row of a tile's state memory is replaced by a spare row (R63, R418). -/
def Pair.swapRow (q : Pair) (l : Lane) (row spare : Nat) : Pair :=
  match l with
  | .a => { q with rowsA := q.rowsA ++ [(row, spare)] }
  | .b => { q with rowsB := q.rowsB ++ [(row, spare)] }

/-- A soft repair takes the lowest spare row that is free; with none left the row stays as it is (R63) (DESIGN CHOICE, log entry 40). -/
def Pair.useSpare (q : Pair) (l : Lane) (row : Nat) : Pair :=
  match (List.range 16).find? fun k => !(q.rows l).any fun e => decide (e.2 = k) with
  | some k => q.swapRow l row k
  | none => { q with noSpare := true }

/-- Rows repaired in the tiles of the pairs they name. -/
def State.applyRepairs (s : State) (es : List BistEntry) : State :=
  es.foldl (fun t e => if e.pair.toNat < 36 then t.updPair e.pair.toNat fun q => q.useSpare e.lane e.row.toNat else t) s

/-- What a steward folds of a test result (R328): a code and the entries. -/
def resultWords (code : Nat) (es : List BistEntry) : List Word :=
  word code :: (es.flatMap entryBytes).map fun b => word b.toNat

/-- RESULT of BIST_RUN for a pair (DESIGN CHOICE, log entry 40). -/
def State.sliceResult (s : State) (p last : Nat) (es : List BistEntry) : Nat :=
  let q := s.pair p
  fld last 8 0 + fld (q.spares .a) 8 8 + fld (q.spares .b) 8 16 + fld (min 255 es.length) 8 24 +
  (((es.take 4).flatMap entryBytes).foldr (fun b a => b.toNat + 256 * a) 0) * 2 ^ 64

/-- The slice of a pair ends with a verdict of LAST; requests for the pair complete. -/
def State.closeSlice (s : State) (p last : Nat) (es : List BistEntry) : State :=
  let s := (s.updPair p fun q => { q with last := last })
  let s := { s with bist := { s.bist with slice := none, sliceRows := [] } }
  s.completeAsks 0 p stSuccess (s.sliceResult p last es)

/-- The entries of a slice that has failed: where none names what failed, a stop bit from outside the pair among such causes, one more
names the whole pair. Its LANE and its MEM are free: the manual gives a failure of no block none (DESIGN CHOICE, log entry 40). -/
def State.failEntries (s : State) (p : Nat) (es : List BistEntry) : List BistEntry × State :=
  if es.any fun e => decide (e.action ≠ 0#2) then (es, s)
  else
    let (n, s) := s.draw
    let f := Config.freeMeasure n
    (es ++ [{ pair := BitVec.ofNat 6 p, lane := if f.getLsbD 3 then .b else .a, mem := f.extractLsb' 0 3, row := 0xFFFF#16
              bit := 0xFF#8, action := 1#2 }], s)

/-- A slice fails: the pair is UNUSABLE, its RETAINED versions are released (R184, R338). -/
def State.failSlice (s : State) (p : Nat) (es : List BistEntry) : State :=
  let (es, s) := s.failEntries p es
  ((s.updPair p fun q => { q with role := .unusable }).dropRetainedOn p).closeSlice p 3 es

/-- The slice of a pair runs, the pair TESTING. -/
def State.inSlice (s : State) (p : Nat) : Bool :=
  (s.pair p).role == .testing && match s.bist.slice with
    | some (q, _) => decide (q = p)
    | none => false

/-- A slice is aborted, its result discarded (R64). -/
def State.stopSlice (s : State) (p : Nat) : State :=
  if s.inSlice p then
    { s with bist := { s.bist with slice := none, sliceRows := [] } }.updPair p fun q => { q with role := .free }
  else s

/-- A slice is aborted because its pair is needed for a migration or re-admission: counted, and the pair takes a slot out of turn
(R337, R339). -/
def State.abortSlice (s : State) (p : Nat) : State :=
  if s.inSlice p then (s.skipSlot.stopSlice p).bistAsk p 4 else s

/-! ### Slots (R337, R338) -/

/-- A BIST_RUN waits for a pair. -/
def State.pairAsked (s : State) (p : Nat) : Bool := s.bist.asked.any fun e => decide (e.2.1 = 0#8) && decide (e.2.2.toNat = p)

/-- A pair keeps its claim to a slot: one out of turn with its precedence, one BIST_RUN names as a request. -/
def State.keepClaim (s : State) (p : Nat) (prec : Option Nat) : State :=
  match prec with
  | some k => s.bistAsk p k
  | none => if s.pairAsked p then s.bistAsk p 3 else s

/-- A pair takes part in the operation in progress, or a STAGED version waits on it. -/
def State.partOf (s : State) (p : Nat) : Bool :=
  (match s.op with
    | some op => decide (op.kind.src = p) || decide (op.tgt = p)
    | none => false) ||
  s.zones.any fun e => match e.2.staged with
    | some v => v.admitted && decide (v.pair = p)
    | none => false

/-- The slot of a pair. A STOPPED pair takes its slice once it carries no zone, RETAINED versions or not (DEDUCED, log entry 29), and never
after a LANE_COMMON or GLOBAL fault, which leaves it STOPPED until the reset (R315). -/
def State.slotPair (s : State) (p : Nat) (prec : Option Nat) (c : SlotCond) : State :=
  let q := s.pair p
  match q.role with
  | .unusable | .split | .halted => s.completeAsks 0 p stBadState 0
  | .loading | .testing => (s.keepClaim p prec).skipSlot
  | _ =>
    if s.partOf p || q.haltBit || (q.role == .stopped && (!(s.fullOn p).isEmpty || s.commonFault)) then (s.keepClaim p prec).skipSlot
    else if q.role == .carrying then
      if condOk c.due then
        let s := s.seeCond c.due
        ({ s with bist := { s.bist with startCond := some c.start } }).beginAdmission (.migrate (s.zonesOn p) p true false true) none 0x3F
      else (s.keepClaim p prec).defer c.due
    else if condOk c.start then (s.seeCond c.start).startSlice p false
    else (s.keepClaim p prec).defer c.start

/-- The pair that takes the next slot out of turn: the lowest precedence number, the earliest of them. -/
def Bist.outOfTurn (b : Bist) : Option (Nat × Nat) :=
  let m := b.queue.foldl (fun m e => min m e.2) 5
  b.queue.find? fun e => decide (e.2 = m)

/-- The next slot: a pair out of turn, else the item whose turn it is (DESIGN CHOICE, log entry 40). In slots 36 to 39 the shared items of
the slot run: their windows are ANALOGUE_WINDOW commands, and the link test patterns of slot 38, sent between live frames, have no result
in the manual. -/
def State.runSlot (s : State) (c : SlotCond) : State :=
  match s.bist.outOfTurn with
  | some (p, k) =>
    { s with bist := { s.bist with shared := none, queue := s.bist.queue.filter fun e => decide (e.1 ≠ p) } }.slotPair p (some k) c
  | none =>
    let n := s.bist.slotNext
    let s := { s with bist := { s.bist with
      slot := n, slotNext := (n + 1) % 40, shared := none
      cycles := if n = 0 && decide (s.bist.slot = 39) then s.bist.cycles + 1#16 else s.bist.cycles } }
    if n < 36 then s.slotPair n none c
    else if condOk c.start then
      let s := s.seeCond c.start
      { s with bist := { s.bist with shared := some n } }
    else s.defer c.start

/-- A slot that falls due has to wait: for the slice or the migration of the slot before, or, to empty its pair, for another
long operation (DESIGN CHOICE, log entry 40). -/
def State.slotWaits (s : State) : Bool :=
  s.bist.slice.isSome || match s.op with
    | none => false
    | some op => op.kind.forSlice ||
      let p := match s.bist.outOfTurn with
        | some (p, _) => p
        | none => s.bist.slotNext
      (s.pair p).role == .carrying && !s.partOf p

/-- A pair that a migration has emptied takes its slice, on the conditions as they are measured at its start (R329, R338). -/
def State.emptiedSlice (s : State) : State :=
  match s.bist.sliceFor, s.bist.startCond with
  | some p, some c =>
    let s := { s with bist := { s.bist with sliceFor := none, startCond := none } }
    if (s.pair p).role ≠ .free || decide (s.pm.dstate ≠ .run) then s
    else if condOk c then (s.seeCond c).startSlice p false
    else (s.keepClaim p none).defer c
  | _, _ => s

/-- A slice whose pair has become UNUSABLE is over; a pair that is now empty takes its slice; a slot that waited starts, on the conditions
of its own start (R329). -/
def State.slotProgress (s : State) : State :=
  let s := match s.bist.slice with
    | some (p, _) => if (s.pair p).role == Role.unusable then s.failSlice p s.bist.sliceRows else s
    | none => s
  let s := s.emptiedSlice
  match s.bist.slotDue with
  | some c => if s.slotWaits then s else ({ s with bist := { s.bist with slotDue := none } }).runSlot c
  | none => s

end Sys2Proof.Machine
end

