-- ==== Sys2Proof/Machine/StopBath.lean ====
section
/-!
DEFINITION. The Stop Bath, the links between the dies, the field-side watchdog and the lane-common checks (R17 to
R36, R85, R307 to R309, R348, R351, R377, R378, R513).
-/
namespace Sys2Proof.Machine
open Sys2Proof

/-! ### Field links (R24, R30 to R32, R217, R378) -/

/-- FD takes one word of a lane's command queue. A switch command for a channel with no owner in that lane's copy is
discarded (R217); a boundary completes the pending change of owner that names it (R32); a command of a non-safety output
ends its silence; in Dormant mode FD keeps the output on its own authority (R234, R457). -/
def State.fdTake (s : State) (l : Lane) (c : FdCmd) : State :=
  match c.inLane l with
  | .switch n on => s.updChan n fun c =>
      if c.own l = 0x3F#6 then c else { c.setCmd l on with offHigh := c.offHigh && !on, midHigh := c.midHigh && !on }
  | .owner n o w b =>
    let q : PendOwn := { old := o, new := w, boundary := b }
    (s.updChan n fun c => c.setPend l (some q)).updFd fun f => { f with changes := noteChange l n q f.changes }
  | .boundary n b => s.updChan n fun c =>
      match c.pend l with
      | some q =>
        if q.boundary = b then ((c.setOwn l q.new).setPend l none).setCmd l (c.cmd l && decide (q.new ≠ 0x3F#6)) else c
      | none => c
  | .nonsafe n on => s.updChan n fun c =>
      if c.mode = 3#2 && !s.fd.dormHold then { c.setCmd l on with nsSilent := false } else c

/-- The pair-stop vector a lane sends; a halt bit acts as a stop bit (R467). -/
def State.stopVector (s : State) (l : Lane) : BitVec 36 :=
  (List.range 36).foldl (fun v p => setBit v p ((s.pair p).stop l || (s.pair p).haltBit)) 0#36

/-- A fault FD detects that holds every output: GLOBAL or LANE_COMMON, reported to both lanes, which latch every bit
(R305, R315) (DEDUCED, log entry 26). -/
def State.fdGlobal (s : State) (code : BitVec 16) (detail : Nat) : State :=
  let zs := s.zonesUp
  (((s.latchAll .a).latchAll .b).holdChans allChans).raise code noLoc true true detail 0 zs

/-- A running pulse ends when its output is commanded off, and when a stop bit opens it (R225). -/
def State.endPulses (s : State) : State :=
  s.updChans allChans fun n c =>
    { c with pulse := if c.cmd .a && c.cmd .b && s.ownerRuns .a n && s.ownerRuns .b n then c.pulse else none }

/-- The lane runs from its PLL (R350). -/
def State.onPll (s : State) (l : Lane) : Bool :=
  match l with
  | .a => !s.tb.laLf
  | .b => !s.tb.lbLf

/-- FD takes what a lane announces in its frame (R457): its entry to Dormant mode, or its return. With both entries FD holds the outputs,
and each non-safety output takes its SILENT_STATE; with both returns it ends that, and an output of a HOST source takes the command
stored last. -/
def State.fdAnnounce (s : State) (l : Lane) : State :=
  let s :=
    if s.pm.dstate = .dormant then
      if (s.lane l).dormAnn && !(s.lane l).annFd then s.updLane l fun d => { d with annFd := true, retFd := false } else s
    else if (s.lane l).annFd && s.onPll l then s.updLane l fun d => { d with retFd := true }
    else s
  if !s.fd.dormHold && s.laneA.annFd && s.laneB.annFd && s.pm.dstate == .dormant then
    let s := (s.updFd fun f => { f with dormHold := true }).holdChans s.safetyChans
    s.updChans allChans fun _ c => if c.mode = 3#2 then { c with nsSilent := true } else c
  else if s.fd.dormHold && s.laneA.retFd && s.laneB.retFd then
    let s := (s.updFd fun f => { f with dormHold := false }).holdChans s.safetyChans
    let s := { s with laneA := { s.laneA with annFd := false }, laneB := { s.laneB with annFd := false } }
    s.updChans allChans fun _ c => if c.mode = 3#2 && c.nsSrc = 1#2 then
      { (c.setCmd .a c.nsOn).setCmd .b c.nsOn with nsSilent := false } else c
  else s

/-- The data and tag bits of a word of an FD command queue, 48 bits wide: its kind, its channel, what it carries, of a boundary the low
28 bits (R377) (DESIGN CHOICE, log entry 77: the manual gives no layout). -/
def FdCmd.data : FdCmd → Nat
  | .switch n on => fld 0 2 0 + fld n 6 2 + flag on 8
  | .owner n old new b => fld 1 2 0 + fld n 6 2 + fld old.toNat 6 8 + fld new.toNat 6 14 + fld b.toNat 28 20
  | .boundary n b => fld 2 2 0 + fld n 6 2 + fld b.toNat 28 20
  | .nonsafe n on => fld 3 2 0 + fld n 6 2 + flag on 8

/-- FD receives a frame of a lane (R24). A bad one is discarded, so the lane's switches keep their state. A valid one sets
the stop vector, the heartbeat toggle and the global indication at once, and up to 16 words of its command queue are taken; a word that
the lane has to hold is counted once (R378). Each word that an upset makes fail its parity is discarded in its place and is a GLOBAL
fault (R376, R377). -/
def execFieldLinkFrame (lane : Lane) (crcOk : Bool) (poison : BitVec 16) (s : State) : Host.Outcome State Fault Refusal :=
  if !crcOk || s.pm.inReset || s.pm.dstate == .off then ok s
  else
    let s := s.fdAnnounce lane
    let d := s.lane lane
    let v := s.stopVector lane
    let fill := min d.toFd.length 16
    let excess := d.toFd.length - 16
    let held := d.toFd.length - max 16 d.heldFd
    let ind := d.global && !s.fd.globalInd
    let s := s.updFd fun f =>
      match lane with
      | .a => { f with stopA := v, globalInd := f.globalInd || d.global, togA := d.hbTog,
                       fillA := max f.fillA fill, stallA := satAdd f.stallA held 65535 }
      | .b => { f with stopB := v, globalInd := f.globalInd || d.global, togB := d.hbTog,
                       fillB := max f.fillB fill, stallB := satAdd f.stallB held 65535 }
    let s := if ind then s.holdChans allChans else s
    let s := s.updLane lane fun d => { d with toFd := d.toFd.drop 16, heldFd := excess }
    let words := (d.toFd.take 16).zipIdx
    let bad (w : FdCmd × Nat) : Bool := wordFails 48 w.1.data (poison.getLsbD w.2)
    let s := (words.filter fun w => !bad w).foldl (fun t w => t.fdTake lane w.1) s
    if words.any bad then
      let s := s.updFd fun f =>
        match lane with
        | .a => { f with cmdPoison := true, qPoisonA := true }
        | .b => { f with cmdPoison := true, qPoisonB := true }
      ok (s.fdGlobal 0x5006#16 0).endPulses
    else ok s.endPulses

/-- The checks of a lane that Dormant mode suspends (R457): it has announced its entry and has taken the other's, and not both have
announced their return. FD's own are suspended while it holds the outputs for Dormant mode. -/
def State.suspended (s : State) (l : Lane) : Bool :=
  (s.lane l).dormAnn && (s.lane (otherLane l)).annX && !(s.laneA.retAnn && s.laneB.retAnn)

/-- No valid frame of a lane for 4 µs (R24): every pair-stop bit of the lane counts as set, FIELD_LINK_SILENT. -/
def execFieldLinkSilent (lane : Lane) (s : State) : Host.Outcome State Fault Refusal :=
  let s := s.updFd fun f =>
    match lane with
    | .a => { f with linkASilent := true }
    | .b => { f with linkBSilent := true }
  let zs := s.zonesUp
  ok (((s.latchAll .a).latchAll .b).raise 0x2007#16 noLoc true true 0 0 zs)

/-- Ownership entries that no change is pending for differ (R30, R32). -/
def State.ownersDiffer (s : State) : Bool :=
  !(below 64 fun n =>
    let c := s.chan n
    (c.pend .a).isNone && (c.pend .b).isNone && decide (c.own .a ≠ c.own .b)).isEmpty

/-- FD's 10 µs comparison of the ownership copies. -/
def execOwnershipCheck (s : State) : Host.Outcome State Fault Refusal :=
  if s.ownersDiffer then
    ok ((s.updFd fun f => { f with ownDisagree := true }).fdGlobal 0x5002#16 0)
  else ok s

/-- What R32 asks of a change of owner that a lane has begun: both lanes' entries name the same new owner and the same boundary, and
both have completed. -/
def State.changeDone (s : State) (q : OwnChange) : Bool :=
  match q.entry .a, q.entry .b with
  | some x, some y => decide (x.new = y.new) && decide (x.boundary = y.boundary) &&
      decide ((s.chan q.ch).pend .a ≠ some x) && decide ((s.chan q.ch).pend .b ≠ some y)
  | _, _ => false

/-- 50 µs after the first of the two lanes has written its pending entry (R32): the change is done, or the copies disagree. Every change
has the same time, so the one whose time is up is the one begun first. -/
def execPendingOwnershipTimeout (s : State) : Host.Outcome State Fault Refusal :=
  match s.fd.changes with
  | [] => ok s
  | q :: r =>
    let t := s.updFd fun f => { f with changes := r }
    if s.changeDone q then ok t
    else ok ((t.updFd fun f => { f with ownDisagree := true }).fdGlobal 0x5002#16 0)

/-- A lane's heartbeat has been missing at FD for longer than T_SB. -/
def State.sbLost (s : State) (l : Lane) : State :=
  (s.updFd fun f =>
    match l with
    | .a => { f with hbALost := true }
    | .b => { f with hbBLost := true }).fdGlobal 0x5003#16 0

/-- SB_HEARTBEAT_LOST (R30, R34); suspended in Dormant mode. -/
def execSbHeartbeatLost (lane : Lane) (s : State) : Host.Outcome State Fault Refusal :=
  ok (if s.fd.dormHold then s else s.sbLost lane)

/-- FD's oscillator against a lane's heartbeat over 1 ms (R309): more than 5 % off is FD_OSC. -/
def execFdOsc (permille : Int) (s : State) : Host.Outcome State Fault Refusal :=
  if !s.fd.dormHold && decide (50 < permille.natAbs) then
    ok ((s.updFd fun f => { f with oscFault := true }).fdGlobal 0x5005#16 0)
  else ok s

/-! ### Between the lanes -/

/-- A lane sends its heartbeat toggle, unless its steward or Light Meter reports unhealthy (R28, R307). -/
def execHeartbeat (lane : Lane) (s : State) : Host.Outcome State Fault Refusal :=
  ok (s.updLane lane fun d => if d.withhold then d else { d with hbTog := !d.hbTog })

/-- A lane misses the other's heartbeat for more than 8 µs (R27); suspended in Dormant mode. -/
def execHeartbeatLost (lane : Lane) (s : State) : Host.Outcome State Fault Refusal :=
  ok (if s.suspended lane then s else s.laneFault lane 0x2006#16 0)

/-- The other lane takes what a lane announces over the cross link (R457): its entry to Dormant mode, or its return. -/
def State.laneAnnounce (s : State) (src : Lane) : State :=
  let s :=
    if s.pm.dstate = .dormant then
      if (s.lane src).dormAnn && !(s.lane src).annX then s.updLane src fun d => { d with annX := true, retAnn := false } else s
    else if (s.lane src).annX && s.onPll src then s.updLane src fun d => { d with retAnn := true }
    else s
  if s.laneA.annX && s.laneB.annX && s.laneA.retAnn && s.laneB.retAnn then
    { s with
      laneA := { s.laneA with dormAnn := false, annX := false }, laneB := { s.laneB with dormAnn := false, annX := false } }
  else s

/-- An announcement of entry that has not arrived 2 µs after the other's is void, and suspends nothing (R457). -/
def State.voidAnns (s : State) : State :=
  { s with
    laneA := { s.laneA with dormAnn := false, annX := false }, laneB := { s.laneB with dormAnn := false, annX := false } }

/-- A lane receives a cross link frame (R25, R307, R457, R470, R513). A bad one is missing: every pair whose comparator
input it carried misses its toggle, and a hash it carried is missing. A good one brings the other lane's pair-stop
reports, a lane-common or global code, the announcement of a return, and lane B's confirmation of the oldest replayed write, which it has
written. -/
def execLaneCrossLinkFrame (dst : Lane) (crcOk : Bool) (pairs : List (Fin 36)) (hash confirm : Bool) (s : State) :
    Host.Outcome State Fault Refusal :=
  if !crcOk then
    let s := pairs.foldl (fun t p => t.pairFault dst p 0x1002#16 0) s
    ok (if hash && !s.suspended dst then s.laneFault dst 0x2004#16 0 else s)
  else
    let src := otherLane dst
    let s := (List.range 36).foldl (fun t p => if (t.pair p).stop src then t.latchBit dst p else t) s
    let s := if (s.lane src).withhold then s.latchAll dst else s
    let s := s.laneAnnounce src
    match confirm, dst, s.db.replayPend with
    | true, .a, (k, i, w) :: r =>
      let s := s.writeTile .b k i w
      ok { s with db := { s.db with replayPend := r, replayAt := s.db.replayAt.filter fun x => decide (x ≠ (k, i)) } }
    | _, _, _ => ok s

/-- The stewards compare their state hashes (R19, R157): what they have folded of their admissions, and, as the operand says, the rest
(DEDUCED, log entry 46). -/
def execStewardStep (agree : Bool) (s : State) : Host.Outcome State Fault Refusal :=
  if agree && decide (s.adm.hashB = ~~~s.adm.hashA) then ok s
  else
    let s := if s.suspended .a then s else s.laneFault .a 0x2003#16 0
    ok (if s.suspended .b then s else s.laneFault .b 0x2003#16 0)

/-- A lane has not received the other steward's hash within 2 µs (R19), nor, on entry to Dormant mode, its announcement (R457). -/
def execStewardSilent (lane : Lane) (s : State) : Host.Outcome State Fault Refusal :=
  ok (if s.suspended lane then s
    else (if (s.lane (otherLane lane)).annX then s else s.voidAnns).laneFault lane 0x2004#16 0)

/-- The rate of timebase B against A over 50 µs, in 0.1 ppm (R20); suspended while a lane runs from LF and until 1 ms after
both have returned (R351). -/
def execTimebaseXchk (lane : Lane) (ppm10 : Int) (s : State) : Host.Outcome State Fault Refusal :=
  if s.tb.xchkOff || s.tb.laLf || s.tb.lbLf then ok s
  else
    let s := { s with tb := { s.tb with xchk := BitVec.ofInt 16 ppm10 } }
    ok (if 2000 < ppm10.natAbs then s.laneFault lane 0x2005#16 0 else s)

/-- The cross-check resumes (R351). -/
def execXchkResume (s : State) : Host.Outcome State Fault Refusal :=
  ok (if s.tb.laLf || s.tb.lbLf then s else { s with tb := { s.tb with xchkOff := false } })

/-- A lane's PLL loses lock (R348). -/
def execPllLockLoss (lane : Lane) (s : State) : Host.Outcome State Fault Refusal :=
  ok (s.laneFault lane 0x2005#16 0)

/-- A Light Meter window (R85): below 196 laps LM_SLOW, above 600 LM_FAST, otherwise below WARN_LIMIT an event; WARN is set
by any window below WARN_LIMIT (R95). No window is counted
in Dormant mode (R457). -/
def execLightMeterWindow (lane : Lane) (laps : BitVec 10) (s : State) : Host.Outcome State Fault Refusal :=
  let n := laps.toNat
  let limit := (match lane with
    | .a => s.lmWarn
    | .b => ~~~s.lmWarnB).toNat
  if s.suspended lane then ok s
  else
    let s := s.updLane lane fun d =>
      { d with
        laps := n, minLaps := min d.minLaps n,
        slow := d.slow || decide (n < 196), fast := d.fast || decide (600 < n),
        warn := d.warn || decide (n < limit) }
    if n < 196 then ok (s.laneFault lane 0x2001#16 n)
    else if 600 < n then ok (s.laneFault lane 0x2002#16 n)
    else if n < limit then
      ok (s.postEvent 0x09 (match lane with | .a => 1 | .b => 2)
        ((match lane with | .a => 0 | .b => 1) + fld n 16 16))
    else ok s

/-- A lane's VCORE outside 0.750 V to 0.860 V for 2 µs (R308). -/
def execSupplyRange (lane : Lane) (mv : BitVec 16) (s : State) : Host.Outcome State Fault Refusal :=
  let s := s.updPm fun p =>
    match lane with
    | .a => { p with vcoreA := mv }
    | .b => { p with vcoreB := mv }
  ok (if decide (mv.toNat < 750) || decide (860 < mv.toNat) then s.laneFault lane 0x2008#16 mv.toNat else s)

/-- A lane receives a hub link frame (R23): a bad one is discarded, after two in succession its content is lost, three are HUB_LINK_LOST.
What it carried is lost with it: a received frame, or the lane's copy of a host descriptor. The link carries the lane's events the other
way: words that fail their parity, and whether HB takes any (R376, R379, R380). -/
def execHubLinkFrame (lane : Lane) (f : HubFrame) (s : State) : Host.Outcome State Fault Refusal :=
  let s := (s.updEvq lane fun q => { q with bad := q.bad ||| f.poison }).holdEvents f.hold
  if f.crcOk then ok (s.updLane lane fun d => { d with hubFails := 0 })
  else
    let n := (s.lane lane).hubFails + 1
    let s := s.updLane lane fun d => { d with hubFails := n }
    let s := if n % 2 = 0 then (match f.content with
      | .frame => s.updLane lane fun d => { d with rxq := loseFirst d.rxq }
      | .descriptor r => s.loseCopy lane r
      | .other => s) else s
    ok (if n = 3 then s.laneFault lane 0x5001#16 0 else s)

end Sys2Proof.Machine
end

