-- ==== Sys2Proof/Machine/Serve.lean ====
section
/-!
DEFINITION. The commands the stewards serve: when they are taken up, what each starts, and the steps of the long operation
(R51, R155, R160, R171 to R185, R316, R331, R341, R342, R392, R398, R448, R449, R452, R453, R471).
-/
namespace Sys2Proof.Machine
open Sys2Proof

/-! ### When the stewards serve -/

/-- A command that needs the stewards waits until RUN, and in Dormant mode until wake (R449, R454). -/
def State.stewardsWait (s : State) : Bool :=
  match s.pm.dstate with
  | .load | .startTest | .config | .dormant => true
  | _ => false

/-- It completes BAD_STATE during a shutdown, and while lock-step is broken (R453, R471). -/
def State.stewardsRefuse (s : State) : Bool :=
  s.db.broken || match s.pm.dstate with
    | .shutdown | .off => true
    | _ => false

/-! ### ZONE_RESTART (R51, R316) -/

/-- The zone's pair can run it. -/
def State.pairHealthy (s : State) (p : Nat) : Bool :=
  let q := s.pair p
  q.role == .carrying && !q.stopA && !q.stopB && !q.haltBit

/-- A FAULTED zone is to return to ARMED at the end of the next pass. -/
def State.askRestart (s : State) (z : Nat) (os : List Origin) : State :=
  (s.updZone z fun y => { y with restartReq := true, restartO := y.restartO ++ os }).trigger (s.zone z).pairOf

def State.startRestart (s : State) (o : Origin) (z : Nat) : State :=
  let y := s.zone z
  if y.st ≠ .faulted then s.complete o 0x14 stBadState y.st.code
  else if s.blocked z then s.complete o 0x14 0x27 y.st.code
  else if !s.pairHealthy y.pairOf then s.complete o 0x14 stPairUnavailable y.st.code
  else s.askRestart z [o]

/-- A restart that a new fault has overtaken has no effect (R318); every restart that is over completes. -/
def State.finishRestart (s : State) (z : Nat) : State :=
  let y := s.zone z
  let dead := y.restartReq && (s.blocked z || !s.pairHealthy y.pairOf || y.wd.isSome)
  if dead || (!y.restartReq && !y.restartO.isEmpty) then
    let st := if s.commonFault then stAborted else stSuccess
    let s := s.updZone z fun y => { y with restartReq := false, restartO := [] }
    y.restartO.foldl (fun t o => t.complete o 0x14 st y.st.code) s
  else s

/-- DEDUCED, log entry 35. -/
def State.finishRestarts (s : State) : State := s.zones.foldl (fun t e => t.finishRestart e.1) s

/-! ### ZONE_WITHDRAW (R185) -/

/-- The migration in TRANSFER moves a zone, or the change it belongs to changes it (R177, R179). -/
def State.inTransfer (s : State) (z : Nat) : Bool :=
  match s.op with
  | some op => decide (op.stage = 4) && (op.kind.copies ++ op.kind.set).contains z
  | none => false

def State.beginWithdraw (s : State) (o : Origin) (z : Nat) : State :=
  let y := s.zone z
  if y.active.isSome then s.startWithdraw z [o] false
  else if y.staged.isSome then (s.discardStaged z).complete o 0x12 stSuccess 0
  else s.complete o 0x12 stBadState y.st.code

/-! ### BIST_RUN (R341, R342) -/

/-- The highest index of an analogue item, plus one. -/
def itemCount (item : Nat) : Nat :=
  match item with
  | 1 => 64
  | 2 => 64
  | 3 => 64
  | 4 => 4
  | 5 => 2
  | 6 => 2
  | 7 => 32
  | _ => 0

/-- A request waits for its slot or window. -/
def State.askBist (s : State) (o : Origin) (item index : Byte) : State :=
  ({ s with bist := { s.bist with asked := s.bist.asked ++ [(o, item, index)] } } : State).parked o 0x30

/-- A zone that reads a channel, or owns it, is RUNNING, or DEMANDED with a category 1 delay on (R342) (DESIGN CHOICE, log
entry 41). -/
def State.calBlocked (s : State) (n : Nat) : Bool :=
  s.zones.any fun e =>
    match e.2.active with
    | some v =>
      (v.reads.contains (0x20000 + n) || v.reads.contains (0x20100 + n) || (s.chansOf v).contains n) &&
      (decide (e.2.st = .running) || (decide (e.2.st = .demanded) && s.cat1Zone e.1))
    | none => false

/-- CHANNEL_CAL: the point of the channel, of an output its feedback point, is invalid until a debounce time has passed, the output opens
(DESIGN CHOICE, log entry 41). -/
def State.startCal (s : State) (o : Origin) (index : Nat) : State :=
  if 63 < index then s.complete o 0x30 stBadParam 0
  else if s.calBlocked index then s.complete o 0x30 0x29 0
  else
    let s := (s.updChan index fun c =>
      { c with restoring := c.restoring || decide (c.mode = 1#2) || decide (c.mode = 2#2) }).holdChans (s.unit index)
    s.complete o 0x30 stSuccess 1

def State.startBist (s : State) (o : Origin) (item index : Byte) : State :=
  let p := index.toNat
  if item = 0#8 then
    if 35 < p then s.complete o 0x30 stBadParam 0
    else
      match (s.pair p).role with
      | .free => (s.bistAsk p 3).askBist o item index
      | .testing => s.askBist o item index
      | .carrying =>
        if s.lowestFree.isNone && (s.retainedOnly p 0x3F).isNone then s.complete o 0x30 0x28 0
        else (s.bistAsk p 3).askBist o item index
      | .stopped => if (s.fullOn p).isEmpty then s.askBist o item index else s.complete o 0x30 stBadState 0
      | _ => s.complete o 0x30 stBadState 0
  else if item = 8#8 then s.startCal o p
  else if itemCount item.toNat ≤ p then s.complete o 0x30 stBadParam 0
  else if item = 7#8 && decide (s.portMax ≤ p) then s.complete o 0x30 stFeatureAbsent 0
  else s.askBist o item index

/-! ### Long operations -/

def State.startVerify (s : State) (o : Option Origin) (boot : Bool) : State :=
  { s with op := some { kind := .verify boot, o := o, stage := 0, start := s.now, req0 := s.commonFault } }

/-- ZONE_ADMIT (R155, R179) (DEDUCED, log entry 34). -/
def State.startAdmit (s : State) (o : Origin) (zones : BitVec 256) (pair : Byte) : State :=
  let zs := maskBits zones
  let p := pair.toNat
  let srcs := distinct (zs.filterMap fun z => (s.zone z).active.map fun v => v.pair)
  let ready (z : Nat) : Bool := (s.zone z).wd.isNone && match (s.zone z).staged with
    | some v => !v.admitted
    | none => false
  if zs.isEmpty || decide (64 < zs.length) || (decide (35 < p) && decide (p ≠ 0x3F)) then s.complete o 0x10 stBadParam 0
  else if !zs.all ready then s.complete o 0x10 stBadState 0
  else
    match srcs with
    | [] => s.beginAdmission (.admission zs false) (some o) p
    | [src] =>
      if (s.pair src).role ≠ .carrying || (decide (p ≠ 0x3F) && decide ((s.pair p).role ≠ .free)) then
        s.complete o 0x10 stPairUnavailable 0
      else s.beginAdmission (.change zs ((s.zonesOn src).filter fun z => !zs.contains z) src) (some o) p
    | _ => s.complete o 0x10 0x24 0

/-- ZONE_MIGRATE (R171, R178). A source that is neither CARRYING nor STOPPED, a target that is the source, or a pair that holds nothing is
refused with BAD_STATE (DESIGN CHOICE, log entry 76). -/
def State.startMigrate (s : State) (o : Origin) (zones : BitVec 256) (src tgt : Byte) : State :=
  let zs := maskBits zones
  let p := src.toNat
  let t := tgt.toNat
  let on := s.zonesOn p
  let whole := zs.isEmpty
  let cs := if whole then on else zs
  let readmit := (s.pair p).role == .stopped
  if 35 < p || (decide (35 < t) && decide (t ≠ 0x3F)) || zs.any (fun z => !on.contains z) then
    s.complete o 0x13 stBadParam 0
  else if !((s.pair p).role == .carrying || readmit) || t = p || (cs.isEmpty && (!whole || (s.versOn p).isEmpty)) then
    s.complete o 0x13 stBadState 0
  else (s.abortSlice t).beginAdmission (.migrate cs p whole readmit false) (some o) t

/-- ZONE_COMMIT of a STAGED version (R180, R182): the fourth mismatch discards it (DEDUCED, log entry 34). A version that is not ADMITTED is
refused before its code is compared, and no mismatch is counted (DESIGN CHOICE, log entry 76). -/
def State.startCommit (s : State) (o : Option Origin) (z : Nat) (accept : Word) (boot : Bool) : State :=
  match s.commitVer z false with
  | none => s.completeOpt o 0x11 stBadState 0
  | some v =>
    if (s.zone z).wd.isSome then s.completeOpt o 0x11 stBadState 0
    else if accept ≠ v.accept then
      let n := (s.zone z).accFails + 1
      let s := if boot then s.bootFail 5 0x22
        else if 4 ≤ n then s.discardStaged z
        else s.updZone z fun y => { y with accFails := n }
      s.completeOpt o 0x11 0x22 0
    else
      let s := s.updZone z fun y => { y with accFails := 0 }
      let op : LongOp := { kind := .commit z false boot, o := o, start := s.now, tgt := v.pair, req0 := s.commonFault }
      (({ s with op := some op }).commitWait z v.pair).opCheck

/-- A rollback (R182, R183): the RETAINED version is admitted again on its pair first. -/
def State.startRollback (s : State) (o : Origin) (z : Nat) (accept : Word) : State :=
  match (s.zone z).retained with
  | none => s.complete o 0x11 0x23 0
  | some v =>
    if accept ≠ v.accept then s.complete o 0x11 0x22 0
    else if (s.zone z).wd.isSome then s.complete o 0x11 stBadState 0
    else
      let s := s.updZone z fun y => { y with holdRestart := true }
      s.beginAdmission (.commit z true false) (some o) v.pair

/-! ### RUN and shutdown -/

/-- The device enters RUN (R270, R443, R449) (DEDUCED, log entry 38). -/
def State.enterRun (s : State) : State :=
  let s := s.updPm fun p => { p with dstate := .run }
  let s := (List.range 4).foldl (fun t g =>
    if (t.grp g).belowOff then t.grpLatch g fun q => { q with startHold := true } else t) s
  (List.range 32).foldl State.kick s.connsAtRun

/-- Every command in progress or waiting ends with a shutdown (R453) (DEDUCED, log entry 35). -/
def State.abortAll (s : State) : State :=
  let s := s.cancelOp stAborted
  let s := s.waiting.foldl (fun t i => match waitOrigin i with
    | some (o, c) => t.complete o c stAborted 0
    | none => t) { s with waiting := [] }
  let s := s.bist.asked.foldl (fun t e => t.complete e.1 0x30 stAborted 0) { s with bist := { s.bist with asked := [] } }
  let s := ({ s with snap := { s.snap with waiting := [] } } : State).abortMoves
  s.zones.foldl (fun t e =>
    let y := t.zone e.1
    let t := t.updZone e.1 fun y => { y with
      restartReq := false, restartO := [], wd := y.wd.map fun w => { w with os := [] } }
    let t := y.restartO.foldl (fun u o => u.complete o 0x14 stAborted y.st.code) t
    match y.wd with
    | some w => w.os.foldl (fun u o => u.complete o 0x12 stAborted y.st.code) t
    | none => t) s

/-- A shutdown starts (R452, R453). -/
def State.startShutdown (s : State) (o : Option Origin) (cut : Bool) : State :=
  let s := s.abortAll
  s.updPm fun p => { p with dstate := .shutdown, shutO := o, shutCut := cut, bistDue := false }

/-- Withdrawal of every zone, for a shutdown or a steward halt; one that a transfer moves waits for its end (R177). -/
def State.withdrawAll (s : State) (cut : Bool) : State :=
  (s.zones.filter fun e => !s.inTransfer e.1).foldl (fun t e =>
    let y := t.zone e.1
    match y.active, y.wd with
    | some _, some w => if cut && !w.dropped then t.startWithdraw e.1 [] true else t
    | some _, none => t.startWithdraw e.1 [] cut
    | none, _ => t.discardStaged e.1) s

/-- Steps 1 and 2 of a shutdown: once a commit past its commit point or a migration in TRANSFER has finished, every zone is withdrawn;
then the connections are closed and the BIST step is due. -/
def State.shutProgress (s : State) : State :=
  if s.pm.dstate = .shutdown && s.op.isNone && !s.pm.bistDue then
    let s := s.withdrawAll s.pm.shutCut
    if s.allWithdrawn then s.closeAllConns.dropOthers.updPm fun p => { p with bistDue := true } else s
  else s

/-- The operation in progress, a BIST_RUN that waits and a SHUTDOWN in progress end BAD_STATE, for steward A has halted (R471). -/
def State.opHalted (s : State) : State :=
  let s := if s.op.isSome then s.closeOp stBadState 0 else s
  let s := s.bist.asked.foldl (fun t e => t.complete e.1 0x30 stBadState 0) { s with bist := { s.bist with asked := [] } }
  match s.pm.shutO with
  | some o => (s.updPm fun p => { p with shutO := none }).complete o 0x51 stBadState 0
  | none => s

/-- Lock-step is broken once every zone is WITHDRAWN (R471): the withdrawals of R185 start at once, but for a zone that a transfer moves
(R177); then steward A halts, and what lane B and FD detect follows (DEDUCED, log entry 46). Before RUN there is no steward to halt, and
LF is not used (R506) (DEDUCED, log entry 55). -/
def State.haltProgress (s : State) : State :=
  if s.db.haltDue && (s.pm.dstate = .run || s.pm.dstate = .shutdown) then
    let s := s.withdrawAll false
    if s.allWithdrawn then
      let s := { s.opHalted with
        db := { s.db with haltDue := false, broken := true }
        tb := { s.tb with laLf := true, lbLf := true, xchkOff := true } }
      let s := (s.laneFault .a 0x5004#16 0).laneFault .b 0x5004#16 0
      (((s.laneFault .b 0x2004#16 0).laneFault .b 0x2006#16 0).sbLost .a)
    else s
  else s

/-! ### Taking up -/

/-- The stewards take up a command. -/
def State.takeUp (s : State) (i : Instr) : State :=
  match i with
  | .imgVerify o => s.startVerify (some o) false
  | .zoneAdmit o zs p => s.startAdmit o zs p
  | .zoneCommit o z a => s.startCommit (some o) z.toNat a false
  | .rollback o z a => s.startRollback o z.toNat a
  | .zoneWithdraw o z => s.beginWithdraw o z.toNat
  | .zoneMigrate o zs p t => s.startMigrate o zs p t
  | .zoneRestart o z => s.startRestart o z.toNat
  | .connOpen o k => s.startConnOpen o k
  | .connClose o k => s.startConnClose o k
  | .bistRun o item index => s.startBist o item index
  | .channelCal o index => s.startCal o index.toNat
  | .shutdown o => s.startShutdown (some o) false
  | _ => s

/-- A command cannot be taken up now: another long operation runs (R160), or a transfer moves the zone (R177). -/
def State.mustWait (s : State) (i : Instr) : Bool :=
  match i with
  | .zoneWithdraw _ z => s.inTransfer z.toNat
  | _ => isLong i && s.op.isSome

/-- A command that needs the stewards completes BAD_STATE where they take none (R453, R471). -/
def State.refuseWaiting (s : State) (i : Instr) : State :=
  match waitOrigin i with
  | some (o, c) => s.complete o c stBadState 0
  | none => s

/-- The commands that wait are taken up in order; once lock-step is broken each completes BAD_STATE (R471). -/
def State.serve : Nat → State → State
  | 0, s => s
  | n + 1, s =>
    match s.waiting with
    | [] => s
    | i :: r =>
      if s.db.broken then State.serve n (({ s with waiting := r } : State).refuseWaiting i)
      else if s.stewardsWait || s.mustWait i then s
      else State.serve n (({ s with waiting := r } : State).takeUp i)

/-- A command waits for the stewards, and has reached a wait of R392. -/
def State.await (s : State) (i : Instr) (ws : List Instr) : State :=
  let s := { s with waiting := ws }
  match waitOrigin i with
  | some (o, c) => s.parked o c
  | none => s

/-- A command arrives: refused, taken up, or it waits. A withdrawal that waits for a transfer goes before the others. -/
def State.submit (s : State) (i : Instr) : State :=
  if s.stewardsRefuse then s.refuseWaiting i
  else if s.stewardsWait then s.await i (s.waiting ++ [i])
  else if isLong i then (if s.op.isSome || !s.waiting.isEmpty then s.await i (s.waiting ++ [i]) else s.takeUp i)
  else if s.mustWait i then s.await i (i :: s.waiting)
  else s.takeUp i

/-- Withdrawals whose outputs are confirmed off end (R185). -/
def State.endWithdraws (s : State) : State :=
  s.zones.foldl (fun t e => if t.withdrawn? e.1 then t.endWithdraw e.1 else t) s

/-- What has fallen due after an event: the operation, restarts, withdrawals, a slice or a slot that waits, a shutdown or steward
halt, waiting commands. -/
def State.settle (s : State) : State :=
  let s := s.opCheck.finishRestarts.endWithdraws.slotProgress.shutProgress.haltProgress
  State.serve s.waiting.length s

/-! ### The commands -/

def execImgVerify (o : Origin) (s : State) : Host.Outcome State Fault Refusal :=
  s.command o (.imgVerify o) fun s => ok (s.submit (.imgVerify o))

def execZoneAdmit (o : Origin) (zones : BitVec 256) (pair : Byte) (s : State) : Host.Outcome State Fault Refusal :=
  s.command o (.zoneAdmit o zones pair) fun s =>
  ok (s.submit (.zoneAdmit o zones pair))

def execZoneCommit (o : Origin) (zone : BitVec 8) (accept : Word) (s : State) : Host.Outcome State Fault Refusal :=
  s.command o (.zoneCommit o zone accept) fun s =>
  ok (s.submit (.zoneCommit o zone accept))

def execRollback (o : Origin) (zone : BitVec 8) (accept : Word) (s : State) : Host.Outcome State Fault Refusal :=
  s.command o (.rollback o zone accept) fun s =>
  ok (s.submit (.rollback o zone accept))

def execZoneWithdraw (o : Origin) (zone : BitVec 8) (s : State) : Host.Outcome State Fault Refusal :=
  s.command o (.zoneWithdraw o zone) fun s =>
  ok (s.submit (.zoneWithdraw o zone)).settle

def execZoneMigrate (o : Origin) (zones : BitVec 256) (src tgt : Byte) (s : State) : Host.Outcome State Fault Refusal :=
  s.command o (.zoneMigrate o zones src tgt) fun s =>
  ok (s.submit (.zoneMigrate o zones src tgt))

def execZoneRestart (o : Origin) (zone : BitVec 8) (s : State) : Host.Outcome State Fault Refusal :=
  s.command o (.zoneRestart o zone) fun s =>
  ok (s.submit (.zoneRestart o zone))

def execConnOpen (o : Origin) (slot : BitVec 16) (s : State) : Host.Outcome State Fault Refusal :=
  s.command o (.connOpen o slot) fun s => ok (s.submit (.connOpen o slot))

def execConnClose (o : Origin) (slot : BitVec 16) (s : State) : Host.Outcome State Fault Refusal :=
  s.command o (.connClose o slot) fun s => ok (s.submit (.connClose o slot))

def execBistRun (o : Origin) (item index : Byte) (s : State) : Host.Outcome State Fault Refusal :=
  s.command o (.bistRun o item index) fun s =>
  ok (s.submit (.bistRun o item index))

def execChannelCal (o : Origin) (index : Byte) (s : State) : Host.Outcome State Fault Refusal :=
  s.command o (.channelCal o index) fun s =>
  ok (s.submit (.channelCal o index))

def execShutdown (o : Origin) (s : State) : Host.Outcome State Fault Refusal :=
  s.command o (.shutdown o) fun s => ok (s.submit (.shutdown o)).settle

/-- 10 ms have passed (R180). -/
def execNotStopped (s : State) : Host.Outcome State Fault Refusal :=
  match s.op with
  | some op =>
    match op.kind with
    | .commit _ _ _ => ok (if op.stage = 6 then (s.commitFail 0x21).settle else s)
    | _ => ok s
  | none => ok s

/-- The category 1 delay + 50 µs have passed (R185): the withdrawal completes without its confirmations. -/
def execWithdrawTimeout (zone : BitVec 8) (s : State) : Host.Outcome State Fault Refusal :=
  let z := zone.toNat
  match (s.zone z).active, (s.zone z).wd with
  | some v, some _ => ok ((s.outputsOff v.targets).endWithdraw z).settle
  | _, _ => ok s

/-! ### Steps (R398, R448) -/

/-- The verify ends. -/
def State.endVerify (s : State) (boot : Bool) : State :=
  let (st, res, s) := s.verifyImage boot
  let s := if boot then
      if st = stSuccess then
        { s with bootSets := (below 36 fun p => s.boot.any fun e => decide (e.pair = p)) ++
                   (if s.boot.any (fun e => decide (35 < e.pair)) then [36] else []) }
      else { s.bootFail 3 st with boot := [] }
    else s
  s.closeOp st res

/-- The next step of the hostless start: the sets of the boot list in ascending order of pair, then the commits, then RUN. -/
def State.bootNext (s : State) : State :=
  match s.bootSets, s.boot with
  | p :: r, _ =>
    let zs := below 256 fun z => s.boot.any fun e => decide (e.zone.toNat = z) && (decide (e.pair = p) || (decide (p = 36) && decide (35 < e.pair)))
    let s := { s with bootSets := r }
    let ready (z : Nat) : Bool := match (s.zone z).staged with
      | some v => !v.admitted
      | none => false
    if 35 < p || decide (64 < zs.length) then s.bootFail 4 stBadParam
    else if !zs.all ready then s.bootFail 4 stBadState
    else s.beginAdmission (.admission zs true) none p
  | [], e :: r =>
    let s := { s with boot := r }
    if (s.commitVer e.zone.toNat false).isSome then s.startCommit none e.zone.toNat e.accept true else s
  | [], [] => s.enterRun

/-- The bulk of a stage is done (DESIGN CHOICE, log entry 37). -/
def State.stageDone (s : State) (op : LongOp) : State :=
  match op.kind, op.stage with
  | .verify b, _ => s.endVerify b
  | _, 1 => s.endAdmit op
  | _, 2 => ({ s with op := some { op with armed := true } }).trigger op.kind.src
  | _, 5 => s.release op stSuccess
  | _, _ => s

/-- What the stewards fold at the end of a step: of an admission the verdict so far; its checks are computed in its last step (R157)
(DESIGN CHOICE, log entry 37). -/
def State.foldStep (s : State) (op : LongOp) : State :=
  match op.kind, op.stage with
  | .verify _, _ => s
  | _, 1 => s.foldBoth ({ reason := 0 } : AdmRec).words ({ reason := 0 } : AdmRec).words
  | _, _ => s

/-- A step is counted, and with PROGRESS an intermediate completion posted, one in 10 ms (R398). -/
def State.countStep (s : State) (op : LongOp) : State :=
  let s := s.foldStep op
  let op := { op with steps := op.steps + 1 }
  let stage := match op.kind with
    | .verify _ => 0
    | _ => min op.stage 6
  match op.o with
  | some o =>
    if o.progress && s.mayPost op.progAt && !(s.ring o.ring).holds then
      ({ s with op := some { op with progAt := some s.now } }).progress o op.kind.opcode (fld op.steps 32 0 + fld stage 8 32)
    else { s with op := some op }
  | none => { s with op := some op }

/-- A command that is no operation of the stewards' queue makes steps: a BIST_RUN whose slice runs, a SHUTDOWN in progress (R398). -/
def State.stepping (s : State) (r : Nat) (t : Taken) : Bool :=
  t.started && ((t.opcode == 0x51#8 && (s.pm.shutO.map (ofTaken r t)).getD false) ||
  (t.opcode == 0x30#8 && s.bist.asked.any fun e => ofTaken r t e.1 && e.2.1 == 0#8 &&
    (s.bist.slice.map fun x => decide (x.1 = e.2.2.toNat)).getD false))

/-- Such commands have made a step: counted, and reported as the others are. -/
def State.countOthers (s : State) : State :=
  (List.finRange 16).foldl (fun u (r : Fin 16) => ((s.ring r).outs.filter (s.stepping r)).foldl (fun u t => u.countTaken r t none) u) s

/-- One step: of the commands that move data by the bytes given, then of the stewards' operation and of the others; `done` says that its
stage has no further work of its own (DESIGN CHOICE, log entry 37). In Dormant mode the stewards stand still (R454), in OFF everything does
(R449). -/
def execLongOperationStep (work : StepWork) (s : State) : Host.Outcome State Fault Refusal :=
  if s.pm.dstate = .off then ok s
  else
  let s := s.moveAll work.moved
  if s.pm.dstate = .dormant then ok s
  else
    let s := s.opCheck.countOthers
    match s.op with
    | some op =>
      let s := s.countStep op
      match s.op with
      | some op => ok (if work.done then s.stageDone op else s).settle
      | none => ok s.settle
    | none => ok (if s.pm.dstate = .config then s.bootNext else s).settle

end Sys2Proof.Machine
end

