-- ==== Sys2Proof/Machine/Bist.lean ====
section
/-!
DEFINITION. Events of the self-test during work: slots, slice ends, overdue pairs, analogue windows (R329, R330, R337 to R341).
-/
namespace Sys2Proof.Machine
open Sys2Proof

/-- The device works: tests run. -/
def State.testing (s : State) : Bool := !s.pm.inReset && s.pm.dstate == .run && !s.db.broken

/-- A slot falls due. -/
def execBistSlot (cond : SlotCond) (s : State) : Host.Outcome State Fault Refusal :=
  if !s.testing then ok s
  else if s.slotWaits then ok { s with bist := { s.bist with slotDue := some cond } }
  else ok (s.runSlot cond).settle

/-- Spare rows of both tiles of a pair can cover failing rows. -/
def State.sparesCover (s : State) (p : Nat) (es : List BistEntry) : Bool :=
  let n (l : Lane) : Nat := (es.filter fun e => decide (e.lane = l)).length
  es.all (fun e => decide (e.pair.toNat = p)) && decide (((s.pair p).rows .a).length + n .a ≤ 16) && decide (((s.pair p).rows .b).length + n .b ≤ 16)

/-- Soft repairs made in service, which the next shutdown record carries (R338). -/
def State.softRepair (s : State) (es : List BistEntry) : State :=
  { s with bist := { s.bist with repairs := s.bist.repairs ++ es } }.applyRepairs es

/-- A slice passes: the pair is FREE, its stop bits clear, and the rows it repaired are in use from now on (R63, R64). The march test has
overwritten RETAINED versions that lay on a STOPPED pair, so they are released (DEDUCED, log entry 29). After a LANE_COMMON or
GLOBAL fault a STOPPED pair stays so (R315). -/
def State.passSlice (s : State) (p : Nat) (again : Bool) : State :=
  let rows := s.bist.sliceRows
  let held := (s.pair p).role == .stopped
  let back := !(held && s.commonFault)
  let s := s.updPair p fun q => { (if back then q.freed else q) with passedAt := some s.now }
  let s := if back then s.dropRetainedOn p else s
  let s := if back && held then s.softRepair rows else s
  let s := { s with bist := { s.bist with odueEv := setBit s.bist.odueEv p false } }
  s.closeSlice p (if again then 2 else 1) rows

/-- A result the stewards differ on is not taken, and they have mismatched (R19, R328). -/
def State.resultsDiffer (s : State) : State := (s.laneFault .a 0x2003#16 0).laneFault .b 0x2003#16 0

/-- What a steward folds of a slice's result (R328). -/
def sliceWords : SliceResult → List Word
  | .pass => resultWords 0 []
  | .rows es => resultWords 1 es
  | .fail es => resultWords 2 es

/-- ACTION of the entries of a failure that no spare row covers (R334, R341): no spare row left, or the pair UNUSABLE for another reason. -/
def uncovered (noSpare : Bool) (es : List BistEntry) : List BistEntry :=
  es.map fun e => { e with action := if noSpare then 2#2 else 1#2 }

/-- ACTION of the entries of repaired rows (R341). -/
def repaired (es : List BistEntry) : List BistEntry := es.map fun e => { e with action := 0#2 }

/-- The entry of a delay stage that has not shown the poisoned word of a slice (R334, R339). -/
def delayFailed (p : Nat) : BistEntry :=
  { pair := BitVec.ofNat 6 p, lane := .b, mem := 4#3, row := 0xFFFF#16, bit := 0xFF#8, action := 1#2 }

/-- A slice ends, with its result as each steward records it and folds it (R328). What the slice injects, its poisoned word among them, is
not counted in EP_CMP_STAT and EP_DLY_STAT, whose fields tell of the pair's scheduled injections and of its passes (DESIGN CHOICE, log
entry 69); nor do the passes it commands advance the pass number or show in EP_PASS_NUM, EP_SIG and EP_PASS_TIME (R88 to R90) (DESIGN
CHOICE, log entry 73). A repair is applied to a tile only while its pair is FREE or TESTING (R63): that of a STOPPED pair waits until the
pair is FREE. A slice whose poisoned word has not come back poisoned fails, whatever else it found (R339). Where the conditions fail the
slice is over with no result, and its TESTING pair is FREE again, which R64 does not list (DESIGN CHOICE, log entry 40). -/
def execSliceEnd (p : Fin 36) (cond : TestCond) (res : Found SliceResult) (s : State) : Host.Outcome State Fault Refusal :=
  match s.bist.slice with
  | none => ok s
  | some (q, again) =>
    let role := (s.pair p).role
    if q ≠ p.val || !(role == .testing || role == .stopped) then ok s
    else if !condOk cond then
      let s := { s with bist := { s.bist with slice := none, sliceRows := [] } }
      let s := s.updPair p fun q => { q with role := if q.role = .testing then .free else q.role }
      ok ((s.keepClaim p (if role == .stopped then some 1 else none)).defer cond).settle
    else
      let s := s.foldBoth (sliceWords res.a) (sliceWords res.b)
      if res.a ≠ res.b then ok s.resultsDiffer.settle
      else
        let s := s.seeCond cond
        match res.a with
        | .pass =>
          ok (if s.bist.slicePoison then s.passSlice p again else s.failSlice p (s.bist.sliceRows ++ [delayFailed p])).settle
        | .fail es => ok (s.failSlice p (s.bist.sliceRows ++ uncovered false es)).settle
        | .rows es =>
          if !s.bist.slicePoison then ok (s.failSlice p (s.bist.sliceRows ++ uncovered false es ++ [delayFailed p])).settle
          else if !again && s.sparesCover p es then
            let es := repaired es
            let s := if role == .testing then s.softRepair es else s
            ok ({ s with bist := { s.bist with sliceRows := es } }.startSlice p true).settle
          else ok (s.failSlice p (s.bist.sliceRows ++ uncovered (!s.sparesCover p es) es)).settle

/-- A pair that can be overdue. -/
def State.mayBeOverdue (s : State) (p : Nat) : Bool :=
  let r := (s.pair p).role
  r != .unusable && r != .split && r != .halted

/-- The pairs overdue now (R330). -/
def State.overduePairs (s : State) : List Nat := below 36 fun p => s.bist.odueEv.getLsbD p && s.mayBeOverdue p

/-- A pair has had no passing slice for 400 s. -/
def execBistOverdue (p : Fin 36) (s : State) : Host.Outcome State Fault Refusal :=
  if s.mayBeOverdue p && !s.bist.odueEv.getLsbD p then
    let s := { s with bist := { s.bist with odueEv := setBit s.bist.odueEv p true } }
    ok (s.postEvent 0x0B 3 (s.overduePairs.headD p))
  else ok s

/-! ### Analogue windows (R340, R341) -/

/-- ITEM of BIST_RUN, and the number of indexes an item has. -/
def anaCode : AnaItem → Nat
  | .thresholdLoopback => 1
  | .readback => 2
  | .currentLimit => 3
  | .supplyXchk => 4
  | .lmXchk => 5
  | .timebaseRef => 6
  | .serdesLoopback => 7

/-- The lane an index names. -/
def laneOf (i : Nat) : Lane := if i = 0 then .a else .b

/-- What a passed or failed test of an item leaves. -/
def State.anaResult (s : State) (item : AnaItem) (i : Nat) (pass : Bool) : State :=
  match item with
  | .thresholdLoopback =>
    let s := { s with bist := { s.bist with chOk := setBit s.bist.chOk i pass } }
    if pass then s else s.chanFault i 0x300A#16 fun c => { c with loopbackFail := true }
  | .readback => if pass then s else s.chanFault i 0x300A#16 fun c => { c with loopbackFail := true }
  | .currentLimit =>
    if pass then s else s.chanFault i 0x3005#16 fun c => { c with fltOver := true }
  | .supplyXchk =>
    let s := s.updGrp i fun q => { q with xchkFail := !pass, xchkRaised := q.xchkRaised || !pass }
    if pass then s else s.grpFault i 0x3010#16 (s.grp i).vfs fun q => { q with uvoffLatch := true }
  | .lmXchk =>
    let s := { s with bist := match laneOf i with
      | .a => { s.bist with lmAOk := pass }
      | .b => { s.bist with lmBOk := pass } }
    if pass then s else s.laneFault (laneOf i) 0x2001#16 (s.lane (laneOf i)).laps
  | .timebaseRef => if pass then s else s.laneFault (laneOf i) 0x2005#16 0
  | .serdesLoopback => s.updPort i fun q => { q with serdesFail := !pass }

/-- The slot that tests an item shared by all pairs (R337); FD's own items have their windows at any time. -/
def anaSlot : AnaItem → Option Nat
  | .lmXchk => some 36
  | .timebaseRef => some 36
  | .supplyXchk => some 37
  | .serdesLoopback => some 39
  | _ => none

/-- A window is due: of an item of FD, of a shared item whose slot runs, of an item a BIST_RUN waits for (R337, R340, R341). -/
def State.windowDue (s : State) (item : AnaItem) (i : Nat) : Bool :=
  (match anaSlot item with
    | none => true
    | some n => s.bist.shared == some n) ||
  s.bist.asked.any fun e => decide (e.2.1.toNat = anaCode item) && decide (e.2.2.toNat = i)

/-- The items FD tests in windows of its pulse schedule; the readback comparators are tested during the channel's own pulse (R340). -/
def inSchedule : AnaItem → Bool
  | .thresholdLoopback => true
  | .currentLimit => true
  | .supplyXchk => true
  | _ => false

/-- A window tests its item: the conditions hold at its start and at its end, or it is deferred (R329); each steward records the result and
folds it, and it is taken where they agree (R328). -/
def State.runWindow (s : State) (item : AnaItem) (i : Nat) (w : WindowRead) (passed : Found Bool) : State :=
  if !condOk w.start then s.defer w.start
  else if !condOk w.fin then s.defer w.fin
  else
    let ws (b : Bool) : List Word := [word (anaCode item), word i, word (flag b 0)]
    let s := s.foldBoth (ws passed.a) (ws passed.b)
    if passed.a != passed.b then s.resultsDiffer.settle
    else
      (((s.seeCond w.fin).anaResult item i passed.a).completeAsks (anaCode item) i stSuccess (if passed.a then 1 else 3)).settle

/-- The pulses that fall due while an analogue window is open wait for its end (R223, R340). -/
def State.putOffAll (s : State) (ds : List (Fin 64 × Lane × Nat)) : State :=
  ds.foldl (fun t d => t.putOff (t.setHead d.1) d.2.1 d.2.2) s

/-- How many pulses and windows can follow the end of a window. -/
def State.waitFuel (s : State) : Nat :=
  (s.fd.pulseWait.map fun x => match x with
    | .pulse _ _ _ => 1
    | .window _ _ w _ => 1 + w.due.length).sum

/-- What waits for the end of a window follows in turn: a pulse that starts opens its own window, an analogue window is over with its test
(R223). -/
def State.nextWait (s : State) : Nat → State
  | 0 => s
  | n + 1 =>
    match s.fd.pulseWait with
    | [] => s
    | x :: r =>
      let s := s.updFd fun f => { f with pulseWait := r }
      match x with
      | .pulse h l k =>
        let t := s.startPulse h l k
        if t.fd.pulseWin.isSome then t else t.nextWait n
      | .window item i w passed => ((s.runWindow item i w passed).putOffAll w.due).nextWait n

/-- A pulse ends, and every member of its unit is judged by the readings taken during it, bit i that of member i (R221, R224); a
pulse cut short is not judged (R225). `settled` says that the 50 µs for the readback have passed too: the window closes, and
the first pulse that waits for it starts (R223). -/
def execTestPulseEnd (ch : Fin 64) (r : PulseRead) (settled : Bool) (s : State) : Host.Outcome State Fault Refusal :=
  let h := s.setHead ch
  let ms := s.setOf h
  let t : State := match (s.chan h).pulse with
    | none => s
    | some l =>
      let t := s.updChan h fun c => { c with pulse := none }
      let t := (List.range ms.length).foldl (fun t i =>
        t.judgePulse l (s.chan h).aHasPassed (ms.getD i h) (r.mid.getLsbD i) (r.term.getLsbD i)) t
      let good := (List.range ms.length).all fun i => !r.mid.getLsbD i && !r.term.getLsbD i
      if l = .a && good then t.updChan h fun c => { c with aPassed := some c.pulsePer } else t
  if settled && decide (t.fd.pulseWin = some h) then
    ok ((t.updFd fun f => { f with pulseWin := none }).nextWait t.waitFuel)
  else ok t

/-- An analogue window falls due and tests one item; SerDes loopback only on a DISABLED port. One of FD's is a pulse window of another unit:
it waits while a unit's window is open, and the pulses that fall due in it wait for its end (R223, R340). -/
def execAnalogueWindow (item : AnaItem) (index : BitVec 6) (w : WindowRead) (passed : Found Bool) (s : State) :
    Host.Outcome State Fault Refusal :=
  let i := index.toNat
  let item' := anaCode item
  if !s.testing || itemCount item' ≤ i || !s.windowDue item i ||
      (item' = 7 && (decide (s.portMax ≤ i) || decide ((s.port i).st ≠ .disabled))) then ok s
  else if !inSchedule item then ok (s.runWindow item i w passed)
  else
    let s := s.updFd fun f => { f with pulseWait := f.pulseWait ++ [.window item i w passed] }
    ok (if s.fd.pulseWin.isSome then s else s.nextWait s.waitFuel)

end Sys2Proof.Machine
end

