-- ==== Sys2Proof/Machine/Crc.lean ====
section
/-!
DEFINITION. The CRC units of HB (R371 to R375, R381, R382).
-/
namespace Sys2Proof.Machine
open Sys2Proof

/-- Width of a polynomial choice (R372). -/
def crcWidth (poly : BitVec 3) : Nat :=
  match poly.toNat with
  | 3 => 16
  | 4 => 8
  | _ => 32

/-- The polynomial, most significant term left out (R372). -/
def crcPoly (poly : BitVec 3) : Nat :=
  match poly.toNat with
  | 0 => 0x1EDC6F41
  | 1 => 0x741B8CD7
  | 2 => 0x04C11DB7
  | 3 => 0x1021
  | _ => 0x2F

/-- The `n` low bits of a number in reverse order. -/
def revBits : Nat → Nat → Nat
  | 0, _ => 0
  | n + 1, v => (v % 2) * 2 ^ n + revBits n (v / 2)

/-- One byte folded into a register of width w: reflected, or not (R372). -/
def crcFold (w poly : Nat) (reflect : Bool) (v : Nat) (b : Byte) : Nat :=
  if reflect then
    let q := revBits w poly
    let rec go : Nat → Nat → Nat
      | 0, x => x
      | n + 1, x => go n (if x % 2 = 1 then (x / 2) ^^^ q else x / 2)
    go 8 (v ^^^ b.toNat)
  else
    let rec fwd : Nat → Nat → Nat
      | 0, x => x
      | n + 1, x => fwd n (if x / 2 ^ (w - 1) % 2 = 1 then (x * 2 % 2 ^ w) ^^^ poly else x * 2 % 2 ^ w)
    fwd 8 (v ^^^ (b.toNat * 2 ^ (w - 8)))

/-- Bytes folded into a unit in order. -/
def Crc.foldBytes (c : Crc) (bs : List Byte) : Crc :=
  { c with val := word (bs.foldl (crcFold (crcWidth c.poly) (crcPoly c.poly) c.reflect) c.val.toNat) }

/-- CK_RESULT: the register, inverted over its width when FINAL_INV is 1 (R374). -/
def Crc.result (c : Crc) : Word :=
  if c.finalInv then word (c.val.toNat ^^^ (2 ^ crcWidth c.poly - 1)) else c.val

/-- A write of CK_VAL: bits above the width are ignored (R374). -/
def Crc.setVal (c : Crc) (v : Word) : Crc := { c with val := word (v.toNat % 2 ^ crcWidth c.poly) }

/-- A write of CK_CFG that is taken: the register keeps its bits below the new width (R375). -/
def Crc.setCfg (c : Crc) (v : Word) : Crc :=
  let p := BitVec.ofNat 3 (bits v 4 2)
  { c with poly := p, finalInv := bit v 1, reflect := bit v 0,
           val := word (c.val.toNat % 2 ^ crcWidth p) }

/-- CK_CFG (R375, R381): a POLY above 0b100 is discarded. -/
def execCkCfgWrite (u : Fin 8) (value : Word) (s : State) : Host.Outcome State Fault Refusal :=
  if 4 < bits value 4 2 then ok (s.wrej 3 0 (0x5000 + 0x20 * u))
  else ok (s.updCrc u fun c => c.setCfg value)

/-- CK_DATA32: four bytes, bits 7 to 0 first (R373). -/
def execCkData32 (u : Fin 8) (value : Word) (s : State) : Host.Outcome State Fault Refusal :=
  ok (s.updCrc u fun c => c.foldBytes (bytesLE 4 value.toNat))

/-- CK_DATA16: two bytes. -/
def execCkData16 (u : Fin 8) (value : Word) (s : State) : Host.Outcome State Fault Refusal :=
  ok (s.updCrc u fun c => c.foldBytes (bytesLE 2 value.toNat))

/-- CK_DATA8: one byte. -/
def execCkData8 (u : Fin 8) (value : Word) (s : State) : Host.Outcome State Fault Refusal :=
  ok (s.updCrc u fun c => c.foldBytes (bytesLE 1 value.toNat))

/-- CK_SEED: four bytes, bits 31 to 24 first. -/
def execCkSeed (u : Fin 8) (value : Word) (s : State) : Host.Outcome State Fault Refusal :=
  ok (s.updCrc u fun c => c.foldBytes (bytesBE 4 value.toNat))

end Sys2Proof.Machine
end

