-- ==== Sys2Proof/Machine/Resets.lean ====
section
/-!
DEFINITION. The reset of the whole device (R15, R29, R432, R441, R444, R445).
-/
namespace Sys2Proof.Machine
open Sys2Proof

/-- The fuses survive a reset, and trial overrides where `keep` says so. -/
def Otp.afterReset (o : Otp) (keep : Bool) : Otp :=
  { words := tabMap OtpWord.init (fun _ w =>
      { fuse := w.fuse, check := w.check, ovr := w.ovr && keep, shadow := if w.ovr && keep then w.shadow else 0#64 }) o.words
    wlCopies := o.wlCopies, rlCopies := o.rlCopies }

/-- Every register at its reset value. The fuses and the flash records stay, and the cause of the reset and the port's instruction; commands
in the model's own queue and its counter of free values are not the device's. -/
def State.atReset (s : State) (keep : Bool) : State :=
  { State.reset with
    pending := s.pending
    freeCtr := s.freeCtr
    otp := s.otp.afterReset keep
    bist := { State.reset.bist with flash := s.bist.flash }
    pm := { State.reset.pm with cause := s.pm.cause }
    db := { State.reset.db with ir := s.db.ir } }

/-- The whole device is reset and held in reset. -/
def State.wholeReset (s : State) (cause : Nat) (keep : Bool) : State :=
  { s.atReset keep with
    pm := { State.reset.pm with cause := BitVec.ofNat 4 cause }
    db := { State.reset.db with ir := if cause = 0 || cause = 3 then .idcode else irKept s.db.ir } }

/-- Supplies fail. Overrides end with HB's core supply and with the device's (R432); with the core supply of another die alone, whether
they survive is open (DESIGN CHOICE, log entry 6). -/
def State.powerLost (s : State) (loss : PowerLoss) : State :=
  match loss with
  | .all => s.wholeReset 0 false
  | .hub => s.wholeReset 3 false
  | .lane _ | .field =>
    let (n, s) := s.draw
    s.wholeReset 3 ((Config.freeMeasure n).getLsbD 0)

end Sys2Proof.Machine
end

