-- ==== Sys2Proof/Machine/Otp.lean ====
section
/-!
DEFINITION. The OTP array (R416 to R438): the load of the shadows, reading, programming, locks, trial overrides, the drift scan.
-/
namespace Sys2Proof.Machine
open Sys2Proof

/-! ### Loading (R421 to R424) -/

/-- The exceptional reads of a word, if the load found any. -/
def excOf (excs : List OtpExc) (w : Nat) : Option OtpExc := excs.find? fun e => decide (e.word.val = w)

/-- One word read twice: the fuse value, its marks, and its shadow. A word is marginal when the strict read decodes to other data or to
none; an override is kept where `keep` says so (R421, R423, R432) (DEDUCED, log entry 45). -/
def OtpWord.load (o : OtpWord) (exc : Option OtpExc) (keep : Bool) : OtpWord :=
  let clean : OtpSense := { data := o.fuse, check := o.check }
  let read (x : OtpSense) : OtpRead := otpDecode x.data x.check
  let n := read ((exc.map fun e => e.normal).getD clean)
  let strict := read ((exc.map fun e => e.strict).getD clean)
  let ovr := o.ovr && keep
  { o with
    val := n.data, margin := decide (n.data ≠ strict.data) || (strict.uncorr && !n.uncorr), corr := n.corrected, uncorr := n.uncorr
    ovr := ovr, drifted := false, shadow := if ovr then o.shadow else if n.uncorr then 0#64 else n.data }

/-- A word holds a programmed bit, data or check (R426). -/
def OtpWord.prog (o : OtpWord) : Bool := decide (o.fuse ≠ 0#64) || decide (o.check ≠ 0#8)

/-- The data a seal covers, words 0 to 14 of a region, bits 63 to 56 first (R422), as `f` takes them from the words. -/
def State.regionBytes (s : State) (f : OtpWord → Word64) (r : Nat) : List Byte :=
  (List.range 15).flatMap fun i => bytesBE 8 (f (s.otpWord (16 * r + i))).toNat

/-- Each lane checks its half of the seal; it matches when both agree. An unprogrammed seal word does not match. -/
def State.sealOf (s : State) (f : OtpWord → Word64) (r : Nat) : Bool :=
  let w := (f (s.otpWord (16 * r + 15))).toNat
  let d := s.regionBytes f r
  decide (w ≠ 0) && decide (w % 2 ^ 32 = (crcA d).toNat) && decide (w / 2 ^ 32 = (crcB d).toNat)

/-- The seal of a region over its shadows, overrides among them (R432). -/
def State.sealMatches (s : State) (r : Nat) : Bool := s.sealOf OtpWord.shadow r

/-- The shadow a word has without an override. -/
def OtpWord.own (o : OtpWord) : Word64 := if o.uncorr then 0#64 else o.val

/-- A mask over the 16 regions. -/
def regionMask (f : Nat → Bool) : BitVec 16 := (List.range 16).foldl (fun v r => setBit v r (f r)) 0#16

/-- How many copies of a lock count as blown. -/
def blownCopies (m : BitVec 3) : Nat := (below 3 fun i => m.getLsbD i).length

/-- A lock is in force when two of its three copies count as blown (R424). -/
def voted (copies : Tab (BitVec 3)) : BitVec 16 := regionMask fun r => decide (2 ≤ blownCopies (tabGet 0#3 copies r))

/-- A lock has copies that are not unanimous. -/
def splitVote (copies : Tab (BitVec 3)) : Bool := copies.any fun e => decide (e.2 ≠ 0#3) && decide (e.2 ≠ 7#3)

/-- The copies of the locks of one kind as the two reads of a boot show them: a copy counts as blown when either read shows it (R424). -/
def readLocks (rd : Bool) (reads : List LockRead) (copies : Tab (BitVec 3)) : Tab (BitVec 3) :=
  (reads.filter fun e => e.rd == rd).foldl (fun t e => tabSet 0#3 t e.region.val (e.normal ||| e.strict)) copies

/-- The data of R420: the variant a FEATURE word grants. -/
def featureOf (w : Word64) : BitVec 2 :=
  let n := w.toNat
  let code := n % 2 ^ 16
  if n / 2 ^ 32 = 0 && n / 2 ^ 16 % 2 ^ 16 = 65535 - code then
    if code = 0x3264 then 2#2 else if code = 0x1664 then 1#2 else 0#2
  else 0#2

/-- A lock of a region is in force: as the load found it, or, before the load, as its copies stand. -/
def State.wlOn (s : State) (r : Nat) : Bool := (if s.otp.loaded then s.otp.wl else voted s.otp.wlCopies).getLsbD r
def State.rlOn (s : State) (r : Nat) : Bool := (if s.otp.loaded then s.otp.rl else voted s.otp.rlCopies).getLsbD r

/-- A shadow as registers and the test access port show it: 0 in a read-locked region (R425). -/
def State.shadowWord (s : State) (w : Nat) : Nat := if s.rlOn (w / 16) then 0 else (s.otpWord w).shadow.toNat

/-- Key k as R291 places it, from the shadows; `none` while its region is not read-locked or a word of it is marginal. -/
def State.bootKey (s : State) (k : Nat) : Option (BitVec 128) :=
  let w := 16 * (4 + k / 7) + 2 * (k % 7)
  let a := s.otpWord w
  let b := s.otpWord (w + 1)
  if s.otp.rl.getLsbD (4 + k / 7) && !a.margin && !b.margin then some (a.shadow ++ b.shadow) else none

/-- Every word of the array, as `f` leaves it. -/
def State.mapOtp (s : State) (f : Nat → OtpWord → OtpWord) : State :=
  { s with otp := { s.otp with words := tabUpdAll OtpWord.init s.otp.words (List.range 256) f } }

/-- The load of R421: words, locks, seals, the variant, the trims, the keys. -/
def State.loadShadows (s : State) (excs : List OtpExc) (locks : List LockRead) : State :=
  let s := s.mapOtp fun w o => o.load (excOf excs w) s.pm.bench
  let wlc := readLocks false locks s.otp.wlCopies
  let rlc := readLocks true locks s.otp.rlCopies
  let wl := voted wlc
  let rl := voted rlc
  let seals := regionMask s.sealMatches
  let f := s.otpWord 32
  let trim (i : Nat) : Option Word64 := if seals.getLsbD 1 && !(s.otpWord (16 + i)).margin then some (s.otpWord (16 + i)).shadow else none
  let s := { s with otp := { s.otp with
    wlCopies := wlc, rlCopies := rlc, wl := wl, rl := rl, wlBoot := wl, rlBoot := rl, sealOk := seals, incomplete := wl &&& ~~~seals
    seal3 := if (s.otpWord 48).ovr || !(below 16 fun i => (s.otpWord (48 + i)).ovr).isEmpty then s.sealOf OtpWord.own 3 else seals.getLsbD 3
    trims := (List.range 4).foldl (fun t i => tabSet none t i (trim i)) []
    voteSplit := splitVote wlc || splitVote rlc
    drift := false, lockDrift := false, loaded := true, featMarginal := f.margin
    applied := if seals.getLsbD 2 && !f.margin && !f.uncorr then featureOf f.shadow else 0#2
    uncorrCnt := min 255 (below 256 fun w => (s.otpWord w).uncorr).length } }
  { s with otp := { s.otp with
    keys := (List.range 28).foldl (fun t k => tabSet none t k (s.bootKey k)) [] } }

/-- No word of region 3 is marginal. -/
def State.region3Clean (s : State) : Bool := (below 16 fun i => (s.otpWord (48 + i)).margin).isEmpty

/-- The fields of region 3 apply: its seal matches and no word of it is marginal (R419, R422, R423). -/
def State.region3Ok (s : State) : Bool := s.otp.sealOk.getLsbD 3 && s.region3Clean

/-- DEBUG_EN follows the fuse value, never an override: the region's seal is that over its fuse values too (R431). -/
def State.debugFuse (s : State) : Bool := s.otp.seal3 && s.region3Clean && (s.otpWord 48).own.getLsbD 63

/-- SPLIT_MASK of R419. -/
def State.splitFuse (s : State) : BitVec 36 :=
  if s.region3Ok then (s.otpWord 49).shadow.setWidth 36 else 0#36

/-- REC_SECTOR of R419: the flash sector of the first BIST record, 0 for the default of R332. -/
def State.recSectorFuse (s : State) : Nat :=
  if s.region3Ok then (s.otpWord 48).shadow.toNat / 2 ^ 32 % 2 ^ 24 else 0

/-- IMG_SECTOR of R419: the flash sector of the image for hostless boot. -/
def State.imgSector (s : State) : BitVec 24 := if s.region3Ok then (s.otpWord 48).shadow.setWidth 24 else 0#24

/-- A hard repair entry (R418). -/
structure HardRepair where
  pair : Nat
  lane : Lane
  row : Nat
  spare : Nat
  deriving DecidableEq, Repr

/-- The entry a half word of region 1 spells, if it is valid. -/
def hardRepair (e : Nat) : Option HardRepair :=
  if e / 2 ^ 31 % 2 = 1 && decide (e / 2 ^ 25 % 64 < 36) then
    some { pair := e / 2 ^ 25 % 64, lane := if e / 2 ^ 24 % 2 = 1 then .b else .a, row := e / 2 ^ 16 % 256, spare := e / 2 ^ 12 % 16 }
  else none

/-- The hard repair entries that apply (R418, R423): an entry that names a spare row already used is left out. -/
def State.hardRepairs (s : State) : List HardRepair :=
  if s.otp.sealOk.getLsbD 1 then
    let es := (List.range 11).flatMap fun i =>
      let o := s.otpWord (20 + i)
      if o.margin then [] else [o.shadow.toNat / 2 ^ 32, o.shadow.toNat % 2 ^ 32]
    (es.filterMap hardRepair).foldl (fun acc e =>
      if acc.any fun x => decide (x.pair = e.pair) && decide (x.lane = e.lane) && decide (x.spare = e.spare) then acc else acc ++ [e]) []
  else []

/-- Every override ends: the shadow returns to the fuse value (R432) (DEDUCED, log entry 45). -/
def State.dropOverrides (s : State) : State :=
  s.mapOtp fun _ o => if o.ovr then { o with ovr := false, shadow := if o.uncorr then 0#64 else o.val } else o

/-! ### Reading (R401, R425) -/

/-- The data and status of a word, as OTP_READ reports them. -/
def State.otpReadWord (s : State) (w : Nat) : Nat × Nat :=
  let o := s.otpWord w
  let locked := s.rlOn (w / 16)
  (s.shadowWord w,
   flag o.corr 0 + flag o.uncorr 1 + flag o.margin 2 + flag locked 3 + flag o.ovr 4)

/-- OTP_READ. -/
def execOtpRead (o : Origin) (word count : Byte) (s : State) : Host.Outcome State Fault Refusal :=
  s.command o (.otpRead o word count) fun s =>
  let w := word.toNat
  let n := count.toNat
  if n = 0 || 4 < n || decide (w % 16 + n > 16) then ok (s.complete o 0x40 stBadParam 0)
  else
    let r := (List.range n).map fun i => s.otpReadWord (w + i)
    let data := r.foldr (fun x a => x.1 + a * 2 ^ 64) 0
    let stat := r.foldr (fun x a => x.2 + a * 256) 0
    ok (s.complete o 0x40 stSuccess (data + stat * 2 ^ 256))

/-! ### Programming (R426 to R430) -/

/-- The conditions of R426 that hold for every target: the status of the first that fails. -/
def State.otpBlocked (s : State) (tjOk : Bool) : Option Nat :=
  if !s.allWithdrawn || !tjOk then some stBadState else none

/-- The pulses of a word: the bits that blow stay blown (R427). -/
def OtpWord.blow (x : OtpWord) (data : Word64) (out : ProgOutcome) : OtpWord :=
  { x with fuse := x.fuse ||| (data &&& ~~~out.failData), check := x.check ||| (otpCheck data &&& ~~~out.failCheck) }

/-- Every bit reads as intended. -/
def progVerified (o : ProgOutcome) (data : Word64) : Bool :=
  decide (data &&& o.failData = 0#64) && decide (otpCheck data &&& o.failCheck = 0#8)

/-- OTP_PROGRAM with TARGET WORD. A loss of supply ends the pulses and the command with them (R430) (DEDUCED, log entry 45). -/
def execOtpProgram (o : Origin) (index : Byte) (data : Word64) (tjOk : Bool) (out : ProgOutcome) (s : State) :
    Host.Outcome State Fault Refusal :=
  s.command o (.otpProgram o index data tjOk out) fun s =>
  let w := index.toNat
  if data = 0#64 then ok (s.complete o 0x41 stBadParam 0)
  else
    match s.otpBlocked tjOk with
    | some st => ok (s.complete o 0x41 st 0)
    | none =>
      if s.wlOn (w / 16) then ok (s.complete o 0x41 0x40 0)
      else if (s.otpWord w).prog then ok (s.complete o 0x41 0x41 0)
      else
        let s := s.updOtp w fun x => x.blow data out
        match out.loss with
        | some p => ok (s.powerLost p)
        | none =>
          if progVerified out data then
            ok ((s.updOtp w fun x => { x with val := data, shadow := if x.ovr then x.shadow else data }).complete o 0x41 stSuccess
              (max 1 (min 5 out.pulses)))
          else ok (s.complete o 0x41 0x42 5)

/-- What a lock program leaves: the copies blown, the vote, and the status: two copies that verify are a success, with fewer the vote
decides whether the lock is in force (R428) (DEDUCED, log entry 45). -/
def State.programLock (s : State) (o : Origin) (r : Nat) (rd : Bool) (pulses : Nat) (copies : LockOutcome) : State :=
  let was := tabGet 0#3 (if rd then s.otp.rlCopies else s.otp.wlCopies) r
  let inForce := if rd then s.rlOn r else s.wlOn r
  if inForce then s.complete o 0x41 stSuccess 0
  else
    let n := was ||| copies.verified ||| copies.seen
    let q := s.otp
    let q := if rd then { q with rlCopies := tabSet 0#3 q.rlCopies r n } else { q with wlCopies := tabSet 0#3 q.wlCopies r n }
    match copies.loss with
    | some p => ({ s with otp := q } : State).powerLost p
    | none =>
      let on := decide (2 ≤ blownCopies n)
      let q := if rd then { q with rl := setBit q.rl r on } else { q with wl := setBit q.wl r on }
      let good := was ||| copies.verified
      let q := { q with voteSplit := q.voteSplit || (decide (n ≠ 0#3) && decide (n ≠ 7#3)) || decide (blownCopies good = 2) }
      ({ s with otp := q }).complete o 0x41 (if 2 ≤ blownCopies good then stSuccess else 0x42)
        (max 1 (min 15 pulses))

/-- OTP_PROGRAM with TARGET WRITE_LOCK (DEDUCED, log entry 45). -/
def execWriteLock (o : Origin) (index : Byte) (tjOk : Bool) (pulses : Nat) (copies : LockOutcome) (s : State) :
    Host.Outcome State Fault Refusal :=
  s.command o (.writeLock o index tjOk pulses copies) fun s =>
  if 15 < index.toNat then ok (s.complete o 0x41 stBadParam 0)
  else
    match s.otpBlocked tjOk with
    | some st => ok (s.complete o 0x41 st 0)
    | none => ok (s.programLock o index.toNat false pulses copies)

/-- OTP_PROGRAM with TARGET READ_LOCK. -/
def execReadLock (o : Origin) (index : Byte) (tjOk : Bool) (pulses : Nat) (copies : LockOutcome) (s : State) :
    Host.Outcome State Fault Refusal :=
  s.command o (.readLock o index tjOk pulses copies) fun s =>
  if 15 < index.toNat then ok (s.complete o 0x41 stBadParam 0)
  else
    match s.otpBlocked tjOk with
    | some st => ok (s.complete o 0x41 st 0)
    | none => ok (s.programLock o index.toNat true pulses copies)

/-! ### Trial overrides (R431, R432) -/

/-- The conditions of R431: the status of the first that fails. -/
def State.shadowBlocked (s : State) (w : Nat) : Option Nat :=
  let r := w / 16
  if !s.pm.bench then some 0x43
  else if decide (r ≠ 3) && (decide (r < 8) || decide (13 < r)) then some 0x44
  else if s.wlOn r then some 0x40
  else none

/-- OTP_SHADOW with ACTION SET. -/
def execOtpShadowSet (o : Origin) (word : Byte) (data : Word64) (s : State) : Host.Outcome State Fault Refusal :=
  s.command o (.otpShadowSet o word data) fun s =>
  match s.shadowBlocked word.toNat with
  | some st => ok (s.complete o 0x42 st 0)
  | none =>
    ok ((s.updOtp word.toNat fun x => { x with shadow := data, ovr := true }).complete o 0x42 stSuccess 0)

/-- OTP_SHADOW with ACTION REMOVE. -/
def execOtpShadowRemove (o : Origin) (word : Byte) (s : State) : Host.Outcome State Fault Refusal :=
  s.command o (.otpShadowRemove o word) fun s =>
  match s.shadowBlocked word.toNat with
  | some st => ok (s.complete o 0x42 st 0)
  | none =>
    ok ((s.updOtp word.toNat fun x =>
      { x with shadow := if x.uncorr then 0#64 else x.val, ovr := false }).complete o 0x42 stSuccess 0)

/-- Regions with an overridden word (OT_SEAL.OVR_REGION). -/
def State.ovrRegions (s : State) : BitVec 16 :=
  regionMask fun r => !(below 16 fun i => (s.otpWord (16 * r + i)).ovr).isEmpty

/-! ### Drift (R433) -/

/-- A word is reported as drifted, once in a boot. -/
def State.driftWord (s : State) (w : Nat) : State :=
  if (s.otpWord w).drifted then s
  else
    (({ s with otp := { s.otp with lastWord := BitVec.ofNat 8 w } }).updOtp w fun o => { o with drifted := true }).postEvent
      0x0E 3 w

/-- What the scan reads of a word now: its fuses, or the bits an entry of the scan shows. -/
def State.scanWord (s : State) (words : List (Fin 256 × OtpSense)) (w : Nat) : Word64 :=
  match words.find? fun e => decide (e.1.val = w) with
  | some e => (otpDecode e.2.data e.2.check).data
  | none => (otpDecode (s.otpWord w).fuse (s.otpWord w).check).data

/-- What the vote of a lock is now. -/
def State.scanLock (s : State) (locks : List LockRead) (rd : Bool) (r : Nat) : Bool :=
  match locks.find? fun e => e.rd == rd && decide (e.region.val = r) with
  | some e => decide (2 ≤ blownCopies e.normal)
  | none => decide (2 ≤ blownCopies (tabGet 0#3 (if rd then s.otp.rlCopies else s.otp.wlCopies) r))

/-- A lock of a region votes otherwise than at boot. -/
def State.lockDrifts (s : State) (locks : List LockRead) (r : Nat) : Bool :=
  s.scanLock locks false r != s.otp.wlBoot.getLsbD r || s.scanLock locks true r != s.otp.rlBoot.getLsbD r

/-- The 10 s scan: every word against its fuse value, every lock against the vote of the boot (R433) (DEDUCED, log entry 45). -/
def execOtpDriftScan (words : List (Fin 256 × OtpSense)) (locks : List LockRead) (s : State) :
    Host.Outcome State Fault Refusal :=
  if !s.otp.loaded then ok s
  else
    let ws := below 256 fun w => decide (s.scanWord words w ≠ (s.otpWord w).val)
    let rs := below 16 fun r => s.lockDrifts locks r
    let s := if ws.isEmpty then s else { s with otp := { s.otp with drift := true } }
    let s := ws.foldl State.driftWord s
    let s := if rs.isEmpty then s else { s with otp := { s.otp with lockDrift := true } }
    let s := rs.foldl (fun t r => t.driftWord (16 * r + 15)) s
    ok { s with otp := { s.otp with scanCnt := s.otp.scanCnt + 1#16 } }

end Sys2Proof.Machine
end

