-- ==== Sys2Proof/Machine/Blocks.lean ====
section
/-!
DEFINITION. The safety function blocks (R101 to R135): one step of a block, from its inputs and its run-time state.
-/
namespace Sys2Proof.Machine
open Sys2Proof

/-- The pass sees an expiry of this timer (R103). -/
def Timer.isExp : Timer → Bool
  | .expired _ => true
  | _ => false

/-- The timer counts. -/
def Timer.isOn : Timer → Bool
  | .stopped => false
  | _ => true

/-- A timer started, in ms. -/
def ms (n : Nat) : Timer := .running (1000 * n)

/-- A diagnostic condition begins, or ends. -/
def addCode (c : Nat) (cs : List Nat) : List Nat := if cs.contains c then cs else c :: cs

def dropCodes (p : Nat → Bool) (cs : List Nat) : List Nat := cs.filter fun c => !p c

/-! ### The dual-channel machine (R109) -/

/-- DUALANT's normalised form of CH2. -/
def antivalent (p : Pt) : Pt := if isOne p then 2#2 else if isZero p then 3#2 else 0#2

/-- What the machine does: states 0 TEST, 1 OPEN, 2 CLOSING, 3 CLOSED, 4 OPENING, 5 DISC (DEDUCED, log entry 19). -/
def dualStep (tDisc st : Nat) (t : Timer) (codes : List Nat) (c1 c2 : Pt) : Nat × Timer × List Nat :=
  let both1 := isOne c1 && isOne c2
  let both0 := isZero c1 && isZero c2
  let r : Nat × Timer × List Nat :=
    match st with
    | 0 => if both0 then (1, t, codes) else (0, t, codes)
    | 1 =>
      if both1 then (3, t, codes)
      else if isOne c1 != isOne c2 then (2, ms tDisc, codes)
      else (1, t, codes)
    | 2 =>
      if t.isExp then (5, .stopped, addCode 0x02 codes)
      else if both1 then (3, .stopped, codes)
      else if both0 then (1, .stopped, codes)
      else (2, t, codes)
    | 3 =>
      if both0 then (1, t, codes)
      else if !both1 then (4, ms tDisc, codes)
      else (3, t, codes)
    | 4 =>
      if t.isExp then (5, .stopped, addCode 0x02 codes)
      else if both0 then (1, .stopped, codes)
      else (4, t, codes)
    | _ => if both0 then (1, t, codes) else (st, t, codes)
  let cs := if r.1 = 1 then dropCodes (· == 0x02) r.2.2 else r.2.2
  (r.1, r.2.1, if r.1 = 0 then addCode 0x03 cs else dropCodes (· == 0x03) cs)

/-- ESTOP, DUALEQ and DUALANT. -/
def stepDual (tDisc startTest : Nat) (first : Bool) (c1 c2 : Pt) (r : BlockRt) : BlockRt :=
  let q := dualStep tDisc (if first then dualInit startTest else r.st) r.t1 r.codes c1 c2
  { r with st := q.1, t1 := q.2.1, codes := q.2.2, outs := [ptVal (q.1 = 3)] }

/-! ### GUARD (R111, R112) -/

/-- GUARD: `w0` holds the kind of the disagreement, 1 for a code with open switches, 2 for closed switches without
the code. The expiry of T_CODE is taken before an agreement that the same pass finds (R103), and an agreement that rests on
an input that is not valid clears no code (R101): the code itself, or a switch that alone keeps the machine from CLOSED
(DEDUCED, log entry 20). -/
def stepGuard (tDisc startTest sw2Mode : Nat) (first : Bool) (i : List (Option Pt)) (r : BlockRt) : BlockRt :=
  let sw1 := inp i 0
  let sw2 := if sw2Mode = 1 then antivalent (inp i 1) else inp i 1
  let was := if first then dualInit startTest else r.sub
  let q := dualStep tDisc was r.t1 r.codes sw1 sw2
  let closed := decide (q.1 = 3)
  let code := isOne (inp i 2)
  let kind : BitVec 16 :=
    if !declared i 2 then 0#16 else if code && !closed then 1#16 else if !code && closed then 2#16 else 0#16
  let holds := was = 0 || 4 ≤ was
  let sure := isValid (inp i 2) && (closed || holds || isZero sw1 || isZero sw2 || (isValid sw1 && isValid sw2))
  let r := { r with sub := q.1, t1 := q.2.1, codes := q.2.2,
                    outs := [ptVal (closed && (!declared i 2 || code))], w0 := kind }
  if r.t2.isExp then { r with t2 := .stopped, codes := addCode 0x10 r.codes }
  else if kind = 0#16 then
    { r with t2 := .stopped, codes := if sure then dropCodes (· == 0x10) r.codes else r.codes }
  else r

/-- GUARD's second timer starts when a disagreement first appears (DEDUCED, log entry 20). -/
def stepGuardTimed (tDisc startTest sw2Mode tCode : Nat) (first : Bool) (i : List (Option Pt)) (r : BlockRt) : BlockRt :=
  let was := if first then 0#16 else r.w0
  let q := stepGuard tDisc startTest sw2Mode first i r
  if q.w0 ≠ 0#16 && decide (q.w0 ≠ was) then { q with t2 := ms tCode } else q

/-! ### CURTAIN (R113 to R117) -/

/-- Codes that clear when IDLE is reached. -/
def muteCode (c : Nat) : Bool := decide (0x20 ≤ c) && decide (c ≤ 0x24)

/-- A muting state with its timers, codes and direction. -/
structure Mute where
  st : Nat
  t2 : Timer
  t3 : Timer
  codes : List Nat
  rev : Bool

/-- To WAIT_CLEAR with a code, both muting timers stopped. -/
def Mute.wait (m : Mute) (c : Nat) : Mute :=
  { m with st := 3, t2 := .stopped, t3 := .stopped, codes := if c = 0 then m.codes else addCode c m.codes }

/-- To IDLE, codes cleared. -/
def Mute.idle (m : Mute) : Mute :=
  { m with st := 0, t2 := .stopped, t3 := .stopped, codes := dropCodes muteCode m.codes }

/-- To MUTED, T_MUTE_MAX started. -/
def Mute.muted (m : Mute) (tMax : Nat) : Mute := { m with st := 2, t2 := .stopped, t3 := ms tMax }

/-- Rows of SYNC, MUTED and WAIT_CLEAR that TWO and FOUR share. `both` is the pair of sensors that starts muting, `bad` what
ends SYNC beside the curtain, `back` what returns SYNC to IDLE, `hold` what keeps MUTED, `zero` all sensors valid 0. Where both MEN and LAMP
are not valid 1 in SYNC, LAMP counts as the cause and LAMP_FAIL is recorded (R115) (DESIGN CHOICE, log entry 74). -/
def muteRows (tMax : Nat) (clear men lamp entered both bad back hold zero : Bool) (m : Mute) : Mute :=
  match m.st with
  | 1 =>
    if m.t2.isExp then m.wait 0x21
    else if !clear || bad then m.wait 0x20
    else if both && men && lamp then m.muted tMax
    else if both then m.wait (if lamp then 0x20 else 0x24)
    else if back then m.idle
    else m
  | 2 =>
    if m.t3.isExp then m.wait 0x22
    else if entered then m.wait 0
    else if !hold then (if zero then m.idle else m.wait 0)
    else m
  | 3 => if zero then m.idle else m
  | _ => m

/-- MUTE_MODE TWO (R115). -/
def muteTwo (tSync tMax : Nat) (clear men lamp entered : Bool) (m1 m2 : Pt) (m : Mute) : Mute :=
  let both := isOne m1 && isOne m2
  let zero := isZero m1 && isZero m2
  if m.st = 0 then
    if both && clear && men && lamp then m.muted tMax
    else if isOne m1 != isOne m2 then { m with st := 1, t2 := ms tSync }
    else m
  else muteRows tMax clear men lamp entered both false zero both zero m

/-- MUTE_MODE FOUR (R116); with TWO_WAY the sequence may run from M4. -/
def muteFour (tSync tMax dir : Nat) (clear men lamp entered : Bool) (m1 m2 m3 m4 : Pt) (m : Mute) : Mute :=
  let zero := isZero m1 && isZero m2 && isZero m3 && isZero m4
  let (a, b, c, d) := if m.rev then (m4, m3, m2, m1) else (m1, m2, m3, m4)
  if m.st = 0 then
    if isOne m1 && isZero m2 && isZero m3 && isZero m4 then { m with st := 1, t2 := ms tSync, rev := false }
    else if dir = 1 && isOne m4 && isZero m3 && isZero m2 && isZero m1 then
      { m with st := 1, t2 := ms tSync, rev := true }
    else if !zero then m.wait 0x20
    else m
  else
    muteRows tMax clear men lamp entered (isOne a && isOne b) (!isZero c || !isZero d) (isZero a)
      ((isOne m1 && isOne m2) || (isOne m3 && isOne m4)) zero m

/-- CURTAIN. State code 4 is OVERRIDE, whose entry is taken before every row of IDLE and WAIT_CLEAR (R117). -/
def stepCurtain (tDisc startTest muteMode tSync tMax tOvr dir : Nat) (first : Bool) (i : List (Option Pt))
    (r : BlockRt) : BlockRt :=
  let was := if first then dualInit startTest else r.sub
  let q := dualStep tDisc was r.t1 r.codes (inp i 0) (inp i 1)
  let clear := decide (q.1 = 3)
  let entered := decide (q.1 = 5) && decide (was ≠ 5)
  let ovr := inpD 2#2 i 7
  let men := isOne (inpD 3#2 i 6)
  let lamp := isOne (inpD 3#2 i 8)
  let m1 := inp i 2
  let m2 := inp i 3
  let m3 := inp i 4
  let m4 := inp i 5
  let sens := if muteMode = 2 then [m1, m2, m3, m4] else if muteMode = 1 then [m1, m2] else []
  let zero := sens.all isZero
  let m : Mute := { st := if first then (if zero then 0 else 3) else r.st, t2 := r.t2, t3 := r.t3,
                    codes := q.2.2, rev := r.latch }
  let edge := !first && isZero r.prevIn && isOne ovr
  let m :=
    if muteMode = 0 then m
    else if (m.st = 0 || m.st = 3) && edge && !clear && sens.any isOne then
      { m with st := 4, t2 := .stopped, t3 := ms tOvr }
    else if m.st = 4 then
      if m.t3.isExp then m.wait 0x23
      else if !isOne ovr then m.wait 0
      else if clear && zero then m.idle
      else m
    else if muteMode = 1 then muteTwo tSync tMax clear men lamp entered m1 m2 m
    else muteFour tSync tMax dir clear men lamp entered m1 m2 m3 m4 m
  let muted := m.st = 2 || m.st = 4
  { r with st := m.st, sub := q.1, t1 := q.2.1, t2 := m.t2, t3 := m.t3, codes := m.codes, latch := m.rev,
           prevIn := ovr, outs := [ptVal (clear || muted), ptVal muted] }

/-! ### GLOCK (R118, R119) -/

/-- GLOCK: 0 OPEN, 1 LOCKING, 2 LOCKED, 3 UNLOCK_WAIT, 4 UNLOCKED, 5 LOCK_FAIL (DEDUCED, log entry 19). -/
def stepGlock (principle tLock : Nat) (first : Bool) (i : List (Option Pt)) (r : BlockRt) : BlockRt :=
  let door := isOne (inp i 0)
  let lock1 := isOne (inp i 1)
  let lock2 := if declared i 2 then isOne (inp i 2) else lock1
  let ureq := inp i 3
  let still := isOne (inp i 4)
  let locks := lock1 && lock2
  let (st, t) : Nat × Timer := if first then (if door then (1, ms tLock) else (0, r.t1)) else (r.st, r.t1)
  let fail (c : Nat) : Nat × Timer × List Nat := (5, .stopped, addCode c r.codes)
  let lost := fail (if !door then 0x13 else 0x12)
  let left := dropCodes (fun c => decide (0x11 ≤ c) && decide (c ≤ 0x13)) r.codes
  let q : Nat × Timer × List Nat :=
    match st with
    | 0 => if door && !isOne ureq then (1, ms tLock, r.codes) else (0, t, r.codes)
    | 1 =>
      if t.isExp then fail 0x11
      else if !door then (0, .stopped, r.codes)
      else if locks then (2, .stopped, r.codes)
      else (1, t, r.codes)
    | 2 =>
      if !door || !locks then lost
      else if isOne ureq then (3, t, r.codes)
      else (2, t, r.codes)
    | 3 =>
      if !door || !locks then lost
      else if isZero ureq then (2, t, r.codes)
      else if still then (4, t, r.codes)
      else (3, t, r.codes)
    | 4 =>
      if !door then (0, t, r.codes)
      else if isZero ureq || !still then (1, ms tLock, r.codes)
      else (4, t, r.codes)
    | _ =>
      if isZero (inp i 0) then (0, t, left)
      else if isOne ureq && still then (4, t, left)
      else (5, t, r.codes)
  let unlock := decide (q.1 = 4)
  { r with st := q.1, t1 := q.2.1, codes := q.2.2,
           outs := [ptVal (q.1 = 2), ptVal (if principle = 1 then !unlock else unlock)] }

/-! ### TWOHAND (R121, R122) -/

/-- A contact timer: it starts in the first pass that finds its button undefined, and stops when the button is defined. -/
def contactStep (tContact : Nat) (undef was : Bool) (t : Timer) : Timer :=
  if !undef then .stopped else if !was then ms tContact else if t.isExp then .stopped else t

/-- TWOHAND: 0 RELEASED, 1 ONE, 2 ACTIVE, 3 WAIT_RELEASE. `ch0` and `ch1` say that a button was undefined in the pass
before. -/
def stepTwohand (tContact : Nat) (first : Bool) (i : List (Option Pt)) (r : BlockRt) : BlockRt :=
  let p1 := isOne (inp i 0) && isZero (inp i 1)
  let r1 := isZero (inp i 0) && isOne (inp i 1)
  let p2 := isOne (inp i 2) && isZero (inp i 3)
  let r2 := isZero (inp i 2) && isOne (inp i 3)
  let u1 := !p1 && !r1
  let u2 := !p2 && !r2
  let t2 := contactStep tContact u1 (r.ch0 && !first) r.t2
  let t3 := contactStep tContact u2 (r.ch1 && !first) r.t3
  let codes := if first && !(r1 && r2) && (p1 || p2) then addCode 0x2A r.codes else r.codes
  let st := if first then (if r1 && r2 then 0 else 3) else r.st
  let q : Nat × Timer × List Nat :=
    if r.t2.isExp || r.t3.isExp then (3, .stopped, addCode 0x29 codes)
    else
      match st with
      | 0 =>
        if p1 && p2 then (2, r.t1, codes)
        else if (p1 && r2) || (r1 && p2) then (1, ms 500, codes)
        else (0, r.t1, codes)
      | 1 =>
        if r.t1.isExp then (3, .stopped, addCode 0x28 codes)
        else if p1 && p2 then (2, .stopped, codes)
        else if r1 && r2 then (0, .stopped, codes)
        else (1, r.t1, codes)
      | 2 => if p1 && p2 then (2, r.t1, codes) else (3, r.t1, codes)
      | _ => if r1 && r2 then (0, r.t1, codes) else (3, r.t1, codes)
  let cs := if q.1 = 0 then dropCodes (fun c => decide (0x28 ≤ c) && decide (c ≤ 0x2A)) q.2.2 else q.2.2
  { r with st := q.1, t1 := q.2.1, t2 := t2, t3 := t3, codes := cs, ch0 := u1, ch1 := u2,
           outs := [ptVal (q.1 = 2)] }

/-! ### ENABLE, MODESEL (R123, R124) -/

/-- ENABLE: the machine of R109 and 6 PANIC. -/
def stepEnable (tDisc : Nat) (first : Bool) (i : List (Option Pt)) (r : BlockRt) : BlockRt :=
  let st := if first then 1 else r.st
  if declared i 2 && !isZero (inp i 2) then
    { r with st := 6, t1 := .stopped, codes := addCode 0x30 (dropCodes (· == 0x03) r.codes), outs := [ptVal false] }
  else if st = 6 then
    if isZero (inp i 0) && isZero (inp i 1) then
      { r with st := 1, codes := dropCodes (fun c => c == 0x30 || c == 0x02) r.codes, outs := [ptVal false] }
    else { r with st := 6, outs := [ptVal false] }
  else
    let q := dualStep tDisc st r.t1 r.codes (inp i 0) (inp i 1)
    { r with st := q.1, t1 := q.2.1, codes := q.2.2, outs := [ptVal (q.1 = 3)] }

/-- The selection k of MODESEL: input k valid 1 and all others valid 0. -/
def selection (ps : List Pt) : Option Nat :=
  if ps.all isValid then
    match (List.range ps.length).filter (fun k => isOne (ps.getD k 0#2)) with
    | [k] => some k
    | _ => none
  else none

/-- MODESEL: 0 CHANGING, 1 INVALID, 8 + k SELECTED(k). -/
def stepModesel (tSw : Nat) (first : Bool) (i : List (Option Pt)) (r : BlockRt) : BlockRt :=
  let ps := i.map fun o => o.getD 0#2
  let sel := selection ps
  let q : Nat × Timer × List Nat :=
    if first then (0, ms tSw, r.codes)
    else if r.st = 0 then
      if r.t1.isExp then (1, .stopped, addCode 0x38 r.codes)
      else
        match sel with
        | some k => (8 + k, .stopped, r.codes)
        | none => (0, r.t1, r.codes)
    else if r.st = 1 then
      match sel with
      | some k => (8 + k, r.t1, r.codes)
      | none => (1, r.t1, r.codes)
    else if sel = some (r.st - 8) then (r.st, r.t1, r.codes)
    else (0, ms tSw, r.codes)
  let cs := if 8 ≤ q.1 then dropCodes (· == 0x38) q.2.2 else q.2.2
  { r with st := q.1, t1 := q.2.1, codes := cs,
           outs := (List.range ps.length).map fun k => ptVal (q.1 = 8 + k) }

/-! ### STANDSTILL (R125, R126) -/

/-- STANDSTILL: `ch0` and `ch1` are STILL_0 and STILL_1, `latch` SENSOR_DISAGREE, `prevIn` which capture words have
changed since it latched. An expiry of timer 3 latches also in the pass that finds its condition over (R103); the timer starts when
exactly one STILL becomes true, and again where that outlasts the latch (DEDUCED, log entry 21). An expiry while SENSOR_DISAGREE is latched
latches it anew: changes of the capture words before it no longer count (DESIGN CHOICE, log entry 79). -/
def stepStandstill (tSs tSdis : Nat) (first : Bool) (i : List (Option Pt)) (c0 c1 : BitVec 16) (r : BlockRt) : BlockRt :=
  let ch0 := !first && decide (c0 ≠ r.w0)
  let ch1 := !first && decide (c1 ≠ r.w1)
  let s0 := !first && !ch0 && (r.ch0 || r.t1.isExp)
  let s1 := !first && !ch1 && (r.ch1 || r.t2.isExp)
  let t1 := if first || ch0 then ms tSs else if r.t1.isExp then .stopped else r.t1
  let t2 := if first || ch1 then ms tSs else if r.t2.isExp then .stopped else r.t2
  let one := s0 != s1
  let expired := r.t3.isExp
  let seen := if expired then 0#2
    else r.prevIn ||| (if ch0 then 1#2 else 0#2) ||| (if ch1 then 2#2 else 0#2)
  let latch := expired || (r.latch && !first && decide (seen ≠ 3#2))
  let t3 := if !one || expired then .stopped
    else if r.t3.isOn then r.t3
    else if latch && (r.ch0 != r.ch1) then .stopped else ms tSdis
  let st := if latch then 3 else if s0 && s1 then 2 else if one then 1 else 0
  { r with st := st, t1 := t1, t2 := t2, t3 := t3, w0 := c0, w1 := c1, ch0 := s0, ch1 := s1, latch := latch,
           prevIn := if latch then seen else 0#2,
           codes := if latch then addCode 0x40 r.codes else dropCodes (· == 0x40) r.codes,
           outs := [ptVal (s0 && s1 && isValid (inp i 0) && isValid (inp i 1) && !latch)] }

/-! ### RESTART, EDM (R127 to R129) -/

/-- RESTART: 0 UP, 1 SHORT, 2 HELD, 3 LONG, 4 BLOCKED; `c` is the edge. -/
def stepRestart (first : Bool) (i : List (Option Pt)) (r : BlockRt) : BlockRt :=
  let b := inp i 0
  let st := if first then (if isZero b then 0 else 4) else r.st
  let clear := dropCodes (fun c => c == 0x48 || c == 0x49) r.codes
  let r := { r with c := false, outs := [] }
  if !isValid b then { r with st := 4, t1 := .stopped, t2 := .stopped }
  else
    match st with
    | 0 => if isOne b then { r with st := 1, t1 := ms 50, t2 := ms 5000 } else { r with st := 0 }
    | 1 =>
      if r.t1.isExp then { r with st := 2, t1 := .stopped, codes := clear }
      else if isZero b then
        { r with st := 0, t1 := .stopped, t2 := .stopped, codes := addCode 0x48 r.codes }
      else { r with st := 1 }
    | 2 =>
      if r.t2.isExp then { r with st := 3, t2 := .stopped, codes := addCode 0x49 r.codes }
      else if isZero b then { r with st := 0, t2 := .stopped, c := true, codes := clear }
      else { r with st := 2 }
    | 3 => if isZero b then { r with st := 0 } else { r with st := 3 }
    | _ => if isZero b then { r with st := 0 } else { r with st := 4 }

/-- EDM: 0 OFF_OK, 1 ON_WAIT, 2 ON_OK, 3 OFF_WAIT, 4 FAIL, 5 FAIL_CLR; `com` is the command of the SAFEOUT it
monitors, as the previous pass left it (DEDUCED, log entry 19). -/
def stepEdm (tEdm : Nat) (first com : Bool) (i : List (Option Pt)) (r : BlockRt) : BlockRt :=
  let fbs := inp i 0 :: (if declared i 1 then [inp i 1] else [])
  let all1 := fbs.all isOne
  let all0 := fbs.all isZero
  let (st, t) : Nat × Timer := if first then (3, ms tEdm) else (r.st, r.t1)
  let q : Nat × Timer × List Nat :=
    match st with
    | 0 =>
      if !all1 then (4, t, addCode 0x51 r.codes)
      else if com then (1, ms tEdm, r.codes)
      else (0, t, r.codes)
    | 1 =>
      if t.isExp then (4, .stopped, addCode 0x50 r.codes)
      else if !com then (3, ms tEdm, r.codes)
      else if all0 then (2, .stopped, r.codes)
      else (1, t, r.codes)
    | 2 =>
      if !com then (3, ms tEdm, r.codes)
      else if !all0 then (4, t, addCode 0x50 r.codes)
      else (2, t, r.codes)
    | 3 =>
      if t.isExp then (4, .stopped, addCode 0x51 r.codes)
      else if com then (1, ms tEdm, r.codes)
      else if all1 then (0, .stopped, r.codes)
      else (3, t, r.codes)
    | 4 => if !com && all1 then (5, ms tEdm, r.codes) else (4, t, r.codes)
    | _ =>
      if t.isExp then (0, .stopped, dropCodes (fun c => c == 0x50 || c == 0x51) r.codes)
      else if com || !all1 then (4, .stopped, r.codes)
      else (5, t, r.codes)
  let good := !(q.1 = 4 || q.1 = 5)
  { r with st := q.1, t1 := q.2.1, codes := q.2.2, outs := [ptVal good, ptVal (good && (com || all1))] }

/-! ### Logic, timer blocks, SAFEOUT, COUPLE -/

/-- AND, OR, XOR and NOT (R106): f of the values where every input is valid. -/
def stepLogic (f : List Bool → Bool) (i : List (Option Pt)) (r : BlockRt) : BlockRt :=
  let ps := i.filterMap id
  { r with outs := [if ps.all isValid then ptVal (f (ps.map isOne)) else 0#2] }

/-- SR, reset-dominant (R107). -/
def stepSr (first : Bool) (i : List (Option Pt)) (r : BlockRt) : BlockRt :=
  let q := if first then 2#2 else r.outs.getD 0 2#2
  { r with outs := [if !isZero (inp i 1) then 2#2 else if isOne (inp i 0) then 3#2 else q] }

/-- TON (R132): `latch` says that the timer has expired since the rising edge. -/
def stepTon (t : Nat) (first : Bool) (i : List (Option Pt)) (r : BlockRt) : BlockRt :=
  let x := inp i 0
  let prev := if first then 2#2 else r.prevIn
  let r := { r with prevIn := x }
  if isOne x then
    if isZero prev then { r with t1 := .running t, latch := false, outs := [2#2] }
    else
      let on := r.latch || r.t1.isExp
      { r with t1 := if r.t1.isExp then .stopped else r.t1, latch := on, outs := [ptVal on] }
  else { r with t1 := .stopped, latch := false, outs := [if isZero x then 2#2 else 0#2] }

/-- TOFF (R132). -/
def stepToff (t : Nat) (first : Bool) (i : List (Option Pt)) (r : BlockRt) : BlockRt :=
  let x := inp i 0
  let prev := if first then 2#2 else r.prevIn
  let r := { r with prevIn := x }
  if isOne x then { r with t1 := .stopped, outs := [3#2] }
  else if isZero x then
    if isOne prev then { r with t1 := .running t, outs := [3#2] }
    else if r.t1.isExp then { r with t1 := .stopped, outs := [2#2] }
    else { r with outs := [ptVal r.t1.isOn] }
  else { r with t1 := .stopped, outs := [0#2] }

/-- PULSE (R132). -/
def stepPulse (t : Nat) (first : Bool) (i : List (Option Pt)) (r : BlockRt) : BlockRt :=
  let x := inp i 0
  let prev := if first then 2#2 else r.prevIn
  let r := { r with prevIn := x }
  if isOne x then
    if isZero prev then { r with t1 := .running t, outs := [3#2] }
    else if r.t1.isExp then { r with t1 := .stopped, outs := [2#2] }
    else { r with outs := [ptVal r.t1.isOn] }
  else { r with t1 := .stopped, outs := [if isZero x then 2#2 else 0#2] }

/-- SAFEOUT (R104, R131): `ch0` says that PERMIT and RUN are valid 1, `latch` that the function demands; its command
`c` follows after the zone's transitions. -/
def stepSafeout (i : List (Option Pt)) (r : BlockRt) : BlockRt :=
  let permit := isOne (inp i 0)
  let run := inpD 3#2 i 1
  { r with ch0 := permit && isOne run, latch := !permit || !isValid run, outs := [] }

/-- COUPLE (R133): `prevIn` is the value it writes at the end of the pass. -/
def stepCouple (i : List (Option Pt)) (r : BlockRt) : BlockRt := { r with prevIn := inp i 0, outs := [] }

/-! ### One step -/

/-- IN_VALID of R137: bit k is the qualifier of input k. -/
def inValidBits (i : List (Option Pt)) : Nat :=
  (List.range i.length).foldl (fun a k => a + flag (isValid (inp i k)) k) 0

/-- The highest diagnostic code that holds (R135). -/
def topCode (cs : List Nat) : Nat := cs.foldl max 0

/-- A block's own rule: `caps` are the capture words of the image, `com` the command EDM reads. -/
def stepKind (k : BlockKind) (first com : Bool) (caps : Nat → BitVec 16) (i : List (Option Pt)) (r : BlockRt) : BlockRt :=
  match k with
  | .and => stepLogic (fun vs => vs.all id) i r
  | .or => stepLogic (fun vs => vs.any id) i r
  | .xor => stepLogic (fun vs => vs.foldl xor false) i r
  | .not => stepLogic (fun vs => vs.all (fun v => !v)) i r
  | .sr => stepSr first i r
  | .estop d t => stepDual d t first (inp i 0) (inp i 1) r
  | .dualeq d t => stepDual d t first (inp i 0) (inp i 1) r
  | .dualant d t => stepDual d t first (inp i 0) (antivalent (inp i 1)) r
  | .curtain d t m sy mx ov dir => stepCurtain d t m sy mx ov dir first i r
  | .guard d t m c _ => stepGuardTimed d t m c first i r
  | .glock p t => stepGlock p t first i r
  | .twohand t => stepTwohand t first i r
  | .enable d => stepEnable d first i r
  | .modesel t => stepModesel t first i r
  | .standstill a b s d => stepStandstill s d first i (caps a) (caps b) r
  | .restart => stepRestart first i r
  | .edm _ t => stepEdm t first com i r
  | .safeout _ _ _ _ => stepSafeout i r
  | .ton t => stepTon t first i r
  | .toff t => stepToff t first i r
  | .pulse t => stepPulse t first i r
  | .couple _ => stepCouple i r
  | .unlisted _ => r

/-- One step of a block (R99, R101, R135): in the first pass it takes its initial state; INPUT_INVALID holds while a
declared input is not valid. DIAG_CNT counts changes of DIAG (DEDUCED, log entry 19). -/
def stepBlock (k : BlockKind) (first com : Bool) (caps : Nat → BitVec 16) (i : List (Option Pt)) (r : BlockRt) : BlockRt :=
  let r0 := if first then r.initial else r
  let q := stepKind k first com caps i r0
  let bad := i.any fun o => match o with | some p => !isValid p | none => false
  let codes := if bad then addCode 0x01 q.codes else dropCodes (· == 0x01) q.codes
  let d := topCode codes
  { q with codes := codes, diag := d, inValid := inValidBits i,
           diagCnt := if d = r.diag then q.diagCnt else satInc q.diagCnt 255
           evCnt := if d = r.diag then q.evCnt else satInc q.evCnt 255 }

/-- The command an EDM reads: that of the SAFEOUT its MON names, 0 in the first pass. -/
def monCommand (k : BlockKind) (first : Bool) (rts : List BlockRt) : Bool :=
  match k with
  | .edm mon _ => !first && ((rts[mon]?).map (fun r => r.c)).getD false
  | _ => false

/-- The blocks of a zone stepped in order from index n (R71, R100). -/
def stepBlocks (img : Nat → Pt) (caps : Nat → BitVec 16) (first : Bool) :
    List Block → Nat → List BlockRt → List BlockRt
  | [], _, rts => rts
  | b :: bs, n, rts =>
    let r := rts.getD n {}
    let q := stepBlock b.kind first (monCommand b.kind first rts) caps (readIns img rts b) r
    stepBlocks img caps first bs (n + 1) (rts.set n q)

/-- Lane B's step of a zone: the dual of lane A's, which takes and gives every point, capture word and block state in negative encoding
(R18). -/
def stepBlocksNeg (img : Nat → Pt) (caps : Nat → BitVec 16) (first : Bool) (bs : List Block) (rts : List BlockRt) : List BlockRt :=
  (stepBlocks (fun a => ~~~(img a)) (fun c => ~~~(caps c)) first bs 0 (rts.map BlockRt.neg)).map BlockRt.neg

end Sys2Proof.Machine
end

