-- ==== Sys2Proof/Machine/Pass.lean ====
section
/-!
DEFINITION. Passes (R45, R51, R52, R56, R58, R62, R66 to R84, R103, R104, R131, R138, R173, R402): release marks, starts,
evaluation in both lanes, the comparators, results, watches, injections.
-/
namespace Sys2Proof.Machine
open Sys2Proof

/-! ### Evaluation -/

/-- The frozen input image of a pair as each lane reads it, lane B's in negative encoding (R18, R45, R70). -/
def State.imageA (s : State) (p a : Nat) : Pt := if s.hasPt a then tabGet ptInitA (s.pair p).liveA a else 0#2
def State.imageB (s : State) (p a : Nat) : Pt := if s.hasPt a then tabGet ptInitB (s.pair p).liveB a else 3#2
def State.imageCap (s : State) (p c : Nat) : BitVec 16 := tabGet 0#16 (s.pair p).liveCaps c

/-- The run-time state of n blocks as a lane holds it, one not there yet at `r0`; in the first pass no signal is valid yet (R99). -/
def padRt (r0 : BlockRt) (first : Bool) (n : Nat) (rts : List BlockRt) : List BlockRt :=
  (List.range n).map fun i =>
    let r := rts.getD i r0
    if first then { r with outs := [] } else r

/-- A version stepped by one lane (R71). -/
def State.evalA (s : State) (p : Nat) (v : ZoneVer) : List BlockRt :=
  stepBlocks (s.imageA p) (s.imageCap p) v.first v.sec.blocks 0 (padRt {} v.first v.sec.blocks.length v.rt)

/-- Lane B's step, in negative encoding throughout (R18); it complements a capture word as the word enters. -/
def State.evalB (s : State) (p : Nat) (v : ZoneVer) : List BlockRt :=
  stepBlocksNeg (s.imageB p) (fun c => ~~~(s.imageCap p c)) v.first v.sec.blocks
    (padRt (BlockRt.neg {}) v.first v.sec.blocks.length v.rtB)

/-- A zone is stepped: its ACTIVE version is ARMED, RUNNING or DEMANDED. -/
def ZoneSt.steps (st : ZoneSt) : Bool :=
  match st with
  | .armed | .running | .demanded => true
  | _ => false

/-- The zones as the target of a coupled pass runs them (R173); any other pass has none. -/
def State.copiesOf (s : State) (p : Nat) (coupled : Bool) : List Copy :=
  match s.op with
  | some op => if coupled && decide (p = op.tgt) then op.copies else []
  | none => []

/-- Lane B reads an input of a version otherwise than lane A: what a lane rejected or never received shows at the next pass that reads the
point, whatever the blocks make of it (R22, R69). -/
def State.inputsDiffer (s : State) (p : Nat) (v : ZoneVer) : Bool :=
  v.reads.any fun a => decide (s.imageB p a ≠ ~~~(s.imageA p a))

/-- The two lanes disagree over the step of a version: over what it reads, or over what its blocks hold after it (R62, R69, R78). -/
def State.lanesDiffer (s : State) (p : Nat) (v : ZoneVer) : Bool :=
  s.inputsDiffer p v || decide ((s.evalA p v).map BlockRt.neg ≠ s.evalB p v)

/-- The zones a pass of a pair steps, with the versions: its own in rising zone number, then for the target of a coupled pass the copies
(R173) (DESIGN CHOICE, log entry 69: R71 and R78 fix the order within a section, none fixes the order of the zones of a pair). -/
def State.stepped (s : State) (p : Nat) (coupled : Bool) : List (Nat × ZoneVer) :=
  ((s.zonesOn p).filterMap fun z =>
    let y := s.zone z
    if y.st.steps then y.active.map fun v => (z, v) else none) ++
  (s.copiesOf p coupled).filterMap fun c =>
    if c.st.steps then (s.zone c.zone).active.map fun v => (c.zone, { v with rt := c.rt, rtB := c.rtB, first := c.first }) else none

/-! ### Signatures (R78) -/

def Timer.nums : Timer → List Nat
  | .stopped => [0, 0]
  | .running u => [1, u]
  | .late u => [1, u]
  | .expired u => [2, u]

/-- The contents of a block that its steps write. -/
def BlockRt.nums (r : BlockRt) : List Nat :=
  [r.st, r.sub] ++ r.t1.nums ++ r.t2.nums ++ r.t3.nums ++ r.outs.map (fun p => p.toNat) ++
  [r.prevIn.toNat, r.w0.toNat, r.w1.toNat, flag r.ch0 0, flag r.ch1 0, flag r.latch 0, flag r.c 0] ++ r.codes

/-- The words folded by the steps of a zone: per slot its index, then what the step writes (DESIGN CHOICE, log entry 9). -/
def foldWords (z : Nat) (bs : List Block) (rts : List BlockRt) : List Word :=
  (List.range bs.length).flatMap fun n =>
    match bs[n]? with
    | some b => (List.range (kindSlots b.kind)).flatMap fun j =>
        word (Config.slotAt z n j) :: Config.stepWords (j :: (rts.getD n {}).nums)
    | none => []

/-- DESIGN CHOICE, log entry 9. -/
def sigA (num : Word) (ws : List Word) : Word := ws.foldl crc32cWord num
def sigB (num : Word) (ws : List Word) : Word := ws.foldl (fun s w => crc32cWord s (~~~w) ^^^ kFix) (~~~num)

/-! ### Demand and zone transitions (R51, R52, R104) -/

/-- A function demands: a SAFEOUT of it has PERMIT not valid 1 or RUN invalid. -/
def fnDemands (rts : List BlockRt) (f : FnDecl) : Bool := f.outs.any fun o => (rts.getD o {}).latch

def ZoneVer.demands (v : ZoneVer) (rts : List BlockRt) : Bool := v.sec.fns.any (fnDemands rts)

/-- A RESTART block gives an edge. -/
def ZoneVer.edge (v : ZoneVer) (rts : List BlockRt) : Bool :=
  (List.range v.sec.blocks.length).any fun n =>
    match v.sec.blocks[n]? with
    | some b => b.kind == .restart && (rts.getD n {}).c
    | none => false

/-- The state after a pass: `cat1` says that a category 1 delay runs, `hold` that a commit or a withdrawal keeps the zone from
starting. -/
def nextSt (st : ZoneSt) (auto demand edge cat1 hold : Bool) : ZoneSt :=
  match st with
  | .armed => if !demand && !hold && (auto || edge) then .running else .armed
  | .running => if demand then .demanded else .running
  | .demanded =>
    if demand || cat1 then .demanded
    else if auto then (if hold then .demanded else .running)
    else .armed
  | st => st

/-! ### Results (R56 to R58, R73, R131) -/

/-- The output stage acts on a command (R56, R57, R131): a rise commands the output on; a fall on a demand of the zone or a withdrawal
starts the delay of a category 1 output; any other fall commands it off. A produced point is posted with the pass. That the demand of
another function of the zone counts too follows R51, by which each SAFEOUT stops in its category (DEDUCED, log entry 69). -/
def State.driveOut (s : State) (t : Target) (category delay : Nat) (was on demand withdraw cut : Bool) : State :=
  if was && !on then
    if category = 1 && decide (0 < delay) && (demand || withdraw) && !cut then
      { s with cat1 := tabSet (false, false) s.cat1 (targetKey t) (true, true) }
    else
      match t with
      | .chan _ => (s.commandLane .a t false).commandLane .b t false
      | .point a => (s.owe .a a).owe .b a
  else if on && !was then
    match t with
    | .chan _ => (s.commandLane .a t true).commandLane .b t true
    | .point _ => s
  else s

/-- The commands C of a version at the end of a pass (R131) (DEDUCED, log entry 32). -/
def State.commands (s : State) (v : ZoneVer) (rts : List BlockRt) (run : Bool) : List BlockRt :=
  (List.range rts.length).map fun n =>
    let r := rts.getD n {}
    match (v.sec.blocks[n]?).map fun b => b.kind with
    | some (BlockKind.safeout t _ _ _) => { r with c := run && r.ch0 && !s.cat1On t }
    | _ => r

/-- A zone takes the results of its pass: state, demand, commands, diagnostics. -/
def State.applyZone (s : State) (z : Nat) (v : ZoneVer) (rts : List BlockRt) : State :=
  let y := s.zone z
  let demand := v.demands rts
  let withdraw := y.wd.isSome
  let cut := match y.wd with
    | some w => w.dropped
    | none => false
  let st := nextSt y.st v.sec.auto demand (v.edge rts) (s.cat1Zone z) (y.holdRestart || withdraw)
  let cmds := s.commands v rts (decide (st = .running) && !withdraw)
  let (s, cmds) := s.diagEvents z v cmds
  let s := (List.range cmds.length).foldl (fun t n =>
    match (v.sec.blocks[n]?).map fun b => b.kind with
    | some (BlockKind.safeout g cat dl _) =>
      t.driveOut g cat dl (!v.first && (v.rt.getD n {}).c) (cmds.getD n {}).c demand withdraw cut
    | _ => t) s
  let s := s.updZone z fun y => { y with
    demand := demand, active := y.active.map fun u => { u.setRt cmds with first := false } }
  (s.setZoneSt z st).lateEvents z

/-- The points a zone posts at a pass end, in the encoding of the lane (R18, R58, R73, R133): a produced point is 1 while its command or
a delay of the lane holds (DEDUCED, log entry 32). -/
def State.posts (s : State) (z : Nat) (l : Lane) : List (Nat × Pt) :=
  match (s.zone z).active with
  | none => []
  | some v =>
    (List.range v.rt.length).filterMap fun n =>
      match (v.sec.blocks[n]?).map fun b => b.kind with
      | some (BlockKind.couple a) => some (a, match l with
          | .a => (v.rt.getD n {}).prevIn
          | .b => (v.rtB.getD n {}).prevIn)
      | some (BlockKind.safeout (.point a) _ _ _) =>
        let f := tabGet (false, false) s.cat1 (targetKey (.point a))
        some (a, match l with
          | .a => ptVal ((v.rt.getD n {}).c || f.1)
          | .b => ~~~(ptVal (!(v.rtB.getD n {}).c || f.2)))
      | _ => none

/-! ### Coupled passes (R173, R174) -/

/-- The hash of a zone's state words as a lane holds them (R174) (DESIGN CHOICE, log entry 9: the words of a block). -/
def stateHash (rts : List BlockRt) : Word := (rts.flatMap fun r => Config.stepWords r.nums).foldl crc32cWord 0xFFFFFFFF#32

/-- What a steward compares of a zone, in the encoding of its lane. -/
def State.viewOf (s : State) (z : Nat) (l : Lane) : CopyView :=
  let (bs, rts) := match (s.zone z).active with
    | some v => (v.sec.blocks, match l with | .a => v.rt | .b => v.rtB)
    | none => ([], [])
  { zone := z, posts := s.posts z l, hash := stateHash rts
    cmds := (List.range bs.length).filterMap fun n =>
      match (bs[n]?).map fun b => b.kind with
      | some (BlockKind.safeout _ _ _ _) => some (rts.getD n {}).c
      | _ => none }

/-- The block as the target of a migration sees it: the zone in the state its copy holds. -/
def State.asCopy (s : State) (c : Copy) : State :=
  s.updZone c.zone fun y => { y with
    st := c.st, active := y.active.map fun v => { v with rt := c.rt, rtB := c.rtB, first := c.first } }

/-- The target of a coupled pass takes its results into its copies alone (R173): what it would drive or post is only looked at. Answers
the copies and what each lane sees. -/
def State.passCopies (s : State) (cs : List Copy) (res : List (Nat × ZoneVer × List BlockRt)) :
    List Copy × List CopyView × List CopyView :=
  let one (c : Copy) : Copy × CopyView × CopyView :=
    let u := match res.find? fun e => decide (e.1 = c.zone) with
      | some e => (s.asCopy c).applyZone c.zone e.2.1 e.2.2
      | none => s.asCopy c
    ((u.copyOf c.zone).getD c, u.viewOf c.zone .a, u.viewOf c.zone .b)
  let xs := cs.map one
  (xs.map (·.1), xs.map (·.2.1), xs.map (·.2.2))

/-- A zone that ZONE_RESTART returns to ARMED at this pass end (R51, R102) (DEDUCED, log entry 60). -/
def State.rearm (s : State) (z : Nat) : State :=
  let y := s.zone z
  if y.restartReq && decide (y.st = .faulted) && !s.blocked z && y.wd.isNone then
    let s := s.updZone z fun y => { y with
      restartReq := false, restartO := [], demand := false, faultPair := 0x3F
      active := y.active.map fun v => { v with first := true } }
    let s := s.setZoneSt z .armed
    y.restartO.foldl (fun t o => t.complete o 0x14 stSuccess ZoneSt.armed.code) s
  else s

/-! ### The comparators (R62, R76, R77, R79, R81 to R83) -/

/-- A cause of a pass: the lanes that latch, the lanes that record it, its code and detail. -/
structure Cause where
  a : Bool
  b : Bool
  la : Bool
  lb : Bool
  code : BitVec 16
  detail : Nat
  deriving DecidableEq, Repr

def causeIf (c : Bool) (x : Cause) : List Cause := if c then [x] else []

/-- The code a comparator shows next where every bit pair is complementary. -/
def flipCode (c : BitVec 2) : BitVec 2 := if c = 1#2 then 2#2 else 1#2

/-- What a code shown in a real cycle says, in one lane (DEDUCED, log entry 31). -/
def codeCause (l : Lane) (shown : Option (BitVec 2)) (prev : BitVec 2) : List Cause :=
  let a := decide (l = .a)
  match shown with
  | none => []
  | some c =>
    if c = flipCode prev then []
    else if c = prev then [{ a := a, b := !a, la := a, lb := !a, code := 0x1002#16, detail := 0 }]
    else [{ a := a, b := !a, la := a, lb := !a, code := 0x1001#16, detail := 0 }]

/-- The words that lane A pushes into the delay stage in a pass, 64 bits wide each: the start word, then one word for each slot stepped
(R75) (DESIGN CHOICE, log entry 77: the manual gives no layout). -/
def delayWords (r : Running) (zs : List (Nat × ZoneVer)) : List Nat :=
  (r.num.toNat + fld r.mark.toNat 32 32) :: zs.flatMap fun e => (List.range e.2.sec.blocks.length).flatMap fun n =>
    match e.2.sec.blocks[n]? with
    | some b => (List.range (kindSlots b.kind)).map fun j => Config.slotAt e.1 n j % 2 ^ 64
    | none => []

/-- What comes about at a pass end, with the number of delay stage words that fail their parity at the output of the queue (R76, R376). -/
def takenWords (info : PassInfo) (words : List Nat) : PassInfo :=
  { info with poison := (words.zipIdx.filter fun w => wordFails 64 w.1 (info.poison.testBit w.2)).length }

/-- The causes a pass end finds. A forced disagreement is recorded under its own code, by the lane that forced it; that it latches the
bits of both lanes in this one command is DESIGN CHOICE (log entry 69: the manual has the lane force it into its own comparator input, and
the two comparators exchange that input). An injection is skipped in a pass that has recorded one. -/
def passCauses (q : Pair) (info : PassInfo) (differ : Bool) : List Cause :=
  let forced :=
    causeIf (info.parityA || info.parityB)
      { a := true, b := true, la := info.parityA, lb := info.parityB, code := 0x1005#16, detail := 0 } ++
    causeIf (decide (0 < info.poison)) { a := true, b := true, la := false, lb := true, code := 0x1004#16, detail := 0 } ++
    causeIf q.timerLost { a := true, b := true, la := false, lb := true, code := 0x1006#16, detail := 0 }
  let inj := if forced.isEmpty then
      causeIf (q.injDue && info.injHideA) { a := true, b := false, la := true, lb := false, code := 0x1003#16, detail := q.injPos } ++
      causeIf (q.injDueB && info.injHideB)
        { a := false, b := true, la := false, lb := true, code := 0x1003#16, detail := q.injPosB }
    else []
  let real := if !forced.isEmpty then []
    else if differ then [{ a := true, b := true, la := true, lb := true, code := 0x1001#16, detail := 0 }]
    else codeCause .a info.codeA q.codeA ++ codeCause .b info.codeB q.codeB
  forced ++ inj ++ real

/-- A cause latches its bits and records its fault under the number of the pass (DEDUCED, log entry 31). -/
def State.passFault (s : State) (p num : Nat) (x : Cause) : State :=
  let zs := s.faultZonesOn p
  let s := if x.a then s.latchBit .a p else s
  let s := if x.b then s.latchBit .b p else s
  s.raise x.code (BitVec.ofNat 12 p) x.la x.lb x.detail num zs

/-- A disagreement forced into the comparators' inputs (R62, R76, R77). -/
def passForced (q : Pair) (info : PassInfo) : Bool := info.parityA || info.parityB || decide (0 < info.poison) || q.timerLost

/-- The scheduled injections have run: each position steps, the polarity alternates at each return to 0; one of lane A that has shown
its mismatch counts (R81, R82, R93). -/
def Pair.inject (q : Pair) (shown : Bool) : Pair :=
  let q := if q.injDue then
      { q with injDue := false, injOk := if shown then q.injOk + 1#16 else q.injOk
               injPos := if q.injPos = 287 then 0 else q.injPos + 1
               injPol := if q.injPos = 287 then !q.injPol else q.injPol }
    else q
  if q.injDueB then
    { q with injDueB := false, injPosB := if q.injPosB = 287 then 0 else q.injPosB + 1,
             injPolB := if q.injPosB = 287 then !q.injPolB else q.injPolB }
  else q

/-- A code outside 0b01 and 0b10, which of the two is open (DESIGN CHOICE, log entry 6; DEDUCED, log entry 31). -/
def State.badCode (s : State) : BitVec 2 × State :=
  let (n, s) := s.draw
  (if (Config.freeMeasure n).getLsbD 0 then 3#2 else 0#2, s)

/-! ### Halt at a pass end (R466, R467) -/

/-- A pair halts: its zones go FAULTED with PAIR_HALTED, their points invalid. -/
def State.haltNow (s : State) (p : Nat) : State :=
  let q := s.pair p
  let zs := s.faultZonesOn p
  let num := q.passNow
  let back := if q.role = .testing then .free else q.role
  let s := s.updPair p fun q => { q with role := .halted, before := back, haltBit := true, run := none, trig := false, injDue := false, injDueB := false }
  let s := { (s.dropPairPts .a p).dropPairPts .b p with gc := { s.gc with roles := true } }
  if back = .carrying then s.raise 0x1008#16 (BitVec.ofNat 12 p) true true 0 num zs else s

/-! ### Pass end -/

/-- The words of a pass go through the delay stage, good or not: its greatest fill, and the words that failed parity (R76, R92). -/
def Pair.delayed (q : Pair) (poison : Nat) (res : List (Nat × ZoneVer × List BlockRt)) : Pair :=
  let m := (res.map fun e => e.2.1.slots).sum
  { q with fillMax := max q.fillMax (max 1 (min q.shift m)), poisonCnt := satAdd q.poisonCnt poison 255 }

/-- The registers of a pass that lane A's comparator has shown a valid toggle for (R88 to R90). -/
def Pair.passed (q : Pair) (r : Running) (res : List (Nat × ZoneVer × List BlockRt)) (t : Nat) : Pair :=
  let ws := res.flatMap fun e => foldWords e.1 e.2.1.sec.blocks e.2.2
  { q with lastPass := r.num, sigA := Machine.sigA r.num ws, sigB := Machine.sigB r.num ws,
           lastTime := t, maxTime := max q.maxTime t }

/-- The pair at the end of a pass that shows a cause (R79, R81, R83, R88): a comparator whose input disagreed shows the code `c`, any other
the code it shows of its own, or its toggle; the registers follow lane A's; scheduled injections have run, except beside a forced
disagreement (DEDUCED, log entry 31). -/
def Pair.failed (q : Pair) (r : Running) (info : PassInfo) (res : List (Nat × ZoneVer × List BlockRt)) (differ : Bool) (c : BitVec 2)
    (t : Nat) : Pair :=
  let bad := differ || passForced q info
  let okA := !bad && (codeCause .a info.codeA q.codeA).isEmpty
  let u := { q.delayed info.poison res with
    run := none, timerLost := false
    codeA := if bad then c else info.codeA.getD (flipCode q.codeA), codeB := if bad then c else info.codeB.getD (flipCode q.codeB) }
  let u := if okA then u.passed r res t else u
  if passForced q info then u else u.inject (!info.injHideA)

/-- A pass has ended with a valid toggle in both lanes. -/
def State.passGood (s : State) (p : Nat) (r : Running) (info : PassInfo) (res : List (Nat × ZoneVer × List BlockRt)) : State :=
  let q := s.pair p
  let s := s.updPair p fun q => { ((q.delayed 0 res).inject true).passed r res (min 65535 (s.since r.start)) with
    run := none, codeA := flipCode q.codeA, codeB := flipCode q.codeB }
  let mine := res.filter fun e => (s.zonesOn p).contains e.1
  let back := s.zonesOn p
  let s := if q.role = .carrying || q.role = .loading then
      let s := mine.foldl (fun t e => t.applyZone e.1 e.2.1 e.2.2) s
      let pa := mine.flatMap fun e => s.posts e.1 .a
      let pb := mine.flatMap fun e => s.posts e.1 .b
      let s := if pa.isEmpty then s else { s with trans := s.trans ++ [{
        body := .posted p r.num pa pb, repA := true, repB := true, okA := true, okB := true, since := s.now }] }
      back.foldl State.rearm s
    else s
  let (cs, va, vb) := s.passCopies (s.copiesOf p r.coupled) res
  let s := if cs.isEmpty then s else s.updCopies fun _ => cs
  let moved := if r.coupled && cs.isEmpty then (match s.op with
    | some op => op.kind.copies
    | none => []) else []
  let s := s.opPass p r.coupled info.migMismatch (va ++ moved.map (s.viewOf · .a)) (vb ++ moved.map (s.viewOf · .b))
  if (s.pair p).haltBit && (s.pair p).role != .halted then s.haltNow p else s

/-- The events a pass of a slice shows that the slice has not injected, and the injections that do not show (R339): a parity error, a
poisoned word beside the one the slice sends, a comparator code that is no toggle, or none where one was to come. -/
def sliceCauses (q : Pair) (info : PassInfo) (poisoned : Bool) : List Cause :=
  let lane (l : Lane) (code : BitVec 16) (detail : Nat) : Cause :=
    { a := false, b := false, la := decide (l = .a), lb := decide (l = .b), code := code, detail := detail }
  causeIf info.parityA (lane .a 0x1005#16 0) ++ causeIf info.parityB (lane .b 0x1005#16 0) ++
  causeIf (info.poison &&& (info.poison - 1) ≠ 0 || (poisoned && info.poison ≠ 0)) (lane .b 0x1004#16 0) ++
  causeIf info.injHideA (lane .a 0x1003#16 q.injPos) ++ causeIf info.injHideB (lane .b 0x1003#16 q.injPosB) ++
  codeCause .a info.codeA q.codeA ++ codeCause .b info.codeB q.codeB

/-- The block of a lane that an event shows to have failed, as an entry of R334; ACTION is that of a pair marked UNUSABLE (R341). -/
def Cause.entry (x : Cause) (p : Nat) : BistEntry :=
  { pair := BitVec.ofNat 6 p, lane := if x.la then .a else .b
    mem := if x.code = 0x1005#16 then 0#3 else if x.code = 0x1004#16 then 4#3 else 5#3
    row := 0xFFFF#16, bit := 0xFF#8, action := 1#2 }

/-- A pass of a slice ends: its events go to the slice, which fails of one it does not expect, the pair UNUSABLE with a record and an entry
of what failed (R318, R339, R341) (DEDUCED, log entry 27); else both comparators toggle (R79). -/
def State.slicePass (s : State) (p : Nat) (info : PassInfo) : State :=
  match s.bist.slice with
  | some (q, _) =>
    if q ≠ p then s
    else
      let cs := sliceCauses (s.pair p) info s.bist.slicePoison
      if cs.isEmpty then
        { s.updPair p fun q => { q with codeA := flipCode q.codeA, codeB := flipCode q.codeB } with
          bist := { s.bist with slicePoison := s.bist.slicePoison || decide (info.poison ≠ 0) } }
      else
        let n := (s.pair p).passNow
        let s := { s.updPair p fun q => { q with role := .unusable } with
          bist := { s.bist with sliceRows := s.bist.sliceRows ++ cs.map fun (x : Cause) => x.entry p } }
        (cs.foldl (fun (t : State) x => t.raise x.code (BitVec.ofNat 12 p) x.la x.lb x.detail n []) s).settle
  | none => s

/-- The end of a pass of a pair (R71, R79), which is the commit point of a commit whose conditions hold by now (R181). -/
def execPassEnd (p : Fin 36) (info : PassInfo) (s : State) : Host.Outcome State Fault Refusal :=
  let q := s.pair p
  match q.run with
  | none => ok (s.slicePass p info)
  | some r =>
    let s := s.armDue
    let zs := s.stepped p r.coupled
    let info := takenWords info (delayWords r zs)
    let res := zs.map fun e => (e.1, e.2, s.evalA p e.2)
    let differ := zs.any fun e => s.lanesDiffer p e.2
    let causes := passCauses q info differ
    if causes.isEmpty then ok (s.passGood p r info res).settle
    else
      let (c, s) := s.badCode
      let s := s.updPair p fun q => q.failed r info res differ c (min 65535 (s.since r.start))
      ok (causes.foldl (fun t x => t.passFault p r.num.toNat x) s).settle

/-! ### Release marks (R69, R70) -/

/-- The lane dies run: out of reset, not OFF or Dormant, steward A not halted. -/
def State.lanesRun (s : State) : Bool :=
  !s.pm.inReset && !s.db.broken && match s.pm.dstate with
    | .off | .dormant => false
    | _ => true

/-- A mark names a transaction: both lanes have reported it, or 4 µs have passed (DESIGN CHOICE, log entry 59). -/
def State.names (s : State) (t : Trans) : Bool := (t.repA && t.repB) || decide (400 ≤ s.since t.since)

/-- Withdrawals and a waiting commit see which outputs a sample shows off (R180, R185). -/
def State.seeOff (s : State) (num : Word) (pts : List (Nat × Pt)) (cmdOff : List Nat) : State :=
  let later (n0 : Word) : Bool := let d := (num - n0).toNat; decide (1 ≤ d) && decide (d ≤ 2 ^ 31 - 1)
  let s := s.zones.foldl (fun t e =>
    match e.2.active, e.2.wd with
    | some v, some w =>
      if later w.sample0 then
        t.updZone e.1 fun y => { y with wd := some { w with confirmed := w.confirmed ++ offShown v.targets pts cmdOff } }
      else t
    | _, _ => t) s
  match s.op with
  | some op =>
    match op.kind with
    | .commit z rb _ =>
      let ts := (match (s.zone z).active with | some v => v.targets | none => []) ++
        (match s.commitVer z rb with | some v => v.targets | none => [])
      if op.stage = 6 && later op.sample0 then
        { s with op := some { op with confirmed := op.confirmed ++ offShown ts pts cmdOff } }
      else s
    | _ => s
  | none => s

/-- One named transaction applied in each lane that accepted it (R69) (DESIGN CHOICE, log entry 59). -/
def State.applyTrans (s : State) (t : Trans) : State :=
  match t.body with
  | .frame k _ ts n xs ys => s.nameFrame k ts n xs ys t.okA t.okB
  | .sample n pts ptsB caps off =>
    let s := pts.foldl (fun u e => u.putPt .a e.1 e.2) s
    let s := ptsB.foldl (fun u e => u.putPt .b e.1 e.2) s
    let s := { s with caps := (List.range caps.length).foldl (fun c i => tabSet 0#16 c i (caps.getD i 0#16)) s.caps }
    s.seeOff n pts off
  | .posted _ _ xs ys =>
    let s := xs.foldl (fun u e => u.putPt .a e.1 e.2) s
    ys.foldl (fun u e => u.putPt .b e.1 e.2) s

/-- The mark changed a point in either lane. -/
def State.changed (s : State) (a : Nat) : Bool :=
  decide (tabGet ptInitA s.ptsA a ≠ tabGet ptInitA s.imgA a) || decide (tabGet ptInitB s.ptsB a ≠ tabGet ptInitB s.imgB a)

/-- A lane watches a pair whose passes run; where the other lane has latched its stop bit, it still latches its own on what it detects
itself (R80, R513). -/
def Pair.watchedBy (q : Pair) (l : Lane) : Bool :=
  !q.stop l && (q.role == .loading || q.role == .carrying || q.role == .free ||
    (q.stop (otherLane l) && (q.role == .stopped || q.role == .unusable)))

/-- A pair whose passes each lane watches and injects (R80, R81); a halt that waits for the pass end changes nothing yet (R467). -/
def Pair.watched (q : Pair) : Bool :=
  (q.role == .loading || q.role == .carrying || q.role == .free) && !q.stopA && !q.stopB

/-- A pass may start on a pair (R66). -/
def Pair.mayPass (q : Pair) : Bool := q.watched && !q.haltBit

/-- A timer that expired while a pass did not see it is seen by the next one (R103) (DEDUCED, log entry 60). -/
def Timer.due : Timer → Timer
  | .late u => .expired u
  | t => t

def BlockRt.due (r : BlockRt) : BlockRt := { r with t1 := r.t1.due, t2 := r.t2.due, t3 := r.t3.due }

/-- The pass-start word carries the expiries to lane B (R77). -/
def ZoneVer.due (v : ZoneVer) : ZoneVer := { v with rt := v.rt.map BlockRt.due, rtB := v.rtB.map BlockRt.due }
def Copy.due (c : Copy) : Copy := { c with rt := c.rt.map BlockRt.due, rtB := c.rtB.map BlockRt.due }

/-- A pass starts on a pair at this mark (R68, R70, R71). -/
def State.startPass (s : State) (p : Nat) (coupled : Bool) : State :=
  let s := (s.zonesOn p).foldl (fun t z => t.updZone z fun y => { y with active := y.active.map ZoneVer.due }) s
  let s := if (s.copiesOf p coupled).isEmpty then s else s.updCopies fun cs => cs.map Copy.due
  s.updPair p fun q => { q with
    liveA := s.ptsA, liveB := s.ptsB, liveCaps := s.caps, trig := false, nextPass := q.nextPass + 1#32
    timerLost := q.timerLost || q.timerLate, timerLate := false
    run := some { num := q.nextPass, mark := s.markNum, start := s.now, coupled := coupled } }

/-- The pairs whose passes are coupled (R173). -/
def State.coupledPairs (s : State) : Option (Nat × Nat) :=
  match s.op with
  | some op => if (op.stage = 3 || op.stage = 4) && op.kind.moves && !op.kind.readmit then some (op.kind.src, op.tgt) else none
  | none => none

/-- Passes start on every pair with a trigger and no pass running; a trigger of one of two coupled pairs starts both. -/
def State.startPasses (s : State) : State :=
  let cp := s.coupledPairs
  let inCp (p : Nat) : Bool := match cp with
    | some (a, b) => decide (p = a) || decide (p = b)
    | none => false
  let go (t : State) (p : Nat) : State :=
    let q := t.pair p
    if q.mayPass && q.trig && q.run.isNone && !inCp p then t.startPass p false else t
  let s := (List.range 36).foldl go s
  match cp with
  | some (a, b) =>
    let x := s.pair a
    let y := s.pair b
    if x.mayPass && y.mayPass && x.run.isNone && y.run.isNone && (x.trig || y.trig) then
      (s.startPass a true).startPass b true
    else s
  | none => s

/-- Input changes trigger the pairs that read them (R66). -/
def State.triggerReaders (s : State) : State :=
  (List.range 36).foldl (fun t p =>
    if (t.pair p).mayPass && (t.fullOn p).any (fun v => v.reads.any s.changed) then t.trigger p else t) s

/-- A Contact Sheet (R402). -/
def State.sheetWords (s : State) (first count : Nat) : List Word :=
  (List.range (count / 16)).map fun i =>
    word ((List.range 16).foldl (fun w k => w + (s.ptA (first + 16 * i + k)).toNat * 4 ^ k) 0)

/-- A mark takes the Contact Sheet that waits, one at a time; its SNAPSHOT then moves it into its buffer (R402). -/
def State.takeSheet (s : State) : State :=
  match s.snap.waiting with
  | [] => s
  | (o, first, count) :: r =>
    if s.sheetBusy then s
    else
      let s := { s with snap := { waiting := r, sheet := some (s.now, s.markNum, first, s.sheetWords first count) } }
      s.updTaken o 0x32 fun t => { t with move := t.move.map fun m => { m with ready := true } }

/-- A release mark (R69): the named transactions apply, passes start on the triggers registered before it, what the mark has changed
triggers the passes of the next one, frames are built (DESIGN CHOICE, log entry 59). -/
def execReleaseMark (s : State) : Host.Outcome State Fault Refusal :=
  if !s.lanesRun then ok s
  else
    let s := { s with markNum := s.markNum + 1#32 }
    let due := s.trans.filter s.names
    let s := { s with trans := s.trans.filter fun t => !s.names t }
    let s := due.foldl State.applyTrans s
    let s := s.startPasses.triggerReaders
    let s := { s with imgA := s.ptsA, imgB := s.ptsB, imgCaps := s.caps }
    ok s.buildAll.takeSheet.flushRecs.settle

/-! ### Triggers and watches (R66, R77, R80, R81, R103) -/

/-- 100 µs without a pass start (R66). -/
def execHeartbeatPass (p : Fin 36) (s : State) : Host.Outcome State Fault Refusal :=
  ok (if s.lanesRun && (s.pair p).mayPass then s.trigger p else s)

/-- A timer of a block by its number. -/
def BlockRt.timer (r : BlockRt) (c : Nat) : Timer := if c = 0 then r.t1 else if c = 1 then r.t2 else r.t3

def BlockRt.setTimer (r : BlockRt) (c : Nat) (t : Timer) : BlockRt :=
  if c = 0 then { r with t1 := t } else if c = 1 then { r with t2 := t } else { r with t3 := t }

/-- The blocks of a zone as a pair runs them: of its ACTIVE version, or of its copy on the target of coupled passes (R173). -/
def State.rtOn (s : State) (p z : Nat) : List BlockRt :=
  match (s.zone z).active with
  | some v =>
    if v.pair = p then v.rt
    else match (s.copiesOf p s.coupledPairs.isSome).find? fun c => decide (c.zone = z) with
      | some c => c.rt
      | none => []
  | none => []

/-- The timer that runs in a block of a zone on a pair. One that lane A has decided to have expired runs no more, and for lane B's late
window it counts as reported, although the start word that carries the report is still to come (R77) (DEDUCED, log entry 60). -/
def State.runningTimer (s : State) (p z n c : Nat) : Option Nat :=
  if (s.pair p).role = .halted then none
  else match ((s.rtOn p z).getD n {}).timer c with
    | .running u => some u
    | _ => none

/-- The pairs whose lane B runs the timers of a zone: the two pairs of coupled passes, else one (R173). -/
def State.timerPairs (s : State) (p z : Nat) : List Nat :=
  match s.coupledPairs with
  | some (a, b) => if (s.copiesOf b true).any fun c => decide (c.zone = z) then [a, b] else [p]
  | none => [p]

/-- A timer that runs has expired; lane B keeps the set time in negative encoding. -/
def BlockRt.expire (r : BlockRt) (c : Nat) : BlockRt :=
  match r.timer c with
  | .running u => r.setTimer c (.late u)
  | _ => r

/-- The pass that runs sees an expiry that fell at the tick of its mark. -/
def BlockRt.seen (r : BlockRt) (c : Nat) : BlockRt :=
  match r.timer c with
  | .late u => r.setTimer c (.expired u)
  | _ => r

def expireAt (now : Bool) (rts : List BlockRt) (n c : Nat) : List BlockRt :=
  match rts[n]? with
  | some r => rts.set n (if now then (r.expire c).seen c else r.expire c)
  | none => rts

/-- The pass of a pair that runs has started at the last mark (R69). -/
def State.atMark (s : State) (p : Nat) : Bool :=
  match (s.pair p).run with
  | some r => decide (r.mark = s.markNum)
  | none => false

/-- A timer expires on lane A's timebase (R103): the next pass to start sees it, on the source of a migration and on its target (R173), and
so does the pass that has started at the very tick of the expiry (R69). Lane B checks its own elapsed time, in ns, and forces a disagreement
into the pass whose start word carries the expiry (R77) (DEDUCED, log entry 60). -/
def execTimerExpiry (p : Fin 36) (zone : BitVec 8) (blk chan : Nat) (e : ExpiryRead) (s : State) : Host.Outcome State Fault Refusal :=
  let z := zone.toNat
  match s.runningTimer p z blk chan with
  | none => ok s
  | some u =>
    let now := e.atMark && s.atMark p
    let s := s.updZone z fun y => { y with active := y.active.map fun v =>
      { v with rt := expireAt now v.rt blk chan, rtB := expireAt now v.rtB blk chan } }
    let s := s.updCopies fun cs => cs.map fun c =>
      if c.zone = z then { c with rt := expireAt now c.rt blk chan, rtB := expireAt now c.rtB blk chan } else c
    let early := decide (e.elapsedB * 10000 + 10000000 < u * 1000 * 9995)
    let s := if early then (s.timerPairs p z).foldl (fun t p => t.updPair p fun q =>
        { q with timerLate := q.timerLate || !now, timerLost := q.timerLost || now }) s else s
    ok (s.trigger p)

/-- Lane B's window of a timer passes with no expiry from lane A (R77): the disagreement is forced into the pass that runs or, where none
does, into the next one, which is asked for at once. R66 lists no such trigger and R77 names no pass (DEDUCED, log entry 60). -/
def execTimerXchk (p : Fin 36) (zone : BitVec 8) (blk chan : Nat) (s : State) : Host.Outcome State Fault Refusal :=
  match s.runningTimer p zone.toNat blk chan with
  | none => ok s
  | some _ => ok ((s.updPair p fun q => { q with timerLost := true }).trigger p)

/-- No toggle within T_pb of a pass start (R80). -/
def execPassWatch (p : Fin 36) (lane : Lane) (s : State) : Host.Outcome State Fault Refusal :=
  ok (if s.lanesRun && (s.pair p).watchedBy lane && ((s.pair p).run.isSome || (s.pair p).stop (otherLane lane)) then (s.pairFault lane p 0x1002#16 0).settle else s)

/-- No pass start within 100.2 µs of the last toggle (R80). -/
def execStartWatch (p : Fin 36) (lane : Lane) (s : State) : Host.Outcome State Fault Refusal :=
  ok (if s.lanesRun && (s.pair p).watchedBy lane && (s.pair p).run.isNone then (s.pairFault lane p 0x1002#16 0).settle else s)

/-- 500 µs of lane time (R81). -/
def execInjectionSchedule (p : Fin 36) (lane : Lane) (s : State) : Host.Outcome State Fault Refusal :=
  ok (if s.lanesRun && (s.pair p).watched then
    s.updPair p fun q => match lane with
      | .a => { q with injDue := true }
      | .b => { q with injDueB := true }
   else s)

/-- A lane's category 1 delay expires (R56, R57). -/
def execCat1DelayExpiry (lane : Lane) (out : Target) (s : State) : Host.Outcome State Fault Refusal :=
  let f := tabGet (false, false) s.cat1 (targetKey out)
  let on := match lane with
    | .a => f.1
    | .b => f.2
  if on then
    let f := match lane with
      | .a => (false, f.2)
      | .b => (f.1, false)
    ok (({ s with cat1 := tabSet (false, false) s.cat1 (targetKey out) f }).commandLane lane out false)
  else ok s

end Sys2Proof.Machine
end

