-- ==== Sys2Proof/Machine/Debug.lean ====
section
/-!
DEFINITION. Debug: enabling, halting and stepping a pair, access to its tiles, breaking lock-step, the test access port (R463 to
R477).
-/
namespace Sys2Proof.Machine
open Sys2Proof

/-! ### Requests (R464, R466 to R468, R471) -/

/-- A debug request is refused. -/
def State.dbRefuse (s : State) : State := { s with db := { s.db with refused := true } }

/-- The conditions of DB_CTRL.EN. -/
def State.dbMayEnable (s : State) : Bool := s.debugFuse && s.pm.bench && !s.db.broken

/-- The pair HALTED, or about to be. -/
def State.haltedPair (s : State) : Option Nat := (below 36 fun p => (s.pair p).role == .halted).head?

def State.haltAny (s : State) : Bool := !(below 36 fun p => (s.pair p).role == .halted || (s.pair p).haltBit).isEmpty

/-- A pair takes part in the operation in progress: its target, its source, the pair of the version a commit replaces. -/
def State.inOp (s : State) (p : Nat) : Bool :=
  match s.op with
  | none => false
  | some op =>
    decide (op.tgt = p) || decide (op.kind.src = p) ||
    match op.kind with
    | .commit z _ _ =>
      let on (v : Option ZoneVer) : Bool := match v with
        | some v => decide (v.pair = p)
        | none => false
      on (s.zone z).active || (decide (op.stage = 7) && on (s.zone z).retained)
    | _ => false

/-- HALT (R466): at once for a pair with no pass running, else at the end of its pass (DEDUCED, log entry 55); a slice is aborted and
counted. -/
def State.haltPair (s : State) (p : Nat) : State :=
  let q := s.pair p
  let go (t : State) : State :=
    let t := { t with db := { t.db with pair := BitVec.ofNat 6 p } }
    if (t.pair p).run.isSome then t.updPair p fun q => { q with haltBit := true } else t.haltNow p
  if 35 < p || s.haltAny || s.inOp p then s.dbRefuse
  else
    match q.role with
    | .free | .carrying => go s
    | .testing => go ((if s.inSlice p then s.skipSlot else s).stopSlice p)
    | _ => s.dbRefuse

/-- RESUME (R468): the former role; STOPPED where a STEP pass latched a stop bit, or what any other bit latched since makes of it; a pair
that holds nothing any more is FREE. The live image is again what the marks make it (DESIGN CHOICE, log entry 8). -/
def State.resumePair (s : State) : State :=
  match s.haltedPair with
  | none => s.dbRefuse
  | some p =>
    if !s.db.replayAt.isEmpty then s.dbRefuse
    else
      let s := s.updPair p fun q => { q with
        haltBit := false, stepStop := false, before := .free, injDue := false, injDueB := false
        role := if q.stepStop then .stopped else if q.stopA || q.stopB then q.before.onStop else q.before }
      ({ s with db := { s.db with inA := [], inB := [] } }).vacate p

/-- The blocks of a zone after a pass whose results do not apply: the state memories of both lanes hold what the pass has written, and a
DIAG that has changed is reported, which is no result of a pass (R73, R138). -/
def State.stepZone (s : State) (z : Nat) (v : ZoneVer) (ra rb : List BlockRt) : State :=
  let e := s.storeRt z v ra rb
  e.1.updZone z fun y => { y with active := some { e.2 with first := false } }

/-- STEP (R468): one pass of both lanes over the zones of the pair, on the image as debug writes have left it, with its comparator check;
the pair stays HALTED. The pass writes the state memories, no results apply (R73) (DEDUCED, log entry 55). -/
def State.stepPair (s : State) (info : PassInfo) : State :=
  match s.haltedPair with
  | none => s.dbRefuse
  | some p =>
    if !s.db.replayAt.isEmpty then s.dbRefuse
    else
      let s := s.startPass p false
      let s := s.updPair p fun q => { q with
        liveA := s.overImage p s.db.inA q.liveA ptInitA, liveB := s.overImage p s.db.inB q.liveB ptInitB }
      match (s.pair p).run with
      | none => s
      | some r =>
        let res := (s.activeOn p).map fun e => (e.1, e.2, s.evalA p e.2)
        let resB := (s.activeOn p).map fun e => (e.1, s.evalB p e.2)
        let differ := (s.activeOn p).any fun e => s.lanesDiffer p e.2
        let info := takenWords info (delayWords r (s.activeOn p))
        let causes := passCauses (s.pair p) info differ
        let t := (res.zip resB).foldl (fun t e => t.stepZone e.1.1 e.1.2.1 e.1.2.2 e.2.2) s
        if causes.isEmpty then t.passGood p r info res
        else
          let (c, t) := t.badCode
          let t := t.updPair p fun q => { q.failed r info res differ c (min 65535 (t.since r.start)) with stepStop := true }
          causes.foldl (fun t x => t.passFault p r.num.toNat x) t

/-- A write of DB_CTRL; while EN is 0 only a write that sets EN is taken, and of it EN and PAIR (DEDUCED, log entry 55). -/
def State.dbCtrl (s : State) (src : Nat) (value : Word) (info : PassInfo) : State :=
  let p := bits value 5 0
  let en := bit value 31
  if !s.db.en then
    if en && s.dbMayEnable then { s with db := { s.db with en := true, pair := BitVec.ofNat 6 p } } else s.wrej 3 src 0x1B000
  else
    let s := { s with db := { s.db with en := en } }
    let s := if bit value 27 then s else { s with db := { s.db with pair := BitVec.ofNat 6 p } }
    let s := if bit value 30 && !s.db.broken then { s with db := { s.db with haltDue := true } } else s
    let s := if bit value 29 then s.stepPair info else s
    let s := if bit value 28 then s.resumePair else s
    if bit value 27 then s.haltPair p else s

/-- A pass with nothing wrong. -/
def cleanPass : PassInfo :=
  { parityA := false, parityB := false, poison := 0, codeA := none, codeB := none, injHideA := false, injHideB := false,
    migMismatch := false }

/-- EN and PAIR as they stand, for a write of one action bit. -/
def State.dbKeep (s : State) (b : Nat) : Word :=
  setBit (word (s.db.pair.toNat + flag s.db.en 31)) b true

def execDebugEnable (value : Word) (s : State) : Host.Outcome State Fault Refusal :=
  ok (s.dbCtrl 0 ((value &&& 0x3F#32) ||| 0x80000000#32) cleanPass)

def execHalt (value : Word) (s : State) : Host.Outcome State Fault Refusal :=
  ok (s.dbCtrl 0 ((value &&& 0x3F#32) ||| setBit (word (flag s.db.en 31)) 27 true) cleanPass).settle

def execResume (s : State) : Host.Outcome State Fault Refusal := ok (s.dbCtrl 0 (s.dbKeep 28) cleanPass).settle

def execStep (info : PassInfo) (s : State) : Host.Outcome State Fault Refusal := ok (s.dbCtrl 0 (s.dbKeep 29) info).settle

def execStewardHalt (s : State) : Host.Outcome State Fault Refusal := ok (s.dbCtrl 0 (s.dbKeep 30) cleanPass).settle

/-! ### Access to tiles (R469, R470, R471, R477) -/

/-- The place of an access: 64 for each space plus the pair, none where the access is refused. -/
def State.dbPlace (s : State) (space idx : Nat) : Option Nat :=
  let top := match space with
    | 0 => 4352
    | 1 => 1024
    | 2 => 256
    | 3 => 8
    | 4 => 8192
    | _ => 0
  if top ≤ idx then none
  else if space = 4 then (if s.db.broken then some 256 else none)
  else s.haltedPair.map fun p => 64 * space + p

/-- A write of DB_ADDR runs an access; a write of a word goes on to lane B, but for the steward's. -/
def State.dbAccess (s : State) (src : Nat) (value : Word) : State :=
  if !s.db.en then s.wrej 3 src 0x1B008
  else
    let space := bits value 31 29
    let idx := bits value 12 0
    let wr := bit value 28
    let s := { s with db := { s.db with addr := value &&& 0xF0001FFF#32 } }
    match s.dbPlace space idx with
    | none => s.dbRefuse
    | some k =>
      if wr then
        if space = 1 || space = 3 then s.dbRefuse
        else
          let s := s.writeTile .a k idx s.db.data
          { s with db := { s.db with
            accDone := true, replayPend := s.db.replayPend ++ (if space = 4 then [] else [(k, idx, s.db.data)]) } }
      else
        let (v, s) := s.readTile k idx
        { s with db := { s.db with accDone := true, data := v } }

def execDebugAccess (value : Word) (s : State) : Host.Outcome State Fault Refusal := ok (s.dbAccess 0 value)

/-- Lane B has not confirmed the oldest replayed write 10 µs after it, or its confirmation carried a parity error (R470). Whether the word
reached lane B is free (DESIGN CHOICE, log entry 8). -/
def execReplayFail (s : State) : Host.Outcome State Fault Refusal :=
  match s.db.replayPend with
  | [] => ok s
  | (k, i, w) :: r =>
    let (n, s) := s.draw
    let s := if (Config.freeMeasure n).getLsbD 0 then s.writeTile .b k i w else s
    ok { s with db := { s.db with
      replayFail := true, replayPend := r
      replayAt := if s.db.replayAt.contains (k, i) then s.db.replayAt else (k, i) :: s.db.replayAt } }

/-! ### The test access port (R463) -/

/-- What IDCODE returns: bits [63:32] of word 1 of OTP region 0, which a read lock hides (R425), bit 0 forced to 1. -/
def State.idcode (s : State) : Word := setBit (word (s.shadowWord 1 / 2 ^ 32)) 0 true

/-- A pin that the boundary-scan chain covers drives its line: a cell of the chain under EXTEST, none of them in reset or LOAD (R450, R463).
-/
def State.cellDriven (s : State) (p : ScanPin) : Option Bool :=
  if s.db.ir == .extest && p.drives && !s.pm.inReset && s.pm.dstate != .load then some (s.db.cells.getLsbD p.cell) else none

/-- An instruction is loaded; outside bench mode any but three acts as BYPASS. IDCODE brings the device's code into the data register,
BYPASS a 0 (PRESUMED, log entry 18, for the 0 of IEEE 1149.1), SAMPLE/PRELOAD the levels of the pins into the boundary-scan chain, which
are free; EXTEST drives the lines as the chain stands (DESIGN CHOICE, log entry 78). -/
def execJtagInstruction (op : JtagOp) (s : State) : Host.Outcome State Fault Refusal :=
  let ir := if s.pm.bench then op else irKept op
  let (n, s) := if ir = .samplePreload then s.draw else (0, s)
  ok { s with db := { s.db with
    ir := ir
    cells := if ir = .samplePreload then Config.freePins n else s.db.cells
    dr := match ir with
      | .idcode => s.idcode
      | .bypass => 0#32
      | _ => s.db.dr } }

end Sys2Proof.Machine
end

