-- ==== Sys2Proof/Machine/Faults.lean ====
section
/-!
DEFINITION. Clearing faults (R306, R312 to R318): the clear, its cause tests, the acknowledgement input.
-/
namespace Sys2Proof.Machine
open Sys2Proof

/-! ### Selection (R313) -/

/-- A record is selected by a code and a location. -/
def FaultRec.selected (r : FaultRec) (code : BitVec 16) (loc : BitVec 12) : Bool :=
  code == 0#16 || (r.code == code && (loc == noLoc || r.loc == loc))

/-- The records selected. -/
def State.selectRecs (s : State) (code : BitVec 16) (loc : BitVec 12) : List Nat :=
  s.fl.recs.filterMap fun e =>
    match e.2 with
    | some r => if r.selected code loc then some e.1 else none
    | none => none

/-- CODE and LOC of FL_CLEAR_ARG. -/
def clearCode (arg : Word) : BitVec 16 := BitVec.ofNat 16 (bits arg 31 16)
def clearLoc (arg : Word) : BitVec 12 := BitVec.ofNat 12 (bits arg 11 0)

/-- A clear starts: both stewards have the same request. -/
def State.startClear (s : State) (code : BitVec 16) (loc : BitVec 12) (ack : Bool) : State :=
  { s with fl := { s.fl with
    resCode := code, clear := some { code := code, loc := loc, sel := s.selectRecs code loc, again := [], ack := ack } } }

/-- A clear that does not start. -/
def State.clearRefused (s : State) (code : BitVec 16) (res : Nat) : State :=
  { s with fl := { s.fl with resCode := code, result := res } }

/-- A write of FL_CLEAR as each lane received it: lane B holds its argument in its own encoding, so the complement it asks for is what it
holds (R18, R313, R481). One that is discarded (BUSY, BAD_FORM, CLEAR_MISMATCH) is recorded too, as turned away by a rule of the register
(R490). -/
def State.clearWrite (s : State) (src : Nat) (keyA keyB : Word) : State :=
  let f := s.fl
  if f.clear.isSome then ({ s with fl := { f with result := 7 } }).wrej 3 src 0x1A008
  else if keyA ≠ ~~~f.argA || keyB ≠ f.argB then (s.clearRefused (clearCode f.argA) 6).wrej 3 src 0x1A008
  else if f.argA ≠ ~~~f.argB then (s.clearRefused (clearCode f.argA) 5).wrej 3 src 0x1A008
  else s.startClear (clearCode f.argA) (clearLoc f.argA) false

def execFaultClear (keyA keyB : Word) (s : State) : Host.Outcome State Fault Refusal := ok (s.clearWrite 0 keyA keyB)

/-! ### Cause tests (R306, R314, R340) -/

/-- A record that only a reset removes. -/
def resetOnly (code : BitVec 16) : Bool :=
  faultClass code == 2 || faultClass code == 5 || code == 0x4005#16

/-- The cause of a record has gone; `fdPass` are the tests FD has passed at this clear. -/
def State.causeGone (s : State) (r : FaultRec) (fdPass : List (BitVec 16 × BitVec 12)) : Bool :=
  let p := r.loc.toNat
  match faultClass r.code with
  | 1 => if r.code = 0x1008#16 then (s.pair p).role != .halted && !(s.pair p).haltBit else (s.zonesOn p).isEmpty
  | 3 =>
    if r.code = 0x3005#16 || r.code = 0x3007#16 || r.code = 0x3008#16 then true
    else if r.code = 0x3010#16 || r.code = 0x3011#16 then
      let q := s.grp (p - 0x40)
      q.stood && q.inBand && (r.code = 0x3011#16 || !q.xchkRaised || fdPass.contains (r.code, r.loc))
    else if r.code = 0x3012#16 then s.fd.gsBothOpen
    else fdPass.contains (r.code, r.loc)
  | 4 => decide (r.code ≠ 0x4005#16)
  | _ => false

/-! ### Removal (R314) -/

/-- The latch of a code ends on a channel, a cross-short's partner with it (R241); an input then waits for one debounce time. -/
def Chan.unlatch (c : Chan) (code : BitVec 16) : Chan :=
  match code.toNat with
  | 0x3001 => { c with fltSwA := false }
  | 0x3002 => { c with fltSwB := false }
  | 0x3003 => { c with fltExt := false }
  | 0x3004 => { c with fltCross := false, partner := 0x3F }
  | 0x3005 => { c with fltOver := false }
  | 0x3006 => { c with fltTherm := false }
  | 0x3007 => { c with fltShare := false }
  | 0x3008 => { c with fltOn := false }
  | 0x3009 => { c with fltOpen := false }
  | 0x300A => { c with loopbackFail := false, restoring := c.restoring || decide (c.mode = 1#2) }
  | _ => c

/-- The FD hold of a FIELD record ends: of a whole set once no member has a record of the code. The outputs it held return only by the
rule of R218. -/
def State.releaseField (s : State) (code : BitVec 16) (loc : BitVec 12) : State :=
  let n := loc.toNat
  match code.toNat with
  | 0x3010 => (s.updGrp (n - 0x40) fun q => { q with uvoffLatch := false, xchkFail := false, xchkRaised := false }).holdChans (grpChans (n - 0x40))
  | 0x3011 => (s.updGrp (n - 0x40) fun q => { q with ovLatch := false }).holdChans (grpChans (n - 0x40))
  | 0x3012 => s.updFd fun f => { f with gsDisc := false, gsBothOpen := false }
  | _ =>
    let ms := s.unit n
    if ms.any fun m => (s.findRec code (BitVec.ofNat 12 m)).isSome then s
    else (s.updChans ms fun _ c => c.unlatch code).holdChans ms

/-- What follows from a record that has left the table (DEDUCED, log entry 51). -/
def State.recCleared (s : State) (r : FaultRec) : State :=
  match faultClass r.code with
  | 3 => s.releaseField r.code r.loc
  | 4 => if (s.conn r.loc.toNat).st = .faulted then s.setConn r.loc.toNat .closed none else s
  | _ => s

/-- FD has a report of a channel fault to make that the lanes have not had (R229). -/
def State.reportDue (s : State) (r : FaultRec) : Bool := s.fd.reports.any fun e => decide (e.1 = r.loc.toNat) && e.2 == r.code

/-- FD runs the loop-back of a channel again for each LOOPBACK_FAIL selected, and BS_CH_OK shows how it went (R306, R346). -/
def State.loopbacks (s : State) (ks : List Nat) (fdPass : List (BitVec 16 × BitVec 12)) : State :=
  ks.foldl (fun t k => match t.frec k with
    | some r => if r.code = 0x300A#16 then
        { t with bist := { t.bist with chOk := setBit t.bist.chOk r.loc.toNat (fdPass.contains (r.code, r.loc)) } } else t
    | none => t) s

/-- How a selected record fares: 1 removed, 2 its cause present, 3 a reset required; a trigger that recurred during the clear keeps it
(R314, R318). -/
def State.clearVerdict (s : State) (c : Clear) (fdPass : List (BitVec 16 × BitVec 12)) (k : Nat) : Nat :=
  match s.frec k with
  | none => 0
  | some r =>
    if resetOnly r.code then 3
    else if !c.again.contains k && !s.reportDue r && s.causeGone r fdPass then 1
    else 2

/-- The result of a clear: the highest code that applies. -/
def clearResult (vs : List Nat) (overflow : Bool) : Nat :=
  if vs.isEmpty then (if overflow then 1 else 4) else vs.foldl max 0

/-- The clear ends: the records whose cause has gone are removed, each with its event (DEDUCED, log entry 51). -/
def State.endClear (s : State) (c : Clear) (fdPass : List (BitVec 16 × BitVec 12)) : State :=
  let vs := c.sel.map fun k => (k, s.clearVerdict c fdPass k)
  let ovf := c.code = 0#16 && s.fl.overflow
  let res := clearResult (vs.map fun e => e.2) ovf
  let s := { s.loopbacks c.sel fdPass with fl := { s.fl with
    clear := none, result := res, overflow := s.fl.overflow && decide (c.code ≠ 0#16) } }
  vs.foldl (fun t e =>
    if e.2 = 1 then
      match t.frec e.1 with
      | some r =>
        ((t.setRec e.1 none).recCleared r).postEvent 0x02 1 (r.code.toNat + fld r.loc.toNat 16 16 + fld res 8 32)
      | none => t
    else t) s

/-- The acknowledgement then restarts every FAULTED zone that nothing blocks (R316, R317). -/
def State.ackRestart (s : State) : State :=
  s.zones.foldl (fun t e =>
    let y := t.zone e.1
    if y.st = .faulted && !t.blocked e.1 && t.pairHealthy y.pairOf then t.askRestart e.1 [] else t) s

def execClearComplete (fdPass : List (BitVec 16 × BitVec 12)) (s : State) : Host.Outcome State Fault Refusal :=
  match s.fl.clear with
  | none => ok s
  | some c =>
    let s := s.endClear c fdPass
    ok (if c.ack && !s.stewardsRefuse && !s.stewardsWait then s.ackRestart else s).settle

/-- An accepted release of the acknowledgement input that both lanes have enabled (DEDUCED, log entry 56, where their copies differ). -/
def execFaultAcknowledgement (s : State) : Host.Outcome State Fault Refusal :=
  if !s.fl.ackEn || s.fl.ackEnB || decide (s.fl.ackChB ≠ ~~~s.fl.ackCh) then ok s
  else if s.fl.clear.isSome then ok { s with fl := { s.fl with result := 7 } }
  else ok (s.startClear 0#16 0#12 true)

end Sys2Proof.Machine
end

