-- ==== Sys2Proof/Machine/HostIf.lean ====
section
/-!
DEFINITION. The host interface of HB: doorbells, rings, descriptors and their checks, event rings, format versions, function
states, MSI-X, DIAG_READ and SNAPSHOT (R137, R385 to R415).
-/
namespace Sys2Proof.Machine
open Sys2Proof

/-! ### Doorbells (R391, R397, R407) -/

/-- An index a doorbell carries is inside a ring. -/
def ringIndex (size : BitVec 4) (value : Word) : Option (BitVec 12) :=
  let i := bits value 11 0
  if i < 2 ^ size.toNat then some (BitVec.ofNat 12 i) else none

/-- A doorbell write is discarded. -/
def State.dbErr (s : State) : State := { s with hi := { s.hi with dbErr := true } }

/-- The doorbell at an offset of BAR2; BAR2 holds nothing else (R387, R391). -/
def doorbellAt (offset : BitVec 12) : Option Doorbell :=
  let n := offset.toNat
  if n < 0x80 then
    if n % 8 = 0 then some (.sqTail (Fin.ofNat 16 (n / 8))) else if n % 8 = 4 then some (.cqHead (Fin.ofNat 16 (n / 8))) else none
  else if 0x100 ≤ n && n < 0x110 && n % 4 = 0 then some (.evHead (Fin.ofNat 4 ((n - 0x100) / 4)))
  else none

/-- A new tail of a submission ring. -/
def State.writeSqTail (s : State) (r : Nat) (value : Word) : State :=
  let q := s.ring r
  match ringIndex q.size value with
  | some i => if q.st = .disabled then s.dbErr else s.updRing r fun q => { q with sqTail := i }
  | none => s.dbErr

/-- Space in a completion ring: held completions are written in order. -/
def State.writeCqHead (s : State) (r : Nat) (value : Word) : State :=
  let q := s.ring r
  match ringIndex q.size value with
  | none => s.dbErr
  | some i =>
    if q.st = .disabled then s.dbErr
    else
      let q1 := { q with cqHead := i }
      let q2 := q1.flush s.stamp q1.held
      let s := s.updRing r fun _ => q2.drained
      if q2.cqTail = q1.cqTail then s else s.dueVector q.vector

/-- Space in an event ring: EVENTS_LOST is posted. -/
def State.writeEvHead (s : State) (e : Nat) (value : Word) : State :=
  let q := s.evRing e
  match ringIndex q.size value with
  | some i => if q.en then (s.updEvRing e fun q => { q with head := i }).postLost e else s.dbErr
  | none => s.dbErr

/-- A write of BAR2 at an offset that holds no SQ_TAIL writes none. -/
def execSqTail (offset : BitVec 12) (value : Word) (s : State) : Host.Outcome State Fault Refusal :=
  match doorbellAt offset with
  | some (.sqTail r) => ok (s.writeSqTail r value)
  | _ => ok s

def execCqHead (offset : BitVec 12) (value : Word) (s : State) : Host.Outcome State Fault Refusal :=
  match doorbellAt offset with
  | some (.cqHead r) => ok (s.writeCqHead r value)
  | _ => ok s

def execEvHead (offset : BitVec 12) (value : Word) (s : State) : Host.Outcome State Fault Refusal :=
  match doorbellAt offset with
  | some (.evHead e) => ok (s.writeEvHead e value)
  | _ => ok s

/-! ### Entries (R393, R400, R401) -/

/-- Opcodes of the commands marked safety, and of the others. -/
def safetyOpcodes : List Nat := [0x02, 0x10, 0x11, 0x12, 0x13, 0x14, 0x20, 0x21, 0x22, 0x23, 0x30, 0x41, 0x42, 0x51]
def plainOpcodes : List Nat := [0x01, 0x31, 0x32, 0x40, 0x50]

/-- The 60 bytes the descriptor CRC covers (R394). -/
def entryCrcBytes (e : Entry) : List Byte :=
  [e.opcode, e.flags] ++ bytesLE 2 e.cid.toNat ++ bytesLE 8 e.addr.toNat ++ bytesLE 4 e.len.toNat ++
  bytesLE 4 e.hostSeq.toNat ++ bytesLE 40 e.param.toNat

/-! ### Fetching (R392, R394, R395) -/

/-- The check of an entry in progress ends, and with it the losses of the copies of that entry (R23). -/
def Ring.unchecked (q : Ring) : Ring := { q with checking := none, lostA := false, lostB := false }

/-- HB may fetch an entry of a ring: enabled, not empty, no check running, no completion held, fewer than 16 outstanding. -/
def Ring.mayFetch (q : Ring) : Bool :=
  q.st == .enabled && q.sqHead != q.sqTail && q.checking.isNone && q.held.isEmpty && decide (q.outs.length < 16)

/-- The ring whose turn it is: the first that may be fetched from, round robin. In OFF the device fetches nothing further (R449). -/
def State.fetchTurn (s : State) : Option Nat :=
  if !s.hi.ready || s.hi.d3 || s.pm.dstate == .off then none
  else ((List.range 16).map fun i => (s.hi.turn + i) % 16).find? fun r => (s.ring r).mayFetch

/-- An entry has been fetched and its checks are complete: SQ_HEAD advances. -/
def State.pastEntry (s : State) (r : Nat) : State :=
  s.updRing r fun q => { q.unchecked with sqHead := ringNext q.size q.sqHead }

/-- An entry that a check refuses completes at once and has no effect. -/
def State.refuseEntry (s : State) (r : Nat) (cid : BitVec 16) (op : Byte) (st : Nat) : State :=
  (s.pastEntry r).postCq r cid.toNat op.toNat st false 0

/-- A command is outstanding and starts in its turn. -/
def State.takeEntry (s : State) (r : Nat) (e : Entry) : State :=
  let n := s.hi.accepted
  let s := (s.pastEntry r).updRing r fun q => { q with
    outs := q.outs ++ [{ cid := e.cid, opcode := e.opcode, entry := some e, ord := n }] }
  { s with hi := { s.hi with accepted := n + 1 } }

/-- An entry that no check refuses is a command to come; a bad one completes at once. -/
def State.acceptEntry (s : State) (r : Nat) (e : Entry) : State :=
  let op := e.opcode.toNat
  if !(safetyOpcodes.contains op || plainOpcodes.contains op) then s.refuseEntry r e.cid e.opcode 0x02
  else if entryBad e then s.refuseEntry r e.cid e.opcode stBadParam
  else s.takeEntry r e

/-! ### Disabling a ring (R386, R399) -/

/-- Origins of one ring leave a list; those that leave are returned too. -/
def ofRing (r : Nat) (o : Origin) : Bool := decide (o.ring.val = r)

def splitRing (r : Nat) (os : List Origin) : List Origin × List Origin := os.partition (ofRing r)

/-- Commands of a ring that wait or run end with ABORTED. -/
def State.abortRing (s : State) (r : Nat) : State :=
  let s := match s.op with
    | some op => if (op.o.map (ofRing r)).getD false then s.cancelOp stRefused else s
    | none => s
  let mine (i : Instr) : Bool := match waitOrigin i with
    | some (o, _) => ofRing r o
    | none => false
  let gone := s.waiting.filter mine
  let s := { s with waiting := s.waiting.filter fun i => !mine i }
  let s := gone.foldl (fun t i => match waitOrigin i with
    | some (o, c) => t.complete o c stAborted 0
    | none => t) s
  let asks := s.bist.asked.filter fun e => ofRing r e.1
  let s := { s with bist := { s.bist with asked := s.bist.asked.filter fun e => !ofRing r e.1 } }
  let s := asks.foldl (fun t e => t.complete e.1 0x30 stAborted 0) s
  let s := { s with snap := { s.snap with waiting := s.snap.waiting.filter fun e => !ofRing r e.1 } }
  let s := match s.pm.shutO with
    | some o => if ofRing r o then (s.updPm fun p => { p with shutO := none }).complete o 0x51 stAborted 0 else s
    | none => s
  s.zones.foldl (fun t e =>
    let y := t.zone e.1
    let a := splitRing r y.restartO
    let w := match y.wd with
      | some w => splitRing r w.os
      | none => ([], [])
    let t := t.updZone e.1 fun y => { y with restartO := a.2, wd := y.wd.map fun d => { d with os := w.2 } }
    let t := a.1.foldl (fun u o => u.complete o 0x14 stAborted y.st.code) t
    w.1.foldl (fun u o => u.complete o 0x12 stAborted y.st.code) t) s

/-- A command of a ring that goes on to its own end: a commit past its commit point, a transfer, a release. -/
def State.keeps (s : State) (r : Nat) (t : Taken) : Bool :=
  match s.op with
  | some op => match op.o with
    | some o => ofRing r o && decide (o.cid = t.cid)
    | none => false
  | none => false

/-- Entries fetched and not taken up yet end with ABORTED; the ring is DISABLED once its last completion is written. -/
def State.abortTaken (s : State) (r : Nat) : State :=
  let q := s.ring r
  let rest := (q.outs.filter fun t => !s.keeps r t) ++ q.checking.toList
  let s := s.updRing r Ring.unchecked
  (rest.foldl (fun t x => t.completion r x.cid.toNat x.opcode.toNat stAborted false 0) s).updRing r Ring.drained

/-- A ring disable. -/
def State.ringDisable (s : State) (r : Nat) : State :=
  if (s.ring r).st = .enabled then
    ((s.updRing r fun q => { q with st := .draining }).abortRing r).abortTaken r
  else s

/-- A failed fetch disables the ring at once, with no completion (DEDUCED, log entry 48). -/
def State.ringFail (s : State) (r : Nat) : State :=
  let s := (s.updRing r fun q => { q.unchecked with st := .disabled, outs := [], held := [] }).abortRing r
  { s with hi := { s.hi with dmaErr := true } }

/-- HB fetches the next entry of a ring in its turn. Of a safety entry it keeps what an abort has to name; the lanes read it
again (DEDUCED, log entry 48). -/
def execDescriptorFetch (r : Fin 16) (entry : Option Entry) (s : State) : Host.Outcome State Fault Refusal :=
  if s.fetchTurn = some r.val then
    let s := { s with hi := { s.hi with turn := (r.val + 1) % 16 } }
    match entry with
    | none => ok (s.ringFail r).settle
    | some e =>
      if safetyOpcodes.contains e.opcode.toNat then
        ok (s.updRing r fun q => { q with checking := some { cid := e.cid, opcode := e.opcode } })
      else ok (s.acceptEntry r e)
  else ok s

/-- The status of the first check of R394 that fails (DEDUCED, log entry 48). -/
def checkEntries (a b : Entry) (seqA seqB : Word) : Option Nat :=
  if !a.flags.getLsbD 0 || !b.flags.getLsbD 0 then some 0x0A
  else if a.dcrc ≠ crcA (entryCrcBytes a) || b.dcrc ≠ crcA (entryCrcBytes b) then some 0x07
  else if a.hostSeq ≠ seqA || b.hostSeq ≠ seqB then some 0x09
  else if a ≠ b then some 0x08
  else none

/-- The lanes' copies of a safety entry are checked while its ring holds no completion (R397). A failed read disables the ring (R399). A
copy that its hub link lost leaves the other with nothing to agree with (R23); a refused entry completes under the CID of lane A's copy,
or of the one HB fetched where that is lost (DEDUCED, log entry 48). -/
def execSafetyDescriptorCheck (r : Fin 16) (copyA copyB : Option Entry) (s : State) : Host.Outcome State Fault Refusal :=
  let q := s.ring r
  match q.checking, copyA, copyB with
  | none, _, _ => ok s
  | some t, some a, some b =>
    if !q.held.isEmpty then ok s
    else if q.lostA then ok (s.refuseEntry r t.cid t.opcode ((checkEntries b b (~~~q.seqB) (~~~q.seqB)).getD 0x08))
    else if q.lostB then ok (s.refuseEntry r a.cid a.opcode ((checkEntries a a q.seqA q.seqA).getD 0x08))
    else
      match checkEntries a b q.seqA (~~~q.seqB) with
      | some st => ok (s.refuseEntry r a.cid a.opcode st)
      | none => ok ((s.updRing r fun q => { q with seqA := q.seqA + 1#32, seqB := q.seqB - 1#32 }).acceptEntry r a)
  | some _, _, _ => ok (s.ringFail r).settle

/-! ### Ring registers (R389, R399, R412, R413) -/

/-- SIZE of a configuration write is out of range, or no version is selected. -/
def State.enableBad (s : State) (value : Word) : Bool :=
  decide (bits value 3 0 < 4) || decide (12 < bits value 3 0) || decide (s.hi.selected = 0#8)

/-- SIZE or VECTOR of a configuration write differs from what a ring has. -/
def cfgDiffers (size : BitVec 4) (vector : BitVec 5) (value : Word) : Bool :=
  decide (bits value 3 0 ≠ size.toNat) || decide (bits value 12 8 ≠ vector.toNat)

/-- A write of HI_RING_CFG[r]. While the ring is not DISABLED, SIZE and VECTOR keep their values (DESIGN CHOICE, log entry 49). -/
def State.ringCfg (s : State) (src r : Nat) (value : Word) : State :=
  let q := s.ring r
  let en := bit value 31
  let off := 0x1110 + 0x40 * r
  match q.st with
  | .disabled =>
    if en && s.enableBad value then s.wrej 3 src off
    else
      s.updRing r fun q =>
        let q := { q with size := BitVec.ofNat 4 (bits value 3 0), vector := BitVec.ofNat 5 (bits value 12 8) }
        if en then
          { q with st := .enabled, sqHead := 0#12, sqTail := 0#12, cqTail := 0#12, cqHead := 0#12, phase := true, cq := [] }
        else q
  | .enabled =>
    let t := if en then s else s.ringDisable r
    if cfgDiffers q.size q.vector value || (en && s.enableBad value) then t.wrej 3 src off else t
  | .draining => if en || cfgDiffers q.size q.vector value then s.wrej 3 src off else s

/-- DESIGN CHOICE, log entry 49. -/
def execRingEnable (r : Fin 16) (value : Word) (s : State) : Host.Outcome State Fault Refusal :=
  ok (s.ringCfg 0 r (setBit value 31 true))

/-- DESIGN CHOICE, log entry 49. -/
def execRingDisable (r : Fin 16) (s : State) : Host.Outcome State Fault Refusal := ok (s.ringDisable r).settle

/-- A write of HI_EV_CFG[e] (DESIGN CHOICE, log entry 49). -/
def State.evCfg (s : State) (src e : Nat) (value : Word) : State :=
  let q := s.evRing e
  let en := bit value 31
  let off := 0x1508 + 0x20 * e
  if q.en then
    let t := if en then s else s.updEvRing e fun q => { q with en := false }
    if cfgDiffers q.size q.vector value || (en && s.enableBad value) then t.wrej 3 src off else t
  else if en && s.enableBad value then s.wrej 3 src off
  else
    let cfg (q : EvRing) : EvRing :=
      { q with size := BitVec.ofNat 4 (bits value 3 0), vector := BitVec.ofNat 5 (bits value 12 8) }
    if en then
      (s.updEvRing e fun q => { cfg q with en := true, tail := 0#12, head := 0#12, eseq := 0#16, phase := true, ev := [] }).postLost e
    else s.updEvRing e cfg

/-- DESIGN CHOICE, log entry 49. -/
def execEventRingEnable (e : Fin 4) (value : Word) (s : State) : Host.Outcome State Fault Refusal := ok (s.evCfg 0 e value)

/-- Every ring and event ring is DISABLED. -/
def State.ringsOff (s : State) : Bool :=
  (below 16 fun r => decide ((s.ring r).st ≠ .disabled)).isEmpty && (below 4 fun e => (s.evRing e).en).isEmpty

/-- A write of HI_VERSION. -/
def State.selectVersion (s : State) (src : Nat) (value : Word) : State :=
  let v := bits value 7 0
  if (v = 1 || v = 2) && s.ringsOff then { s with hi := { s.hi with selected := BitVec.ofNat 8 v } }
  else s.wrej 3 src 0x1000

def execVersionSelect (value : Word) (s : State) : Host.Outcome State Fault Refusal := ok (s.selectVersion 0 value)

/-- A write of HI_SAFE_SEQ[r]: each lane stores its copy of the write, lane B in negative encoding (R481). -/
def State.safeSeq (s : State) (src r : Nat) (value copyB : Word) : State :=
  if (s.ring r).st = .disabled then s.updRing r fun q => { q with seqA := value, seqB := ~~~copyB }
  else s.wrej 3 src (0x1118 + 0x40 * r)

def execSafeSeqWrite (r : Fin 16) (value : Word) (s : State) : Host.Outcome State Fault Refusal := ok (s.safeSeq 0 r value value)

/-! ### Function states (R386) and MSI-X (R388) -/

/-- A ring pair after a reset of the host interface (R15, R386): one that still has completions to write drains first, as with a ring
disable. -/
def Ring.afterReset (r : Ring) : Ring :=
  if r.outs.isEmpty && r.held.isEmpty then r.cleared else { r with st := .draining, resetDue := true }

/-- The host interface alone is reset (R15, R386): every ring disabled as by a ring disable, its registers, the doorbells and the MSI-X
table at their reset values. READY, which PERST_N and RESET_N clear, and the power state are not its to change (DEDUCED, log entry 62). -/
def State.hostReset (s : State) : State :=
  let s := (List.range 16).foldl State.ringDisable s
  { s with
    rings := tabMap Ring.init (fun _ r => r.afterReset) s.rings
    evRings := []
    hi := { d3 := s.hi.d3, ready := s.hi.ready, sent := s.hi.sent, accepted := s.hi.accepted, evHold := s.hi.evHold, evNext := s.hi.evNext } }

/-- Until HB is ready a configuration request has no effect: it is answered with Configuration Request Retry Status (R386). -/
def State.configured (s : State) (effect : State → State) : State :=
  if s.hi.ready then effect { s with hi := { s.hi with retry := false } } else { s with hi := { s.hi with retry := true } }

def execFunctionLevelReset (s : State) : Host.Outcome State Fault Refusal := ok (s.configured fun s => s.hostReset.settle)

/-- DEDUCED, log entry 58. -/
def execD3hot (s : State) : Host.Outcome State Fault Refusal :=
  ok (s.configured fun s =>
    let s := s.hostReset.settle
    { s with hi := { s.hi with d3 := true } })

def execD0 (s : State) : Host.Outcome State Fault Refusal :=
  ok (s.configured fun s => { s with hi := { s.hi with d3 := false } })

def execHbReady (s : State) : Host.Outcome State Fault Refusal :=
  ok (if s.pm.inReset then s else { s with hi := { s.hi with ready := true } })

/-- The 1 µs of a vector ends: the message that covers its entries is sent, and a new interval starts with it. -/
def execVectorMessage (v : Fin 32) (s : State) : Host.Outcome State Fault Refusal :=
  let h := { s.hi with busy := setBit s.hi.busy v false, due := setBit s.hi.due v false }
  ok { s with hi := if s.hi.due.getLsbD v && !h.d3 then h.dueVector v else h }

/-- A write of a word of the MSI-X table; clearing a mask sends a pending message, in the 1 µs that runs at its end (R388) (PRESUMED, log
entry 17). -/
def State.msixWrite (s : State) (i : Nat) (value : Word) : State :=
  let v := if i % 4 = 3 then value &&& 1#32 else if i % 4 = 0 then value &&& 0xFFFFFFFC#32 else value
  let h := { s.hi with msix := tabSet 0#32 s.hi.msix i (v ^^^ (if i % 4 = 3 then 1#32 else 0#32)) }
  let k := i / 4
  { s with hi := if i % 4 = 3 && !bit value 0 && h.pba.getLsbD k then { h with pba := setBit h.pba k false }.dueVector k else h }

/-! ### DIAG_READ (R137) -/

/-- DEDUCED, log entry 50. -/
def execDiagRead (o : Origin) (zone : BitVec 8) (first count : BitVec 16) (bufLen : Word) (busOk : Bool) (s : State) :
    Host.Outcome State Fault Refusal :=
  s.command o (.diagRead o zone first count bufLen busOk) fun s =>
  let n := count.toNat
  let f := first.toNat
  if n = 0 || 1024 < n || bufLen.toNat < 8 * n then ok (s.complete o 0x31 stBadParam 0)
  else
    let k := match (s.zone zone.toNat).active with
      | some v => min n (v.sec.blocks.length - f)
      | none => 0
    if k = 0 then ok (({ s with diagBuf := {} } : State).complete o 0x31 stSuccess 0)
    else ok (s.startMove o 0x31 { kind := .diag zone.toNat f, bytes := 8 * k, busOk := busOk })

/-- DEDUCED, log entry 50. -/
def execSnapshot (o : Origin) (first count bufLen : Word) (busOk : Bool) (s : State) : Host.Outcome State Fault Refusal :=
  s.command o (.snapshot o first count bufLen busOk) fun s =>
  let f := first.toNat
  let n := count.toNat
  if f % 16 ≠ 0 || n % 16 ≠ 0 || n < 16 || 137216 < n || 0x21800 < f + n || bufLen.toNat < 16 + n / 4 then
    ok (s.complete o 0x32 stBadParam 0)
  else
    let s := { s with snap := { s.snap with waiting := s.snap.waiting ++ [(o, f, n)] } }
    ok (s.startMove o 0x32 { kind := .sheet, bytes := 16 + n / 4, busOk := busOk, ready := false })

end Sys2Proof.Machine
end

