-- ==== Sys2Proof/Machine/Ports.lean ====
section
/-!
DEFINITION. Hyger Link ports: port states, the Gatehouse, transmission (R247 to R279).
-/
namespace Sys2Proof.Machine
open Sys2Proof

/-! ### Port states (R249 to R254) -/

/-- Codes of R272. -/
def PortSt.code : PortSt → Nat
  | .disabled => 0
  | .noSync => 1
  | .negotiating => 2
  | .up => 3

/-- A port takes a state; an event reports the change, and a port that comes UP starts its queue. -/
def State.setPort (s : State) (p : Nat) (st : PortSt) : State :=
  if (s.port p).st = st then s
  else ((s.updPort p fun q => { q with st := st }).postEvent 0x10 3 (p + fld st.code 8 8)).kick p

/-- Auto-negotiation applies: clause 37, or the SGMII exchange (R249 to R251). -/
def PortCfg.negotiates (c : PortCfg) : Bool := decide (c.phyMode = 1#2) || (decide (c.phyMode = 0#2) && c.anEn)

/-- The page a port sends first: the base page of R249, or the MAC's word of the SGMII exchange; with `ack` the acknowledgement of the
partner's page (R250). The places of the bits are those of the two standards (PRESUMED, log entry 13). -/
def PortCfg.page (c : PortCfg) (ack : Bool) : BitVec 16 :=
  let w := if c.phyMode = 1#2 then 0x0001#16 else 0x0020#16 ||| (c.advRf.setWidth 16 <<< (12 : Nat))
  if c.negotiates then (if ack then w ||| 0x4000#16 else w) else 0#16

/-- A page refused for what it offers: no FD in the base page, another speed or duplex in the control word (R249, R250). -/
def PortCfg.pageFault (c : PortCfg) (page : BitVec 16) : Bool :=
  if c.phyMode = 1#2 then !(page.getLsbD 12 && page.getLsbD 11 && !page.getLsbD 10) else !page.getLsbD 5

/-- The partner's page completes the negotiation: FD of the base page, or link up, full duplex and 1,000 Mb/s in the PHY's control
word. The places of these bits are those of the two standards (PRESUMED, log entry 13). -/
def PortCfg.pageOk (c : PortCfg) (page : BitVec 16) : Bool :=
  if c.phyMode = 1#2 then
    page.getLsbD 15 && page.getLsbD 12 && page.getLsbD 11 && !page.getLsbD 10
  else page.getLsbD 5

/-- The word a transmitter sends, `page` where it drives its line: it is high-impedance in LOAD (R450). -/
def State.onLine (s : State) (page : BitVec 16) : BitVec 16 := if s.powered then page else 0#16

/-- A port acquires synchronization (R252). -/
def execSyncAcquired (port : Fin 32) (s : State) : Host.Outcome State Fault Refusal :=
  let q := s.port port
  ok (if q.st = .noSync then
    (s.updPort port fun q => { q with sentPage := s.onLine (q.live.page false) }).setPort port (if q.live.negotiates then .negotiating else .up)
  else s)

/-! ### Drops (R266, R278, R279) -/

/-- A drop is counted under its reason. -/
def Port.drop (q : Port) (reason : Nat) (ft : BitVec 4) (h : BitVec 16) : Port :=
  let q := { q with ghTotal := q.ghTotal + 1#32, lastReason := reason, lastFtype := ft, lastHandle := h }
  match reason with
  | 1 => { q with dPreRun := satInc q.dPreRun 65535 }
  | 2 => { q with dCodeErr := satInc q.dCodeErr 65535 }
  | 3 => { q with dFormat := satInc q.dFormat 65535 }
  | 4 => { q with dForeign := satInc q.dForeign 65535 }
  | 5 => { q with dHandle := satInc q.dHandle 65535 }
  | 6 => { q with dRate := satInc q.dRate 65535 }
  | 7 => { q with dOpenRate := satInc q.dOpenRate 65535 }
  | _ => { q with dDisable := satInc q.dDisable 65535 }

/-- A frame that is in reception on an UP port is discarded under a reason, before RUN as PRE_RUN (R266, R269); whether one is, and how
much of it has been decoded, no command says (log entry 11). The result says whether one was. -/
def State.discardRx (s : State) (p reason : Nat) : Bool × State :=
  if (s.port p).st = .up then
    let reason := if s.pm.dstate = .run then reason else 1
    let (n, s) := s.draw
    let (m, s) := s.draw
    if Config.freeInReception n then
      let v := Config.freeMeasure m
      (true, s.updPort p fun q => q.drop reason (v.setWidth 4) (Config.freeMeasure (m + 1)))
    else (false, s)
  else (false, s)

/-! ### Negotiation (R249 to R252) -/

/-- The partner's page is received (R249, R250, R252): the port goes UP, or stays NEGOTIATING with AN_FAULT. A page that ends an
SGMII link takes the port out of UP (DEDUCED, log entry 44). A base page that comes to a 1000BASE-X port in UP leaves it UP: it alone is no
restart by the partner, which R252 lets SYNC_LOST bring; AN_FAULT is 0 again with a page that is not refused and at PORT_ENABLE, and stands
through a loss of synchronization (DESIGN CHOICE, log entry 79). -/
def execNegotiationComplete (port : Fin 32) (page : BitVec 16) (s : State) : Host.Outcome State Fault Refusal :=
  let q := s.port port
  let good := q.live.pageOk page
  if !q.live.negotiates || (decide (q.st ≠ .negotiating) && decide (q.st ≠ .up)) then ok s
  else
    let s := s.updPort port fun q => { q with lpPage := page, sentPage := s.onLine (q.live.page true), anFault := q.live.pageFault page }
    if q.st = .negotiating then ok (if good then s.setPort port .up else s)
    else if q.live.phyMode = 1#2 && !good then ok ((s.discardRx port 2).2.setPort port .noSync)
    else ok s

/-! ### Enabling and disabling (R252 to R254) -/

/-- Synchronization is lost, or the partner restarts negotiation (R252, R259) (DEDUCED, log entry 44). -/
def execSyncLost (port : Fin 32) (s : State) : Host.Outcome State Fault Refusal :=
  ok (if (s.port port).st = .up then (s.discardRx port 2).2.setPort port .noSync else s)

/-- PORT_ENABLE (R252 to R254, R268, R272). -/
def execPortEnable (o : Origin) (port : Byte) (s : State) : Host.Outcome State Fault Refusal :=
  s.command o (.portEnable o port) fun s =>
  let p := port.toNat
  let q := s.port p
  let c := q.cfg
  if 31 < p then ok (s.complete o 0x22 stBadParam 0)
  else if s.portMax ≤ p then ok (s.complete o 0x22 stFeatureAbsent 0)
  else if q.st ≠ .disabled then ok (s.complete o 0x22 stBadState 0)
  else if q.serdesFail then ok (s.complete o 0x22 0x31 0)
  else if c.tunnel && (decide (c.mac = 0#48) || c.mac.getLsbD 40 || decide (c.ip = 0#32) || decide (c.udpPort = 0#16)) then
    ok (s.complete o 0x22 0x06 0)
  else
    let s := s.updPort p fun q => { q with live := c, lpPage := 0#16, sentPage := s.onLine (c.page false), anFault := false, openCnt := 0 }
    ok ((s.setPort p .noSync).complete o 0x22 stSuccess 0)

/-- The connections of a port go STALE (R253, R281). -/
def State.portStale (s : State) (p : Nat) : State :=
  s.conns.foldl (fun t e =>
    match (t.conn e.1).decl with
    | some d =>
      let c := t.conn e.1
      if d.port = p && (c.st.session || decide (c.st = .opening)) then t.stale e.1 caPortDisabled else t
    | none => t) s

/-- PORT_DISABLE (R253). -/
def execPortDisable (o : Origin) (port : Byte) (s : State) : Host.Outcome State Fault Refusal :=
  s.command o (.portDisable o port) fun s =>
  let p := port.toNat
  let q := s.port p
  if 31 < p then ok (s.complete o 0x23 stBadParam 0)
  else if q.st = .disabled then ok (s.complete o 0x23 stSuccess 0)
  else
    let tx := q.queue.length + (if q.inFlight.isSome then 1 else 0)
    let (rx, s) := s.discardRx p 8
    let s := s.updPort p fun q => { q with queue := [], inFlight := none }
    let s := (s.setPort p .disabled).portStale p
    ok (s.complete o 0x23 stSuccess (fld tx 32 0 + (if rx then 2 ^ 32 else 0)))

/-! ### Transmission (R265, R276) -/

/-- A port finishes the frame it sends and starts the next. -/
def execPortTransmit (port : Fin 32) (s : State) : Host.Outcome State Fault Refusal :=
  match (s.port port).inFlight with
  | some f => ok ((s.updPort port fun q =>
      { q with inFlight := none, lastSent := some f, txCnt := q.txCnt + 1#32 }).kick port)
  | none => ok (s.kick port)

/-! ### The Gatehouse (R257, R261, R266 to R269) -/

/-- The connection a handle names on a port in the receive direction (DEDUCED, log entry 43). -/
def State.slotOf (s : State) (p : Nat) (h : BitVec 16) : Option (Nat × ConnDecl) :=
  (s.conns.filterMap fun e =>
    match e.2.decl with
    | some d => if d.port = p && decide (d.rxHandle = h) then some (e.1, d) else none
    | none => none).head?

/-- The header byte and the payload length keep R256 and R257 (DEDUCED, log entry 43). -/
def headerOk (f : Frame) : Bool :=
  let t := f.ftype.toNat
  let n := f.payload.length
  decide (1 ≤ t) && decide (t ≤ 5) && !f.resv && decide (n % 4 = 0) &&
  (if t = 1 then decide (4 ≤ n) && decide (n ≤ 256) else decide (8 ≤ n) && decide (n ≤ 64)) &&
  (if t = 1 || t = 5 then decide (f.ver ≠ 0#2) else decide (f.ver = 0#2))

/-- An untagged Ethernet frame with a UDP datagram in an IPv4 packet without options, not fragmented (R261). -/
def isUdp (e : List Byte) : Bool :=
  decide (54 ≤ e.length) && decide (fieldBE e 12 2 = 0x0800) && decide (fieldBE e 14 1 = 0x45) && decide (fieldBE e 20 2 % 0x4000 = 0) &&
  decide (fieldBE e 23 1 = 0x11)

/-- The frame check sequence, the IPv4 header checksum and the UDP checksum, which may be left out (R261). -/
def fcsOk (e : List Byte) : Bool :=
  let n := e.length - 4
  decide (4 ≤ e.length) && decide (e.drop n = bytesLE 4 (fcs (e.take n)).toNat)
def ipSumOk (e : List Byte) : Bool := decide (fold16 (sum16 ((e.drop 14).take 20)) = 0xFFFF)
def udpSumOk (e : List Byte) : Bool :=
  let n := fieldBE e 38 2
  decide (fieldBE e 40 2 = 0) ||
  decide (fold16 (sum16 ((e.drop 26).take 8) + 0x11 + n + sum16 ((e.drop 34).take n)) = 0xFFFF)

/-- A tunnel check of R261 that counts as FORMAT fails: MAGIC, TVER, BODY_LEN. -/
def tunnelBad (e : List Byte) : Bool :=
  decide (fieldBE e 42 2 ≠ 0x4859) || decide (fieldBE e 44 1 ≠ 1) || decide (fieldBE e 46 2 + 16 ≠ fieldBE e 38 2)

/-- Another check of R261 fails. -/
def tunnelForeign (c : PortCfg) (e : List Byte) (src : Option Word) : Bool :=
  !fcsOk e || decide (fieldBE e 0 6 ≠ c.mac.toNat) || !isUdp e || !ipSumOk e || decide (fieldBE e 30 4 ≠ c.ip.toNat) ||
  decide (fieldBE e 36 2 ≠ c.udpPort.toNat) || !udpSumOk e ||
  (match src with
   | some ip => decide (ip.toNat ≠ fieldBE e 26 4)
   | none => false)

/-- The Hyger frame of a received frame: in tunnel framing what the body of the datagram spells; a clause 36 packet, and in tunnel framing
a frame that is no datagram, has none (R263). -/
def PortCfg.received (c : PortCfg) (f : Frame) (line : LineInfo) : Option Frame :=
  if c.tunnel then (if isUdp line.eth then frameOf ((line.eth.drop 50).take (fieldBE line.eth 46 2)) else none)
  else if line.packet then none
  else some f

/-- The checks of a frame that count as FORMAT (R266): its own, and those against the declaration its handle names. -/
def formatBad (f : Frame) (c : Option ConnDecl) : Bool :=
  !headerOk f ||
  match c with
  | some d => (decide (f.ftype = ftData) && decide (f.payload.length ≠ payloadBytes d.rxPoints)) || decide (f.cmac ≠ d.cmac)
  | none => false

/-- The reason a received frame is dropped for: the first check of R266 that fails (DEDUCED, log entry 43). -/
def State.gatehouse (s : State) (p : Nat) (f : Frame) (line : LineInfo) : Option Nat :=
  let q := s.port p
  let tun := q.live.tunnel
  let g := q.live.received f line
  let c := g.bind fun x => s.slotOf p x.handle
  let decl := c.map fun e => e.2
  let fmt := match g with
    | some x => formatBad x decl
    | none => tun && isUdp line.eth
  if s.pm.dstate ≠ .run then some 1
  else if !tun && line.codeErr then some 2
  else if (!tun && !line.packet && line.tooLong) || fmt || (tun && isUdp line.eth && tunnelBad line.eth) then some 3
  else if (!tun && line.packet) || (tun && tunnelForeign q.live line.eth (decl.map fun d => d.partnerIp)) then some 4
  else
    match g, c with
    | some x, some (k, _) =>
      if line.removed && decide ((s.conn k).st = .closed) then some 5
      else if x.ftype = ftOpen then (if 16 ≤ q.openCnt then some 7 else none)
      else if 2 ≤ (s.conn k).rateCnt then some 6
      else none
    | _, _ => some 5

/-- HB hands a frame to both lanes, behind those before it (R22, R263). -/
def State.hand (s : State) (k : Nat) (f : Frame) : State :=
  let put (d : LaneDie) : LaneDie := { d with rxq := d.rxq ++ [{ slot := k, frame := f, lost := false }] }
  (s.updLane .a put).updLane .b put

/-- A received frame ends (R266): dropped and counted, or forwarded unchanged to both lanes. A port that is not UP receives nothing. -/
def execPortFrameEnd (port : Fin 32) (f : Frame) (line : LineInfo) (s : State) : Host.Outcome State Fault Refusal :=
  let q := s.port port
  if q.st ≠ .up then ok s
  else
    let g := q.live.received f line
    match s.gatehouse port f line with
    | some r =>
      ok (s.updPort port fun q => q.drop r ((g.map fun x => x.ftype).getD 0#4) ((g.map fun x => x.handle).getD 0#16))
    | none =>
      match g with
      | none => ok s
      | some x =>
        let s := s.updPort port fun q =>
          { q with rxCnt := q.rxCnt + 1#32, openCnt := if x.ftype = ftOpen then q.openCnt + 1 else q.openCnt }
        match s.slotOf port x.handle with
        | some (k, _) =>
          let s := if x.ftype = ftOpen then s else s.updConn k fun c => { c with rateCnt := c.rateCnt + 1 }
          ok (s.hand k x)
        | none => ok s

/-- A connection's Gatehouse window ends (R267). -/
def execRateWindow (slot : Fin 2048) (s : State) : Host.Outcome State Fault Refusal :=
  ok (s.updConn slot fun c => { c with rateCnt := 0 })

/-- A port's OPEN window ends (R268). -/
def execOpenRateWindow (port : Fin 32) (s : State) : Host.Outcome State Fault Refusal :=
  ok (s.updPort port fun q => { q with openCnt := 0 })

end Sys2Proof.Machine
end

