-- ==== Sys2Proof/Machine/Power.lean ====
section
/-!
DEFINITION. Reset, boot, the start test and its record, shutdown, Dormant mode, bench exit (R329 to R336, R386, R432, R441 to
R457).
-/
namespace Sys2Proof.Machine
open Sys2Proof

/-! ### Resets (R29, R432, R441, R444, R445) -/

/-- A supply fails (R441). -/
def execPowerOnReset (loss : PowerLoss) (s : State) : Host.Outcome State Fault Refusal := ok (s.powerLost loss)

/-- A low pulse acts: never below 1 µs, always from 10 µs, and between them it may or may not (DESIGN CHOICE, log entry 7). -/
def State.pulseActs (s : State) (lowNs : Nat) : Bool × State :=
  if lowNs < 1000 then (false, s)
  else if 10000 ≤ lowNs then (true, s)
  else
    let (n, s) := s.draw
    (Config.freePulseActs n, s)

/-- RESET_N. A device held in reset already stays so, its cause unchanged. -/
def execResetN (lowNs : Nat) (s : State) : Host.Outcome State Fault Refusal :=
  let (act, s) := s.pulseActs lowNs
  ok (if act && !s.pm.inReset then s.wholeReset 1 true else s)

/-- Boot modes that read the flash (DEDUCED, log entry 53). -/
def Pm.flashMode (p : Pm) : Bool := p.bootsel == 1#2 || p.bootsel == 2#2

/-- PERST_N: the whole device in host boot modes, else the host interface alone, which is to become ready again (R386). Trial overrides
end, those that wait through a reset too. -/
def execPerstN (lowNs : Nat) (s : State) : Host.Outcome State Fault Refusal :=
  let (act, s) := s.pulseActs lowNs
  if !act then ok s
  else if s.pm.inReset then ok { s with otp := s.otp.afterReset false }
  else if s.pm.flashMode then
    let s := s.dropOverrides.hostReset.settle
    ok { s with hi := { s.hi with d3 := false, ready := false } }
  else ok (s.wholeReset 2 false)

/-- The two lane dies leave reset at different instants, so that their counts start at different instants (R347): which of them is first
and by how many ticks is free (DESIGN CHOICE, log entry 71). -/
def State.skewLanes (s : State) : State :=
  let (n, s) := s.draw
  let k := (Config.freeMeasure n).toNat
  { s with tb := { s.tb with
      skewA := if k % 2 = 1 then k / 2 + 1 else 0
      skewB := if k % 2 = 0 then k / 2 + 1 else 0 } }

/-- Supplies and pins have been good for 2 ms (R441, R446): every register has its reset value after the release, whatever came in while
the device was held (R15), and both GSTOP inputs start open (R204). -/
def execResetRelease (bootsel : BitVec 2) (seqErr : Bool) (s : State) : Host.Outcome State Fault Refusal :=
  ok (if s.pm.inReset then
    (((s.atReset true).updPm fun p =>
      { p with inReset := false, dstate := .load, bootsel := bootsel, bench := bootsel == 3#2, seqErr := seqErr })).skewLanes
  else s)

/-! ### The flash record (R332 to R335) -/

/-- A record whose COUNTER may stand (R332). -/
def recValid (r : BistRec) : Bool := r.counter != 0#32 && r.counter != 0xFFFFFFFF#32

/-- The COUNTER that follows. -/
def nextCounter (c : Word) : Word := if c = 0xFFFFFFFE#32 then 1#32 else c + 1#32

def validRec (r : Option BistRec) : Option BistRec := r.filter recValid

/-- The record in one of the two sectors in use, 0 or 1, and a write of it. -/
def Bist.record (b : Bist) (k : Nat) : Option BistRec := tabGet none b.flash (b.recSec + k)
def Bist.setRecord (b : Bist) (k : Nat) (r : Option BistRec) : Bist := { b with flash := tabSet none b.flash (b.recSec + k) r }

/-- The first of the two sectors (R332, R419): as OTP region 3 names it, else the last but one of the flash. -/
def State.recSector (s : State) (size : Nat) : Nat := if s.recSectorFuse = 0 then size / 4096 - 2 else s.recSectorFuse

/-- The sector of the newest valid record, with the record (DEDUCED, log entry 53). -/
def Bist.newest (b : Bist) : Option (Nat × BistRec) :=
  match validRec (b.record 0), validRec (b.record 1) with
  | none, none => none
  | some r, none => some (0, r)
  | none, some r => some (1, r)
  | some r, some q =>
    if q.counter = nextCounter r.counter then some (1, q)
    else if r.counter = nextCounter q.counter then some (0, r)
    else if r.counter.toNat < q.counter.toNat then some (1, q)
    else some (0, r)

/-- The bytes the CRCs of a record cover (R333): CONSUMED counts as 0xFF. -/
def recBytes (r : BistRec) : List Byte :=
  bytesLE 4 r.magic.toNat ++ [r.format, 0xFF#8, r.result, r.cond] ++ bytesLE 4 r.counter.toNat ++
  bytesLE 8 r.deviceId.toNat ++ [r.tjMax, BitVec.ofNat 8 r.entries.length, 0#8, 0#8] ++
  bytesLE 8 r.pairOk.toNat ++ bytesLE 8 r.chOk.toNat ++ r.entries.flatMap entryBytes

/-- REC_REASON for the newest record (R335, R343); `crcOk` says that both lanes read it without a failure (DEDUCED, log entry 53). -/
def State.recReason (s : State) (r : BistRec) (crcOk : Bool) : Nat :=
  if r.magic ≠ 0x49564252#32 || r.format ≠ 1#8 then 7
  else if !crcOk || r.crcA ≠ crcA (recBytes r) || r.crcB ≠ crcB (recBytes r) then 3
  else if r.deviceId ≠ (s.otpWord 0).shadow then 4
  else if r.consumed ≠ 0xFF#8 then 5
  else if r.cond ≠ 7#8 || r.result = 3#8 then 6
  else 0

/-- CONSUMED of a sector's record is programmed (DEDUCED, log entry 53). -/
def Bist.consume (b : Bist) (k : Nat) : Bist := b.setRecord k ((b.record k).map fun r => { r with consumed := 0#8 })

/-- Quick or full start (R335, R447) (DEDUCED, log entry 53). -/
def State.chooseStart (s : State) (crcOk : Bool) : State :=
  let full (reason : Nat) (t : State) : State :=
    { t with bist := { t.bist with startMode := 2#2, recReason := reason }, pm := { t.pm with quick := false } }
  if !s.pm.flashMode || !s.pm.sfdpOk then full 1 s
  else if !s.pm.erase4k then full 2 s
  else
    match s.bist.newest with
    | none => full 2 s
    | some (k, r) =>
      let reason := s.recReason r crcOk
      let s := { s with bist := s.bist.consume k }
      if reason = 0 then
        { s with
          bist := { s.bist with startMode := 1#2, recReason := 0, recCounter := r.counter, repairs := r.entries.filter (·.action = 0#2) }
          pm := { s.pm with quick := true } }
      else full reason s

/-! ### Boot (R63, R421, R447, R449) -/

/-- The status codes of R406 that say a failure. -/
def failCodes : List Nat :=
  [0x02, 0x03, 0x04, 0x05, 0x06, 0x07, 0x08, 0x09, 0x0A, 0x0B, 0x0C, 0x10, 0x11, 0x12, 0x13, 0x14, 0x15, 0x16,
   0x20, 0x21, 0x22, 0x23, 0x24, 0x25, 0x26, 0x27, 0x28, 0x29, 0x30, 0x31, 0x40, 0x41, 0x42, 0x43, 0x44]

/-- A failure of the flash boot for which no command gives a status: some failure code of R406, the manual does not say which
(DESIGN CHOICE, log entry 6). -/
def State.bootFailOpen (s : State) (err : Nat) : State :=
  let (n, s) := s.draw
  s.bootFail err (failCodes.getD ((Config.freeMeasure n).toNat % failCodes.length) 0x0C)

/-- The fastest of the 1-1-4, 1-1-2 and 1-1-1 reads that a flash lists, and whether its size asks for 4-byte addresses: the device uses
the flash's own instructions for them, or enters its 4-byte address mode (R447, R462). -/
def flashReadMode (f : FlashInfo) : BitVec 2 := if f.read114 then 2#2 else if f.read112 then 1#2 else 0#2
def flashAddr4 (f : FlashInfo) : Bool := decide (16777216 < f.size)

/-- What the SFDP tables give (R447). -/
def State.readSfdp (s : State) (flash : FlashInfo) : State :=
  if flash.sfdpOk then
    let s := s.updPm fun p => { p with
      sfdpOk := true, erase4k := flash.erase4k, addr4 := flashAddr4 flash, readMode := flashReadMode flash
      addrMode := flashAddr4 flash && !flash.fourByteTable }
    { s with bist := { s.bist with recSec := s.recSector flash.size } }
  else (s.updPm fun p => { p with sfdpOk := false }).bootFailOpen 1

/-- The load is complete: shadows, hard repairs, the lanes' checks of what they were delivered (R421), the flash's tables, the choice of
the start test. A port that is enabled already begins to send (R450). -/
def execShadowsLoaded (excs : List OtpExc) (split : List LockRead) (crcOkA crcOkB : StartCrc) (flash : FlashInfo) (s : State) :
    Host.Outcome State Fault Refusal :=
  if s.pm.inReset || decide (s.pm.dstate ≠ .load) then ok s
  else
    let s := s.loadShadows excs split
    let s := s.hardRepairs.foldl (fun t e => t.updPair e.pair fun q => q.swapRow e.lane e.row e.spare) s
    let s := if crcOkA.shadows then s else s.laneFault .a 0x5001#16 0
    let s := if crcOkB.shadows then s else s.laneFault .b 0x5001#16 0
    let s := if s.pm.flashMode then s.readSfdp flash else s
    let s := s.chooseStart (crcOkA.record && crcOkB.record)
    let s := s.updPm fun p => { p with dstate := .startTest }
    ok ((List.range 32).foldl (fun t n => t.updPort n fun q => if q.st = .disabled then q else { q with sentPage := q.live.page false }) s)

/-! ### The start test (R329, R336, R340, R472) -/

/-- The 10 ms check while the start waits: one deferral for each wait (DESIGN CHOICE, log entry 40). -/
def execTestConditionPoll (cond : TestCond) (s : State) : Host.Outcome State Fault Refusal :=
  if s.pm.inReset || decide (s.pm.dstate ≠ .startTest) then ok s
  else if condOk cond || s.bist.deferred then ok (s.seeCond cond)
  else ok (s.defer cond)

/-- The pairs a record marks: an entry that was not repaired, or PAIR_OK 0. -/
def recMarks (r : BistRec) (p : Nat) : Bool :=
  !r.pairOk.getLsbD p || r.entries.any fun e => decide (e.pair.toNat = p) && decide (e.action ≠ 0#2)

/-- The pairs the split mask names: the eight lowest of them, and whether more were named. -/
def clipMask (m : BitVec 36) : BitVec 36 × Bool :=
  let ps := maskBits m
  ((ps.take 8).foldl (fun v p => setBit v p true) 0#36, decide (8 < ps.length))

/-- Roles after the start test: UNUSABLE, SPLIT or FREE; a pair whose stop bit a fault has latched is UNUSABLE (R315) (DEDUCED, log
entry 53). -/
def State.startRoles (s : State) (bad : Nat → Bool) (rows : List BistEntry) (mask : BitVec 36) : State :=
  (List.range 36).foldl (fun t p =>
    let q := t.pair p
    let fail := bad p || q.stopA || q.stopB || q.noSpare
    let rep := rows.any fun e => decide (e.pair.toNat = p)
    t.updPair p fun q => { q with
      role := if fail then .unusable else if mask.getLsbD p then .split else .free
      last := if fail then 3 else if rep then 2 else 1
      passedAt := if fail then q.passedAt else some s.now }) s

/-- A channel fails its threshold loop-back: LOOPBACK_FAIL. -/
def State.loopFail (s : State) (n : Nat) : State := s.chanFault n 0x300A#16 fun c => { c with loopbackFail := true }

/-- The analogue results of the start test; the Light Meter cross-check is part of a full start alone, and a quick start loops back no
SerDes of a port that is enabled (R336). -/
def State.startAnalogue (s : State) (res : StartResult) (quick : Bool) : State :=
  let s := { s with bist := { s.bist with chOk := res.chOk } }
  let s := (below 64 fun n => !res.chOk.getLsbD n).foldl State.loopFail s
  let s := (List.range s.portMax).foldl (fun t n => t.updPort n fun q =>
    if quick && q.st != .disabled then q else { q with serdesFail := res.portFail.getLsbD n }) s
  let s := res.anaFail.foldl (fun t e =>
    if itemCount (anaCode e.1) ≤ e.2 || (quick && e.1 == .lmXchk) then t else t.anaResult e.1 e.2 false) s
  if quick then s
  else
    let s := { s with bist := { s.bist with lmAOk := res.lmOkA, lmBOk := res.lmOkB } }
    let s := if res.lmOkA then s else s.laneFault .a 0x2001#16 s.laneA.laps
    if res.lmOkB then s else s.laneFault .b 0x2001#16 s.laneB.laps

/-- What a steward folds of the start test's result (R328). -/
def startWords (r : StartResult) : List Word :=
  resultWords 0 r.repairs ++ r.failed.map (fun p => word p.val) ++ [word r.chOk.toNat, word (r.chOk.toNat / 2 ^ 32), word r.portFail.toNat,
    word (flag r.lmOkA 0 + flag r.lmOkB 1)] ++ r.anaFail.flatMap fun e => [word (anaCode e.1), word e.2]

/-- The start test ends: roles, analogue results, then the image of a flash boot, or RUN. A result the stewards differ on is not taken
(R328): the device stays in its start test (DESIGN CHOICE, log entry 53). While the start waits for the conditions of R329 its test has
not ended: a check that finds them met comes first (R336). -/
def execStartTestEnd (cond : TestCond) (res : Found StartResult) (flashImg : List (BitVec 24 × Image × Image)) (s : State) :
    Host.Outcome State Fault Refusal :=
  if s.pm.inReset || decide (s.pm.dstate ≠ .startTest) then ok s
  else if s.bist.deferred then ok s
  else if !condOk cond then ok (s.defer cond)
  else if res.a ≠ res.b then ok (s.foldBoth (startWords res.a) (startWords res.b)).resultsDiffer
  else
    let s := s.foldBoth (startWords res.a) (startWords res.b)
    let res := res.a
    let s := s.seeCond cond
    let quick := s.pm.quick
    let s := { s with bist := { s.bist with zeroed := if quick then BitVec.allOnes 36 else 0#36 }, gc := { s.gc with roles := true } }
    let marks (p : Nat) : Bool := quick && match s.bist.newest with
      | some (_, r) => recMarks r p
      | none => false
    let soft := s.bist.repairs ++ res.repairs
    let s := { s with bist := { s.bist with repairs := soft } }.applyRepairs soft
    let img := if s.pm.flashMode && s.pm.sfdpOk then (flashImg.find? fun e => decide (e.1 = s.imgSector)).map Prod.snd else none
    let header := match img with
      | some (a, _) => a.splitMask
      | none => 0#36
    let (mask, clipped) := clipMask (s.splitFuse ||| header)
    let s := s.startRoles (fun p => marks p || res.failed.any fun q => decide (q.val = p)) res.repairs mask
    let s := { s with db := { s.db with
      clipped := clipped, headerUsed := decide (header ≠ 0#36)
      splitMask := (below 36 fun p => (s.pair p).role == Role.split).foldl (fun v p => setBit v p true) 0#36 } }
    let s := s.startAnalogue res quick
    if s.pm.flashMode then
      let s := s.updPm fun p => { p with dstate := .config }
      match img with
      | some (a, b) =>
        ok (({ s with buf := { total := a.size, loaded := a.size, imgA := some a, imgB := some b } }).startVerify none true).settle
      | none => ok (if s.pm.sfdpOk then s.bootFailOpen 2 else s).enterRun.settle
    else ok s.enterRun.settle

/-! ### Dormant mode (R350, R454 to R457) -/

/-- Raw levels of the inputs as FD reads them. -/
def State.rawMask (s : State) : BitVec 64 := (below 64 fun n => (s.chan n).raw).foldl (fun v n => setBit v n true) 0#64

/-- A lane announces its entry with its next link frames; nobody has taken the announcement yet (R457). -/
def LaneDie.announce (d : LaneDie) : LaneDie := { d with dormAnn := true, annX := false, annFd := false }

/-- Dormant mode is entered; the checks stay in force until the link frames have carried the announcements (R457) (DEDUCED, log
entry 52). -/
def State.goDormant (s : State) : State :=
  let open? (k : Nat) : Bool := (s.conn k).st != .withdrawn && (s.conn k).st != .closed
  let t := s.closeAllConns.dropOthers
  let t := s.conns.foldl (fun t e => if open? e.1 then t.updConn e.1 fun c => { c with wakeOpen := true } else t) t
  { t with
    tb := { t.tb with laLf := true, lbLf := true, xchkOff := true }
    laneA := t.laneA.announce
    laneB := t.laneB.announce
    pm := { t.pm with dstate := .dormant, rawAtEntry := t.rawMask } }

/-- Why a write of PM_MODE.DORMANT is discarded: DORMANT is a WL field, so out of Dormant mode a write is while a zone is not WITHDRAWN,
whatever its value (R12, R454); a 1 is also outside RUN, and while LF fails (DEDUCED, log entry 52). -/
def State.dormantBar (s : State) (on : Bool) : Option Nat :=
  if s.pm.dstate = .dormant then none
  else if !s.allWithdrawn then some 1
  else if !on then none
  else if s.pm.dstate ≠ .run then some 3
  else if s.tb.lfFail then some 1 else none

/-- A write of 1 to PM_MODE.DORMANT. -/
def State.dormantWrite (s : State) (src : Nat) : State :=
  match s.dormantBar true with
  | some c => s.wrej c src 0x2004
  | none => if s.pm.dstate = .dormant then s else s.goDormant

def execDormantEntry (s : State) : Host.Outcome State Fault Refusal := ok (s.dormantWrite 0)

/-- Announcements of entry that were not taken by a wake are void (R457). -/
def State.dropAnns (s : State) : State :=
  let both := s.laneA.annX && s.laneB.annX
  let void (d : LaneDie) : LaneDie :=
    { d with dormAnn := d.dormAnn && both, annX := d.annX && both, annFd := d.annFd && s.fd.dormHold }
  { s with laneA := void s.laneA, laneB := void s.laneB }

/-- The device wakes: the lanes run from their PLLs, commands that waited are served (DEDUCED, log entry 52). -/
def State.wake (s : State) : State :=
  if s.pm.dstate = .dormant then
    ({ s.dropAnns with
      tb := { s.tb with laLf := false, lbLf := false }
      pm := { s.pm with dstate := .run } }).settle
  else s

def execWake (s : State) : Host.Outcome State Fault Refusal := ok s.wake

/-- The 1 ms raw read: a change on a wake channel in INPUT mode wakes (DEDUCED, log entry 52). -/
def execDormantInputRead (raw : BitVec 64) (s : State) : Host.Outcome State Fault Refusal :=
  if s.pm.dstate ≠ .dormant then ok s
  else
    let ins := below 64 fun n => (s.chan n).mode == 1#2
    let was := s.pm.rawAtEntry
    let sel (n : Nat) : Bool := if n < 32 then bit s.pm.wakeLo n else bit s.pm.wakeHi (n - 32)
    let hit := ins.any fun n => sel n && (raw.getLsbD n != was.getLsbD n)
    let s := s.updChans ins fun n c => { c with raw := raw.getLsbD n }
    let s := s.updPm fun p => { p with rawAtEntry := raw }
    ok (if hit then s.wake else s)

/-- A lane has not announced its return within 2 ms of the wake: to the other lane, or to FD (DEDUCED, log entry 52). -/
def execWakeReturnTimeout (lane : Lane) (s : State) : Host.Outcome State Fault Refusal :=
  let d := s.lane lane
  if s.pm.dstate = .dormant then ok s
  else
    let s := if d.annX && !d.retAnn then s.laneFault (otherLane lane) 0x2006#16 0 else s
    ok (if s.fd.dormHold && d.annFd && !d.retFd then s.sbLost lane else s).settle

/-! ### Shutdown (R331, R452, R453) -/

/-- SHUTDOWN_N has been low for 100 µs. -/
def execShutdownN (s : State) : Host.Outcome State Fault Refusal :=
  let s := s.wake
  match s.pm.dstate with
  | .run => ok (s.startShutdown none true).settle
  | .shutdown => ok (s.updPm fun p => { p with shutCut := true }).settle
  | _ => ok s

/-- RESULT of R333 (DEDUCED, log entry 54). -/
def shutdownResult (cond : TestCond) (es : List BistEntry) : Nat :=
  if !condOk cond then 3
  else if 64 < es.length || es.any (fun e => decide (e.action ≠ 0#2)) then 2
  else if es.isEmpty then 0
  else 1

/-- PAIR_OK: no failure of the pair that was not repaired, and none that finds no place in the record. -/
def pairOkMask (es : List BistEntry) : BitVec 64 :=
  (below 36 fun p =>
    !(es.any fun e => decide (e.pair.toNat = p) && decide (e.action ≠ 0#2)) &&
    !((es.drop 64).any fun e => decide (e.pair.toNat = p))).foldl (fun v p => setBit v p true) 0#64

/-- The record goes into the sector that does not hold the newest one (DEDUCED, log entry 54). -/
def State.writeRecord (s : State) (cond : TestCond) (tjMax : Byte) (es : List BistEntry) (chOk : BitVec 64) : State :=
  let res := shutdownResult cond es
  let (old, c) := match s.bist.newest with
    | some (k, r) => (k, nextCounter r.counter)
    | none => (1, 1#32)
  let r : BistRec := {
    magic := 0x49564252#32, format := 1#8, consumed := 0xFF#8, result := BitVec.ofNat 8 res
    cond := BitVec.ofNat 8 (flag cond.vcore 0 + flag cond.timebase 1 + flag cond.tj 2)
    counter := c, deviceId := (s.otpWord 0).shadow, tjMax := tjMax
    pairOk := if res = 3 then 0#64 else pairOkMask es, chOk := if res = 3 then 0#64 else chOk
    entries := es.take 64, crcA := 0#32, crcB := 0#32 }
  let r := { r with crcA := crcA (recBytes r), crcB := crcB (recBytes r) }
  { s with bist := { s.bist.setRecord (1 - old) (some r) with recCounter := c } }

/-- OFF: ports powered down, outputs off (DEDUCED, log entry 54). -/
def State.goOff (s : State) : State :=
  let s := s.updPm fun p => { p with dstate := .off, shutO := none, bistDue := false }
  let s := s.updChans allChans fun _ c => { c.cmdsOff with nsOn := false, nsSilent := false, pulse := none }
  (List.range 32).foldl (fun t n => (t.updPort n fun q => { q with queue := [], inFlight := none }).setPort n .disabled) s

/-- The BIST step and its record are complete. `fails` are the two lanes' copies of the result: HB writes no record where
they differ (R333), and the stewards have mismatched (R328). -/
def execShutdownRecordWritten (cond : TestCond) (tjMax : Byte) (fails : Found (List BistEntry)) (chOk : BitVec 64) (s : State) :
    Host.Outcome State Fault Refusal :=
  if s.pm.dstate ≠ .shutdown || !s.pm.bistDue then ok s
  else
    let differ := condOk cond && decide (fails.a ≠ fails.b)
    let s := if condOk cond then s.foldBoth (resultWords 0 fails.a) (resultWords 0 fails.b) else s
    let s := if differ then s.resultsDiffer else s
    let es := s.bist.repairs ++ (if condOk cond && !differ then fails.a else [])
    let res := if differ then 3 else shutdownResult cond es
    let s := if condOk cond then s.seeCond cond else s.defer cond
    let wr := s.pm.flashMode && s.pm.erase4k && !differ
    let s := if wr then s.writeRecord cond tjMax es chOk else s
    let cnt := if wr then s.bist.recCounter.toNat else 0
    ok (s.completeOpt s.pm.shutO 0x51 stSuccess (fld res 8 0 + fld cnt 32 32)).goOff

/-! ### Bench mode (R446, R465) -/

/-- Bench mode cannot be left (R465, R471). -/
def State.benchHeld (s : State) : Bool := s.db.broken || !(below 36 fun p => (s.pair p).role == .halted).isEmpty

/-- A write of 1 to PM_MODE.BENCH_EXIT takes effect. -/
def State.leaveBench (s : State) : State :=
  if !s.pm.bench || s.benchHeld then s
  else
    let s := ((s.holdChans s.safetyChans).updPm fun p => { p with bench := false }).dropOverrides
    { s with db := { s.db with ir := irKept s.db.ir } }

def execBenchExit (s : State) : Host.Outcome State Fault Refusal := ok (if s.pm.bench && s.benchHeld then s.wrej 3 0 0x2004 else s.leaveBench)

end Sys2Proof.Machine
end

