-- ==== Sys2Proof/Machine/RegMap.lean ====
section
/-!
DEFINITION. The register index (R479, R480, R485): every register of BAR0 by its offset, the die that holds it, and which registers a
write reaches only while every zone is WITHDRAWN (R12).
-/
namespace Sys2Proof.Machine
open Sys2Proof

/-- A row of the index: `n` elements `stride` apart, each an array of `n2` registers `stride2` apart. -/
structure RegRow where
  base : Nat
  stride : Nat
  n : Nat
  stride2 : Nat
  n2 : Nat
  die : Die
  deriving DecidableEq, Repr

/-- A row of registers without elements. -/
def regs (base n : Nat) (die : Die) : RegRow := { base := base, stride := 4 * n, n := 1, stride2 := 4, n2 := n, die := die }

/-- A row of `n` elements of `n2` registers that lie one after the other. -/
def regArray (base stride n n2 : Nat) (die : Die) : RegRow :=
  { base := base, stride := stride, n := n, stride2 := 4, n2 := n2, die := die }

def indexGlobal : List RegRow := [regs 0x00000 8 .hb, regs 0x00020 4 .la]

def indexHost : List RegRow :=
  [regs 0x01000 3 .hb, regArray 0x01100 0x40 16 6 .hb, regArray 0x01118 0x40 16 1 .la, regArray 0x01500 0x20 4 4 .hb]

/-- The MSI-X table and its pending bits, which R479 does not count among the registers. -/
def indexMsix : List RegRow := [regs 0x01800 128 .hb, regs 0x01A00 2 .hb]

def indexPower : List RegRow := [regs 0x02000 7 .hb]

def indexOtp : List RegRow :=
  [regs 0x03000 3 .hb, regs 0x03010 8 .hb, regs 0x03030 8 .hb, regs 0x03050 8 .hb, regs 0x03070 8 .hb, regs 0x03090 1 .hb,
   regs 0x03800 512 .hb]

def indexTimers : List RegRow :=
  [regs 0x04000 3 .la, regs 0x04010 3 .lb, regs 0x04020 3 .hb, regs 0x04030 1 .hb, regs 0x04040 4 .hb, regArray 0x04100 0x20 32 6 .hb]

def indexChecks : List RegRow := [regArray 0x05000 0x20 8 7 .hb, regs 0x05100 2 .hb, regs 0x05108 2 .fd]

def indexBist : List RegRow := [regs 0x06000 4 .la, regs 0x06100 36 .la, regs 0x06200 3 .la, regs 0x0620C 1 .hb]

/-- The blocks of the first `ports` ports. -/
def indexPorts (ports : Nat) : List RegRow :=
  [regArray 0x08000 0x400 ports 7 .hb, regArray 0x08020 0x400 ports 3 .hb, regArray 0x08030 0x400 ports 6 .hb,
   regArray 0x08100 0x400 ports 192 .la]

def indexPairs : List RegRow :=
  [regArray 0x10000 0x200 36 3 .la, regArray 0x1000C 0x200 36 1 .lb, regArray 0x10010 0x200 36 2 .la, regArray 0x10018 0x200 36 1 .lb,
   regArray 0x1001C 0x200 36 1 .la, regs 0x14800 2 .la, regs 0x14808 1 .lb, regs 0x14810 3 .la, regs 0x14820 2 .la,
   regs 0x15000 256 .la, regs 0x15400 256 .la]

def indexField : List RegRow :=
  [regArray 0x18000 0x40 64 3 .fd, regArray 0x18010 0x40 64 8 .fd, regArray 0x19000 0x40 4 3 .fd, regs 0x19200 2 .fd, regs 0x19210 2 .fd,
   regs 0x19220 1 .fd, regs 0x19230 1 .fd, regs 0x19300 32 .fd]

def indexFaults : List RegRow := [regs 0x1A000 8 .la, regs 0x1A100 256 .la]

def indexDebug : List RegRow := [regs 0x1B000 8 .hb]

/-- The index of R485 for a variant with a number of ports. -/
def regIndex (ports : Nat) : List RegRow :=
  indexGlobal ++ indexHost ++ indexPower ++ indexOtp ++ indexTimers ++ indexChecks ++ indexBist ++ indexPorts ports ++ indexPairs ++
  indexField ++ indexFaults ++ indexDebug

/-- A row holds an offset. -/
def RegRow.has (r : RegRow) (off : Nat) : Bool :=
  decide (r.base ≤ off) &&
  let d := off - r.base
  decide (d / r.stride < r.n) && decide (d % r.stride / r.stride2 < r.n2) && decide (d % r.stride % r.stride2 = 0)

/-- The row of an offset. -/
def regRow (ports off : Nat) : Option RegRow := (regIndex ports ++ indexMsix).find? fun r => r.has off

/-- A register is implemented at an offset (R3, R11, R480). -/
def State.hasReg (s : State) (off : Nat) : Bool := (regRow s.portMax off).isSome

/-- The registers of R479. -/
def regCount (ports : Nat) : Nat := ((regIndex ports).map fun r => r.n * r.n2).sum

/-- The element of an array at an offset, and the place in it. -/
def elem (off base stride : Nat) : Nat × Nat := ((off - base) / stride, (off - base) % stride)

/-- A register whose writable fields are WL: its write counts only while every zone is WITHDRAWN (R12). -/
def isWl (off : Nat) : Bool :=
  if off < 0x10000 then
    decide (0x8000 ≤ off) && (let r := (elem off 0x8000 0x400).2; decide (r = 0) || decide (8 ≤ r) && decide (r ≤ 0x18))
  else if off < 0x18000 then decide (off = 0x14800)
  else if off < 0x19000 then
    let r := (elem off 0x18000 0x40).2
    decide (r = 0) || decide (r = 4) || decide (0x10 ≤ r) && decide (r ≤ 0x20)
  else if off < 0x19200 then decide ((elem off 0x19000 0x40).2 = 0)
  else decide (off = 0x19200) || decide (off = 0x19210) || decide (off = 0x1A01C) ||
    (decide (0x19300 ≤ off) && decide (off < 0x19380) && decide (off % 8 = 0))

end Sys2Proof.Machine
end

