-- ==== Sys2Proof/Machine/Timers.lean ====
section
/-!
DEFINITION. Timebases, general timers and the stagger group (R347 to R370), the LF clock, and the 10 ns
tick the block takes while no command waits.
-/
namespace Sys2Proof.Machine
open Sys2Proof

/-! ### Timers -/

/-- The count of a timer: its own, or the group's for GT16 to GT31 (R360). -/
def State.gtCount (s : State) (k : Nat) : Word := if k < 16 then (s.gt k).count else s.stg.count

/-- A capture edge of an enabled timer (R359). -/
def State.gtCaptureAt (s : State) (k : Nat) : State :=
  let g := s.gt k
  if g.en then
    let c := s.gtCount k
    let s := s.updGt k fun g => { g with cap := c, ovr := g.ovr || g.full, full := true }
    if g.capEvEn then s.postEvent 0x05 3 (k + fld 1 8 8 + fld c.toNat 32 32) else s
  else s

/-- A rising edge of MATCH of timer k: counted, reported, and a capture edge for the timers that name it (R356). -/
def State.gtFire (s : State) (k : Nat) : State :=
  let g := s.gt k
  let s := s.updGt k fun g => { g with evtCnt := satInc g.evtCnt 255, lvl := true }
  let s := if g.evEn then s.postEvent 0x05 3 (k + fld (s.gtCount k).toNat 32 32) else s
  (below 32 fun j =>
    let h := s.gt j
    h.en && decide (h.capSrc = 2#3) && decide (h.capArg.toNat = k)).foldl State.gtCaptureAt s

/-- The count of an independent timer becomes c, and MATCH follows. -/
def State.gtCountTo (s : State) (k : Nat) (c : Word) : State :=
  s.updGt k fun g => { g with count := c, lvl := g.en && decide (c = g.cmp) }

/-- The count of an independent timer becomes c: MATCH follows, a rising edge fires. -/
def State.gtSetCount (s : State) (k : Nat) (c : Word) : State :=
  let t := s.gtCountTo k c
  if (t.gt k).lvl && !(s.gt k).lvl then t.gtFire k else t

/-- MATCH of an enabled member of the group (R360). -/
def State.stgMatch (s : State) (g : Gt) : Bool :=
  g.en && decide (s.stg.count = g.phase) && decide (g.phase < s.stg.period)

/-- The group count becomes c, and MATCH of every enabled member follows (R360). -/
def State.stgCountTo (s : State) (c : Word) : State :=
  let s := { s with stg := { s.stg with count := c } }
  (below 32 fun k => decide (16 ≤ k) && (s.gt k).en).foldl (fun t k => t.updGt k fun g => { g with lvl := s.stgMatch g }) s

/-- Timers whose MATCH is 1 now and was not. -/
def State.risen (s t : State) : List Nat := below 32 fun k => (t.gt k).lvl && !(s.gt k).lvl

/-- Members whose new phase is 0 fire at the return at which a load takes effect, whatever their MATCH was (R361). -/
def State.loadFires (s t : State) : List Nat :=
  if s.stg.loadPend && !t.stg.loadPend then below 32 fun k => decide (16 ≤ k) && (t.gt k).lvl else []

/-- Events of the timers from one state to another, each of which has one. -/
def State.fireRisen (s t : State) : State :=
  (below 32 fun k => (s.risen t).contains k || (s.loadFires t).contains k).foldl State.gtFire t

/-- An armed load: every shadow becomes live (R361). -/
def State.stgApplyLoad (s : State) : State :=
  if s.stg.loadPend then
    let s := { s with stg := { s.stg with period := s.stg.shadow, loadPend := false } }
    { s with gts := tabUpdAll Gt.init s.gts ((List.range 16).map (· + 16))
              (fun _ g => { g with phase := g.cmp }) }
  else s

/-- The group count becomes c, with the events of its members. -/
def State.stgSetCount (s : State) (c : Word) : State := s.fireRisen (s.stgCountTo c)

/-- The group count returns to 0. -/
def State.stgReturnTo (s : State) : State := s.stgApplyLoad.stgCountTo 0#32
def State.stgReturn (s : State) : State := s.fireRisen s.stgReturnTo

/-- One hub tick of the stagger group: its count and its members' MATCH. -/
def State.stgTick (s : State) : State :=
  if s.stg.en then
    if s.stg.div < s.stg.presc.toNat then { s with stg := { s.stg with div := s.stg.div + 1 } }
    else
      let s := { s with stg := { s.stg with div := 0 } }
      if s.stg.count.toNat + 1 < s.stg.period.toNat then s.stgCountTo (s.stg.count + 1#32)
      else s.stgReturnTo
  else s

/-- One hub tick of an independent timer: its count and MATCH (R355). A tick that a write of its compare value has met is over. -/
def State.gtTick (s : State) (k : Nat) : State :=
  let g := s.gt k
  if !g.en then s
  else if g.ticked then s.updGt k fun g => { g with ticked := false }
  else if g.div < g.presc.toNat then s.updGt k fun g => { g with div := g.div + 1 }
  else (s.updGt k fun g => { g with div := 0 }).gtCountTo k (g.count + 1#32)

/-- One hub clock edge of the timers: every count advances, then the events of that edge take place, so that a capture of the same cycle
takes the count after it (R355, R356, R359, R360). -/
def State.timersTick (s : State) : State :=
  s.fireRisen ((below 16 fun k => (s.gt k).en).foldl State.gtTick s).stgTick

/-- A lane's count, one tick on: it stands while its die is still in reset, or runs from LF (R347, R350). -/
def tickOf (lf : Bool) (skew : Nat) (c : Word64) : Word64 := if lf || decide (0 < skew) then c else c + 1#64

/-- The 10 ns the block takes while no command waits: the counts that run advance by one tick (R347, R352), the
timers tick, FAULT events that waited for their 10 ms go out. Held in reset, nothing runs (DESIGN CHOICE, log entry 2). -/
def State.tick (s : State) : State :=
  if s.pm.inReset then s
  else
    let s := { s with tb := { s.tb with
      a := tickOf s.tb.laLf s.tb.skewA s.tb.a, skewA := s.tb.skewA - 1
      b := tickOf s.tb.lbLf s.tb.skewB s.tb.b, skewB := s.tb.skewB - 1
      h := s.tb.h + 1#64 } }
    s.timersTick.flushRecs

/-! ### Reads and writes -/

/-- A read of a LO register copies the high word into its snapshot (R353); timebase B reads in negative
encoding. -/
def State.tbLoRead (s : State) (which : Timebase) : State :=
  let hi (c : Word64) : Word := word (c.toNat / 2 ^ 32)
  let lo (c : Word64) : Word := word c.toNat
  match which with
  | .la => { s with tb := { s.tb with snapA := hi s.tb.a }, readData := lo s.tb.a }
  | .lb => { s with tb := { s.tb with snapB := hi s.tb.b }, readData := ~~~(lo s.tb.b) }
  | .hb => { s with tb := { s.tb with snapH := hi s.tb.h }, readData := lo s.tb.h }

def execTimebaseLoRead (which : Timebase) (s : State) : Host.Outcome State Fault Refusal := ok (s.tbLoRead which)

/-- A read of GT_CAP clears FULL (R359). -/
def State.gtCapRead (s : State) (k : Nat) : State :=
  { (s.updGt k fun g => { g with full := false }) with readData := (s.gt k).cap }

def execGtCapRead (k : Fin 32) (s : State) : Host.Outcome State Fault Refusal := ok (s.gtCapRead k)

/-- A write of a compare value. For GT0 to GT15 it is loaded at the next hub clock edge under the rules of R357, where a tick on that
edge, which the prescaler decides, advances the count first and is the tick of that edge; for a member it goes to the shadow phase (R361)
(DEDUCED, log entry 56). -/
def State.gtWriteCmp (s : State) (k : Nat) (value : Word) (tickAtLoad : Bool) : State :=
  if k < 16 then
    let g := s.gt k
    let c := g.count
    let met := tickAtLoad && g.en && decide (g.presc.toNat ≤ g.div) && !g.ticked
    let c' := if met then c + 1#32 else c
    let s := s.updGt k fun g =>
      { g with cmp := value, count := c', div := if met then 0 else g.div, ticked := g.ticked || met }
    let s := if g.en && decide (value = c) then s.gtFire k else s
    s.updGt k fun g => { g with lvl := g.en && decide (c' = value) }
  else s.updGt k fun g => { g with cmp := value }

def execGtCmpWrite (k : Fin 32) (value : Word) (tickAtLoad : Bool) (s : State) :
    Host.Outcome State Fault Refusal :=
  ok (s.gtWriteCmp k value tickAtLoad)

/-- Whether GT_CFG[k] discards a value (R359, R367). -/
def State.gtCfgBad (s : State) (k : Nat) (v : Word) : Bool :=
  (decide (k < 16) && decide (bits v 15 0 = 0)) || decide (4 < bits v 23 21) ||
  ((bits v 23 21 == 3 || bits v 23 21 == 4) && decide (s.portMax ≤ bits v 28 24))

/-- A write of GT_CFG[k] that is taken (R358, R367). A rise of EN restarts the prescaler and samples MATCH; a fall
drops MATCH. -/
def State.gtWriteCfg (s : State) (k : Nat) (v : Word) : State :=
  let g := s.gt k
  let en := bit v 31
  let m := if k < 16 then decide (g.count = g.cmp) else s.stgMatch { g with en := true }
  s.updGt k fun g =>
    { g with
      en := en, evEn := bit v 30, capEvEn := bit v 29, capArg := BitVec.ofNat 5 (bits v 28 24),
      capSrc := BitVec.ofNat 3 (bits v 23 21), presc := BitVec.ofNat 16 (bits v 15 0),
      div := if en && !g.en then 0 else g.div, ticked := g.ticked && en && g.en,
      lvl := if en then (if g.en then g.lvl else m) else false }

/-- GT_CFG.EN goes from 0 to 1: a write with EN set (R358, R367). -/
def execGtEnable (k : Fin 32) (value : Word) (s : State) : Host.Outcome State Fault Refusal :=
  if s.gtCfgBad k value then ok (s.wrej 3 0 (0x4100 + 0x20 * k)) else ok (s.gtWriteCfg k (setBit value 31 true))

/-- GT_CFG.EN goes from 1 to 0 (R358): the count holds, MATCH falls, CAP, FULL and OVR stay. -/
def execGtDisable (k : Fin 32) (value : Word) (s : State) : Host.Outcome State Fault Refusal :=
  if s.gtCfgBad k value then ok (s.wrej 3 0 (0x4100 + 0x20 * k)) else ok (s.gtWriteCfg k (setBit value 31 false))

/-- A write of 1 to GT_CAPTRIG.GO (R370). -/
def execSoftwareCapture (k : Fin 32) (s : State) : Host.Outcome State Fault Refusal :=
  if (s.gt k).capSrc = 1#3 then ok (s.gtCaptureAt k) else ok s

/-- The count of an enabled timer reaches its compare value, or the group count a member's live phase (R356, R360). A live phase of 0 is
reached as the count returns to 0, where an armed load takes effect (R361). -/
def execGtMatch (k : Fin 32) (s : State) : Host.Outcome State Fault Refusal :=
  let g := s.gt k
  if k.val < 16 then ok (if g.en && !g.lvl then s.gtSetCount k g.cmp else s)
  else
    ok (if g.en && s.stg.en && !g.lvl && decide (g.phase < s.stg.period) then
      (if g.phase = 0#32 then s.stgReturn else s.stgSetCount g.phase) else s)

/-- An edge of the capture source GT_CFG selects (R359). -/
def execGtCapture (k : Fin 32) (s : State) : Host.Outcome State Fault Refusal :=
  if (s.gt k).capSrc = 0#3 then ok s else ok (s.gtCaptureAt k)

/-- A write of TM_STG_LOAD.GO arms a load (R361, R366). -/
def execStaggerLoad (s : State) : Host.Outcome State Fault Refusal :=
  ok { s with stg := { s.stg with loadPend := true } }

/-- The group count returns to 0 while the group runs (R361). -/
def execStaggerPeriodEnd (s : State) : Host.Outcome State Fault Refusal :=
  ok (if s.stg.en then s.stgReturn else s)

/-- A write of TM_STG_CFG that is taken (R360, R361, R364): as the group is enabled an armed load takes place and the count
starts at 0 (DESIGN CHOICE, log entry 24); disabled, the count and its members' MATCH stand. -/
def State.stgWriteCfg (s : State) (v : Word) : State :=
  let was := s.stg.en
  let s := { s with stg := { s.stg with
    en := bit v 31, presc := BitVec.ofNat 16 (bits v 15 0), div := if was then s.stg.div else 0 } }
  if bit v 31 && !was then s.stgReturn else s

/-- No LF edge for 100 µs of hub time (R351). -/
def execLfFail (s : State) : Host.Outcome State Fault Refusal :=
  ok { s with tb := { s.tb with lfFail := true } }

/-- One LF edge of a count that runs from LF: 3,051 or 3,052 ticks, by a 7-bit accumulator of 97 / 128 (R350). -/
def lfAdvance (c : Word64) (frac : BitVec 7) : Word64 × BitVec 7 :=
  let f := frac.toNat + 97
  if f < 128 then (c + 3051#64, BitVec.ofNat 7 f) else (c + 3052#64, BitVec.ofNat 7 (f - 128))

/-- An LF edge (R350, R363): LF_FAIL clears, and each count that runs from LF advances. -/
def execLfEdge (s : State) : Host.Outcome State Fault Refusal :=
  let a := if s.tb.laLf then lfAdvance s.tb.a s.tb.fracA else (s.tb.a, s.tb.fracA)
  let b := if s.tb.lbLf then lfAdvance s.tb.b s.tb.fracB else (s.tb.b, s.tb.fracB)
  ok { s with tb := { s.tb with
    lfFail := false, a := a.1, fracA := a.2, b := b.1, fracB := b.2 } }

/-- TIME_SYNC (R403): the hub's count at the strobe, each lane's at its first tick after the strobe arrives, within 30 ns.
How many ticks later a lane latches is free, from 0 to 3 (DESIGN CHOICE, log entry 6; DESIGN CHOICE, log entry 23). -/
def execTimeSync (o : Origin) (s : State) : Host.Outcome State Fault Refusal :=
  s.command o (.timeSync o) fun s =>
  let (n, s) := s.draw
  let (m, s) := s.draw
  let a := s.tb.a + BitVec.ofNat 64 ((Config.freeMeasure n).toNat % 4)
  let b := s.tb.b + BitVec.ofNat 64 ((Config.freeMeasure m).toNat % 4)
  ok (s.complete o 0x50 stSuccess (s.tb.h.toNat + fld a.toNat 64 64 + fld b.toNat 64 128))

end Sys2Proof.Machine
end

