-- ==== Sys2Proof/Machine/RegRead.lean ====
section
/-!
DEFINITION. Reads of the registers of BAR0 (R10 to R15, R481 to R483), block by block: the value of each register, what a read clears,
and an access that times out.
-/
namespace Sys2Proof.Machine
open Sys2Proof

/-! ### GC_ and HI_ (R388, R409 to R415, R486 to R496) -/

/-- The code of the variant applied, which is also the PCI device ID. -/
def State.variantId (s : State) : Nat :=
  match s.variant with
  | 2 => 0x3264
  | 1 => 0x1664
  | _ => 0x0864

/-- Zones in a state. -/
def State.zonesIn (s : State) (st : ZoneSt) : Nat := (s.zones.filter fun e => decide (e.2.st = st)).length

/-- Pairs in a role. -/
def State.pairsIn (s : State) (r : Role) : Nat := (below 36 fun p => (s.pair p).role == r).length

/-- The roles are counted from the first change of one on: at reset every pair is FREE and GC_PAIR_SUM reads 0 (R496). The end of the start
test, which finds pairs FREE, counts as such a change (DEDUCED, log entry 57). -/
def State.readGc (s : State) (off : Nat) : Word :=
  match off with
  | 0x00 => word (0x49560000 + s.variantId)
  | 0x04 => 0x10101010#32
  | 0x08 => word (s.shadowWord 0)
  | 0x0C => word (s.shadowWord 0 / 2 ^ 32)
  | 0x10 => word (fld s.portMax 6 26 + fld s.portMax 6 20 + fld s.connMax 12 8 + 36)
  | 0x14 => word (fld s.gc.wrejCnt 8 24 + fld s.gc.wrejCause 3 21 + fld s.gc.wrejSrc 2 18 + s.gc.wrejOff.toNat)
  | 0x18 => word (fld s.gc.toCnt 16 16 + s.gc.lastDie.toNat)
  | 0x1C => s.gc.scratch
  | 0x20 => s.gc.imgId
  | 0x24 =>
    word (flag s.gc.verified 31 + flag s.gc.fromFlash 30 + fld (s.zones.filter fun e => e.2.staged.isSome).length 9 16 +
      fld (s.zones.filter fun e => e.2.retained.isSome).length 9 0)
  | 0x28 => word (fld s.zonesUp.length 9 23 + fld (s.zonesIn .running) 9 14 + fld (s.zonesIn .demanded) 9 5)
  | 0x2C =>
    if !s.gc.roles then 0#32
    else word (fld (s.pairsIn .free) 6 24 + fld (s.pairsIn .testing) 6 18 + fld (s.pairsIn .carrying) 6 12 + fld (s.pairsIn .unusable) 6 6 +
      fld (s.pairsIn .split) 6 0)
  | _ => 0#32

/-- Codes of R414. -/
def RingSt.code : RingSt → Nat
  | .disabled => 0
  | .enabled => 1
  | .draining => 2

/-- A register of ring pair r. -/
def Ring.read (q : Ring) (reg : Nat) : Word :=
  match reg with
  | 0x00 => q.sqLo
  | 0x04 => q.sqHi
  | 0x08 => q.cqLo
  | 0x0C => q.cqHi
  | 0x10 => word (flag (decide (q.st = .enabled)) 31 + fld q.vector.toNat 5 8 + q.size.toNat)
  | 0x14 => word (fld q.st.code 2 30 + fld q.sqHead.toNat 12 16 + q.cqTail.toNat)
  | _ => q.seqA

/-- A register of event ring e. -/
def EvRing.read (q : EvRing) (reg : Nat) : Word :=
  match reg with
  | 0x00 => q.lo
  | 0x04 => q.hi
  | 0x08 => word (flag q.en 31 + fld q.vector.toNat 5 8 + q.size.toNat)
  | _ => word (flag q.en 30 + fld q.tail.toNat 12 16 + fld q.drop 16 0)

def State.readHi (s : State) (off : Nat) : Word :=
  if off = 0x1000 then word (0x300 + s.hi.selected.toNat)
  else if off = 0x1004 then
    word (flag s.hi.ready 31 + flag (s.pm.dstate == .run) 30 + flag s.pm.bench 29 + flag s.hi.dbErr 28 + flag s.hi.dmaErr 27)
  else if off = 0x1008 then s.hi.route
  else if off < 0x1500 then (s.ring (elem off 0x1100 0x40).1).read (elem off 0x1100 0x40).2
  else if off < 0x1800 then (s.evRing (elem off 0x1500 0x20).1).read (elem off 0x1500 0x20).2
  else if off < 0x1A00 then s.hi.msixWord (elem off 0x1800 4).1
  else if off = 0x1A00 then s.hi.pba
  else 0#32

/-! ### PM_, OT_, TM_, CK_, BS_ (R343 to R346, R362 to R370, R381 to R384, R434 to R438, R458 to R462) -/

/-- Codes of R458. -/
def DState.code : DState → Nat
  | .load => 1
  | .startTest => 2
  | .config => 3
  | .run => 4
  | .shutdown => 5
  | .off => 6
  | .dormant => 7

def State.readPm (s : State) (off : Nat) : Word :=
  let p := s.pm
  match off with
  | 0x2000 =>
    word (fld p.dstate.code 4 28 + fld p.bootsel.toNat 2 26 + flag p.bench 25 + flag p.seqErr 24 + fld p.cause.toNat 4 20 +
      fld p.bootErr.toNat 4 16)
  | 0x2004 => word (flag (p.dstate == .dormant) 0)
  | 0x2008 => p.wakeLo
  | 0x200C => p.wakeHi
  | 0x2010 => word (fld p.vcoreB.toNat 16 16 + p.vcoreA.toNat)
  | 0x2014 => word (fld p.vsd.toNat 16 16 + p.vcoreH.toNat)
  | _ =>
    word (fld p.status.toNat 8 24 + fld p.zonesStarted 8 16 + flag p.sfdpOk 7 + flag p.addr4 6 + fld p.readMode.toNat 2 4 + flag p.erase4k 3)

/-- Bit i of a register of R436 is a flag of word 32 k + i. -/
def State.otpFlags (s : State) (k : Nat) (f : OtpWord → Bool) : Word :=
  word ((List.range 32).foldl (fun a i => a + flag (f (s.otpWord (32 * k + i))) i) 0)

def State.readOtp (s : State) (off : Nat) : Word :=
  let o := s.otp
  let r := off - 0x3000
  if r = 0 then
    word (fld o.incomplete.toNat 16 16 + flag o.drift 15 + flag o.lockDrift 14 + flag o.voteSplit 13 + flag o.loaded 12 +
      fld o.applied.toNat 2 9 + flag o.featMarginal 8 + fld o.uncorrCnt 8 0)
  else if r = 4 then word (fld o.rl.toNat 16 16 + o.wl.toNat)
  else if r = 8 then word (fld o.sealOk.toNat 16 16 + s.ovrRegions.toNat)
  else if r < 0x30 then s.otpFlags ((r - 0x10) / 4) fun w => w.margin
  else if r < 0x50 then s.otpFlags ((r - 0x30) / 4) fun w => w.corr
  else if r < 0x70 then s.otpFlags ((r - 0x50) / 4) fun w => w.uncorr
  else if r < 0x90 then s.otpFlags ((r - 0x70) / 4) fun w => w.ovr
  else if r = 0x90 then word (fld o.scanCnt.toNat 16 16 + o.lastWord.toNat)
  else word (s.shadowWord ((r - 0x800) / 8) / (if r % 8 = 0 then 1 else 2 ^ 32))

/-- A register of general timer k. -/
def State.readGt (s : State) (k reg : Nat) : Word :=
  let g := s.gt k
  match reg with
  | 0x00 =>
    word (flag g.en 31 + flag g.evEn 30 + flag g.capEvEn 29 + fld g.capArg.toNat 5 24 + fld g.capSrc.toNat 3 21 + g.presc.toNat)
  | 0x04 => s.gtCount k
  | 0x08 => g.cmp
  | 0x0C => g.cap
  | 0x10 => word (fld g.evtCnt 8 8 + flag g.lvl 2 + flag g.ovr 1 + flag g.full 0)
  | _ => 0#32

def State.readTm (s : State) (off : Nat) : Word :=
  let hi (c : Word64) : Word := word (c.toNat / 2 ^ 32)
  let t := s.tb
  if 0x4100 ≤ off then s.readGt (elem off 0x4100 0x20).1 (elem off 0x4100 0x20).2
  else
    match off with
    | 0x4000 => word t.a.toNat
    | 0x4004 => hi t.a
    | 0x4008 => t.snapA
    | 0x4010 => ~~~(word t.b.toNat)
    | 0x4014 => ~~~(hi t.b)
    | 0x4018 => ~~~t.snapB
    | 0x4020 => word t.h.toNat
    | 0x4024 => hi t.h
    | 0x4028 => t.snapH
    | 0x4030 =>
      word (flag t.laLf 31 + flag t.lbLf 30 + flag t.lfFail 29 + (if t.xchkOff || t.laLf || t.lbLf then 0 else t.xchk.toNat))
    | 0x4040 => word (flag s.stg.en 31 + s.stg.presc.toNat)
    | 0x4044 => s.stg.shadow
    | 0x4048 => word (flag s.stg.loadPend 31)
    | _ => 0#32

/-- An event queue's word (R383). -/
def Evq.read (q : Evq) : Word :=
  word (fld q.poisonCnt 8 24 + fld q.dropCnt 8 16 + fld q.fillMax 7 8 + fld q.words.length 7 0)

def State.readCk (s : State) (off : Nat) : Word :=
  if off < 0x5100 then
    let c := s.crc (elem off 0x5000 0x20).1
    match (elem off 0x5000 0x20).2 with
    | 0x00 => word (fld c.poly.toNat 3 2 + flag c.finalInv 1 + flag c.reflect 0)
    | 0x04 => c.val
    | 0x08 => c.result
    | _ => 0#32
  else
    match off with
    | 0x5100 => s.evqA.read
    | 0x5104 => s.evqB.read
    | 0x5108 => word (flag s.fd.qPoisonA 31 + fld s.fd.stallA 16 8 + fld s.fd.fillA 5 0)
    | _ => word (flag s.fd.qPoisonB 31 + fld s.fd.stallB 16 8 + fld s.fd.fillB 5 0)

/-- Seconds since a pair last passed, saturating; 0 for a pair that never has (DEDUCED, log entry 57). -/
def State.testAge (s : State) (p : Nat) : Nat :=
  match (s.pair p).passedAt with
  | none => 0
  | some t => min 0xFFFFF (s.since t / 100000000)

def State.readBs (s : State) (off : Nat) : Word :=
  let b := s.bist
  if 0x6100 ≤ off && off < 0x6200 then
    let p := (elem off 0x6100 4).1
    let q := s.pair p
    word (fld q.last 2 30 + fld (q.spares .a) 5 25 + fld (q.spares .b) 5 20 + s.testAge p)
  else
    match off with
    | 0x6000 =>
      word (fld b.startMode.toNat 2 30 + flag b.deferred 29 + flag (!s.overduePairs.isEmpty) 28 + fld b.recReason 4 24 +
        fld (s.pairsIn .unusable) 8 16 + fld (min 255 b.repairs.length) 8 8 + flag b.condTj 7 + flag b.condTb 6 + flag b.condVcore 5)
    | 0x6004 => word (fld b.slot 6 26 + b.cycles.toNat)
    | 0x6008 => word (fld b.deferCnt 16 16 + fld b.skipCnt 16 0)
    | 0x600C => b.recCounter
    | 0x6200 =>
      word (flag b.lmBOk 5 + flag b.lmAOk 4 + (List.range 4).foldl (fun a g => a + flag (s.grp g).xchkFail g) 0)
    | 0x6204 => word b.chOk.toNat
    | 0x6208 => word (b.chOk.toNat / 2 ^ 32)
    | _ => word ((List.range s.portMax).foldl (fun a n => a + flag (s.port n).serdesFail n) 0)

/-! ### PT_ (R271 to R279, R301 to R303) -/

/-- The connections declared on a port, in slot order. -/
def State.connsOn (s : State) (p : Nat) : List (Nat × Conn × ConnDecl) :=
  s.conns.filterMap fun e =>
    match e.2.decl with
    | some d => if d.port = p then some (e.1, e.2, d) else none
    | none => none

/-- A base page may be received: clause 37 is in force (R272) (PRESUMED, log entry 13). -/
def PortCfg.pages (c : PortCfg) : Bool := decide (c.phyMode = 0#2) && c.anEn

/-- A register of port n below its connections. -/
def State.readPort (s : State) (n reg : Nat) : Word :=
  let q := s.port n
  let c := q.cfg
  match reg with
  | 0x00 =>
    word (flag (decide (q.st ≠ .disabled)) 31 + fld c.phyMode.toNat 2 10 + flag c.tunnel 9 + flag c.anEn 8 + flag c.txInv 7 +
      flag c.rxInv 6 + fld c.txSwing.toNat 2 4 + c.txEmph.toNat)
  | 0x04 =>
    let base := if q.live.pages then q.lpPage else 0#16
    let ctrl := if q.live.phyMode = 1#2 then q.lpPage else 0#16
    word (fld q.st.code 3 29 + flag (s.pm.dstate != .run) 28 + flag (base.getLsbD 5) 27 + fld (base.toNat / 2 ^ 12) 2 25 +
      flag q.anFault 24 + fld (ctrl.toNat / 2 ^ 10) 2 22 + fld (s.connsOn n).length 7 0)
  | 0x08 => word (fld q.lpPage.toNat 16 16 + fld c.advRf.toNat 2 4)
  | 0x0C => word (c.mac.toNat / 2 ^ 32)
  | 0x10 => word c.mac.toNat
  | 0x14 => c.ip
  | 0x18 => word (fld c.dscp.toNat 6 24 + fld c.ttl.toNat 8 16 + c.udpPort.toNat)
  | 0x20 => q.rxCnt
  | 0x24 => q.txCnt
  | 0x28 => word (fld q.txMismatch 16 16 + fld q.txStale 16 0)
  | 0x30 => word (fld q.dPreRun 16 16 + fld q.dCodeErr 16 0)
  | 0x34 => word (fld q.dFormat 16 16 + fld q.dForeign 16 0)
  | 0x38 => word (fld q.dHandle 16 16 + fld q.dRate 16 0)
  | 0x3C => word (fld q.dOpenRate 16 16 + fld q.dDisable 16 0)
  | 0x40 => q.ghTotal
  | _ => word (fld q.lastReason 4 28 + fld q.lastFtype.toNat 4 24 + q.lastHandle.toNat)

/-- A register of a connection in a slot. -/
def Conn.read (c : Conn) (slot : Nat) (d : ConnDecl) (reg : Nat) : Word :=
  match reg with
  | 0 =>
    word (fld c.st.code 3 29 + fld c.ver 2 27 + flag d.listener 26 + flag d.cmac 25 + fld c.cause 4 21 + fld slot 11 10 + fld c.backoff 4 6)
  | 4 =>
    word (fld c.crcFail 8 24 + fld c.seqDrop 8 16 + fld c.lost 8 8 + fld c.cmacFail 3 5 + fld c.laneSplit 3 2 + fld c.txLate 2 0)
  | _ => word (fld c.eMax 16 16 + fld c.rtt 16 0)

def State.readPt (s : State) (off : Nat) : Word :=
  let (n, reg) := elem off 0x8000 0x400
  if reg < 0x100 then s.readPort n reg
  else
    match (s.connsOn n)[(reg - 0x100) / 12]? with
    | some (k, c, d) => c.read k d ((reg - 0x100) % 12)
    | none => 0#32

/-! ### EP_ (R53, R87 to R95, R164, R165, R186 to R188) -/

/-- A register of pair p. ZONES counts the zones whose ACTIVE version lies on the pair, not one that has only an ADMITTED STAGED version
there (R87) (DESIGN CHOICE, log entry 73). -/
def State.readPair (s : State) (p reg : Nat) : Word :=
  let q := s.pair p
  match reg with
  | 0x00 =>
    word (fld q.role.code 3 29 + flag q.stopB 28 + flag q.stopA 27 + fld q.codeB.toNat 2 25 + fld q.codeA.toNat 2 23 +
      fld (s.zonesOn p).length 7 16 + fld q.shift 5 11 + fld (s.nSlots p) 11 0)
  | 0x04 => q.lastPass
  | 0x08 => q.sigA
  | 0x0C => q.sigB
  | 0x10 => word (fld q.maxTime 16 16 + fld q.lastTime 16 0)
  | 0x14 => word (fld q.bound 16 0)
  | 0x18 => word (fld q.poisonCnt 8 8 + fld q.fillMax 5 0)
  | _ => word (fld q.injOk.toNat 16 16 + flag q.injPol 9 + fld q.injPos 9 0)

/-- A Light Meter's word (R95). -/
def LaneDie.lmRead (d : LaneDie) : Word :=
  word (flag d.slow 31 + flag d.fast 30 + flag d.warn 29 + fld d.minLaps 10 16 + fld d.laps 10 0)

/-- EP_ZONE_STAT (DEDUCED, log entry 57). -/
def State.readZone (s : State) (z : Nat) : Word :=
  let y := s.zone z
  let ver := match y.active with
    | some v => v.sec.version.toNat
    | none => 0
  let auto := match y.active, y.staged with
    | some v, _ => v.sec.auto
    | none, some v => v.admitted && v.sec.auto
    | none, none => false
  word (fld y.pairOf 6 20 + fld ver 8 8 + flag auto 7 + flag y.migrating 6 + flag (s.cat1Zone z) 5 + flag y.demand 4 + y.st.code)

/-- EP_ZONE_STAGE. -/
def State.readStage (s : State) (z : Nat) : Word :=
  let y := s.zone z
  let (sp, ss, sv) := match y.staged with
    | some v => (if v.admitted then v.pair else 0x3F, if v.admitted then 2 else 1, v.sec.version.toNat)
    | none => (0x3F, 0, 0)
  let (rp, rv) := match y.retained with
    | some v => (v.pair, v.sec.version.toNat)
    | none => (0x3F, 0)
  word (fld sp 6 26 + fld rp 6 20 + fld ss 2 18 + fld y.accFails 2 16 + fld sv 8 8 + fld rv 8 0)

def State.readEp (s : State) (off : Nat) : Word :=
  if off < 0x14800 then s.readPair (elem off 0x10000 0x200).1 (elem off 0x10000 0x200).2
  else if 0x15400 ≤ off then s.readStage (elem off 0x15400 4).1
  else if 0x15000 ≤ off then s.readZone (elem off 0x15000 4).1
  else
    let a := s.adm
    let m := s.mig
    match off with
    | 0x14800 => word (fld 600 10 20 + fld s.lmWarn.toNat 10 10 + 196)
    | 0x14804 => s.laneA.lmRead
    | 0x14808 => s.laneB.lmRead
    | 0x14810 =>
      word (fld a.reason 8 24 + fld a.zone 8 16 + fld a.fn 8 8 + flag a.fnSet 3 + flag a.zoneSet 2 + flag a.reused 1 + flag a.valid 0)
    | 0x14814 => a.figure
    | 0x14818 => a.limit
    | 0x14820 =>
      word (fld m.src 6 26 + fld m.tgt 6 20 + fld m.stage 3 17 + fld m.agree 5 12 + fld m.result 4 8 + fld m.mismatchCnt 8 0)
    | _ => word (fld m.maxTime 16 16 + fld m.lastTime 16 0)

/-! ### FD_ (R33, R34, R209 to R216, R236 to R246) -/

/-- A register of channel n. HELD shows a hold on an output alone: a hold of R218 keeps switches open. -/
def State.readChan (s : State) (n reg : Nat) : Word :=
  let c := s.chan n
  match reg with
  | 0x00 => word (fld (n / 16) 2 6 + c.mode.toNat)
  | 0x04 => word (flag c.wbEn 17 + flag c.type3 16 + c.debounce.toNat)
  | 0x08 =>
    word (fld c.iIn.toNat 9 16 + fld c.wbCnt 8 8 + flag c.raw 6 + flag c.ov 5 + flag c.loopbackFail 4 + flag c.wireBreak 3 +
      flag (s.grp (n / 16)).belowIn 2 + c.inPoint.toNat)
  | 0x10 => word (fld c.par.toNat 2 30 + flag c.member 29 + flag c.olEn 28 + fld c.fbFilt.toNat 10 16 + c.offWin.toNat)
  | 0x14 => word (flag c.tpEn 31 + fld c.width.toNat 7 16 + c.period.toNat)
  | 0x18 => word c.phaseA.toNat
  | 0x1C => word c.phaseB.toNat
  | 0x20 =>
    word (fld c.nsSrc.toNat 2 30 + fld c.silentState.toNat 2 28 + fld c.tilePair.toNat 6 22 + flag c.tileLane 21 + c.silentT.toNat)
  | 0x24 => word (flag c.nsOn 0)
  | 0x28 =>
    word (fld c.partner 6 26 + fld c.tpDefer 8 16 + flag (c.isOutput && s.held n) 15 + flag c.term 14 + flag c.mid 13 + flag (s.swClosed .b n) 12 +
      flag (s.swClosed .a n) 11 + flag c.fltOpen 10 + flag c.fltOn 9 + flag c.fltShare 8 + flag c.fltTherm 7 + flag c.fltOver 6 +
      flag c.fltCross 5 + flag c.fltExt 4 + flag c.fltSwB 3 + flag c.fltSwA 2 + c.outPoint.toNat)
  | _ => word (fld c.iOut.toNat 11 16 + c.vTerm.toNat)

/-- A register of group g. -/
def Grp.read (q : Grp) (reg : Nat) : Word :=
  match reg with
  | 0x00 => word (fld q.uvWarn.toNat 9 18 + fld q.uvOff.toNat 9 9 + q.uvIn.toNat)
  | 0x04 =>
    word (fld q.vfs.toNat 16 16 + flag q.ovLatch 5 + flag (q.uvoffLatch || q.startHold) 4 + flag q.aboveOv 3 + flag q.belowOff 2 + flag q.belowIn 1 +
      flag q.belowWarn 0)
  | _ => word (fld q.latchCnt 16 16 + fld q.warnCnt 16 0)

/-- A register of capture unit c. -/
def Cap.read (u : Cap) (reg : Nat) : Word :=
  match reg with
  | 0 => word (flag u.en 31 + fld u.src.toNat 6 16 + fld u.edge.toNat 2 12 + fld u.filt.toNat 3 8 + u.presc.toNat)
  | _ => word (fld u.residue 8 16 + u.count.toNat)

/-- DEDUCED, log entry 25. -/
def State.readFd (s : State) (off : Nat) : Word :=
  let f := s.fd
  if off < 0x19000 then s.readChan (elem off 0x18000 0x40).1 (elem off 0x18000 0x40).2
  else if off < 0x19200 then (s.grp (elem off 0x19000 0x40).1).read (elem off 0x19000 0x40).2
  else if 0x19300 ≤ off then (s.capUnit (elem off 0x19300 8).1).read (elem off 0x19300 8).2
  else
    match off with
    | 0x19200 => word f.tSb.toNat
    | 0x19204 => word (flag f.ownDisagree 4 + flag f.linkBSilent 3 + flag f.linkASilent 2 + flag f.hbBLost 1 + flag f.hbALost 0)
    | 0x19210 => word (flag f.gstopEn 31 + f.tGdisc.toNat)
    | 0x19214 =>
      word (fld f.gsStopCnt 16 16 + flag f.gsDisc 5 + flag f.gsStop 4 + flag f.gsBRaw 3 + flag f.gsARaw 2 + flag f.gsB 1 + flag f.gsA 0)
    | 0x19220 => f.sampleNum
    | _ => word (flag (!s.faultN) 1 + flag s.faultN 0)

/-! ### FL_ and DB_ (R321 to R327, R475 to R478) -/

def State.readFl (s : State) (off : Nat) : Word :=
  let f := s.fl
  if 0x1A100 ≤ off then
    match s.frec (elem off 0x1A100 16).1 with
    | some r => word (r.words.getD ((elem off 0x1A100 16).2 / 4) 0)
    | none => 0#32
  else
    match off with
    | 0x1A000 =>
      word (flag s.anyRec 31 + flag s.resetReq 30 + flag f.overflow 29 + fld f.recs.length 7 16 + fld (s.zonesIn .faulted) 9 7)
    | 0x1A004 => f.argA
    | 0x1A00C => word (fld f.resCode.toNat 16 16 + flag f.clear.isSome 15 + fld f.result 8 0)
    | 0x1A010 => word (fld f.firstCode.toNat 16 16 + f.firstLoc.toNat)
    | 0x1A014 => f.firstTime
    | 0x1A018 => word (fld f.cGlobal 6 24 + fld f.cLane 6 18 + fld f.cConn 6 12 + fld f.cField 6 6 + fld f.cPair 6 0)
    | 0x1A01C => word (flag f.ackEn 31 + f.ackCh.toNat)
    | _ => 0#32

def State.readDb (s : State) (off : Nat) : Word :=
  let d := s.db
  match off with
  | 0x1B000 => word (flag d.en 31 + d.pair.toNat)
  | 0x1B004 =>
    word (flag d.broken 31 + flag s.debugFuse 30 + flag d.refused 29 + flag d.replayFail 28 + flag d.accDone 27 +
      s.haltedPair.getD 0x3F)
  | 0x1B008 => d.addr
  | 0x1B00C => d.data
  | 0x1B010 => word d.splitMask.toNat
  | 0x1B014 => word (flag d.clipped 31 + flag d.headerUsed 30 + d.splitMask.toNat / 2 ^ 32)
  | 0x1B018 => word d.tileStop.toNat
  | _ => word (d.tileStop.toNat / 2 ^ 32)

/-- The value a register shows. An offset with none reads 0 (R11). -/
def State.regValue (s : State) (off : Nat) : Word :=
  if !s.hasReg off then 0#32
  else
    match off / 0x1000 with
    | 0x00 => s.readGc off
    | 0x01 => s.readHi off
    | 0x02 => s.readPm off
    | 0x03 => s.readOtp off
    | 0x04 => s.readTm off
    | 0x05 => s.readCk off
    | 0x06 => s.readBs off
    | 0x18 => s.readFd off
    | 0x19 => s.readFd off
    | 0x1A => s.readFl off
    | 0x1B => s.readDb off
    | _ => if off < 0x10000 then s.readPt off else s.readEp off

/-! ### What a read changes -/

/-- Registers measured every 100 µs take their last measurement before they are read; its value is free (R211, R242, R461, log
entry 6). VFS of a group is the reading of its last threshold event (DESIGN CHOICE, log entry 6). -/
def State.measure (s : State) (off : Nat) : State :=
  if s.pm.inReset then s
  else if off = 0x2010 then
    let (n, s) := s.draw
    let (m, s) := s.draw
    s.updPm fun p => { p with vcoreA := Config.freeMeasure n, vcoreB := Config.freeMeasure m }
  else if off = 0x2014 then
    let (n, s) := s.draw
    let (m, s) := s.draw
    s.updPm fun p => { p with vsd := Config.freeMeasure n, vcoreH := Config.freeMeasure m }
  else if 0x18000 ≤ off && off < 0x19000 then
    let (k, reg) := elem off 0x18000 0x40
    if reg = 8 then
      let (n, s) := s.draw
      s.updChan k fun c => { c with iIn := (Config.freeMeasure n).setWidth 9 }
    else if reg = 0x2C then
      let (n, s) := s.draw
      let (m, s) := s.draw
      s.updChan k fun c => { c with iOut := (Config.freeMeasure n).setWidth 11, vTerm := (Config.freeMeasure m).setWidth 10 }
    else s
  else s

/-- RC fields of a port register return to 0. -/
def Port.cleared (q : Port) (reg : Nat) : Port :=
  match reg with
  | 0x28 => { q with txMismatch := 0, txStale := 0 }
  | 0x30 => { q with dPreRun := 0, dCodeErr := 0 }
  | 0x34 => { q with dFormat := 0, dForeign := 0 }
  | 0x38 => { q with dHandle := 0, dRate := 0 }
  | 0x3C => { q with dOpenRate := 0, dDisable := 0 }
  | _ => q

/-- RC fields of a connection register return to 0. -/
def Conn.cleared (c : Conn) (reg : Nat) : Conn :=
  match reg with
  | 4 => { c with crcFail := 0, seqDrop := 0, lost := 0, cmacFail := 0, laneSplit := 0, txLate := 0 }
  | 8 => { c with eMax := 0 }
  | _ => c

/-- What a read of a PT_ register clears. -/
def State.clearPt (s : State) (off : Nat) : State :=
  let (n, reg) := elem off 0x8000 0x400
  if reg < 0x100 then s.updPort n fun q => q.cleared reg
  else
    match (s.connsOn n)[(reg - 0x100) / 12]? with
    | some (k, _) => s.updConn k fun c => c.cleared ((reg - 0x100) % 12)
    | none => s

/-- What a read of an EP_ register clears; the lowest count of laps starts again from its reset value. -/
def State.clearEp (s : State) (off : Nat) : State :=
  if off < 0x14800 then
    match (elem off 0x10000 0x200).2 with
    | 0x10 => s.updPair (elem off 0x10000 0x200).1 fun q => { q with maxTime := 0 }
    | 0x18 => s.updPair (elem off 0x10000 0x200).1 fun q => { q with poisonCnt := 0, fillMax := 0 }
    | _ => s
  else
    match off with
    | 0x14804 => s.updLane .a fun d => { d with minLaps := 0x3FF }
    | 0x14808 => s.updLane .b fun d => { d with minLaps := 0x3FF }
    | 0x14820 => { s with mig := { s.mig with mismatchCnt := 0 } }
    | 0x14824 => { s with mig := { s.mig with maxTime := 0 } }
    | _ => s

/-- What a read of an FD_ register clears. -/
def State.clearFd (s : State) (off : Nat) : State :=
  if off < 0x19000 then
    match (elem off 0x18000 0x40).2 with
    | 0x08 => s.updChan (elem off 0x18000 0x40).1 fun c => { c with wbCnt := 0 }
    | 0x28 => s.updChan (elem off 0x18000 0x40).1 fun c => { c with tpDefer := 0 }
    | _ => s
  else if off < 0x19200 then
    match (elem off 0x19000 0x40).2 with
    | 0x08 => s.updGrp (elem off 0x19000 0x40).1 fun q => { q with latchCnt := 0, warnCnt := 0 }
    | _ => s
  else if off = 0x19214 then s.updFd fun f => { f with gsStopCnt := 0 }
  else s

/-- What a read of a register of the remaining blocks clears. -/
def State.clearHub (s : State) (off : Nat) : State :=
  match off with
  | 0x00014 => { s with gc := { s.gc with wrejCnt := 0 } }
  | 0x00018 => { s with gc := { s.gc with toCnt := 0 } }
  | 0x05100 => { s with evqA := { s.evqA with poisonCnt := 0, dropCnt := 0, fillMax := 0 } }
  | 0x05104 => { s with evqB := { s.evqB with poisonCnt := 0, dropCnt := 0, fillMax := 0 } }
  | 0x05108 => s.updFd fun f => { f with stallA := 0, fillA := 0 }
  | 0x0510C => s.updFd fun f => { f with stallB := 0, fillB := 0 }
  | 0x06008 => { s with bist := { s.bist with deferCnt := 0, skipCnt := 0 } }
  | 0x1A018 => { s with fl := { s.fl with cPair := 0, cField := 0, cConn := 0, cLane := 0, cGlobal := 0 } }
  | _ =>
    if 0x1500 ≤ off && off < 0x1580 && (elem off 0x1500 0x20).2 = 0xC then
      s.updEvRing (elem off 0x1500 0x20).1 fun q => { q with drop := 0 }
    else if 0x4100 ≤ off && off < 0x4500 && (elem off 0x4100 0x20).2 = 0x10 then
      s.updGt (elem off 0x4100 0x20).1 fun g => { g with evtCnt := 0 }
    else s

/-- The RC fields of a register after its value has been returned (R12, R13). -/
def State.clearRead (s : State) (off : Nat) : State :=
  if !s.hasReg off then s
  else if 0x8000 ≤ off && off < 0x10000 then s.clearPt off
  else if 0x10000 ≤ off && off < 0x18000 then s.clearEp off
  else if 0x18000 ≤ off && off < 0x1A000 then s.clearFd off
  else s.clearHub off

/-- A read of a register: the LO word of a timebase takes its snapshot and GT_CAP ends FULL; any other returns its value, then clears
its RC fields. -/
def State.readReg (s : State) (off : Nat) : State :=
  match off with
  | 0x4000 => s.tbLoRead .la
  | 0x4010 => s.tbLoRead .lb
  | 0x4020 => s.tbLoRead .hb
  | _ =>
    if 0x4100 ≤ off && off < 0x4500 && (elem off 0x4100 0x20).2 = 0xC then s.gtCapRead (elem off 0x4100 0x20).1
    else
      let s := s.measure off
      { s.clearRead off with readData := s.regValue off }

/-! ### The function (R385 to R387) -/

/-- What a configuration request reads of an item; the vendor identifier is in OTP region 0. A property is its number, or 1 where the
function has it. -/
def State.configItem (s : State) : ConfigItem → Nat
  | .vendorId => s.shadowWord 1 % 2 ^ 16
  | .deviceId => s.variantId
  | .endpoint => 1
  | .linkX1Lane => 0
  | .laneReversal => 1
  | .bar0Memory64 => 1
  | .bar0Prefetchable => 0
  | .bar2Memory64 => 1
  | .bar2Prefetchable => 0
  | .addressing64 => 1
  | .aerCorrectable => 1
  | .aerNonFatal => 1
  | .aerFatal => 1
  | .classCode => 0x088000
  | .bar0Bytes => 262144
  | .bar2Bytes => 4096
  | .maxPayload => 256
  | .maxReadRequest => 512
  | .completionTimeoutMs => 10
  | .linkGens => 2
  | .linkLanes => 2
  | .msixVectors => 32
  | .intxPins => 0
  | .msiVectors => 0
  | .powerStates => 0b1001
  | .aspm => 0
  | .functionLevelReset => 1
  | .aer => 1
  | .ioBar => 0
  | .expansionRom => 0

/-- A read by the host: of a register of BAR0; of BAR2, which reads 0; of the configuration space, which until HB is ready answers with
Configuration Request Retry Status. -/
def execRegisterRead (addr : BusAddr) (s : State) : Host.Outcome State Fault Refusal :=
  match addr with
  | .bar0 offset => ok (s.readReg offset.toNat)
  | .bar2 _ => ok { s with readData := 0#32 }
  | .config item =>
    if s.hi.ready then ok { s with hi := { s.hi with retry := false }, readData := word (s.configItem item) }
    else ok { s with hi := { s.hi with retry := true } }

/-! ### Time-outs (R483, R491) -/

/-- LAST_DIE; HB answers its own registers. -/
def dieCode : Die → BitVec 2
  | .la => 1#2
  | .lb => 2#2
  | .fd => 3#2
  | .hb => 0#2

/-- DEDUCED, log entry 57. -/
def execAccessTimeout (die : Die) (isRead : Bool) (s : State) : Host.Outcome State Fault Refusal :=
  let s := { s with gc := { s.gc with toCnt := satInc s.gc.toCnt 65535, lastDie := dieCode die } }
  ok (if isRead then { s with readData := 0xFFFFFFFF#32 } else s)

end Sys2Proof.Machine
end

