-- ==== Sys2Proof/Machine/RegWrite.lean ====
section
/-!
DEFINITION. Writes of the registers of BAR0 (R10 to R15, R481, R484, R490): access codes, byte enables, the WL judgement, the discard
rules of the registers, and what each write does.
-/
namespace Sys2Proof.Machine
open Sys2Proof

/-- A write that a discard rule of its register turns away, or else its effect. -/
def State.ruled (s : State) (bad : Bool) (src off : Nat) (t : State) : State := if bad then s.wrej 3 src off else t

/-! ### HI_ and PM_ -/

/-- A base register of ring r, while the ring is DISABLED (R412). -/
def Ring.setBase (q : Ring) (reg : Nat) (v : Word) : Ring :=
  match reg with
  | 0x00 => { q with sqLo := v &&& 0xFFFFF000#32 }
  | 0x04 => { q with sqHi := v }
  | 0x08 => { q with cqLo := v &&& 0xFFFFF000#32 }
  | _ => { q with cqHi := v }

/-- Lane B takes its own copy of a write of HI_SAFE_SEQ (R481). -/
def State.writeRing (s : State) (src off : Nat) (v copyB : Word) : State :=
  let (r, reg) := elem off 0x1100 0x40
  match reg with
  | 0x10 => (s.ringCfg src r v).settle
  | 0x14 => s
  | 0x18 => s.safeSeq src r v copyB
  | _ => s.ruled (decide ((s.ring r).st ≠ .disabled)) src off (s.updRing r fun q => q.setBase reg v)

def State.writeEvRing (s : State) (src off : Nat) (v : Word) : State :=
  let (e, reg) := elem off 0x1500 0x20
  match reg with
  | 0x00 => s.ruled (s.evRing e).en src off (s.updEvRing e fun q => { q with lo := v &&& 0xFFFFF000#32 })
  | 0x04 => s.ruled (s.evRing e).en src off (s.updEvRing e fun q => { q with hi := v })
  | 0x08 => s.evCfg src e v
  | _ => s

def State.writeHi (s : State) (src off : Nat) (v copyB : Word) : State :=
  if off = 0x1000 then s.selectVersion src v
  else if off = 0x1004 then
    { s with hi := { s.hi with dbErr := s.hi.dbErr && !bit v 28, dmaErr := s.hi.dmaErr && !bit v 27 } }
  else if off = 0x1008 then { s with hi := { s.hi with route := v } }
  else if off < 0x1500 then s.writeRing src off v copyB
  else if off < 0x1800 then s.writeEvRing src off v
  else if off < 0x1A00 then s.msixWrite (elem off 0x1800 4).1 v
  else s

/-- PM_MODE: bench exit and Dormant mode; 0 in DORMANT wakes. A write that falls under two causes is recorded once, under that of DORMANT
(DESIGN CHOICE, log entry 52). -/
def State.writeMode (s : State) (src : Nat) (v : Word) : State :=
  let held := bit v 1 && s.pm.bench && s.benchHeld
  let s := if bit v 1 then s.leaveBench else s
  match s.dormantBar (bit v 0) with
  | some c => s.wrej c src 0x2004
  | none =>
    let s := if held then s.wrej 3 src 0x2004 else s
    if bit v 0 then s.dormantWrite src else if s.pm.dstate = .dormant then s.wake else s

def State.writePm (s : State) (src off : Nat) (v : Word) : State :=
  match off with
  | 0x2000 => s.updPm fun p => { p with seqErr := p.seqErr && !bit v 24 }
  | 0x2004 => s.writeMode src v
  | 0x2008 => s.updPm fun p => { p with wakeLo := v }
  | 0x200C => s.updPm fun p => { p with wakeHi := v }
  | _ => s

/-! ### TM_ and CK_ -/

/-- A register of general timer k. A write of GT_CMP while the timer's prescaler ends meets a tick (R357). -/
def State.writeGt (s : State) (src off : Nat) (v : Word) : State :=
  let (k, reg) := elem off 0x4100 0x20
  let g := s.gt k
  match reg with
  | 0x00 => s.ruled (s.gtCfgBad k v) src off (s.gtWriteCfg k v)
  | 0x04 => s.ruled (g.en || decide (16 ≤ k)) src off (s.updGt k fun g => { g with count := v })
  | 0x08 => s.gtWriteCmp k v (g.en && decide (g.presc.toNat ≤ g.div))
  | 0x10 => s.updGt k fun g => { g with ovr := g.ovr && !bit v 1 }
  | 0x14 => if bit v 0 && decide (g.capSrc = 1#3) then s.gtCaptureAt k else s
  | _ => s

def State.writeTm (s : State) (src off : Nat) (v : Word) : State :=
  if 0x4100 ≤ off then s.writeGt src off v
  else
    match off with
    | 0x4040 => s.ruled (decide (bits v 15 0 = 0)) src off (s.stgWriteCfg v)
    | 0x4044 => s.ruled (decide (v.toNat < 2)) src off { s with stg := { s.stg with shadow := v } }
    | 0x404C => if bit v 0 then { s with stg := { s.stg with loadPend := true } } else s
    | _ => s

def State.writeCk (s : State) (src off : Nat) (v : Word) : State :=
  if 0x5100 ≤ off then s
  else
    let (u, reg) := elem off 0x5000 0x20
    match reg with
    | 0x00 => s.ruled (decide (4 < bits v 4 2)) src off (s.updCrc u fun c => c.setCfg v)
    | 0x04 => s.updCrc u fun c => c.setVal v
    | 0x0C => s.updCrc u fun c => c.foldBytes (bytesBE 4 v.toNat)
    | 0x10 => s.updCrc u fun c => c.foldBytes (bytesLE 4 v.toNat)
    | 0x14 => s.updCrc u fun c => c.foldBytes (bytesLE 2 v.toNat)
    | 0x18 => s.updCrc u fun c => c.foldBytes (bytesLE 1 v.toNat)
    | _ => s

/-! ### PT_ (R254, R271 to R275) -/

/-- The settings a register of a port holds; they take effect at the next PORT_ENABLE. -/
def PortCfg.write (c : PortCfg) (reg : Nat) (v : Word) : PortCfg :=
  match reg with
  | 0x00 =>
    { c with
      phyMode := BitVec.ofNat 2 (bits v 11 10), tunnel := bit v 9, anEn := bit v 8, txInv := bit v 7, rxInv := bit v 6
      txSwing := BitVec.ofNat 2 (bits v 5 4), txEmph := BitVec.ofNat 4 (bits v 3 0) }
  | 0x08 => { c with advRf := BitVec.ofNat 2 (bits v 5 4) }
  | 0x0C => { c with mac := BitVec.ofNat 48 (bits v 15 0 * 2 ^ 32 + c.mac.toNat % 2 ^ 32) }
  | 0x10 => { c with mac := BitVec.ofNat 48 (c.mac.toNat / 2 ^ 32 * 2 ^ 32 + v.toNat) }
  | 0x14 => { c with ip := v }
  | 0x18 => { c with dscp := BitVec.ofNat 6 (bits v 29 24), ttl := BitVec.ofNat 8 (bits v 23 16), udpPort := BitVec.ofNat 16 (bits v 15 0) }
  | _ => c

/-- A register of a port discards a value. -/
def portBad (reg : Nat) (v : Word) : Bool :=
  match reg with
  | 0x00 => decide (bits v 11 10 = 3) || (decide (bits v 11 10 = 1) && !bit v 9)
  | 0x18 => decide (bits v 23 16 = 0)
  | _ => false

def State.writePt (s : State) (src off : Nat) (v : Word) : State :=
  let (n, reg) := elem off 0x8000 0x400
  if 0x18 < reg || reg = 4 then s
  else s.ruled (portBad reg v) src off (s.updPort n fun q => { q with cfg := q.cfg.write reg v })

/-! ### EP_, FL_, GC_, DB_ -/

/-- EP_LM_CFG discards a WARN_LIMIT out of its range (R94). -/
def lmBad (v : Word) : Bool := decide (bits v 19 10 < 196) || decide (600 < bits v 19 10)

/-- Each lane judges and stores its own copy of a write of a register that both hold, lane B in negative encoding (R18, R481). -/
def State.bothLanes (s : State) (bad : Word → Bool) (src off : Nat) (v copyB : Word) (setA setB : Word → State → State) : State :=
  let t := if bad v then s else setA v s
  let t := if bad copyB then t else setB (~~~copyB) t
  if bad v || bad copyB then t.wrej 3 src off else t

def State.writeEp (s : State) (src off : Nat) (v copyB : Word) : State :=
  match off with
  | 0x14800 =>
    s.bothLanes lmBad src off v copyB (fun w t => { t with lmWarn := BitVec.ofNat 10 (bits w 19 10) })
      fun w t => { t with lmWarnB := BitVec.ofNat 10 (bits w 19 10) }
  | 0x14804 => s.updLane .a fun d => { d with warn := d.warn && !bit v 29 }
  | 0x14808 => s.updLane .b fun d => { d with warn := d.warn && !bit v 29 }
  | _ => s

/-- FL_ registers: each lane takes its own copy of the two writes of a clear (R313). -/
def State.writeFl (s : State) (src off : Nat) (v copyB : Word) : State :=
  match off with
  | 0x1A004 => { s with fl := { s.fl with argA := v &&& 0xFFFF0FFF#32, argB := ~~~(copyB &&& 0xFFFF0FFF#32) } }
  | 0x1A008 => s.clearWrite src v copyB
  | 0x1A01C =>
    s.bothLanes (fun w => decide ((s.chan (bits w 5 0)).mode ≠ 1#2)) src off v copyB
      (fun w t => { t with fl := { t.fl with ackEn := bit w 31, ackCh := BitVec.ofNat 6 (bits w 5 0) } })
      fun w t => { t with fl := { t.fl with ackEnB := bit w 31, ackChB := BitVec.ofNat 6 (bits w 5 0) } }
  | _ => s

def State.writeGc (s : State) (off : Nat) (v : Word) : State :=
  if off = 0x1C then { s with gc := { s.gc with scratch := v } } else s

def State.writeDb (s : State) (src off : Nat) (v : Word) : State :=
  match off with
  | 0x1B000 => (s.dbCtrl src v cleanPass).settle
  | 0x1B004 =>
    { s with db := { s.db with refused := s.db.refused && !bit v 29, replayFail := s.db.replayFail && !bit v 28 } }
  | 0x1B008 => s.dbAccess src v
  | 0x1B00C => { s with db := { s.db with data := v } }
  | _ => s

/-! ### FD_ (R33, R209 to R214, R236 to R243) -/

/-- FD_CH_IN_CFG: an input out of wire-break mode has no wire break (R192). -/
def Chan.setIn (c : Chan) (v : Word) : Chan :=
  { c.setWb (bit v 17) with
    type3 := bit v 16, debounce := BitVec.ofNat 16 (bits v 15 0), debounceB := BitVec.ofNat 16 (bits v 15 0) }

/-- The members of a set that PAR would make of channel n. -/
def setMembers (n par : Nat) : List Nat :=
  if par = 1 then [n + 1] else if par = 2 then [n + 1, n + 2, n + 3] else []

/-- FD_CH_OUT_CFG discards a value (R220, R236): ranges, a misaligned set, a member in another mode or in another set. A member of a
set takes no PAR of its own (DEDUCED, log entry 56). -/
def State.outCfgBad (s : State) (n : Nat) (v : Word) : Bool :=
  let par := bits v 31 30
  let c := s.chan n
  decide (bits v 25 16 = 0) || decide (1000 < bits v 25 16) || decide (bits v 13 0 = 0) || decide (par = 3) ||
  (decide (par ≠ c.par.toNat) &&
    ((c.member && decide (par ≠ 0)) || (decide (par = 1) && decide (n % 2 ≠ 0)) || (decide (par = 2) && decide (n % 4 ≠ 0)) ||
     (setMembers n par).any fun m =>
       decide ((s.chan m).mode ≠ c.mode) || decide ((s.chan m).par ≠ 0#2) || ((s.chan m).member && decide (c.par = 0#2))))

/-- FD_CH_OUT_CFG: the fields, and the set it makes or dissolves; the units are new (R222). -/
def State.setOut (s : State) (n : Nat) (v : Word) : State :=
  let old := s.setOf n
  let par := decide ((s.chan n).par ≠ BitVec.ofNat 2 (bits v 31 30))
  let s := s.updChans old fun m c => if m = n then c else { c with member := false }
  let s := s.updChan n fun c => { c with
    par := BitVec.ofNat 2 (bits v 31 30), olEn := bit v 28, fbFilt := BitVec.ofNat 10 (bits v 25 16)
    fbFiltB := BitVec.ofNat 10 (bits v 25 16), offWin := BitVec.ofNat 14 (bits v 13 0) }
  let t := s.updChans (s.setOf n) fun m c => if m = n then c else { c with member := true }
  if par then t.newUnits (old ++ t.setOf n) else t

/-- FD_CH_TP_CFG discards a value: out of range, or a period at or below a phase, in 10 µs units. -/
def Chan.tpBad (c : Chan) (v : Word) : Bool :=
  let p := bits v 15 0
  decide (p < 10) || decide (60000 < p) || decide (bits v 22 16 < 10) || decide (100 < bits v 22 16) ||
  decide (100 * p ≤ c.phaseA.toNat) || decide (100 * p ≤ c.phaseB.toNat)

/-- FD_CH_NS_CFG discards a value (R239). A SILENT_T above the 1,000 that its table allows, which the list of discarded writes does not
name, is discarded too (DESIGN CHOICE, log entry 77). -/
def nsCfgBad (v : Word) : Bool :=
  decide (bits v 9 0 = 0) || decide (1000 < bits v 9 0) || decide (bits v 29 28 = 3) || decide (bits v 31 30 = 3) ||
  decide (35 < bits v 27 22)

def Chan.setNs (c : Chan) (v : Word) : Chan :=
  { c with
    nsSrc := BitVec.ofNat 2 (bits v 31 30), silentState := BitVec.ofNat 2 (bits v 29 28), tilePair := BitVec.ofNat 6 (bits v 27 22)
    tileLane := bit v 21, silentT := BitVec.ofNat 10 (bits v 9 0) }

def State.writeChan (s : State) (src off : Nat) (v : Word) : State :=
  let (n, reg) := elem off 0x18000 0x40
  let c := s.chan n
  match reg with
  | 0x00 =>
    let m := BitVec.ofNat 2 (bits v 1 0)
    s.ruled (s.modeBad n m) src off (s.setMode n m)
  | 0x04 => s.ruled (decide (bits v 15 0 = 0)) src off (s.updChan n fun c => c.setIn v)
  | 0x10 => s.ruled (s.outCfgBad n v) src off (s.setOut n v)
  | 0x14 =>
    s.ruled (c.tpBad v) src off (s.updChan n fun c =>
      { c with aPassed := none, tpEn := bit v 31, width := BitVec.ofNat 7 (bits v 22 16), period := BitVec.ofNat 16 (bits v 15 0) })
  | 0x18 =>
    s.ruled (decide (100 * c.period.toNat ≤ bits v 22 0)) src off (s.updChan n fun c => { c with aPassed := none, phaseA := BitVec.ofNat 23 (bits v 22 0) })
  | 0x1C =>
    s.ruled (decide (100 * c.period.toNat ≤ bits v 22 0)) src off (s.updChan n fun c => { c with aPassed := none, phaseB := BitVec.ofNat 23 (bits v 22 0) })
  | 0x20 => s.ruled (nsCfgBad v) src off ((s.updChan n fun c => c.setNs v).hostSource n c.byHost)
  | 0x24 => s.nsCmd src n v
  | _ => s

/-- FD_GRP_CFG discards a threshold outside its range (DESIGN CHOICE, log entry 49). -/
def grpCfgBad (v : Word) : Bool :=
  decide (bits v 26 18 < 100) || decide (300 < bits v 26 18) || decide (bits v 17 9 < 60) || decide (200 < bits v 17 9) ||
  decide (bits v 8 0 < 80) || decide (300 < bits v 8 0)

/-- FD_CAP_CFG discards a value (R212). -/
def capCfgBad (v : Word) : Bool := decide (bits v 13 12 = 0) || decide (bits v 10 8 = 0)

def State.writeFd (s : State) (src off : Nat) (v : Word) : State :=
  if off < 0x19000 then s.writeChan src off v
  else if off < 0x19200 then
    let (g, reg) := elem off 0x19000 0x40
    if reg = 0 then
      s.ruled (grpCfgBad v) src off (s.updGrp g fun q => { q with
        uvWarn := BitVec.ofNat 9 (bits v 26 18), uvOff := BitVec.ofNat 9 (bits v 17 9), uvIn := BitVec.ofNat 9 (bits v 8 0) })
    else s
  else if 0x19300 ≤ off then
    let (c, reg) := elem off 0x19300 8
    if reg = 0 then s.ruled (capCfgBad v) src off (s.updCap c fun u => u.setCfg (s.chan (bits v 21 16)).raw v) else s
  else
    match off with
    | 0x19200 =>
      s.ruled (decide (bits v 7 0 < 20) || decide (200 < bits v 7 0)) src off (s.updFd fun f => { f with tSb := BitVec.ofNat 8 (bits v 7 0) })
    | 0x19210 => s.ruled (gstopCfgBad v) src off (s.gstopCfg v)
    | _ => s

/-! ### A write -/

/-- The effect of a write that nothing turned away before its register (DEDUCED, log entry 56). -/
def State.applyWrite (s : State) (src off : Nat) (v copyB : Word) : State :=
  match off / 0x1000 with
  | 0x00 => s.writeGc off v
  | 0x01 => s.writeHi src off v copyB
  | 0x02 => s.writePm src off v
  | 0x04 => s.writeTm src off v
  | 0x05 => s.writeCk src off v
  | 0x18 => s.writeFd src off v
  | 0x19 => s.writeFd src off v
  | 0x1A => s.writeFl src off v copyB
  | 0x1B => s.writeDb src off v
  | 0x03 => s
  | 0x06 => s
  | _ => if off < 0x10000 then s.writePt src off v else s.writeEp src off v copyB

/-- A register that takes a write at all: every other holds RO, RC and FS fields alone, and discards it unrecorded (DEDUCED,
log entry 56). -/
def writable (off : Nat) : Bool :=
  if off < 0x1000 then decide (off = 0x1C)
  else if off < 0x1800 then
    if off < 0x1100 then true
    else if off < 0x1500 then decide ((elem off 0x1100 0x40).2 ≠ 0x14)
    else decide ((elem off 0x1500 0x20).2 ≠ 0xC)
  else if off < 0x2000 then decide (off < 0x1A00)
  else if off < 0x3000 then decide (off ≤ 0x200C)
  else if off < 0x4000 then false
  else if off < 0x5000 then
    if off < 0x4100 then decide (0x4040 ≤ off) && decide (off ≠ 0x4048) else decide ((elem off 0x4100 0x20).2 ≠ 0xC)
  else if off < 0x6000 then decide (off < 0x5100) && decide ((elem off 0x5000 0x20).2 ≠ 8)
  else if off < 0x8000 then false
  else if off < 0x14800 then isWl off
  else if off < 0x18000 then decide (off ≤ 0x14808)
  else if off < 0x1A000 then isWl off || (decide (off < 0x19000) && decide ((elem off 0x18000 0x40).2 = 0x24))
  else if off < 0x1B000 then decide (off = 0x1A004) || decide (off = 0x1A008) || decide (off = 0x1A01C)
  else decide (off ≤ 0x1B00C)

/-- The debugger reaches the registers through DBG_ACCESS, which the test access port offers in bench mode (R463, R482)
(DEDUCED, log entry 55). -/
def State.reaches (s : State) (src : Requester) : Bool :=
  match src with
  | .debug => s.pm.bench && s.db.ir == .dbgAccess
  | _ => true

/-- A die of FD: the lanes carry the write to it, and it applies only what both carried alike (R481). -/
def State.onFd (s : State) (off : Nat) : Bool :=
  match regRow s.portMax off with
  | some r => r.die == .fd
  | none => false

/-- HB holds the register, and applies a write of a WL field of it while every zone is WITHDRAWN (R484). -/
def State.onHb (s : State) (off : Nat) : Bool :=
  match regRow s.portMax off with
  | some r => r.die == .hb
  | none => false

/-- A write of a register (R10 to R12, R481, R484, R490), as lane A and as lane B receive it; of a WL field that a lane or FD holds each
steward folds its verdict (DEDUCED, log entry 56). -/
def State.writeReg (s : State) (src off be : Nat) (v copyB : Word) : State :=
  if !s.hasReg off then s
  else if be ≠ 15 then s.wrej 2 src off
  else if !writable off then s
  else if isWl off && s.onHb off then (if s.allWithdrawn then s.applyWrite src off v copyB else s.wrej 1 src off)
  else
    let t := if isWl off then s.judgeWl off else s
    if isWl off && s.wlLocked then t.wrej 1 src off
    else if decide (copyB ≠ v) && s.onFd off then t.wrej 4 src off
    else t.applyWrite src off v copyB

/-- `copyB` is what lane B receives where it is not the value (R481). The device held in reset takes no write (R15, R441). -/
def execRegisterWrite (offset : BitVec 18) (be : BitVec 4) (value : Word) (src : Requester) (copyB : Option Word) (s : State) :
    Host.Outcome State Fault Refusal :=
  ok (if s.reaches src && !s.pm.inReset then s.writeReg (srcCode src) offset.toNat be.toNat value (copyB.getD value) else s)

end Sys2Proof.Machine
end

