-- ==== Sys2Proof/Machine/Tiles.lean ====
section
/-!
DEFINITION. Tiles of split pairs (R60, R233, R234, R473, R474): one pass of a tile on its own lane.
-/
namespace Sys2Proof.Machine
open Sys2Proof

/-- The place of a tile in the table. -/
def tileKey (p : Nat) (l : Lane) : Nat :=
  2 * p + match l with
    | .a => 0
    | .b => 1

/-- A lane's count. -/
def State.laneTime (s : State) : Lane → Word64
  | .a => s.tb.a
  | .b => s.tb.b

/-- A timer of a tile after some µs of its lane (DEDUCED, log entry 55). -/
def Timer.pass (t : Timer) (us : Nat) : Timer :=
  match t with
  | .running u => if u ≤ us then .expired u else .running (u - us)
  | .late u => .expired u
  | t => t

/-- The last mark's image as a lane's tile reads it, in the encoding of the lane. -/
def State.tileImage (s : State) (l : Lane) (a : Nat) : Pt :=
  match l with
  | .a => if s.hasPt a then tabGet ptInitA s.imgA a else 0#2
  | .b => if s.hasPt a then tabGet ptInitB s.imgB a else 3#2

/-- A block's timers after some µs. -/
def BlockRt.age (us : Nat) (r : BlockRt) : BlockRt := { r with t1 := r.t1.pass us, t2 := r.t2.pass us, t3 := r.t3.pass us }

/-- The blocks of a tile stepped once; a lane B tile holds and steps its data in negative encoding (R473). -/
def State.stepTile (s : State) (l : Lane) (t : Tile) (x : TileSection) : List BlockRt :=
  let us := if t.first then 0 else (s.laneTime l - t.last).toNat / 100
  let caps (c : Nat) : BitVec 16 := tabGet 0#16 s.imgCaps c
  let n := x.blocks.length
  match l with
  | .a => stepBlocks (s.tileImage .a) caps t.first x.blocks 0 (padRt {} t.first n (t.rt.map (BlockRt.age us)))
  | .b => stepBlocksNeg (s.tileImage .b) (fun c => ~~~(caps c)) t.first x.blocks
      (padRt (BlockRt.neg {}) t.first n (t.rt.map fun r => (r.neg.age us).neg))

/-- The channel bit a tile's output gives. -/
def State.tileBit (s : State) (l : Lane) (rts : List BlockRt) (o : Operand) : Bool :=
  match l with
  | .a => isOne (readOperand (s.tileImage .a) rts o)
  | .b => isOne (readOperand (fun a => ~~~(s.tileImage .b a)) (rts.map BlockRt.neg) o)

/-- Values the COUPLE blocks of a tile write, in the encoding of its lane (DEDUCED, log entry 55). -/
def tileCouples (x : TileSection) (rts : List BlockRt) : List (Nat × Pt) :=
  (List.range x.blocks.length).filterMap fun n =>
    match (x.blocks[n]?).map fun b => b.kind with
    | some (BlockKind.couple a) => some (a, (rts.getD n {}).prevIn)
    | _ => none

/-- The channels a tile drives take their bits in both lanes; an update ends their silence when FD takes it (R234). -/
def State.driveTile (s : State) (l : Lane) (x : TileSection) (rts : List BlockRt) : State :=
  x.outs.foldl (fun t e =>
    let c := t.chan e.1
    if c.mode = 3#2 && c.nsSrc = 2#2 && decide (c.tilePair.toNat = x.pair) && decide (c.tileLane = decide (l = .b)) then
      let on := s.tileBit l rts e.2
      (t.pushFd .a (.nonsafe e.1 on)).pushFd .b (.nonsafe e.1 on)
    else t) s

/-- A pass of a tile; a parity error stops it: its points go invalid, its channels fall silent. -/
def execTilePass (p : Fin 36) (lane : Lane) (parity : Bool) (s : State) : Host.Outcome State Fault Refusal :=
  let k := tileKey p lane
  let t := s.tileAt k
  match t.sec with
  | none => ok s
  | some x =>
    if !s.lanesRun || (s.pair p).role != .split || t.stopped then ok s
    else if parity then
      let s := s.updTile k fun t => { t with stopped := true }
      let s := { s with db := { s.db with tileStop := setBit s.db.tileStop p true } }
      ok (s.dropPts (couples x.blocks))
    else
      let rts := s.stepTile lane t x
      let us := (s.laneTime lane - t.last).toNat / 100
      let s := s.updTile k fun t => { t with
        rt := rts, first := false, last := if t.first then s.laneTime lane else t.last + BitVec.ofNat 64 (100 * us) }
      let pts := tileCouples x rts
      let s := if pts.isEmpty then s else { s with trans := s.trans ++ [{
        body := match lane with
          | .a => .posted p 0#32 pts (negPts pts)
          | .b => .posted p 0#32 (negPts pts) pts
        repA := true, repB := true, okA := true, okB := true, since := s.now }] }
      ok (s.driveTile lane x rts)

end Sys2Proof.Machine
end

