-- ==== Sys2Proof/Machine/Dispatch.lean ====
section
/-! DEFINITION. The dispatch: one arm for each command, each a call of that command's meaning. -/
namespace Sys2Proof.Machine

/-- The effect of a command on everything but the queue. -/
def exec (i : Instr) (s : State) : Host.Outcome State Fault Refusal :=
  match i with
  | .imgLoad o offset total len busOk imgA imgB => Sys2Proof.Machine.execImgLoad o offset total len busOk imgA imgB s
  | .imgVerify o => Sys2Proof.Machine.execImgVerify o s
  | .zoneAdmit o zones pair => Sys2Proof.Machine.execZoneAdmit o zones pair s
  | .zoneCommit o zone accept => Sys2Proof.Machine.execZoneCommit o zone accept s
  | .rollback o zone accept => Sys2Proof.Machine.execRollback o zone accept s
  | .zoneWithdraw o zone => Sys2Proof.Machine.execZoneWithdraw o zone s
  | .zoneMigrate o zones src tgt => Sys2Proof.Machine.execZoneMigrate o zones src tgt s
  | .zoneRestart o zone => Sys2Proof.Machine.execZoneRestart o zone s
  | .connOpen o slot => Sys2Proof.Machine.execConnOpen o slot s
  | .connClose o slot => Sys2Proof.Machine.execConnClose o slot s
  | .portEnable o port => Sys2Proof.Machine.execPortEnable o port s
  | .portDisable o port => Sys2Proof.Machine.execPortDisable o port s
  | .bistRun o item index => Sys2Proof.Machine.execBistRun o item index s
  | .channelCal o index => Sys2Proof.Machine.execChannelCal o index s
  | .diagRead o zone first count bufLen busOk => Sys2Proof.Machine.execDiagRead o zone first count bufLen busOk s
  | .snapshot o first count bufLen busOk => Sys2Proof.Machine.execSnapshot o first count bufLen busOk s
  | .otpRead o word count => Sys2Proof.Machine.execOtpRead o word count s
  | .otpProgram o index data tjOk out => Sys2Proof.Machine.execOtpProgram o index data tjOk out s
  | .writeLock o index tjOk pulses copies => Sys2Proof.Machine.execWriteLock o index tjOk pulses copies s
  | .readLock o index tjOk pulses copies => Sys2Proof.Machine.execReadLock o index tjOk pulses copies s
  | .otpShadowSet o word data => Sys2Proof.Machine.execOtpShadowSet o word data s
  | .otpShadowRemove o word => Sys2Proof.Machine.execOtpShadowRemove o word s
  | .timeSync o => Sys2Proof.Machine.execTimeSync o s
  | .shutdown o => Sys2Proof.Machine.execShutdown o s
  | .sqTail offset value => Sys2Proof.Machine.execSqTail offset value s
  | .cqHead offset value => Sys2Proof.Machine.execCqHead offset value s
  | .evHead offset value => Sys2Proof.Machine.execEvHead offset value s
  | .descriptorFetch r entry => Sys2Proof.Machine.execDescriptorFetch r entry s
  | .safetyDescriptorCheck r copyA copyB => Sys2Proof.Machine.execSafetyDescriptorCheck r copyA copyB s
  | .ringEnable r value => Sys2Proof.Machine.execRingEnable r value s
  | .ringDisable r => Sys2Proof.Machine.execRingDisable r s
  | .eventRingEnable e value => Sys2Proof.Machine.execEventRingEnable e value s
  | .versionSelect value => Sys2Proof.Machine.execVersionSelect value s
  | .safeSeqWrite r value => Sys2Proof.Machine.execSafeSeqWrite r value s
  | .functionLevelReset => Sys2Proof.Machine.execFunctionLevelReset s
  | .d3hot => Sys2Proof.Machine.execD3hot s
  | .registerWrite offset be value src copyB => Sys2Proof.Machine.execRegisterWrite offset be value src copyB s
  | .accessTimeout die isRead => Sys2Proof.Machine.execAccessTimeout die isRead s
  | .timebaseLoRead which => Sys2Proof.Machine.execTimebaseLoRead which s
  | .gtCapRead k => Sys2Proof.Machine.execGtCapRead k s
  | .gtCmpWrite k value tickAtLoad => Sys2Proof.Machine.execGtCmpWrite k value tickAtLoad s
  | .gtEnable k value => Sys2Proof.Machine.execGtEnable k value s
  | .gtDisable k value => Sys2Proof.Machine.execGtDisable k value s
  | .softwareCapture k => Sys2Proof.Machine.execSoftwareCapture k s
  | .gtMatch k => Sys2Proof.Machine.execGtMatch k s
  | .gtCapture k => Sys2Proof.Machine.execGtCapture k s
  | .staggerLoad => Sys2Proof.Machine.execStaggerLoad s
  | .staggerPeriodEnd => Sys2Proof.Machine.execStaggerPeriodEnd s
  | .ckCfgWrite u value => Sys2Proof.Machine.execCkCfgWrite u value s
  | .ckData32 u value => Sys2Proof.Machine.execCkData32 u value s
  | .ckData16 u value => Sys2Proof.Machine.execCkData16 u value s
  | .ckData8 u value => Sys2Proof.Machine.execCkData8 u value s
  | .ckSeed u value => Sys2Proof.Machine.execCkSeed u value s
  | .faultClear keyA keyB => Sys2Proof.Machine.execFaultClear keyA keyB s
  | .clearComplete fdPass => Sys2Proof.Machine.execClearComplete fdPass s
  | .faultAcknowledgement => Sys2Proof.Machine.execFaultAcknowledgement s
  | .debugEnable value => Sys2Proof.Machine.execDebugEnable value s
  | .halt value => Sys2Proof.Machine.execHalt value s
  | .resume => Sys2Proof.Machine.execResume s
  | .step info => Sys2Proof.Machine.execStep info s
  | .stewardHalt => Sys2Proof.Machine.execStewardHalt s
  | .debugAccess value => Sys2Proof.Machine.execDebugAccess value s
  | .replayFail => Sys2Proof.Machine.execReplayFail s
  | .dormantEntry => Sys2Proof.Machine.execDormantEntry s
  | .wake => Sys2Proof.Machine.execWake s
  | .benchExit => Sys2Proof.Machine.execBenchExit s
  | .nsCmd ch value => Sys2Proof.Machine.execNsCmd ch value s
  | .channelModeWrite ch value => Sys2Proof.Machine.execChannelModeWrite ch value s
  | .captureConfig c value => Sys2Proof.Machine.execCaptureConfig c value s
  | .gstopDisable value => Sys2Proof.Machine.execGstopDisable value s
  | .powerOnReset loss => Sys2Proof.Machine.execPowerOnReset loss s
  | .resetN lowNs => Sys2Proof.Machine.execResetN lowNs s
  | .perstN lowNs => Sys2Proof.Machine.execPerstN lowNs s
  | .resetRelease bootsel seqErr => Sys2Proof.Machine.execResetRelease bootsel seqErr s
  | .shutdownN => Sys2Proof.Machine.execShutdownN s
  | .shadowsLoaded excs split crcOkA crcOkB flash => Sys2Proof.Machine.execShadowsLoaded excs split crcOkA crcOkB flash s
  | .testConditionPoll cond => Sys2Proof.Machine.execTestConditionPoll cond s
  | .startTestEnd cond res flashImg => Sys2Proof.Machine.execStartTestEnd cond res flashImg s
  | .longOperationStep work => Sys2Proof.Machine.execLongOperationStep work s
  | .shutdownRecordWritten cond tjMax fails chOk => Sys2Proof.Machine.execShutdownRecordWritten cond tjMax fails chOk s
  | .gstopOpen r => Sys2Proof.Machine.execGstopOpen r s
  | .gstopRelease => Sys2Proof.Machine.execGstopRelease s
  | .gstopDisc => Sys2Proof.Machine.execGstopDisc s
  | .inputDebounce ch r => Sys2Proof.Machine.execInputDebounce ch r s
  | .inputRestore ch => Sys2Proof.Machine.execInputRestore ch s
  | .wireBreak ch r => Sys2Proof.Machine.execWireBreak ch r s
  | .inputOv ch mv => Sys2Proof.Machine.execInputOv ch mv s
  | .sample => Sys2Proof.Machine.execSample s
  | .periodicSample => Sys2Proof.Machine.execPeriodicSample s
  | .captureCount c r => Sys2Proof.Machine.execCaptureCount c r s
  | .uvWarn g vfs => Sys2Proof.Machine.execUvWarn g vfs s
  | .uvIn g vfs => Sys2Proof.Machine.execUvIn g vfs s
  | .uvOff g vfs => Sys2Proof.Machine.execUvOff g vfs s
  | .groupOv g vfs => Sys2Proof.Machine.execGroupOv g vfs s
  | .groupLatchEnd g => Sys2Proof.Machine.execGroupLatchEnd g s
  | .testPulseStart ch lane period => Sys2Proof.Machine.execTestPulseStart ch lane period s
  | .testPulseEnd ch r settled => Sys2Proof.Machine.execTestPulseEnd ch r settled s
  | .feedbackDebounce ch level => Sys2Proof.Machine.execFeedbackDebounce ch level s
  | .offCheck ch termHigh => Sys2Proof.Machine.execOffCheck ch termHigh s
  | .onCheck ch atOn inLimit => Sys2Proof.Machine.execOnCheck ch atOn inLimit s
  | .openLoadTest ch above4V => Sys2Proof.Machine.execOpenLoadTest ch above4V s
  | .openLoad ch => Sys2Proof.Machine.execOpenLoad ch s
  | .overload ch => Sys2Proof.Machine.execOverload ch s
  | .thermal ch => Sys2Proof.Machine.execThermal ch s
  | .shareFault ch => Sys2Proof.Machine.execShareFault ch s
  | .crossShort x y => Sys2Proof.Machine.execCrossShort x y s
  | .channelFaultReport ch code => Sys2Proof.Machine.execChannelFaultReport ch code s
  | .nsSilent ch => Sys2Proof.Machine.execNsSilent ch s
  | .analogueWindow item index w passed => Sys2Proof.Machine.execAnalogueWindow item index w passed s
  | .fieldLinkFrame lane crcOk poison => Sys2Proof.Machine.execFieldLinkFrame lane crcOk poison s
  | .fieldLinkSilent lane => Sys2Proof.Machine.execFieldLinkSilent lane s
  | .ownershipCheck => Sys2Proof.Machine.execOwnershipCheck s
  | .pendingOwnershipTimeout => Sys2Proof.Machine.execPendingOwnershipTimeout s
  | .sbHeartbeatLost lane => Sys2Proof.Machine.execSbHeartbeatLost lane s
  | .fdOsc permille => Sys2Proof.Machine.execFdOsc permille s
  | .heartbeat lane => Sys2Proof.Machine.execHeartbeat lane s
  | .heartbeatLost lane => Sys2Proof.Machine.execHeartbeatLost lane s
  | .laneCrossLinkFrame dst crcOk pairs hash confirm => Sys2Proof.Machine.execLaneCrossLinkFrame dst crcOk pairs hash confirm s
  | .stewardStep agree => Sys2Proof.Machine.execStewardStep agree s
  | .stewardSilent lane => Sys2Proof.Machine.execStewardSilent lane s
  | .timebaseXchk lane ppm10 => Sys2Proof.Machine.execTimebaseXchk lane ppm10 s
  | .xchkResume => Sys2Proof.Machine.execXchkResume s
  | .pllLockLoss lane => Sys2Proof.Machine.execPllLockLoss lane s
  | .lightMeterWindow lane laps => Sys2Proof.Machine.execLightMeterWindow lane laps s
  | .supplyRange lane mv => Sys2Proof.Machine.execSupplyRange lane mv s
  | .hubLinkFrame lane f => Sys2Proof.Machine.execHubLinkFrame lane f s
  | .releaseMark => Sys2Proof.Machine.execReleaseMark s
  | .heartbeatPass p => Sys2Proof.Machine.execHeartbeatPass p s
  | .timerExpiry p zone blk chan e => Sys2Proof.Machine.execTimerExpiry p zone blk chan e s
  | .timerXchk p zone blk chan => Sys2Proof.Machine.execTimerXchk p zone blk chan s
  | .passEnd p info => Sys2Proof.Machine.execPassEnd p info s
  | .passWatch p lane => Sys2Proof.Machine.execPassWatch p lane s
  | .startWatch p lane => Sys2Proof.Machine.execStartWatch p lane s
  | .injectionSchedule p lane => Sys2Proof.Machine.execInjectionSchedule p lane s
  | .cat1DelayExpiry lane out => Sys2Proof.Machine.execCat1DelayExpiry lane out s
  | .notStopped => Sys2Proof.Machine.execNotStopped s
  | .withdrawTimeout zone => Sys2Proof.Machine.execWithdrawTimeout zone s
  | .tilePass p lane parity => Sys2Proof.Machine.execTilePass p lane parity s
  | .txRequest slot => Sys2Proof.Machine.execTxRequest slot s
  | .txMerge slot => Sys2Proof.Machine.execTxMerge slot s
  | .txMergeTimeout slot => Sys2Proof.Machine.execTxMergeTimeout slot s
  | .portTransmit port => Sys2Proof.Machine.execPortTransmit port s
  | .openStagger slot => Sys2Proof.Machine.execOpenStagger slot s
  | .openRetry slot => Sys2Proof.Machine.execOpenRetry slot s
  | .staleReopen slot => Sys2Proof.Machine.execStaleReopen slot s
  | .watchdogExpiry slot elapsedB => Sys2Proof.Machine.execWatchdogExpiry slot elapsedB s
  | .wdXchk slot => Sys2Proof.Machine.execWdXchk slot s
  | .dataFrame lane slot f => Sys2Proof.Machine.execDataFrame lane slot f s
  | .openFrame slot f => Sys2Proof.Machine.execOpenFrame slot f s
  | .openAck slot f rtt => Sys2Proof.Machine.execOpenAck slot f rtt s
  | .openRefuse slot f => Sys2Proof.Machine.execOpenRefuse slot f s
  | .close slot f => Sys2Proof.Machine.execClose slot f s
  | .syncAcquired port => Sys2Proof.Machine.execSyncAcquired port s
  | .negotiationComplete port page => Sys2Proof.Machine.execNegotiationComplete port page s
  | .syncLost port => Sys2Proof.Machine.execSyncLost port s
  | .portFrameEnd port f line => Sys2Proof.Machine.execPortFrameEnd port f line s
  | .rateWindow slot => Sys2Proof.Machine.execRateWindow slot s
  | .openRateWindow port => Sys2Proof.Machine.execOpenRateWindow port s
  | .bistSlot cond => Sys2Proof.Machine.execBistSlot cond s
  | .sliceEnd p cond res => Sys2Proof.Machine.execSliceEnd p cond res s
  | .bistOverdue p => Sys2Proof.Machine.execBistOverdue p s
  | .otpDriftScan words locks => Sys2Proof.Machine.execOtpDriftScan words locks s
  | .lfFail => Sys2Proof.Machine.execLfFail s
  | .dormantInputRead raw => Sys2Proof.Machine.execDormantInputRead raw s
  | .wakeReturnTimeout lane => Sys2Proof.Machine.execWakeReturnTimeout lane s
  | .recordGone k => Sys2Proof.Machine.execRecordGone k s
  | .midNodeCheck ch r => Sys2Proof.Machine.execMidNodeCheck ch r s
  | .gstopClosed r => Sys2Proof.Machine.execGstopClosed r s
  | .lfEdge => Sys2Proof.Machine.execLfEdge s
  | .hbReady => Sys2Proof.Machine.execHbReady s
  | .d0 => Sys2Proof.Machine.execD0 s
  | .vectorMessage v => Sys2Proof.Machine.execVectorMessage v s
  | .registerRead addr => Sys2Proof.Machine.execRegisterRead addr s
  | .jtagInstruction op => Sys2Proof.Machine.execJtagInstruction op s

end Sys2Proof.Machine
end

