-- ==== Sys2Proof/Safety.lean ====
section
/-!
DEFINITION. What the statements speak of beside the machine itself: the settings whose ranges hold in every state, the class of a
zone that is not stopped, and the conditions under which the stewards take a command up at once.
-/
namespace Sys2Proof.Machine
open Sys2Proof

/-- The settings every write of which has a range (R33, R86, R208, R214, R361, R364, R365, R389): the ring format, WARN_LIMIT in both lanes,
T_SB, T_GDISC, the prescaler and the period of the stagger group. -/
structure State.SettingsInRange (s : State) : Prop where
  version : s.hi.selected.toNat ≤ 2
  warn : 196 ≤ s.lmWarn.toNat ∧ s.lmWarn.toNat ≤ 600
  warnB : 196 ≤ (~~~s.lmWarnB).toNat ∧ (~~~s.lmWarnB).toNat ≤ 600
  tSb : 20 ≤ s.fd.tSb.toNat ∧ s.fd.tSb.toNat ≤ 200
  tGdisc : 10 ≤ s.fd.tGdisc.toNat ∧ s.fd.tGdisc.toNat ≤ 1000
  presc : s.stg.presc ≠ 0#16
  shadow : 2 ≤ s.stg.shadow.toNat
  period : 2 ≤ s.stg.period.toNat

/-- The stewards take a command up as it arrives: the device is in RUN, lock-step holds, no long operation runs and none waits
(R160, R449, R453, R471). -/
structure State.Ready (s : State) : Prop where
  run : s.pm.dstate = .run
  lockstep : s.db.broken = false
  idle : s.op = none
  served : s.waiting = []

/-- Nothing is in progress that an event could end or let start: no operation, no command, restart or withdrawal that waits, no slice or
slot, no shutdown, no steward halt. -/
structure State.Quiet (s : State) : Prop where
  idle : s.op = none
  served : s.waiting = []
  noRestart : ∀ z, (s.zone z).restartReq = false ∧ (s.zone z).restartO = []
  noWithdrawal : ∀ z, (s.zone z).wd = none
  noSlice : s.bist.slice = none
  noSlot : s.bist.slotDue = none
  noSliceDue : s.bist.sliceFor = none
  noShutdown : s.pm.dstate ≠ .shutdown
  noHalt : s.db.haltDue = false

/-- A zone is stopped: WITHDRAWN, or FAULTED. -/
def Zone.stopped (y : Zone) : Prop := y.st = .withdrawn ∨ y.st = .faulted

/-- What a command of the host gives where an accepted entry stands behind it and its turn has come (R392, R394, R400). Beside what it
says of the outcome, its ring has started the command: `s.begun o` is what the command finds. -/
def State.Gives (s : State) (o : Origin) (c : Instr) (r : Host.Outcome State Fault Refusal) : Prop :=
  s.takes o c = true → exec c s = r

/-- The origin of a command of the host. -/
def hostOrigin : Instr → Option Origin
  | .imgLoad o _ _ _ _ _ _ => some o
  | .portEnable o _ => some o
  | .portDisable o _ => some o
  | .diagRead o _ _ _ _ _ => some o
  | .snapshot o _ _ _ _ => some o
  | .otpRead o _ _ => some o
  | .otpProgram o _ _ _ _ => some o
  | .writeLock o _ _ _ _ => some o
  | .readLock o _ _ _ _ => some o
  | .otpShadowSet o _ _ => some o
  | .otpShadowRemove o _ => some o
  | .timeSync o => some o
  | c => (waitOrigin c).map (·.1)

/-- The state with a completion owed by a command posted: what every refusal of a command does. -/
def State.answered (s : State) (o : Origin) (opcode status res : Nat) : Host.Outcome State Fault Refusal :=
  .next (s.complete o opcode status res)

end Sys2Proof.Machine
end

