-- ==== Sys2Proof/Certificates/Slice0/Obligations.lean ====
section
/-!
DEFINITION. The statements: what each command of the block does and leaves alone, what the machine keeps in every state, what its
registers show. They are over every state; what a statement needs of the state it says.
-/
set_option maxRecDepth 4000

open Sys2Proof Sys2Proof.Machine

/-- A step runs the command at the front of the queue on the state with the rest of the queue. What the manual leaves open here is the
model's choice: log entry 1 (DESIGN CHOICE). -/
def Obligations.StepRunsTheFrontCommand : Prop := ∀ (c : Instr) (r : List Instr) (s : State), s.pending = c :: r → step s = exec c { s with pending := r }

/-- The queue is first in, first out: every step ends in a next state, whose queue is the old one without its front. What the manual
leaves open here is the model's choice: log entries 1 (DESIGN CHOICE) and 62 (DEDUCED). -/
def Obligations.QueueIsFirstInFirstOut : Prop := ∀ s : State, ∃ t, step s = .next t ∧ t.pending = s.pending.tail

/-- With no command waiting the block takes one tick of 10 ns (the model's choice, log entry 2): the counts that run from their core
clocks advance by one, but that of a lane die still in reset stands (log entry 71); an enabled independent timer advances its prescaler or
its count, unless a write of its compare value has met that tick; what is disabled stands still. In reset nothing moves. -/
def Obligations.IdleTickAdvancesTheCounts : Prop := ∀ s : State, s.pending = [] →
    (s.pm.inReset = true → step s = .next s) ∧
    (s.pm.inReset = false → ∃ t, step s = .next t ∧
      t.tb = { s.tb with
        a := if s.tb.laLf = true ∨ 0 < s.tb.skewA then s.tb.a else s.tb.a + 1#64, skewA := s.tb.skewA - 1
        b := if s.tb.lbLf = true ∨ 0 < s.tb.skewB then s.tb.b else s.tb.b + 1#64, skewB := s.tb.skewB - 1
        h := s.tb.h + 1#64 } ∧
      (∀ k : Fin 16, (s.gt k).en = true → (s.gt k).ticked = true →
        (t.gt k).ticked = false ∧ (t.gt k).count = (s.gt k).count ∧ (t.gt k).div = (s.gt k).div) ∧
      (∀ k : Fin 16, (s.gt k).en = true → (s.gt k).ticked = false →
        ((s.gt k).div < (s.gt k).presc.toNat → (t.gt k).count = (s.gt k).count ∧ (t.gt k).div = (s.gt k).div + 1) ∧
        ((s.gt k).presc.toNat ≤ (s.gt k).div → (t.gt k).count = (s.gt k).count + 1#32 ∧ (t.gt k).div = 0)) ∧
      (∀ k : Fin 16, (s.gt k).en = false → t.gt k = s.gt k) ∧
      (s.stg.en = false → t.stg = s.stg) ∧
      t.zones = s.zones ∧ t.pairs = s.pairs ∧ t.chans = s.chans ∧ t.ptsA = s.ptsA ∧ t.ptsB = s.ptsB)

/-- What has fallen due after an event: nothing, where no operation runs or waits, no restart or withdrawal is pending, no slice runs or
waits and no shutdown or steward halt is in progress. -/
def Obligations.NothingFollowsAQuietState : Prop := ∀ s : State, s.Quiet → s.settle = s

/-- Every step keeps the settings in the ranges the manual gives them. -/
def Obligations.EveryStepKeepsTheSettingsInRange : Prop := ∀ s t : State, s.SettingsInRange → step s = .next t → t.SettingsInRange

/-- The settings are in range right after reset. -/
def Obligations.ResetSettingsAreInRange : Prop := State.reset.SettingsInRange

/-- R11: an offset at which no register is implemented reads 0, and a write there is discarded: nothing else changes. -/
def Obligations.OffsetWithoutRegisterReadsZeroAndTakesNoWrite : Prop := ∀ (s : State) (off : BitVec 18), s.hasReg off.toNat = false →
    exec (.registerRead (.bar0 off)) s = .next { s with readData := 0#32 } ∧
    ∀ (be : BitVec 4) (v : Word) (src : Requester) (other : Option Word), exec (.registerWrite off be v src other) s = .next s

/-- R88 to R91: the pass registers of a pair show the figures of its last completed pass and T_pb; a read of EP_PASS_TIME returns both
times and then clears the longest; the values after reset are those of the tables. -/
def Obligations.PassRegistersOfAPair : Prop := ∀ (p : Fin 36) (s : State),
    s.regValue (0x10004 + 0x200 * p) = (s.pair p).lastPass ∧
    s.regValue (0x10008 + 0x200 * p) = (s.pair p).sigA ∧ s.regValue (0x1000C + 0x200 * p) = (s.pair p).sigB ∧
    s.regValue (0x10010 + 0x200 * p) = BitVec.ofNat 32 ((s.pair p).maxTime % 65536 * 65536 + (s.pair p).lastTime % 65536) ∧
    s.regValue (0x10014 + 0x200 * p) = BitVec.ofNat 32 ((s.pair p).bound % 65536) ∧
    exec (.registerRead (.bar0 (BitVec.ofNat 18 (0x10010 + 0x200 * p)))) s =
      .next { (s.updPair p fun q => { q with maxTime := 0 }) with readData := s.regValue (0x10010 + 0x200 * p) } ∧
    State.reset.regValue (0x10004 + 0x200 * p) = 0#32 ∧ State.reset.regValue (0x10008 + 0x200 * p) = 0#32 ∧
    State.reset.regValue (0x1000C + 0x200 * p) = 0xFFFFFFFF#32 ∧ State.reset.regValue (0x10010 + 0x200 * p) = 0#32 ∧
    State.reset.regValue (0x10014 + 0x200 * p) = 0x36#32

/-- R33: T_SB is written only while every zone is WITHDRAWN and no admission is taken up (R12, R484), and only from 20 µs to 200 µs; any
other write leaves it. The stewards fold their verdict on such a write, and nothing else changes. R86 and R94: EP_LM_CFG shows the fixed
limits 600 and 196 about WARN_LIMIT, which is written only while every zone is WITHDRAWN and only from 196 to 600; each lane stores the
copy it receives, lane B in negative encoding (R481). R243: FD_GRP_CFG is written, while every zone is WITHDRAWN, only with all three
thresholds in range (R230; that one out of range discards the whole write is the model's choice, log entry 49). R365: TM_STG_PERIOD is the
shadow of PERIOD, which a write of at least 2 sets and a write of 0 or 1 leaves. What the manual leaves open here is the model's choice:
log entry 49 (DESIGN CHOICE). -/
def Obligations.SettingsWithARange : Prop :=
  ((∀ (s : State) (v : Word) (src : Requester), s.reaches src = true → s.pm.inReset = false →
      (s.wlLocked = false → 20 ≤ bits v 7 0 → bits v 7 0 ≤ 200 →
        exec (.registerWrite 0x19200#18 0xF#4 v src none) s =
          .next { s.judgeWl 0x19200 with fd := { s.fd with tSb := BitVec.ofNat 8 (bits v 7 0) } }) ∧
      (s.wlLocked = true ∨ bits v 7 0 < 20 ∨ 200 < bits v 7 0 →
        ∃ t, exec (.registerWrite 0x19200#18 0xF#4 v src none) s = .next t ∧ { t with gc := s.gc } = s.judgeWl 0x19200) ∧
      s.regValue 0x19200 = BitVec.ofNat 32 s.fd.tSb.toNat) ∧
    State.reset.regValue 0x19200 = 0x32#32) ∧
  ((∀ (s : State) (v : Word) (src : Requester), s.reaches src = true → s.pm.inReset = false →
      (∀ w : Word, s.wlLocked = false → 196 ≤ bits v 19 10 → bits v 19 10 ≤ 600 → 196 ≤ bits w 19 10 → bits w 19 10 ≤ 600 →
        exec (.registerWrite 0x14800#18 0xF#4 v src (some w)) s = .next { s.judgeWl 0x14800 with
          lmWarn := BitVec.ofNat 10 (bits v 19 10), lmWarnB := ~~~(BitVec.ofNat 10 (bits w 19 10)) }) ∧
      (∀ other : Option Word, exec (.registerWrite 0x14800#18 0xF#4 v src none) s =
        exec (.registerWrite 0x14800#18 0xF#4 v src (some v)) s ∧
        (s.wlLocked = true ∨ bits v 19 10 < 196 ∨ 600 < bits v 19 10 →
          ∃ t, exec (.registerWrite 0x14800#18 0xF#4 v src other) s = .next t ∧ t.lmWarn = s.lmWarn ∧
            (s.wlLocked = true → t.lmWarnB = s.lmWarnB) ∧
            { t with gc := s.gc, lmWarnB := s.lmWarnB } = s.judgeWl 0x14800)) ∧
      s.regValue 0x14800 = BitVec.ofNat 32 (600 * 2 ^ 20 + s.lmWarn.toNat * 2 ^ 10 + 196)) ∧
    State.reset.regValue 0x14800 = BitVec.ofNat 32 (0x258 * 2 ^ 20 + 0x0D9 * 2 ^ 10 + 0x0C4)) ∧
  ((∀ (s : State) (g : Fin 4) (v : Word) (src : Requester), s.reaches src = true → s.pm.inReset = false →
      let good := 100 ≤ bits v 26 18 ∧ bits v 26 18 ≤ 300 ∧ 60 ≤ bits v 17 9 ∧ bits v 17 9 ≤ 200 ∧ 80 ≤ bits v 8 0 ∧ bits v 8 0 ≤ 300
      (s.wlLocked = false → good →
        exec (.registerWrite (BitVec.ofNat 18 (0x19000 + 0x40 * g)) 0xF#4 v src none) s = .next ((s.judgeWl (0x19000 + 0x40 * g)).updGrp g fun q => { q with
          uvWarn := BitVec.ofNat 9 (bits v 26 18), uvOff := BitVec.ofNat 9 (bits v 17 9), uvIn := BitVec.ofNat 9 (bits v 8 0) })) ∧
      (s.wlLocked = true ∨ ¬ good →
        ∃ t, exec (.registerWrite (BitVec.ofNat 18 (0x19000 + 0x40 * g)) 0xF#4 v src none) s = .next t ∧
          { t with gc := s.gc } = s.judgeWl (0x19000 + 0x40 * g)) ∧
      s.regValue (0x19000 + 0x40 * g) =
        BitVec.ofNat 32 ((s.grp g).uvWarn.toNat * 2 ^ 18 + (s.grp g).uvOff.toNat * 2 ^ 9 + (s.grp g).uvIn.toNat)) ∧
    ∀ g : Fin 4, State.reset.regValue (0x19000 + 0x40 * g) = BitVec.ofNat 32 (0x0C0 * 2 ^ 18 + 0x0A0 * 2 ^ 9 + 0x096)) ∧
  ((∀ (s : State) (v : Word) (src : Requester) (other : Option Word), s.reaches src = true → s.pm.inReset = false →
      (2 ≤ v.toNat → exec (.registerWrite 0x4044#18 0xF#4 v src other) s = .next { s with stg := { s.stg with shadow := v } }) ∧
      (v.toNat < 2 → ∃ t, exec (.registerWrite 0x4044#18 0xF#4 v src other) s = .next t ∧ { t with gc := s.gc } = s) ∧
      s.regValue 0x4044 = s.stg.shadow) ∧
    State.reset.regValue 0x4044 = 0x3E8#32)

/-- R492: GC_SCRATCH stores any value and nothing else changes; a whole-device reset returns it to 0, a function level reset leaves it.
R491 and R493: an access that a die did not answer is counted, saturating at 65,535, and the die is named, none for HB itself; the read
that timed out returns all ones (which die LAST_DIE names for HB follows log entry 57). Reading GC_ACC_STAT clears the count. R486, R488
and R493: the identification registers. What the manual leaves open here is the model's choice: log entry 57 (DEDUCED). -/
def Obligations.GeneralRegisters : Prop :=
  ((∀ (s : State) (v : Word) (src : Requester) (other : Option Word), s.reaches src = true → s.pm.inReset = false →
      exec (.registerWrite 0x1C#18 0xF#4 v src other) s = .next { s with gc := { s.gc with scratch := v } }) ∧
    (∀ s : State, s.regValue 0x1C = s.gc.scratch) ∧ State.reset.regValue 0x1C = 0#32 ∧
    (∀ (s : State) (cause : Nat) (keep : Bool), (s.wholeReset cause keep).gc.scratch = 0#32) ∧
    (∀ s : State, ∃ t, exec .functionLevelReset s = .next t ∧ t.gc.scratch = s.gc.scratch)) ∧
  ((∀ (s : State) (d : Die) (rd : Bool), exec (.accessTimeout d rd) s = .next { s with
      gc := { s.gc with
        toCnt := if s.gc.toCnt < 65535 then s.gc.toCnt + 1 else s.gc.toCnt
        lastDie := match d with | .hb => 0#2 | .la => 1#2 | .lb => 2#2 | .fd => 3#2 }
      readData := if rd then 0xFFFFFFFF#32 else s.readData }) ∧
    (∀ s : State, s.regValue 0x18 = BitVec.ofNat 32 (s.gc.toCnt % 65536 * 65536 + s.gc.lastDie.toNat) ∧
      exec (.registerRead (.bar0 0x18#18)) s = .next { s with gc := { s.gc with toCnt := 0 }, readData := s.regValue 0x18 }) ∧
    State.reset.regValue 0x18 = 0#32) ∧
  (∀ s : State,
      s.regValue 0x00 = (if s.otp.applied = 2#2 then 0x49563264#32 else if s.otp.applied = 1#2 then 0x49561664#32 else 0x49560864#32) ∧
      s.regValue 0x08 = (if s.rlOn 0 then 0#32 else (s.otpWord 0).shadow.setWidth 32) ∧
      s.regValue 0x0C = (if s.rlOn 0 then 0#32 else ((s.otpWord 0).shadow >>> (32 : Nat)).setWidth 32) ∧
      s.regValue 0x20 = s.gc.imgId)

/-- A write that is not a whole word, a write of a WL register with a zone up, a write to FD that the lanes carried apart: each is
discarded, and GC_WREJ records it with its cause, its requester and its offset (R10, R12, R481, R484, R490). Of a WL register that a lane
or FD holds both stewards fold their verdict; HB applies a write of one of its own while every zone is WITHDRAWN. A device held in reset
takes no write (DEDUCED, log entry 62). What the manual leaves open here is the model's choice: log entries 56 (DEDUCED) and 62 (DEDUCED).
-/
def Obligations.DiscardedWritesAreRecorded : Prop := ∀ (s : State) (off : BitVec 18) (be : BitVec 4) (v : Word) (src : Requester) (other : Option Word),
    s.reaches src = true → s.pm.inReset = false → s.hasReg off.toNat = true →
    let rec? (s : State) (cause : Nat) : State := { s with gc := { s.gc with
      wrejCnt := if s.gc.wrejCnt < 255 then s.gc.wrejCnt + 1 else s.gc.wrejCnt, wrejCause := cause
      wrejSrc := (match src with | .host => 0 | .debug => 1 | .boot => 2), wrejOff := off } }
    (be ≠ 0xF#4 → exec (.registerWrite off be v src other) s = .next (rec? s 2)) ∧
    (writable off.toNat = true → isWl off.toNat = true → s.onHb off.toNat = false → s.wlLocked = true →
      exec (.registerWrite off 0xF#4 v src other) s = .next (rec? (s.judgeWl off.toNat) 1)) ∧
    (writable off.toNat = true → isWl off.toNat = true → s.onHb off.toNat = true → s.allWithdrawn = false →
      exec (.registerWrite off 0xF#4 v src other) s = .next (rec? s 1)) ∧
    (writable off.toNat = true → s.onFd off.toNat = true → (isWl off.toNat = false ∨ s.wlLocked = false) →
      ∀ w, w ≠ v → exec (.registerWrite off 0xF#4 v src (some w)) s =
        .next (rec? (if isWl off.toNat then s.judgeWl off.toNat else s) 4)) ∧
    (∀ u : State, u.pm.inReset = true → exec (.registerWrite off be v src other) u = .next u)

/-- A read of a LO register returns the low word of the count and copies the high word into its snapshot; lane B's count reads in negative
encoding. Nothing else changes. The LF clock: 100 µs without an edge set LF_FAIL, an edge clears it; at an edge a count that runs from LF
advances by 3,051 ticks, or by 3,052 where the accumulator of 97 / 128 overflows, and a count that does not stays. Over 128 edges it
advances by exactly 390,625. The cross-check of the timebases: the figure is stored, more than 200 ppm is a lane-common fault, nothing is
measured while it is suspended; it resumes only once both lanes are back on their core clocks; a PLL that loses lock is TIMEBASE_XCHK at
once. -/
def Obligations.Timebases : Prop :=
  (∀ s : State,
      exec (.timebaseLoRead .la) s =
        .next { s with readData := s.tb.a.setWidth 32, tb := { s.tb with snapA := (s.tb.a >>> (32 : Nat)).setWidth 32 } } ∧
      exec (.timebaseLoRead .lb) s =
        .next { s with readData := ~~~(s.tb.b.setWidth 32), tb := { s.tb with snapB := (s.tb.b >>> (32 : Nat)).setWidth 32 } } ∧
      exec (.timebaseLoRead .hb) s =
        .next { s with readData := s.tb.h.setWidth 32, tb := { s.tb with snapH := (s.tb.h >>> (32 : Nat)).setWidth 32 } }) ∧
  ((∀ s : State, exec .lfFail s = .next { s with tb := { s.tb with lfFail := true } }) ∧
    (∀ s : State, ∃ t, exec .lfEdge s = .next t ∧ t.tb.lfFail = false ∧
      (s.tb.laLf = false → t.tb.a = s.tb.a ∧ t.tb.fracA = s.tb.fracA) ∧
      (s.tb.laLf = true → t.tb.fracA = s.tb.fracA + 97#7 ∧
        t.tb.a = s.tb.a + (if 128 ≤ s.tb.fracA.toNat + 97 then 3052#64 else 3051#64)) ∧
      (s.tb.lbLf = false → t.tb.b = s.tb.b ∧ t.tb.fracB = s.tb.fracB) ∧
      (s.tb.lbLf = true → t.tb.fracB = s.tb.fracB + 97#7 ∧
        t.tb.b = s.tb.b + (if 128 ≤ s.tb.fracB.toNat + 97 then 3052#64 else 3051#64)) ∧
      { t with tb := { t.tb with a := s.tb.a, b := s.tb.b, fracA := s.tb.fracA, fracB := s.tb.fracB, lfFail := s.tb.lfFail } } = s) ∧
    (∀ (c : Word64) (f : BitVec 7), (Nat.repeat (fun x : Word64 × BitVec 7 => lfAdvance x.1 x.2) 128 (c, f)) = (c + 390625#64, f))) ∧
  ((∀ (s : State) (l : Lane) (x : Int), s.tb.xchkOff = false → s.tb.laLf = false → s.tb.lbLf = false →
      let u : State := { s with tb := { s.tb with xchk := BitVec.ofInt 16 x } }
      exec (.timebaseXchk l x) s = .next (if 2000 < x.natAbs then u.laneFault l 0x2005#16 0 else u)) ∧
    (∀ (s : State) (l : Lane) (x : Int), s.tb.xchkOff = true ∨ s.tb.laLf = true ∨ s.tb.lbLf = true →
      exec (.timebaseXchk l x) s = .next s) ∧
    (∀ s : State, exec .xchkResume s =
      .next (if s.tb.laLf = true ∨ s.tb.lbLf = true then s else { s with tb := { s.tb with xchkOff := false } })) ∧
    (∀ (s : State) (l : Lane), exec (.pllLockLoss l) s = .next (s.laneFault l 0x2005#16 0)))

/-- A write of GT_CFG that its rules allow: enabling restarts the prescaler and takes MATCH as it stands, disabling holds the count and
ends MATCH; CAP, FULL, OVR, the count and the event count keep their values. Any other value is discarded and recorded. -/
def Obligations.TimerEnableAndDisable : Prop := ∀ (s : State) (k : Fin 32) (v : Word),
    let bad := (k.val < 16 ∧ bits v 15 0 = 0) ∨ 4 < bits v 23 21 ∨ (3 ≤ bits v 23 21 ∧ s.portMax ≤ bits v 28 24)
    let g := s.gt k
    let cfg (g : Gt) : Gt := { g with
      evEn := bit v 30, capEvEn := bit v 29, capArg := BitVec.ofNat 5 (bits v 28 24)
      capSrc := BitVec.ofNat 3 (bits v 23 21), presc := BitVec.ofNat 16 (bits v 15 0) }
    (bad → exec (.gtEnable k v) s = .next (s.wrej 3 0 (0x4100 + 0x20 * k)) ∧
      exec (.gtDisable k v) s = .next (s.wrej 3 0 (0x4100 + 0x20 * k))) ∧
    (¬ bad →
      exec (.gtDisable k v) s = .next (s.updGt k fun g => { cfg g with en := false, lvl := false, ticked := false }) ∧
      (g.en = true → exec (.gtEnable k v) s = .next (s.updGt k cfg)) ∧
      (g.en = false → exec (.gtEnable k v) s = .next (s.updGt k fun g => { cfg g with
        en := true, div := 0, ticked := false
        lvl := if k.val < 16 then decide (g.count = g.cmp)
          else decide (s.stg.count = g.phase) && decide (g.phase < s.stg.period) })))

/-- A capture edge copies the count of an enabled timer and sets FULL, or OVR where FULL was set; it posts an event when asked to. A
software trigger is an edge only while CAP_SRC is SOFTWARE. A read of GT_CAP returns the capture and clears FULL. -/
def Obligations.TimerCaptures : Prop := ∀ (s : State) (k : Fin 32),
    let g := s.gt k
    let u := s.updGt k fun g => { g with cap := s.gtCount k, full := true, ovr := g.ovr || g.full }
    let taken := if g.capEvEn then u.postEvent 0x05 3 (k + 256 + (s.gtCount k).toNat * 2 ^ 32) else u
    (g.en = true → g.capSrc = 1#3 → exec (.softwareCapture k) s = .next taken) ∧
    (g.en = false ∨ g.capSrc ≠ 1#3 → exec (.softwareCapture k) s = .next s) ∧
    (g.en = true → g.capSrc ≠ 0#3 → exec (.gtCapture k) s = .next taken) ∧
    (g.en = false ∨ g.capSrc = 0#3 → exec (.gtCapture k) s = .next s) ∧
    exec (.gtCapRead k) s = .next { (s.updGt k fun g => { g with full := false }) with readData := g.cap }

/-- An enabled timer that reaches its compare value, or a member whose live phase the group count reaches, has one event: its event count
advances, saturating, and MATCH is 1. Every timer keeps its settings, and a disabled one everything. A live phase of 0 is reached as the
group count returns to 0, where an armed load takes effect. A write of GT_CMP at a timer of its own: the new value equal to the count is
itself an event, any other raises none; MATCH follows the value after the load. For a member the value goes to the shadow of its phase
alone. -/
def Obligations.TimerEvents : Prop :=
  (∀ (s : State) (k : Fin 32), (s.gt k).en = true → (s.gt k).lvl = false →
      (16 ≤ k.val → s.stg.en = true ∧ (s.gt k).phase < s.stg.period) →
      (16 ≤ k.val → (s.gt k).phase = 0#32 → exec (.gtMatch k) s = exec .staggerPeriodEnd s) ∧
      ((16 ≤ k.val → (s.gt k).phase ≠ 0#32) → ∃ t, exec (.gtMatch k) s = .next t ∧
        (t.gt k).evtCnt = satInc (s.gt k).evtCnt 255 ∧ (t.gt k).lvl = true ∧
        (k.val < 16 → (t.gt k).count = (s.gt k).cmp ∧ t.stg = s.stg) ∧
        (16 ≤ k.val → t.stg = { s.stg with count := (s.gt k).phase }) ∧
        (∀ j : Fin 32, { t.gt j with count := 0#32, lvl := false, evtCnt := 0, cap := 0#32, full := false, ovr := false } =
          { s.gt j with count := 0#32, lvl := false, evtCnt := 0, cap := 0#32, full := false, ovr := false }) ∧
        (∀ j : Fin 32, (s.gt j).en = false → t.gt j = s.gt j) ∧
        { t with gts := s.gts, stg := s.stg, evRings := s.evRings, hi := s.hi } = s)) ∧
  (∀ (s : State) (k : Fin 32) (v : Word) (tick : Bool),
      (16 ≤ k.val → exec (.gtCmpWrite k v tick) s = .next (s.updGt k fun g => { g with cmp := v })) ∧
      (k.val < 16 → ∃ t, exec (.gtCmpWrite k v tick) s = .next t ∧
        let g := s.gt k
        let met := tick && g.en && decide (g.presc.toNat ≤ g.div) && !g.ticked
        let c := if met then g.count + 1#32 else g.count
        (t.gt k).cmp = v ∧ (t.gt k).count = c ∧ (t.gt k).ticked = (g.ticked || met) ∧ (t.gt k).lvl = (g.en && decide (c = v)) ∧
        (t.gt k).evtCnt = (if g.en = true ∧ v = g.count then satInc g.evtCnt 255 else g.evtCnt) ∧
        (¬ (g.en = true ∧ v = g.count) → ∀ j : Fin 32, j ≠ k → t.gt j = s.gt j) ∧
        { t with gts := s.gts, evRings := s.evRings, hi := s.hi } = s))

/-- The stagger group: GO arms a load and nothing else; at the return to 0 of a group that runs an armed load makes every shadow live at
once, and an unarmed one none; a group that does not run does not return. -/
def Obligations.StaggerLoadsAtTheReturnToZero : Prop := ∀ s : State,
    exec .staggerLoad s = .next { s with stg := { s.stg with loadPend := true } } ∧
    (s.stg.en = false → exec .staggerPeriodEnd s = .next s) ∧
    (s.stg.en = true → ∃ t, exec .staggerPeriodEnd s = .next t ∧
      t.stg = { s.stg with count := 0#32, loadPend := false, period := if s.stg.loadPend then s.stg.shadow else s.stg.period } ∧
      (∀ k : Fin 32, 16 ≤ k.val → (t.gt k).phase = if s.stg.loadPend then (s.gt k).cmp else (s.gt k).phase) ∧
      (∀ k : Fin 32, k.val < 16 → (t.gt k).count = (s.gt k).count ∧ (t.gt k).lvl = (s.gt k).lvl ∧ (t.gt k).evtCnt = (s.gt k).evtCnt) ∧
      { t with gts := s.gts, stg := s.stg, evRings := s.evRings, hi := s.hi } = s)

/-- R373: the order in which a write folds its bytes, the bits that are ignored, and the two CRCs of R290 that a unit reproduces. R381:
CK_CFG takes a POLY up to 0b100; with any other value every field keeps its previous value. A smaller width drops the bits above it. The
check values over the bytes "123456789" of the parameter sets. -/
def Obligations.CrcUnits : Prop :=
  ((∀ (s : State) (u : Fin 8) (v : Word),
      let byte (i : Nat) : Byte := (v >>> (8 * i)).setWidth 8
      exec (.ckData32 u v) s = .next (s.updCrc u fun c => c.foldBytes [byte 0, byte 1, byte 2, byte 3]) ∧
      exec (.ckData16 u v) s = .next (s.updCrc u fun c => c.foldBytes [byte 0, byte 1]) ∧
      exec (.ckData8 u v) s = .next (s.updCrc u fun c => c.foldBytes [byte 0]) ∧
      exec (.ckSeed u v) s = .next (s.updCrc u fun c => c.foldBytes [byte 3, byte 2, byte 1, byte 0])) ∧
    (∀ (connId seq : Word) (bs : List Byte) (c : Crc), c.val = 0xFFFFFFFF#32 → c.finalInv = true →
      let all := ((c.foldBytes (bytesBE 4 connId.toNat)).foldBytes (bytesBE 4 seq.toNat)).foldBytes bs
      let covers := bytesBE 4 connId.toNat ++ bytesBE 4 seq.toNat ++ bs
      (c.poly = 0#3 → c.reflect = true → all.result = crcA covers) ∧
      (c.poly = 1#3 → c.reflect = false → all.result = crcB covers))) ∧
  ((∀ (s : State) (u : Fin 8) (v : Word),
      (bits v 4 2 ≤ 4 → ∃ t, exec (.ckCfgWrite u v) s = .next t ∧
        (t.crc u).poly.toNat = bits v 4 2 ∧ (t.crc u).finalInv = bit v 1 ∧ (t.crc u).reflect = bit v 0 ∧
        (t.crc u).val.toNat = (s.crc u).val.toNat % 2 ^ (if bits v 4 2 = 3 then 16 else if bits v 4 2 = 4 then 8 else 32) ∧
        (∀ w : Fin 8, w ≠ u → t.crc w = s.crc w) ∧ { t with crcs := s.crcs } = s) ∧
      (4 < bits v 4 2 → ∃ t, exec (.ckCfgWrite u v) s = .next t ∧ { t with gc := s.gc } = s) ∧
      s.regValue (0x5000 + 0x20 * u) =
        BitVec.ofNat 32 ((s.crc u).poly.toNat * 4 + (if (s.crc u).finalInv then 2 else 0) + (if (s.crc u).reflect then 1 else 0))) ∧
    ∀ u : Fin 8, State.reset.regValue (0x5000 + 0x20 * u) = 3#32) ∧
  (let run (poly : BitVec 3) (refl : Bool) (init : Word) (inv : Bool) : Word :=
      (({ poly := poly, finalInv := inv, reflect := refl, val := init } : Crc).foldBytes
        [0x31#8, 0x32#8, 0x33#8, 0x34#8, 0x35#8, 0x36#8, 0x37#8, 0x38#8, 0x39#8]).result;
    run 0#3 true 0xFFFFFFFF#32 true = 0xE3069283#32 ∧ run 2#3 true 0xFFFFFFFF#32 true = 0xCBF43926#32 ∧
    run 3#3 false 0xFFFF#32 false = 0x29B1#32 ∧ run 3#3 false 0#32 false = 0x31C3#32 ∧ run 4#3 false 0xFF#32 true = 0xDF#32)

/-- The doorbells, each at its offset of BAR2: an index inside the ring is taken by a ring that is not disabled; any other write is
discarded and sets DB_ERR. A completion ring that gets space takes the completions held for it; an event ring reports what it lost. A
write at any other offset writes no doorbell. -/
def Obligations.DoorbellsTakeAnIndexInsideTheRing : Prop := ∀ (s : State) (v : Word) (r : Fin 16) (e : Fin 4),
    let i : BitVec 12 := v.setWidth 12
    let sq : BitVec 12 := BitVec.ofNat 12 (8 * r)
    let cq : BitVec 12 := BitVec.ofNat 12 (8 * r + 4)
    let ev : BitVec 12 := BitVec.ofNat 12 (0x100 + 4 * e)
    let refused : State := { s with hi := { s.hi with dbErr := true } }
    let q := s.ring r
    let x := s.evRing e
    (q.st = .disabled ∨ 2 ^ q.size.toNat ≤ i.toNat →
      exec (.sqTail sq v) s = .next refused ∧ exec (.cqHead cq v) s = .next refused) ∧
    (q.st ≠ .disabled → i.toNat < 2 ^ q.size.toNat →
      exec (.sqTail sq v) s = .next (s.updRing r fun q => { q with sqTail := i }) ∧
      (q.st = .enabled → q.held = [] → exec (.cqHead cq v) s = .next (s.updRing r fun q => { q with cqHead := i })) ∧
      ∃ t, exec (.cqHead cq v) s = .next t ∧ t.ring r = (({ q with cqHead := i }).flush s.stamp q.held).drained ∧
        (∀ j : Fin 16, j ≠ r → t.ring j = s.ring j) ∧ { t with rings := s.rings, hi := s.hi } = s) ∧
    (x.en = false ∨ 2 ^ x.size.toNat ≤ i.toNat → exec (.evHead ev v) s = .next refused) ∧
    (x.en = true → i.toNat < 2 ^ x.size.toNat →
      (x.lostCnt = 0 → exec (.evHead ev v) s = .next (s.updEvRing e fun q => { q with head := i })) ∧
      (0 < x.lostCnt → ringNext x.size x.tail ≠ i →
        ∃ t, exec (.evHead ev v) s = .next t ∧ (t.evRing e).head = i ∧ (t.evRing e).lostCnt = 0 ∧
          (t.evRing e).eseq = x.eseq + 1#16 ∧
          (tabGet none (t.evRing e).ev x.tail.toNat).map (fun y => (y.type, y.eseq)) = some (0x0D#8, x.eseq) ∧
          { t with evRings := s.evRings, hi := s.hi } = s)) ∧
    (∀ x : BitVec 12, (x.toNat % 4 ≠ 0 ∨ (0x80 ≤ x.toNat ∧ x.toNat < 0x100) ∨ 0x110 ≤ x.toNat) →
      exec (.sqTail x v) s = .next s ∧ exec (.cqHead x v) s = .next s ∧ exec (.evHead x v) s = .next s)

/-- Held completions are written in the order in which they fell due, as far as there is space; none is lost. A final completion on an
enabled ring: while there is space it is the entry at the tail, with the CID, status, opcode and result, the phase of this pass, the head
of the submission ring, and the time where version 2 is selected; while the ring is full it is held, in place of an intermediate one of
its command, and no message of its vector goes out. The command is outstanding no more. A disabled ring takes nothing. An event goes to
the ring its type is routed to: posted at the tail with the ring's next ESEQ, counted as dropped where the ring is full, discarded where
the ring is disabled. An event of a lane passes that lane's queue: a word that fails its parity there is counted and delivered with the
POISON flag. While HB takes no event it waits in the queue, which holds 64; one that a full queue does not accept is counted, and a parity
bit generated at the input goes with it. No other part of the machine changes. What the manual leaves open here is the model's choice: log
entries 47 (DESIGN CHOICE) and 57 (DEDUCED). -/
def Obligations.CompletionsAndEvents : Prop :=
  (∀ (r : Ring) (ts : Word64) (xs : List CqEntry), ∃ n, n ≤ xs.length ∧
      (r.flush ts xs).held = xs.drop n ∧ ((xs.drop n) ≠ [] → (r.flush ts xs).cqFull = true) ∧
      (r.flush ts xs).cqTail = (List.replicate n ()).foldl (fun i _ => ringNext r.size i) r.cqTail ∧
      (r.flush ts xs).st = r.st ∧ (r.flush ts xs).outs = r.outs ∧ (r.flush ts xs).cqHead = r.cqHead) ∧
  (∀ (s : State) (o : Origin) (op st res : Nat), s.hi.d3 = false →
      let q := s.ring o.ring
      let outs := dropTaken o.cid (BitVec.ofNat 8 op) q.outs
      let x : CqEntry := {
        cid := o.cid, status := BitVec.ofNat 8 st, phase := q.phase, interm := false, sqHead := q.sqHead, opcode := BitVec.ofNat 8 op
        ts := if s.hi.selected = 2#8 then s.tb.a else 0#64, res := BitVec.ofNat 384 res }
      let t := s.complete o op st res
      (q.st = .disabled → t = s) ∧
      (q.st = .enabled → q.held = [] → ringNext q.size q.cqTail ≠ q.cqHead →
        t.ring o.ring = { q with
          outs := outs, cqTail := ringNext q.size q.cqTail, cq := tabSet none q.cq q.cqTail.toNat (some x)
          phase := if ringNext q.size q.cqTail = 0#12 then !q.phase else q.phase }) ∧
      (q.st = .enabled → (q.held ≠ [] ∨ ringNext q.size q.cqTail = q.cqHead) →
        t.ring o.ring = { q with
          outs := outs
          held := (q.held.filter fun y => !(y.interm && decide (y.cid = o.cid))) ++ [{ x with phase := false }] } ∧ t.hi = s.hi) ∧
      (∀ j : Fin 16, j ≠ o.ring → t.ring j = s.ring j) ∧ { t with rings := s.rings, hi := s.hi } = s) ∧
  (∀ (s : State) (type src payload : Nat), s.hi.d3 = false →
      let e := s.route type
      let q := s.evRing e
      let t := s.postEvent type src payload
      let bad := (src = 1 ∧ s.evqA.bad.getLsbD 0 = true) ∨ (src = 2 ∧ s.evqB.bad.getLsbD 0 = true)
      let waits := s.hi.evHold = true ∧ (src = 1 ∨ src = 2)
      let through (k : Nat) (x : Evq) : Evq := if src = k then { x with
        bad := x.bad >>> 1, fillMax := max x.fillMax 1
        poisonCnt := if x.bad.getLsbD 0 = true ∧ x.poisonCnt < 255 then x.poisonCnt + 1 else x.poisonCnt } else x
      let stored (k : Nat) (x : Evq) : Evq :=
        if src ≠ k then x
        else if x.words.length < 64 then { x with
          words := x.words ++ [evWord type payload s.hi.evNext], fillMax := max x.fillMax (x.words.length + 1) }
        else { x with dropCnt := if x.dropCnt < 255 then x.dropCnt + 1 else x.dropCnt, lost := x.lost + 1 }
      (waits → t = { s with
        evqA := stored 1 s.evqA, evqB := stored 2 s.evqB, hi := { s.hi with evNext := s.hi.evNext + 1 } }) ∧
      (¬ waits → t.evqA = through 1 s.evqA ∧ t.evqB = through 2 s.evqB) ∧
      (¬ waits → q.en = false → t.evRings = s.evRings ∧ t.hi = s.hi) ∧
      (¬ waits → q.en = true → ringNext q.size q.tail = q.head →
        t.evRings = (s.updEvRing e fun q => { q with
          drop := if q.drop < 65535 then q.drop + 1 else q.drop, lostCnt := q.lostCnt + 1 }).evRings ∧ t.hi = s.hi) ∧
      (¬ waits → q.en = true → ringNext q.size q.tail ≠ q.head →
        ∃ poison : Bool, (poison = true ↔ bad) ∧ t.evRing e = { q with
          tail := ringNext q.size q.tail, eseq := q.eseq + 1#16
          phase := if ringNext q.size q.tail = 0#12 then !q.phase else q.phase
          ev := tabSet none q.ev q.tail.toNat (some {
            type := BitVec.ofNat 8 type, phase := q.phase, poison := poison, src := BitVec.ofNat 2 src, eseq := q.eseq
            ts := if s.hi.selected = 2#8 then s.tb.a else 0#64, payload := BitVec.ofNat 384 payload }) }) ∧
      (∀ j, j ≠ e → t.evRing j = s.evRing j) ∧
      { t with evRings := s.evRings, hi := s.hi, evqA := s.evqA, evqB := s.evqB } = s)

/-- HB fetches in turn. Of a safety entry it keeps what an abort has to name, for the lanes to read it again; a good entry of another
command is outstanding at once, SQ_HEAD past it, and starts in its turn; an unknown opcode and a bad parameter complete at once; a ring
out of its turn is not fetched from. A command of the host with no accepted entry behind it whose turn has come has no effect. The lanes'
checks of a safety entry, in their order: SAFETY_FLAG, DESC_CRC, SEQ_ERROR, DESC_SPLIT. A refused entry completes with that status and
advances no HOST_SEQ; an entry that passes advances both lanes' HOST_SEQ by one, lane B's in its own encoding, and is outstanding. While
the ring holds a completion nothing is taken up; a read that fails in a lane disables the ring. What the manual leaves open here is the
model's choice: log entry 48 (DEDUCED). -/
def Obligations.DescriptorsAreFetchedAndChecked : Prop :=
  ((∀ (s : State) (c : Instr) (o : Origin), hostOrigin c = some o → s.takes o c = false → exec c s = .next s) ∧
    ∀ (s : State) (r : Fin 16),
      (s.fetchTurn ≠ some r.val → ∀ e, exec (.descriptorFetch r e) s = .next s) ∧
      (s.fetchTurn = some r.val →
        let s1 : State := { s with hi := { s.hi with turn := (r.val + 1) % 16 } }
        let past : State := s1.updRing r fun q => { q with
          sqHead := ringNext q.size q.sqHead, checking := none, lostA := false, lostB := false }
        let taken (e : Entry) : State := { s1.updRing r fun q => { q with
          sqHead := ringNext q.size q.sqHead, checking := none, lostA := false, lostB := false
          outs := q.outs ++ [{ cid := e.cid, opcode := e.opcode, entry := some e, ord := s.hi.accepted }] } with
          hi := { s1.hi with accepted := s.hi.accepted + 1 } }
        (∃ u : State, exec (.descriptorFetch r none) s = .next u.settle ∧ u.hi.dmaErr = true ∧ u = s1.ringFail r) ∧
        ∀ e : Entry,
          (e.opcode.toNat ∈ [0x02, 0x10, 0x11, 0x12, 0x13, 0x14, 0x20, 0x21, 0x22, 0x23, 0x30, 0x41, 0x42, 0x51] →
            exec (.descriptorFetch r (some e)) s =
              .next (s1.updRing r fun q => { q with checking := some { cid := e.cid, opcode := e.opcode } })) ∧
          (e.opcode.toNat ∈ [0x01, 0x31, 0x32, 0x40, 0x50] →
            (entryBad e = false → exec (.descriptorFetch r (some e)) s = .next (taken e)) ∧
            (entryBad e = true →
              exec (.descriptorFetch r (some e)) s = .next (past.postCq r e.cid.toNat e.opcode.toNat 0x03 false 0))) ∧
          (e.opcode.toNat ∉ [0x02, 0x10, 0x11, 0x12, 0x13, 0x14, 0x20, 0x21, 0x22, 0x23, 0x30, 0x41, 0x42, 0x51, 0x01, 0x31, 0x32,
              0x40, 0x50] →
            exec (.descriptorFetch r (some e)) s = .next (past.postCq r e.cid.toNat e.opcode.toNat 0x02 false 0)))) ∧
  ((∀ (s : State) (r : Fin 16) (a b : Option Entry), (s.ring r).checking = none ∨ (a.isSome = true ∧ b.isSome = true ∧ (s.ring r).held ≠ []) →
      exec (.safetyDescriptorCheck r a b) s = .next s) ∧
    (∀ (s : State) (r : Fin 16) (a b : Option Entry), (s.ring r).checking ≠ none → (a = none ∨ b = none) →
      exec (.safetyDescriptorCheck r a b) s = .next (s.ringFail r).settle) ∧
    ∀ (s : State) (r : Fin 16) (a b : Entry), (s.ring r).checking ≠ none → (s.ring r).held = [] → (s.ring r).lostA = false →
      (s.ring r).lostB = false →
      let q := s.ring r
      let noFlag := a.flags.getLsbD 0 = false ∨ b.flags.getLsbD 0 = false
      let noCrc := a.dcrc ≠ crcA (entryCrcBytes a) ∨ b.dcrc ≠ crcA (entryCrcBytes b)
      let noSeq := a.hostSeq ≠ q.seqA ∨ b.hostSeq ≠ ~~~q.seqB
      let past : State := s.updRing r fun q => { q with
        sqHead := ringNext q.size q.sqHead, checking := none, lostA := false, lostB := false }
      let taken : State := { s.updRing r fun q => { q with
        sqHead := ringNext q.size q.sqHead, checking := none, lostA := false, lostB := false
        seqA := q.seqA + 1#32, seqB := q.seqB - 1#32
        outs := q.outs ++ [{ cid := a.cid, opcode := a.opcode, entry := some a, ord := s.hi.accepted }] } with
        hi := { s.hi with accepted := s.hi.accepted + 1 } }
      let refused (st : Nat) : Prop :=
        exec (.safetyDescriptorCheck r (some a) (some b)) s = .next (past.postCq r a.cid.toNat a.opcode.toNat st false 0)
      (noFlag → refused 0x0A) ∧ (¬ noFlag → noCrc → refused 0x07) ∧ (¬ noFlag → ¬ noCrc → noSeq → refused 0x09) ∧
      (¬ noFlag → ¬ noCrc → ¬ noSeq → a ≠ b → refused 0x08) ∧
      (¬ noFlag → ¬ noCrc → ¬ noSeq → a = b → a.opcode.toNat ∈ safetyOpcodes → entryBad a = false →
        exec (.safetyDescriptorCheck r (some a) (some b)) s = .next taken))

/-- Rings: enabling takes SIZE and VECTOR and starts both rings empty in their first phase, and needs SIZE from 4 to 12 and a selected
version; a ring that is not disabled keeps its configuration. A ring with nothing outstanding is DISABLED at once, and an entry fetched
and not taken up completes with ABORTED. HI_SAFE_SEQ is written in both lanes of a DISABLED ring alone. What the manual leaves open here
is the model's choice: log entry 49 (DESIGN CHOICE). -/
def Obligations.RingsAreEnabledAndDisabled : Prop := ∀ (s : State) (r : Fin 16) (e : Fin 4) (v : Word),
    let ok := 4 ≤ bits v 3 0 ∧ bits v 3 0 ≤ 12 ∧ s.hi.selected ≠ 0#8
    let q := s.ring r
    (q.st = .disabled →
      (ok → exec (.ringEnable r v) s = .next (s.updRing r fun q => { q with
        st := .enabled, size := BitVec.ofNat 4 (bits v 3 0), vector := BitVec.ofNat 5 (bits v 12 8)
        sqHead := 0#12, sqTail := 0#12, cqTail := 0#12, cqHead := 0#12, phase := true, cq := [] })) ∧
      (¬ ok → exec (.ringEnable r v) s = .next (s.wrej 3 0 (0x1110 + 0x40 * r))) ∧
      exec (.safeSeqWrite r v) s = .next (s.updRing r fun q => { q with seqA := v, seqB := ~~~v })) ∧
    (q.st ≠ .disabled →
      (∃ t, exec (.ringEnable r v) s = .next t ∧ { t with gc := s.gc } = s) ∧
      exec (.safeSeqWrite r v) s = .next (s.wrej 3 0 (0x1118 + 0x40 * r))) ∧
    (q.st ≠ .enabled → exec (.ringDisable r) s = .next s.settle) ∧
    (q.st = .enabled → s.op = none → s.waiting = [] → s.bist.asked = [] → s.snap.waiting = [] → s.pm.shutO = none → s.zones = [] →
      s.hi.d3 = false → q.held = [] → q.checking = none → q.resetDue = false →
      (q.outs = [] → exec (.ringDisable r) s =
        .next (s.updRing r fun q => { q with st := .disabled, lostA := false, lostB := false }).settle) ∧
      ∀ x, q.outs = [x] → exec (.ringDisable r) s =
        .next (((s.updRing r fun q => { q with st := .draining, lostA := false, lostB := false }).completion r x.cid.toNat x.opcode.toNat 0x0B false 0).updRing r
          Ring.drained).settle) ∧
    ((s.evRing e).en = false → bit v 31 = true →
      (ok → exec (.eventRingEnable e v) s = .next ((s.updEvRing e fun q => { q with
        en := true, size := BitVec.ofNat 4 (bits v 3 0), vector := BitVec.ofNat 5 (bits v 12 8), tail := 0#12, head := 0#12
        eseq := 0#16, phase := true, ev := [] }).postLost e)) ∧
      (¬ ok → exec (.eventRingEnable e v) s = .next (s.wrej 3 0 (0x1508 + 0x20 * e)))) ∧
    ((s.evRing e).en = true → bit v 31 = true → ∃ t, exec (.eventRingEnable e v) s = .next t ∧ { t with gc := s.gc } = s) ∧
    ((s.evRing e).en = true → bit v 31 = false →
      ∃ t, exec (.eventRingEnable e v) s = .next t ∧ { t with gc := s.gc } = s.updEvRing e fun q => { q with en := false })

/-- R409: HI_VERSION shows the two supported versions and the selected one; one of the two is selected while every ring is disabled, and
any other write is discarded. -/
def Obligations.VersionIsSelectedWhileRingsAreDisabled : Prop := (∀ (s : State) (v : Word),
    let off := (∀ r : Fin 16, (s.ring r).st = .disabled) ∧ ∀ e : Fin 4, (s.evRing e).en = false
    (off → (bits v 7 0 = 1 ∨ bits v 7 0 = 2) →
      exec (.versionSelect v) s = .next { s with hi := { s.hi with selected := BitVec.ofNat 8 (bits v 7 0) } }) ∧
    (¬ (off ∧ (bits v 7 0 = 1 ∨ bits v 7 0 = 2)) → ∃ t, exec (.versionSelect v) s = .next t ∧ { t with gc := s.gc } = s) ∧
    s.regValue 0x1000 = BitVec.ofNat 32 (0x300 + s.hi.selected.toNat)) ∧
  State.reset.regValue 0x1000 = 0x300#32

/-- A function level reset disables every ring and event ring and unselects the version before what waits is settled, a ring with
completions to write once they are written; READY stands; D3hot does the same and then stops fetching until D0; until READY, which rises
once out of reset, a configuration request has no effect but Configuration Request Retry Status. BAR2 reads 0. A vector's interval ends
with the message that covers its entries, sent or left pending by its mask. What the manual leaves open here is the model's choice: log
entries 17 (PRESUMED), 58 (DEDUCED) and 62 (DEDUCED). -/
def Obligations.FunctionStates : Prop := (∀ s : State, s.hi.ready = false →
    let u : State := { s with hi := { s.hi with retry := true } }
    exec .functionLevelReset s = .next u ∧ exec .d3hot s = .next u ∧ exec .d0 s = .next u ∧
    ∀ i, exec (.registerRead (.config i)) s = .next u) ∧
  (∀ (s : State) (off : BitVec 12), exec (.registerRead (.bar2 off)) s = .next { s with readData := 0#32 }) ∧
  (∀ s : State, (s.hi.ready = true →
      exec .functionLevelReset s = .next ({ s with hi := { s.hi with retry := false } } : State).hostReset.settle) ∧
    s.hostReset.hi.selected = 0#8 ∧ s.hostReset.hi.ready = s.hi.ready ∧
    (∀ r : Fin 16, let q := s.hostReset.ring r
      q.st ≠ .enabled ∧ (q.st = .draining → q.resetDue = true ∧ (q.outs ≠ [] ∨ q.held ≠ [])) ∧
      (q.st = .disabled → q.outs = [] ∧ q.held = [] ∧ q.sqTail = 0#12 ∧ q.cqTail = 0#12) ∧
      q.seqA = (s.ring r).seqA ∧ q.seqB = (s.ring r).seqB) ∧ (∀ e : Fin 4, (s.hostReset.evRing e).en = false)) ∧
  (∀ s : State, s.hi.ready = true →
    let u := ({ s with hi := { s.hi with retry := false } } : State).hostReset.settle
    exec .d3hot s = .next { u with hi := { u.hi with d3 := true } }) ∧
  (∀ s : State, s.hi.ready = true → exec .d0 s = .next { s with hi := { s.hi with d3 := false, retry := false } }) ∧
  (∀ s : State, exec .hbReady s = .next (if s.pm.inReset then s else { s with hi := { s.hi with ready := true } })) ∧
  (∀ s : State, s.hi.d3 = true → ∀ (r : Fin 16) (e : Option Entry), exec (.descriptorFetch r e) s = .next s) ∧
  (∀ (s : State) (v : Fin 32), ∃ t, exec (.vectorMessage v) s = .next t ∧ { t with hi := s.hi } = s ∧
    t.hi.due.getLsbD v = false ∧ (s.hi.due.getLsbD v = false → t.hi.busy.getLsbD v = false ∧ t.hi.sent = s.hi.sent) ∧
    (s.hi.due.getLsbD v = true → s.hi.d3 = false → t.hi.busy.getLsbD v = true ∧
      (bit (s.hi.msixWord (4 * v + 3)) 0 = false → tabGet 0 t.hi.sent v = tabGet 0 s.hi.sent v + 1 ∧ t.hi.pba = s.hi.pba) ∧
      (bit (s.hi.msixWord (4 * v + 3)) 0 = true → t.hi.pba.getLsbD v = true ∧ t.hi.sent = s.hi.sent)))

/-- A command that needs the stewards waits until RUN, and in Dormant mode until wake; while lock-step is broken, and during a shutdown,
it completes with BAD_STATE. One that waits has reached a wait: its ring may start its next command. Nothing else changes, but that after
ZONE_WITHDRAW and SHUTDOWN what is due is settled. In OFF no command of the host is taken up. -/
def Obligations.StewardCommandsWaitOrAreRefused : Prop := ∀ (s0 : State) (c : Instr) (o : Origin) (op : Nat), waitOrigin c = some (o, op) → s0.takes o c = true →
    let s := s0.begun o
    let done (u : State) : State := match c with
      | .shutdown _ => u.settle
      | .zoneWithdraw _ _ => u.settle
      | _ => u
    (s.db.broken = true → exec c s0 = .next (done (s.complete o op 0x04 0))) ∧
    (s.db.broken = false → s.pm.dstate ∈ [DState.load, .startTest, .config, .dormant] →
      exec c s0 = .next (done (({ s with waiting := s.waiting ++ [c] } : State).parked o op))) ∧
    (s.pm.dstate = .shutdown → exec c s0 = .next (done (s.complete o op 0x04 0))) ∧
    ∀ (u : State) (x : Origin) (d : Instr), u.pm.dstate = .off → hostOrigin d = some x → exec d u = .next u

/-- IMG_LOAD takes the chunks of an image in order: a chunk out of its place is IMG_ORDER, a figure out of range or another TOTAL
BAD_PARAM; any other begins to move, and OFFSET 0 discards what was loaded. IMG_VERIFY is a long operation of its own. A step in which the
command of one ring moves n bytes, no other command at work: a buffer that fails on the bus ends it with BUFFER_ERROR; with bytes left it
is counted and goes on; at its end an IMG_LOAD is loaded, a chunk that another has overtaken out of order, a DIAG_READ writes the records
it has read, clearing their counts, a SNAPSHOT its sheet. A step of IMG_VERIFY that ends it: an incomplete image is BAD_STATE; a format
that is not known is IMAGE_FORMAT; a check of the image that either lane's copy fails is IMAGE_CRC, and nothing takes effect; an image of
internal points alone that passes them and breaks no rule succeeds: its points are declared, its ID is the device's, the load buffer is
empty. A step that does not end it is counted. (Here no other command of the host makes a step.) What the manual leaves open here is the
model's choice: log entries 16 (DESIGN CHOICE), 37 (DESIGN CHOICE), 50 (DEDUCED), 65 (DEDUCED) and 76 (DESIGN CHOICE). -/
def Obligations.ImageLoadAndVerify : Prop :=
  ((∀ (s0 : State) (o : Origin) (off total len : Word) (bus : Bool) (a b : Image),
      let s := s0.begun o
      let good := 1 ≤ total.toNat ∧ total.toNat ≤ 2097152 ∧ 4 ≤ len.toNat ∧ len.toNat ≤ 65536 ∧ len.toNat % 4 = 0 ∧
        off.toNat + len.toNat ≤ total.toNat + 3
      (¬ good → s0.Gives o (.imgLoad o off total len bus a b) (s.answered o 0x01 0x03 0)) ∧
      (good → off ≠ 0#32 → off.toNat ≠ s.buf.loaded →
        s0.Gives o (.imgLoad o off total len bus a b) (s.answered o 0x01 0x16 s.buf.loaded)) ∧
      (good → off ≠ 0#32 → off.toNat = s.buf.loaded → total.toNat ≠ s.buf.total →
        s0.Gives o (.imgLoad o off total len bus a b) (s.answered o 0x01 0x03 0)) ∧
      (good → off = 0#32 ∨ (off.toNat = s.buf.loaded ∧ total.toNat = s.buf.total) → s0.Gives o (.imgLoad o off total len bus a b)
        (.next (({ s with buf := if off = 0#32 then { total := total.toNat } else s.buf } : State).startMove o 0x01
          { kind := .load off.toNat total.toNat a b, bytes := len.toNat, busOk := bus })))) ∧
    (∀ (s0 : State) (o : Origin),
      let s := s0.begun o
      s.Ready → s0.Gives o (.imgVerify o)
          (.next { s with op := some { kind := .verify false, o := some o, stage := 0, start := s.tb.a, req0 := s.commonFault } }))) ∧
  (∀ (s : State) (r : Fin 16) (t : Taken) (m : Move) (n : Nat), (s.ring r).moving = some (t, m) → 0 < n → s.op = none →
      s.pm.dstate ∉ [DState.config, .dormant, .off] → s.pm.shutO = none → s.bist.asked = [] →
      let o : Origin := { ring := r, cid := t.cid, progress := (t.entry.map fun e => e.flags.getLsbD 1).getD false }
      let done := min m.bytes (m.moved + n)
      let gives (u : State) : Prop := exec (.longOperationStep ⟨false, List.replicate r.val 0 ++ [n]⟩) s = .next u.settle
      (m.busOk = false → (∀ z f, m.kind ≠ .diag z f) → gives (s.complete o t.opcode.toNat 0x0C 0)) ∧
      (m.busOk = true → done < m.bytes → ∃ (u : State) (t' : Taken) (m' : Move), gives u ∧ (u.ring r).moving = some (t', m') ∧
        t'.steps = t.steps + 1 ∧ m'.moved = done ∧ m'.kind = m.kind ∧
        ((∀ z f, m.kind ≠ .diag z f) → { u with rings := s.rings, hi := s.hi } = s)) ∧
      (m.busOk = true → done = m.bytes →
        (∀ off total a b, m.kind = .load off total a b →
          (s.buf.loaded = off → s.buf.total = total → ∃ v : State, gives (v.complete o 0x01 0x00 (off + m.bytes)) ∧
            v.buf = { total := total, loaded := off + m.bytes, imgA := some a, imgB := some b } ∧
            { v with rings := s.rings, hi := s.hi, buf := s.buf } = s) ∧
          (s.buf.loaded ≠ off ∨ s.buf.total ≠ total → ∃ v : State, gives (v.complete o 0x01 0x16 s.buf.loaded) ∧
            { v with rings := s.rings, hi := s.hi } = s)) ∧
        (∀ z f, m.kind = .diag z f →
          let recs := m.recs ++ (s.readDiag z (f + m.moved / 8) (done / 8 - m.moved / 8)).1
          ∃ v : State, gives (v.complete o 0x31 0x00 recs.length) ∧ v.diagBuf.recs = recs ∧ (∀ y, y ≠ z → v.zone y = s.zone y) ∧
            { v with rings := s.rings, hi := s.hi, zones := s.zones, diagBuf := s.diagBuf } = s) ∧
        (m.kind = .sheet → ∃ v : State, gives (v.complete o 0x32 0x00 ((s.snap.sheet.map fun x => x.2.1.toNat).getD 0)) ∧
          { v with rings := s.rings, hi := s.hi } = s)) ∧
      ∀ z f k v, (s.zone z).active = some v → f + k ≤ v.sec.blocks.length →
        (s.readDiag z f k).1.length = k ∧
        ∀ i, f ≤ i → i < f + k → i < v.rt.length →
          (((s.readDiag z f k).2.zone z).active.map fun w => (w.rt.getD i {}).diagCnt) = some 0) ∧
  (∀ (s : State) (op : LongOp) (o : Origin), s.op = some op → op.kind = .verify false → op.o = some o → o.progress = false →
      (s.commonFault = true → op.req0 = true) → s.pm.dstate ≠ .dormant → s.pm.dstate ≠ .off →
      (∀ (r : Fin 16) (t : Taken), t ∈ (s.ring r).outs → s.stepping r t = false) →
      let u : State := { s with op := none, mig := { s.mig with stage := 0 } }
      exec (.longOperationStep ⟨false, []⟩) s = .next ({ s with op := some { op with steps := op.steps + 1 } } : State).settle ∧
      (s.buf.imgA = none → exec (.longOperationStep ⟨true, []⟩) s = .next (u.complete o 0x02 0x04 0).settle) ∧
      (∀ a b, s.buf.imgA = some a → s.buf.imgB = some b → s.buf.loaded < s.buf.total →
        exec (.longOperationStep ⟨true, []⟩) s = .next (u.complete o 0x02 0x04 0).settle) ∧
      (∀ a b, s.buf.imgA = some a → s.buf.imgB = some b → s.buf.total ≤ s.buf.loaded → a.major = 1 → a.minor ≤ 3 →
        a.size ≤ 2097152 → a.zones = [] → crcA a.bytes ≠ a.crcA →
        exec (.longOperationStep ⟨true, []⟩) s = .next (u.complete o 0x02 0x11 a.imageId.toNat).settle) ∧
      (∀ a b, s.buf.imgA = some a → s.buf.imgB = some b → s.buf.total ≤ s.buf.loaded → a.major = 1 → a.minor ≤ 3 →
        a.size ≤ 2097152 → a.zones = [] → crcA a.bytes = a.crcA → crcB b.bytes ≠ b.crcB →
        exec (.longOperationStep ⟨true, []⟩) s = .next (u.complete o 0x02 0x11 a.imageId.toNat).settle) ∧
      (∀ a b, s.buf.imgA = some a → s.buf.imgB = some b → s.buf.total ≤ s.buf.loaded → a.major ≠ 1 ∨ 3 < a.minor →
        exec (.longOperationStep ⟨true, []⟩) s = .next (u.complete o 0x02 0x10 a.imageId.toNat).settle) ∧
      (∀ a, s.buf.imgA = some a → s.buf.imgB = some a → s.buf.total ≤ s.buf.loaded → a.major = 1 → a.minor ≤ 3 → a.size ≤ 2097152 →
        crcA a.bytes = a.crcA → crcB a.bytes = a.crcB → a.zones = [] → a.chans = [] → a.conns = [] → a.tiles = [] → a.ack = none →
        s.imageBad a = none →
        exec (.longOperationStep ⟨true, []⟩) s = .next ((({ u with
          internals := a.internals.foldl (fun t e => tabSet none t e.1 (some e.2)) s.internals
          gc := { s.gc with imgId := a.imageId, verified := true, fromFlash := false }, buf := {} } : State).complete
            o 0x02 0x00 a.imageId.toNat).settle)))

/-- ZONE_ADMIT of zones with no ACTIVE version onto a named FREE pair: the pair is LOADING, with pass number 0 and its comparator codes at
0b01, and the admission runs. ZONE_MIGRATE of a whole CARRYING pair does the same to its target, and EP_MIG_STAT shows it. An admission
that names a zone with no STAGED version is BAD_STATE, one of no zone BAD_PARAM. ZONE_COMMIT of an ADMITTED version with its acceptance
code waits for the outputs, from the sample number of its take-up, and holds RESTART edges of an ACTIVE version; where nothing has to be
waited for, the next pass of its pair is its target pass. With another code it is ACCEPT_MISMATCH and counted, three times. A rollback of
a RETAINED version begins with its admission on its pair. With no version to commit it is BAD_STATE, with none retained NO_RETAINED. What
the manual leaves open here is the model's choice: log entries 34 (DEDUCED), 36 (DEDUCED), 61 (DEDUCED) and 68 (DESIGN CHOICE). -/
def Obligations.AdmissionsAndCommitsAreTakenUp : Prop :=
  (∀ (s0 : State) (o : Origin),
      let s := s0.begun o
      s.Ready →
      (∀ (zones : BitVec 256) (pair : Byte), pair.toNat < 36 → (s.pair pair.toNat).role = .free → (s.pair pair.toNat).haltBit = false → maskBits zones ≠ [] →
        (maskBits zones).length ≤ 64 →
        (∀ z ∈ maskBits zones, (s.zone z).active = none ∧ (s.zone z).wd = none ∧
          ∃ v, (s.zone z).staged = some v ∧ v.admitted = false) →
        s0.Gives o (.zoneAdmit o zones pair) (.next (({ s with op := some {
            kind := .admission (maskBits zones) false, o := some o, stage := 1, start := s.tb.a, tgt := pair.toNat, loaded := true
            req0 := s.commonFault } } : State).updPair pair.toNat fun q => { q with
          role := .loading, nextPass := 0#32, codeA := 1#2, codeB := 1#2, run := none, trig := false
          timerLost := false, timerLate := false }))) ∧
      (∀ pair : Byte, s0.Gives o (.zoneAdmit o 0#256 pair) (s.answered o 0x10 0x03 0)) ∧
      (∀ (z : Fin 256) (pair : Byte), pair.toNat < 36 → (s.zone z).staged = none →
        s0.Gives o (.zoneAdmit o (BitVec.twoPow 256 z) pair) (s.answered o 0x10 0x04 0)) ∧
      (∀ src tgt : Byte, src.toNat < 36 → tgt.toNat < 36 → src ≠ tgt → (s.pair src.toNat).role = .carrying →
        (s.pair tgt.toNat).role = .free → (s.pair tgt.toNat).haltBit = false → s.zonesOn src.toNat ≠ [] →
        ∃ t, s0.Gives o (.zoneMigrate o 0#256 src tgt) (.next t) ∧
          (t.op.map fun op => (op.kind, op.o, op.tgt, op.stage, op.start, op.loaded)) =
            some (.migrate (s.zonesOn src.toNat) src.toNat true false false, some o, tgt.toNat, 1, s.tb.a, true) ∧
          t.mig = { s.mig with src := src.toNat, tgt := tgt.toNat, agree := 0, stage := 1 } ∧
          t.pairs = (s.updPair tgt.toNat fun q => { q with
            role := .loading, nextPass := 0#32, codeA := 1#2, codeB := 1#2, run := none, trig := false
            timerLost := false, timerLate := false }).pairs ∧
          { t with op := s.op, mig := s.mig, pairs := s.pairs } = s)) ∧
  (∀ (s0 : State) (o : Origin) (z : BitVec 8) (accept : Word),
      let s := s0.begun o
      s.Ready →
      let y := s.zone z.toNat
      (∀ v, y.staged = some v → v.admitted = true → y.wd = none →
        (accept = v.accept → s.down v.pair = false →
          let op : LongOp := {
            kind := .commit z.toNat false false, o := some o, tgt := v.pair, stage := 6, start := s.tb.a, sample0 := s.fd.sampleNum
            req0 := s.commonFault }
          let u : State := { s.updZone z.toNat fun y => { y with accFails := 0, holdRestart := y.active.isSome } with
            op := some op, mig := { s.mig with stage := 6 } }
          (u.commitReady op z.toNat v = false → s0.Gives o (.zoneCommit o z accept) (.next u)) ∧
          (u.commitReady op z.toNat v = true → s0.Gives o (.zoneCommit o z accept)
            (.next (({ u with op := some { op with armed := true } } : State).updPair v.pair fun q => { q with trig := true })))) ∧
        (accept ≠ v.accept → y.accFails < 3 → s0.Gives o (.zoneCommit o z accept)
          ((s.updZone z.toNat fun y => { y with accFails := y.accFails + 1 }).answered o 0x11 0x22 0))) ∧
      ((y.staged = none ∨ ∃ v, y.staged = some v ∧ v.admitted = false) →
        s0.Gives o (.zoneCommit o z accept) (s.answered o 0x11 0x04 0)) ∧
      (y.retained = none → s0.Gives o (.rollback o z accept) (s.answered o 0x11 0x23 0)) ∧
      (∀ v, y.retained = some v → accept ≠ v.accept → s0.Gives o (.rollback o z accept) (s.answered o 0x11 0x22 0)) ∧
      (∀ v, y.retained = some v → accept = v.accept → y.wd = none → v.pair < 36 → (s.pair v.pair).role = .carrying →
        (s.pair v.pair).haltBit = false →
        s0.Gives o (.rollback o z accept) (.next { (s.updZone z.toNat fun y => { y with holdRestart := true }) with
          mig := { s.mig with stage := 1 }
          op := some { kind := .commit z.toNat true false, o := some o, stage := 1, start := s.tb.a, tgt := v.pair, loaded := false
                       req0 := s.commonFault } })))

/-- ZONE_WITHDRAW of a zone with an ACTIVE version starts its withdrawal at the end of the next pass; of a zone with a STAGED version
alone it discards that version; of a zone with none it is BAD_STATE. ZONE_RESTART asks the next pass of a healthy pair to return a FAULTED
zone that nothing blocks to ARMED; in any other state it is BAD_STATE. Neither touches an output at once. What the manual leaves open here
is the model's choice: log entry 35 (DEDUCED). -/
def Obligations.WithdrawAndRestartAreTakenUp : Prop := ∀ (s0 : State) (o : Origin) (z : BitVec 8),
    let s := s0.begun o
    s.Ready →
    let y := s.zone z.toNat
    (∀ v, y.active = some v → y.wd = none → s0.Gives o (.zoneWithdraw o z)
        (.next ((s.updZone z.toNat fun y => { y with
        wd := some { os := [o], sample0 := s.fd.sampleNum, confirmed := [], dropped := false }, restartReq := false }).updPair v.pair
          fun q => { q with trig := true }).settle)) ∧
    (∀ v, y.active = none → y.staged = some v → v.admitted = false → y.st = .withdrawn → s0.Gives o (.zoneWithdraw o z)
        (.next ((s.updZone z.toNat fun y => { y with staged := none, accFails := 0 }).complete o 0x12 0x00 0).settle)) ∧
    (y.active = none → y.staged = none → s0.Gives o (.zoneWithdraw o z) (.next (s.complete o 0x12 0x04 y.st.code).settle)) ∧
    (y.st ≠ .faulted → s0.Gives o (.zoneRestart o z) (s.answered o 0x14 0x04 y.st.code)) ∧
    (y.st = .faulted → s.blocked z.toNat = true → s0.Gives o (.zoneRestart o z) (s.answered o 0x14 0x27 5)) ∧
    (y.st = .faulted → s.blocked z.toNat = false → s.pairHealthy y.pairOf = true → s0.Gives o (.zoneRestart o z)
        (.next ((s.updZone z.toNat fun y => { y with restartReq := true, restartO := y.restartO ++ [o] }).updPair y.pairOf
        fun q => { q with trig := true }))) ∧
    (∃ u : State, s0.Gives o (.shutdown o) (.next u.settle) ∧ u.pm.dstate = .shutdown ∧ u.pm.shutO = some o ∧ u.pm.shutCut = false)

/-- CONN_OPEN of a CLOSED declared slot enters OPENING with a nonce that differs from the last and no backoff; CONN_CLOSE of one that no
zone uses leaves it CLOSED, and one in use is refused. PORT_ENABLE of a DISABLED port of the variant takes its settings and goes to
NO_SYNC; PORT_DISABLE empties its queue and leaves it DISABLED, with every session on it STALE. What the manual leaves open here is the
model's choice: log entry 42 (DEDUCED). -/
def Obligations.ConnectionAndPortCommands : Prop := ∀ (s0 : State) (o : Origin),
    let s := s0.begun o
    (∀ (k : BitVec 16) (d : ConnDecl), s.Ready → k.toNat < 2048 → (s.conn k.toNat).decl = some d → d.port < s.portMax →
      (s.conn k.toNat).st = .closed → d.cmac = false →
      ∃ u : State, s0.Gives o (.connOpen o k) (u.answered o 0x20 0x00 2) ∧ (u.conn k.toNat).st = .opening ∧ (u.conn k.toNat).backoff = 0 ∧
        (u.conn k.toNat).nonce ≠ (s.conn k.toNat).nonce ∧ (u.conn k.toNat).nonce ≠ (s.conn k.toNat).usedNonce ∧ (u.conn k.toNat).decl = some d ∧
        (∀ j : Fin 2048, j.val ≠ k.toNat → u.conn j = s.conn j) ∧
        { u with conns := s.conns, trans := s.trans, evRings := s.evRings, evqA := s.evqA, hi := s.hi, freeCtr := s.freeCtr } = s) ∧
    (∀ (k : BitVec 16) (d : ConnDecl), s.Ready → k.toNat < 2048 → (s.conn k.toNat).decl = some d → (s.conn k.toNat).st ≠ .withdrawn →
      (s.conn k.toNat).st ≠ .closed →
      (s.usersOf d = true → s0.Gives o (.connClose o k) (s.answered o 0x21 0x30 (s.conn k.toNat).st.code)) ∧
      (s.usersOf d = false → ∃ u : State, s0.Gives o (.connClose o k) (u.answered o 0x21 0x00 1) ∧ (u.conn k.toNat).st = .closed ∧
        u.zones = s.zones ∧ u.pairs = s.pairs ∧ u.chans = s.chans)) ∧
    (∀ p : Byte, p.toNat < s.portMax → (s.port p.toNat).st = .disabled → (s.port p.toNat).serdesFail = false →
      (s.port p.toNat).cfg.tunnel = false →
      ∃ u : State, s0.Gives o (.portEnable o p) (u.answered o 0x22 0x00 0) ∧
        u.port p.toNat = { s.port p.toNat with
          st := .noSync, live := (s.port p.toNat).cfg, lpPage := 0#16, sentPage := s.onLine ((s.port p.toNat).cfg.page false), anFault := false
          openCnt := 0 } ∧
        (∀ j : Fin 32, j.val ≠ p.toNat → u.port j = s.port j) ∧
        { u with ports := s.ports, evRings := s.evRings, hi := s.hi } = s) ∧
    (∀ p : Byte, s.portMax ≤ p.toNat → p.toNat < 32 → s0.Gives o (.portEnable o p) (s.answered o 0x22 0x05 0)) ∧
    (∀ p : Byte, p.toNat < 32 → (s.port p.toNat).st ≠ .disabled →
      ∃ (u : State) (res : Nat), s0.Gives o (.portDisable o p) (u.answered o 0x23 0x00 res) ∧ (u.port p.toNat).st = .disabled ∧
        (u.port p.toNat).queue = [] ∧ (u.port p.toNat).inFlight = none ∧ u.zones = s.zones ∧ u.pairs = s.pairs ∧
        ∀ (k : Nat) (d : ConnDecl), (s.conn k).decl = some d → d.port = p.toNat →
          (s.conn k).st = .opening ∨ (s.conn k).st = .negotiating ∨ (s.conn k).st = .running → (u.conn k).st = .stale)

/-- BIST_RUN of a FREE pair waits for the pair's slot; of an analogue item for its window; of a CARRYING pair with no spare it is
NO_SPARE. CHANNEL_CAL holds the channel open and its point invalid, and is refused while a zone that uses the channel runs. What the
manual leaves open here is the model's choice: log entry 41 (DESIGN CHOICE). -/
def Obligations.SelfTestCommands : Prop := ∀ (s0 : State) (o : Origin) (item index : Byte),
    let s := s0.begun o
    s.Ready →
    let asked : State := ({ s with bist := { s.bist with asked := s.bist.asked ++ [(o, item, index)] } } : State).parked o 0x30
    (item = 0#8 → index.toNat < 36 → (s.pair index.toNat).role = .free → ∃ t, s0.Gives o (.bistRun o item index) (.next t) ∧
      t.bist.asked = s.bist.asked ++ [(o, item, index)] ∧ (∃ n, n ≤ 3 ∧ (index.toNat, n) ∈ t.bist.queue) ∧
      { t with bist := { t.bist with asked := s.bist.asked, queue := s.bist.queue } } = s.parked o 0x30) ∧
    (item = 0#8 → index.toNat < 36 → (s.pair index.toNat).role = .carrying →
      (∀ p : Fin 36, (s.pair p).role ≠ .free) → s.retainedOnly index.toNat 0x3F = none →
      s0.Gives o (.bistRun o item index) (s.answered o 0x30 0x28 0)) ∧
    (item = 0#8 → 36 ≤ index.toNat → s0.Gives o (.bistRun o item index) (s.answered o 0x30 0x03 0)) ∧
    (item.toNat ∈ [1, 2, 3] → index.toNat < 64 → s0.Gives o (.bistRun o item index) (.next asked)) ∧
    (64 ≤ index.toNat → s0.Gives o (.channelCal o index) (s.answered o 0x30 0x03 0)) ∧
    (index.toNat < 64 → s.calBlocked index.toNat = true → s0.Gives o (.channelCal o index) (s.answered o 0x30 0x29 0)) ∧
    (index.toNat < 64 → s.calBlocked index.toNat = false →
      ∃ u : State, s0.Gives o (.channelCal o index) (u.answered o 0x30 0x00 1) ∧
        ((s.chan index.toNat).mode = 1#2 ∨ (s.chan index.toNat).mode = 2#2 → (u.chan index.toNat).restoring = true) ∧
        (∀ n : Fin 64, (u.chan n).mode = (s.chan n).mode ∧ (u.chan n).cmdA = (s.chan n).cmdA ∧ (u.chan n).cmdB = (s.chan n).cmdB) ∧
        (∀ n ∈ s.unit index.toNat, (s.chan n).mode = 2#2 → (u.chan n).ret = true) ∧ { u with chans := s.chans } = s)

/-- DIAG_READ begins to move the records of a zone's ACTIVE version, as many as there are; where there is none it completes with none.
SNAPSHOT waits for the next release mark and then moves its sheet. TIME_SYNC returns the three counts, each lane's at most three ticks
after the hub's, and changes no timebase. A figure out of range is BAD_PARAM. What the manual leaves open here is the model's choice: log
entries 22 (DEDUCED), 23 (DESIGN CHOICE) and 50 (DEDUCED). -/
def Obligations.ReadingCommands : Prop := ∀ (s0 : State) (o : Origin),
    let s := s0.begun o
    (∀ (z : BitVec 8) (f n : BitVec 16) (len : Word) (bus : Bool),
      (n.toNat = 0 ∨ 1024 < n.toNat ∨ len.toNat < 8 * n.toNat → s0.Gives o (.diagRead o z f n len bus) (s.answered o 0x31 0x03 0)) ∧
      (1 ≤ n.toNat → n.toNat ≤ 1024 → 8 * n.toNat ≤ len.toNat → (s.zone z.toNat).active = none →
        s0.Gives o (.diagRead o z f n len bus) (({ s with diagBuf := { recs := [] } } : State).answered o 0x31 0x00 0)) ∧
      (∀ v, 1 ≤ n.toNat → n.toNat ≤ 1024 → 8 * n.toNat ≤ len.toNat → (s.zone z.toNat).active = some v →
        (v.sec.blocks.length ≤ f.toNat →
          s0.Gives o (.diagRead o z f n len bus) (({ s with diagBuf := { recs := [] } } : State).answered o 0x31 0x00 0)) ∧
        (f.toNat < v.sec.blocks.length → s0.Gives o (.diagRead o z f n len bus) (.next (s.startMove o 0x31
          { kind := .diag z.toNat f.toNat, bytes := 8 * min n.toNat (v.sec.blocks.length - f.toNat), busOk := bus }))))) ∧
    (∀ (f n len : Word) (bus : Bool),
      let good := f.toNat % 16 = 0 ∧ n.toNat % 16 = 0 ∧ 16 ≤ n.toNat ∧ n.toNat ≤ 137216 ∧ f.toNat + n.toNat ≤ 0x21800 ∧
        16 + n.toNat / 4 ≤ len.toNat
      (¬ good → s0.Gives o (.snapshot o f n len bus) (s.answered o 0x32 0x03 0)) ∧
      (good → s0.Gives o (.snapshot o f n len bus)
        (.next (({ s with snap := { s.snap with waiting := s.snap.waiting ++ [(o, f.toNat, n.toNat)] } } : State).startMove o 0x32
          { kind := .sheet, bytes := 16 + n.toNat / 4, busOk := bus, ready := false })))) ∧
    ∃ a b : Fin 4, s0.Gives o (.timeSync o) (({ s with freeCtr := s.freeCtr + 2 } : State).answered o 0x50 0x00
      (s.tb.h.toNat + (s.tb.a + BitVec.ofNat 64 a).toNat * 2 ^ 64 + (s.tb.b + BitVec.ofNat 64 b).toNat * 2 ^ 128))

/-- OTP_READ returns up to four words of one region with their marks; the data of a read-locked region read 0. The drift scan: completed
scans are counted; a word that reads otherwise than at boot is reported once, and its shadow keeps the value of the boot; one whose every
word and lock reads as at boot reports nothing. Before the load there is no scan. -/
def Obligations.OtpReadsAndDriftScan : Prop :=
  (∀ (s0 : State) (o : Origin) (w n : Byte),
      let s := s0.begun o
      (n.toNat = 0 ∨ 4 < n.toNat ∨ 16 < w.toNat % 16 + n.toNat → s0.Gives o (.otpRead o w n) (s.answered o 0x40 0x03 0)) ∧
      (1 ≤ n.toNat → n.toNat ≤ 4 → w.toNat % 16 + n.toNat ≤ 16 →
        let locked := s.rlOn (w.toNat / 16)
        let b (f : Bool) (k : Nat) : Nat := if f then 2 ^ k else 0
        let read (i : Nat) : Nat := if i < n.toNat then (if locked then 0 else (s.otpWord (w.toNat + i)).shadow.toNat) else 0
        let marks (i : Nat) : Nat :=
          let x := s.otpWord (w.toNat + i)
          if i < n.toNat then b x.corr 0 + b x.uncorr 1 + b x.margin 2 + b locked 3 + b x.ovr 4 else 0
        s0.Gives o (.otpRead o w n) (s.answered o 0x40 0x00
          (read 0 + read 1 * 2 ^ 64 + read 2 * 2 ^ 128 + read 3 * 2 ^ 192 +
            (marks 0 + marks 1 * 2 ^ 8 + marks 2 * 2 ^ 16 + marks 3 * 2 ^ 24) * 2 ^ 256)))) ∧
  (∀ s : State,
      (s.otp.loaded = false → ∀ ws ls, exec (.otpDriftScan ws ls) s = .next s) ∧
      (s.otp.loaded = true → ∀ ws ls, (∀ r : Fin 16, s.lockDrifts ls r = false) →
        ((∀ w : Fin 256, s.scanWord ws w = (s.otpWord w).val) →
          exec (.otpDriftScan ws ls) s = .next { s with otp := { s.otp with scanCnt := s.otp.scanCnt + 1#16 } }) ∧
        ∀ w : Fin 256, s.scanWord ws w ≠ (s.otpWord w).val → (∀ j : Fin 256, j ≠ w → s.scanWord ws j = (s.otpWord j).val) →
          ∃ t, exec (.otpDriftScan ws ls) s = .next t ∧ t.otp.drift = true ∧ t.otp.scanCnt = s.otp.scanCnt + 1#16 ∧
            t.otpWord w = { s.otpWord w with drifted := true } ∧
            (∀ j : Fin 256, j ≠ w → t.otpWord j = s.otpWord j) ∧
            ((s.otpWord w).drifted = true → t.evRings = s.evRings ∧ t.otp.lastWord = s.otp.lastWord) ∧
            ((s.otpWord w).drifted = false → t.otp.lastWord = BitVec.ofNat 8 w) ∧
            { t with otp := s.otp, evRings := s.evRings, hi := s.hi } = s))

/-- OTP_PROGRAM: only with every zone WITHDRAWN and the junction in range; a write-locked region refuses, a programmed word refuses; a
word that verifies takes its value and its check bits at once, in its shadow too unless it is overridden; one that does not verify keeps
the bits that blew. A lock takes effect with two copies, and succeeds with two that verify, LOCK_VOTE_SPLIT where the third did not. A
supply that fails ends the pulses. Trial overrides exist only in bench mode, for region 3 and regions 8 to 13, never in a write-locked
one; a removed override returns the fuse value. What the manual leaves open here is the model's choice: log entries 45 (DEDUCED) and 72
(DESIGN CHOICE). -/
def Obligations.OtpProgrammingAndOverrides : Prop := ∀ (s0 : State) (o : Origin) (w : Byte) (d : Word64) (tj : Bool) (out : ProgOutcome) (pulses : Nat) (copies : LockOutcome),
    let s := s0.begun o
    let x := s.otpWord w.toNat
    let up := s.allWithdrawn = false ∨ tj = false
    let lock := s.wlOn (w.toNat / 16)
    let good := d &&& out.failData = 0#64 ∧ otpCheck d &&& out.failCheck = 0#8
    let r := w.toNat
    (d = 0#64 → s0.Gives o (.otpProgram o w d tj out) (s.answered o 0x41 0x03 0)) ∧
    (d ≠ 0#64 → up → s0.Gives o (.otpProgram o w d tj out) (s.answered o 0x41 0x04 0)) ∧
    (d ≠ 0#64 → ¬ up → lock = true → s0.Gives o (.otpProgram o w d tj out) (s.answered o 0x41 0x40 0)) ∧
    (d ≠ 0#64 → ¬ up → lock = false → x.prog = true → s0.Gives o (.otpProgram o w d tj out) (s.answered o 0x41 0x41 0)) ∧
    (d ≠ 0#64 → ¬ up → lock = false → x.prog = false → out.loss = none → good →
      s0.Gives o (.otpProgram o w d tj out) ((s.updOtp w.toNat fun x => { x with
        fuse := d, check := otpCheck d, val := d, shadow := if x.ovr then x.shadow else d }).answered o 0x41 0x00 (max 1 (min 5 out.pulses)))) ∧
    (d ≠ 0#64 → ¬ up → lock = false → x.prog = false → out.loss = none → ¬ good →
      s0.Gives o (.otpProgram o w d tj out) ((s.updOtp w.toNat fun x => { x with
        fuse := d &&& ~~~out.failData, check := otpCheck d &&& ~~~out.failCheck }).answered o 0x41 0x42 5)) ∧
    (15 < r → s0.Gives o (.writeLock o w tj pulses copies) (s.answered o 0x41 0x03 0) ∧
      s0.Gives o (.readLock o w tj pulses copies) (s.answered o 0x41 0x03 0)) ∧
    (r ≤ 15 → up → s0.Gives o (.writeLock o w tj pulses copies) (s.answered o 0x41 0x04 0) ∧
      s0.Gives o (.readLock o w tj pulses copies) (s.answered o 0x41 0x04 0)) ∧
    (∀ p, d ≠ 0#64 → ¬ up → lock = false → x.prog = false → out.loss = some p →
      s0.Gives o (.otpProgram o w d tj out) (.next ((s.updOtp w.toNat fun x => { x with
        fuse := d &&& ~~~out.failData, check := otpCheck d &&& ~~~out.failCheck }).powerLost p))) ∧
    (r ≤ 15 → ¬ up → s.wlOn r = true → s0.Gives o (.writeLock o w tj pulses copies) (s.answered o 0x41 0x00 0)) ∧
    (r ≤ 15 → ¬ up → s.rlOn r = true → s0.Gives o (.readLock o w tj pulses copies) (s.answered o 0x41 0x00 0)) ∧
    (r ≤ 15 → ¬ up → s.wlOn r = false → copies.loss = none →
      let was := tabGet 0#3 s.otp.wlCopies r
      let n := was ||| copies.verified ||| copies.seen
      ∃ (u : State) (st : Nat), s0.Gives o (.writeLock o w tj pulses copies) (u.answered o 0x41 st (max 1 (min 15 pulses))) ∧
        (u.otp.wl.getLsbD r = true ↔ 2 ≤ blownCopies n) ∧ tabGet 0#3 u.otp.wlCopies r = n ∧
        (st = 0x00 ↔ 2 ≤ blownCopies (was ||| copies.verified)) ∧ (st = 0x00 ∨ st = 0x42) ∧
        (blownCopies (was ||| copies.verified) = 2 → u.otp.voteSplit = true) ∧ u.otp.rl = s.otp.rl ∧
        { u with otp := { u.otp with wlCopies := s.otp.wlCopies, wl := s.otp.wl, voteSplit := s.otp.voteSplit } } = s) ∧
    (r ≤ 15 → ¬ up → s.rlOn r = false → copies.loss = none →
      let was := tabGet 0#3 s.otp.rlCopies r
      let n := was ||| copies.verified ||| copies.seen
      ∃ (u : State) (st : Nat), s0.Gives o (.readLock o w tj pulses copies) (u.answered o 0x41 st (max 1 (min 15 pulses))) ∧
        (u.otp.rl.getLsbD r = true ↔ 2 ≤ blownCopies n) ∧ tabGet 0#3 u.otp.rlCopies r = n ∧
        (st = 0x00 ↔ 2 ≤ blownCopies (was ||| copies.verified)) ∧ (st = 0x00 ∨ st = 0x42) ∧
        (blownCopies (was ||| copies.verified) = 2 → u.otp.voteSplit = true) ∧ u.otp.wl = s.otp.wl ∧
        { u with otp := { u.otp with rlCopies := s.otp.rlCopies, rl := s.otp.rl, voteSplit := s.otp.voteSplit } } = s) ∧
    (s.pm.bench = false → s0.Gives o (.otpShadowSet o w d) (s.answered o 0x42 0x43 0) ∧
      s0.Gives o (.otpShadowRemove o w) (s.answered o 0x42 0x43 0)) ∧
    (s.pm.bench = true → (w.toNat / 16 ≠ 3 ∧ (w.toNat / 16 < 8 ∨ 13 < w.toNat / 16)) →
      s0.Gives o (.otpShadowSet o w d) (s.answered o 0x42 0x44 0) ∧ s0.Gives o (.otpShadowRemove o w) (s.answered o 0x42 0x44 0)) ∧
    (s.pm.bench = true → (w.toNat / 16 = 3 ∨ (8 ≤ w.toNat / 16 ∧ w.toNat / 16 ≤ 13)) → lock = true →
      s0.Gives o (.otpShadowSet o w d) (s.answered o 0x42 0x40 0) ∧ s0.Gives o (.otpShadowRemove o w) (s.answered o 0x42 0x40 0)) ∧
    (s.pm.bench = true → (w.toNat / 16 = 3 ∨ (8 ≤ w.toNat / 16 ∧ w.toNat / 16 ≤ 13)) → lock = false →
      s0.Gives o (.otpShadowSet o w d) ((s.updOtp w.toNat fun x => { x with shadow := d, ovr := true }).answered o 0x42 0x00 0) ∧
      s0.Gives o (.otpShadowRemove o w) ((s.updOtp w.toNat fun x => { x with
        shadow := if x.uncorr then 0#64 else x.val, ovr := false }).answered o 0x42 0x00 0))

/-- A fault with the zones of its scope: each of them that is not WITHDRAWN goes FAULTED, and no other zone moves; the record of the code
and location is merged (COUNT, LANE, LATCHED again), or written into the lowest empty entry, or OVERFLOW is set. A LANE_COMMON or GLOBAL
fault a lane detects: every pair-stop bit of the lane is latched, its heartbeat is withheld, a GLOBAL fault sets its global indication,
and no zone is left that is neither WITHDRAWN nor FAULTED. The other lane's die only has commands for FD to send. -/
def Obligations.FaultsAreRecordedAndStopZones : Prop :=
  (∀ (s : State) (code : BitVec 16) (loc : BitVec 12) (la lb : Bool) (detail pass : Nat) (scope : List Nat),
      let t := s.raise code loc la lb detail pass scope
      let show' (r : FaultRec) := (r.code, r.loc, r.laneA, r.laneB, r.st, r.count, r.detail)
      (∀ z, (t.zone z).st = if z ∈ scope ∧ (s.zone z).st ≠ .withdrawn then .faulted else (s.zone z).st) ∧
      (∀ k r, s.findRec code loc = some k → s.frec k = some r → (t.frec k).map show' =
        some (r.code, r.loc, r.laneA || la, r.laneB || lb, RecSt.latched, satInc r.count 65535, BitVec.ofNat 16 detail)) ∧
      (∀ k, s.findRec code loc = none → s.emptyRec = some k →
        (t.frec k).map show' = some (code, loc, la, lb, RecSt.latched, 1, BitVec.ofNat 16 detail)) ∧
      (s.findRec code loc = none → s.emptyRec = none → t.fl.overflow = true) ∧
      (∀ p : Fin 36, t.pair p = s.pair p)) ∧
  (∀ (s : State) (l : Lane) (code : BitVec 16) (detail : Nat),
      let t := s.laneFault l code detail
      (∀ p : Fin 36, (t.pair p).stop l = true) ∧ (∀ p : Fin 36, (t.pair p).stop (otherLane l) = (s.pair p).stop (otherLane l)) ∧
      (t.lane l).withhold = true ∧ ((t.lane l).global = ((s.lane l).global || decide (code.toNat / 4096 = 5))) ∧
      (∀ z, (t.zone z).stopped) ∧ { t.lane (otherLane l) with toFd := [] } = { s.lane (otherLane l) with toFd := [] })

/-- A PAIR fault a lane detects on a pair that is not TESTING: the lane's stop bit latches, the role follows, no pass runs, the zones on
the pair stop, and other pairs and zones stay. PASS_WATCH and START_WATCH raise it where the lane watches the pair and what it watches for
is missing, on a pair whose halt waits for its pass end too, and in a lane that has not latched its own bit when the other has. A pass
that ends with a disagreement or another cause: every lane the causes name latches the pair's stop bit, the pass is over, the zones on the
pair stop, and no other pair changes, once a commit in progress has looked at its conditions (R181). What the manual leaves open here is
the model's choice: log entries 27 (DEDUCED), 31 (DEDUCED), 69 (DESIGN CHOICE) and 77 (DESIGN CHOICE). -/
def Obligations.PairFaultStopsThePair : Prop :=
  ((∀ (s : State) (l : Lane) (p : Fin 36) (code : BitVec 16) (detail : Nat), (s.pair p).role ≠ .testing → (s.pair p).stop l = false →
      let t := s.pairFault l p code detail
      (t.pair p).stop l = true ∧ (t.pair p).stop (otherLane l) = (s.pair p).stop (otherLane l) ∧
      (t.pair p).role = (s.pair p).role.onStop ∧ (t.pair p).run = none ∧
      (∀ q : Fin 36, q ≠ p → t.pair q = s.pair q) ∧ (∀ z, z ∈ s.faultZonesOn p → (t.zone z).stopped) ∧
      (∀ z, (∀ e ∈ s.zones, e.1 = z → e.2.pairOf ≠ p) → (t.zone z).st = (s.zone z).st)) ∧
    (∀ (s : State) (p : Fin 36) (l : Lane),
      let on := s.lanesRun = true ∧ (s.pair p).watchedBy l = true
      let late := (s.pair p).run.isSome = true ∨ (s.pair p).stop (otherLane l) = true
      (on → late → exec (.passWatch p l) s = .next (s.pairFault l p 0x1002#16 0).settle) ∧
      (¬ on ∨ ¬ late → exec (.passWatch p l) s = .next s) ∧
      (on → (s.pair p).run = none → exec (.startWatch p l) s = .next (s.pairFault l p 0x1002#16 0).settle) ∧
      (¬ on ∨ (s.pair p).run.isSome → exec (.startWatch p l) s = .next s)) ∧
    (Role.onStop .loading = .stopped ∧ Role.onStop .carrying = .stopped ∧ Role.onStop .free = .unusable)) ∧
  (∀ (s : State) (p : Fin 36) (info : PassInfo) (r : Running), (s.pair p).run = some r →
      let x := s.armDue
      let causes := passCauses (s.pair p) (takenWords info (delayWords r (x.stepped p r.coupled)))
        ((x.stepped p r.coupled).any fun e => x.lanesDiffer p e.2)
      (s.op = none → x = s) ∧ (causes ≠ [] → ∃ u : State, exec (.passEnd p info) s = .next u.settle ∧ (u.pair p).run = none ∧
        (∀ x ∈ causes, (x.a = true → (u.pair p).stopA = true) ∧ (x.b = true → (u.pair p).stopB = true)) ∧
        (∀ z ∈ x.faultZonesOn p, (u.zone z).stopped) ∧ (∀ q : Nat, q ≠ p → u.pair q = x.pair q)))

/-- FL_CLEAR: it is discarded, and recorded, as BUSY, BAD_FORM or CLEAR_MISMATCH, or starts with the records its code and location select;
each lane compares the key with its own copy of the argument, lane B's held in negative encoding. The acknowledgement input starts one for
all records where both lanes have it enabled. The end of a clear that selected one record, or none: a record of a class that only a reset
removes stays (RESET_REQUIRED), one whose cause is present, that has recurred since the clear started or of which FD has a report to make
stays (CAUSE_PRESENT), any other leaves the table (CLEARED), and no other record moves. BS_CH_OK shows how the loop-back went that a
LOOPBACK_FAIL selected ran again. With no clear in progress CLEAR_COMPLETE does nothing. A terminal condition of a switch, an external
voltage, a cross-short or a group that has ended for 10 ms makes its LATCHED record GONE, and what FD watches at the terminal or the mid
node of a channel is found low, so that the next high reading is the trigger anew; any other record stays. What the manual leaves open
here is the model's choice: log entries 51 (DEDUCED) and 66 (DEDUCED). -/
def Obligations.ClearsOfFaults : Prop :=
  (∀ s : State,
      (∀ ka kb : Word,
        let rejected (t : State) : State := t.wrej 3 0 0x1A008
        let argA := s.fl.argA
        let argB := ~~~s.fl.argB
        (s.fl.clear.isSome → exec (.faultClear ka kb) s = .next (rejected { s with fl := { s.fl with result := 7 } })) ∧
        (s.fl.clear = none → ka ≠ ~~~argA ∨ kb ≠ ~~~argB →
          exec (.faultClear ka kb) s = .next (rejected { s with fl := { s.fl with resCode := clearCode argA, result := 6 } })) ∧
        (s.fl.clear = none → ka = ~~~argA → kb = ~~~argB → argA ≠ argB →
          exec (.faultClear ka kb) s = .next (rejected { s with fl := { s.fl with resCode := clearCode argA, result := 5 } })) ∧
        (s.fl.clear = none → ka = ~~~argA → kb = ~~~argB → argA = argB →
          ∃ c : Clear, exec (.faultClear ka kb) s = .next { s with fl := { s.fl with resCode := clearCode argA, clear := some c } } ∧
            c.ack = false ∧ c.again = [] ∧ ∀ k, k ∈ c.sel ↔ ∃ r, (k, some r) ∈ s.fl.recs ∧
              (clearCode argA = 0#16 ∨ r.code = clearCode argA ∧ (clearLoc argA = 0xFFF#12 ∨ r.loc = clearLoc argA)))) ∧
      let acks := s.fl.ackEn = true ∧ s.fl.ackEnB = false ∧ s.fl.ackChB = ~~~s.fl.ackCh
      (¬ acks → exec .faultAcknowledgement s = .next s) ∧
      (acks → s.fl.clear.isSome → exec .faultAcknowledgement s = .next { s with fl := { s.fl with result := 7 } }) ∧
      (acks → s.fl.clear = none → ∃ c : Clear,
        exec .faultAcknowledgement s = .next { s with fl := { s.fl with resCode := 0#16, clear := some c } } ∧ c.ack = true ∧
          c.again = [] ∧ ∀ k, k ∈ c.sel ↔ ∃ r, (k, some r) ∈ s.fl.recs)) ∧
  (∀ (s : State) (c : Clear) (tests : List (BitVec 16 × BitVec 12)), s.fl.clear = some c → c.ack = false →
      let ended (res : Nat) : State := { s with fl := { s.fl with
        clear := none, result := res, overflow := s.fl.overflow && decide (c.code ≠ 0#16) } }
      (c.sel = [] → exec (.clearComplete tests) s =
        .next (ended (if c.code = 0#16 ∧ s.fl.overflow = true then 1 else 4)).settle) ∧
      (∀ k r, c.sel = [k] → s.frec k = some r →
        let looped (t : State) : State := if r.code = 0x300A#16 then
          { t with bist := { t.bist with chOk := setBit t.bist.chOk r.loc.toNat (tests.contains (r.code, r.loc)) } } else t
        (resetOnly r.code = true → exec (.clearComplete tests) s = .next (ended 3).settle) ∧
        (resetOnly r.code = false → k ∈ c.again ∨ s.reportDue r = true ∨ s.causeGone r tests = false →
          exec (.clearComplete tests) s = .next (looped (ended 2)).settle) ∧
        (resetOnly r.code = false → k ∉ c.again → s.reportDue r = false → s.causeGone r tests = true → ∃ u : State,
          exec (.clearComplete tests) s = .next u.settle ∧ u.frec k = none ∧ u.fl.result = 1 ∧ u.fl.clear = none ∧
          u.bist = (looped s).bist ∧
          (∀ j, j ≠ k → u.frec j = s.frec j) ∧ u.zones = s.zones ∧ u.pairs = s.pairs)) ∧
      (∀ code : BitVec 16, resetOnly code = true ↔ code.toNat / 4096 = 2 ∨ code.toNat / 4096 = 5 ∨ code = 0x4005#16)) ∧
  ((∀ (s : State) (tests : List (BitVec 16 × BitVec 12)), s.fl.clear = none → exec (.clearComplete tests) s = .next s) ∧
    ∀ (s : State) (k : Fin 64),
      let watched (c : BitVec 16) : Prop := c ∈ [0x3001#16, 0x3002#16, 0x3003#16, 0x3004#16, 0x3010#16, 0x3011#16]
      (s.frec k = none → exec (.recordGone k) s = .next s) ∧
      ∀ r, s.frec k = some r →
        (¬ watched r.code ∨ r.st = .gone → exec (.recordGone k) s = .next s) ∧
        (watched r.code → r.st = .latched → ∃ (t : State) (at' : Option Word64) (pend : Bool), exec (.recordGone k) s = .next t ∧
          t.frec k = some { r with st := .gone, evAt := at', evPend := pend } ∧ (∀ j, j ≠ k.val → t.frec j = s.frec j) ∧
          (r.code = 0x3010#16 ∨ r.code = 0x3011#16 →
            (t.grp (r.loc.toNat - 0x40)).stood = (s.grp (r.loc.toNat - 0x40)).inBand ∧ t.chans = s.chans) ∧
          (r.code = 0x3001#16 → t.chan r.loc.toNat = { s.chan r.loc.toNat with midHigh := false }) ∧
          (r.code ∈ [0x3002#16, 0x3003#16, 0x3004#16] → t.chan r.loc.toNat = { s.chan r.loc.toNat with offHigh := false }) ∧
          (∀ j, j ≠ r.loc.toNat → t.chan j = s.chan j) ∧
          { t with fl := s.fl, chans := s.chans, grps := s.grps, evRings := s.evRings, evqA := s.evqA, evqB := s.evqB, hi := s.hi } = s))

/-- Debug requests: EN only with the fuse, bench mode and lock-step; a request while EN is 0 is discarded and recorded; HALT of a pair
with no pass running makes it HALTED at once, with a pass at its end, and ends and counts a slice; a second halt is refused; RESUME
returns the former role, STOPPED after a STEP pass that latched a stop bit; STEP runs one pass in both lanes, which writes their state
memories and applies no result, and stops the pair where it shows a cause; STEWARD_HALT waits for the zones to be withdrawn. What the
manual leaves open here is the model's choice: log entry 55 (DEDUCED). -/
def Obligations.DebugRequests : Prop := ∀ s : State,
    (∀ v : Word, exec (.debugEnable v) s = .next (if s.db.en || s.dbMayEnable then
      { s with db := { s.db with en := true, pair := BitVec.ofNat 6 (bits v 5 0) } } else s.wrej 3 0 0x1B000)) ∧
    (s.dbMayEnable = true ↔ s.debugFuse = true ∧ s.pm.bench = true ∧ s.db.broken = false) ∧
    (s.db.en = false → (∀ v : Word, exec (.halt v) s = .next (s.wrej 3 0 0x1B000).settle) ∧
      exec .resume s = .next (s.wrej 3 0 0x1B000).settle ∧ exec .stewardHalt s = .next (s.wrej 3 0 0x1B000).settle ∧
      ∀ info, exec (.step info) s = .next (s.wrej 3 0 0x1B000).settle) ∧
    (s.db.en = true →
      (∀ v : Word, 36 ≤ bits v 5 0 ∨ s.haltAny = true ∨ s.inOp (bits v 5 0) = true →
        exec (.halt v) s = .next ({ s with db := { s.db with refused := true } } : State).settle) ∧
      (∀ (v : Word) (p : Fin 36), bits v 5 0 = p.val → s.haltAny = false → s.inOp p = false →
        (s.pair p).role = .free ∨ (s.pair p).role = .carrying →
        ∃ u : State, exec (.halt v) s = .next u.settle ∧ (u.pair p).haltBit = true ∧ u.db = { s.db with pair := BitVec.ofNat 6 p } ∧
          (∀ q : Fin 36, q ≠ p → u.pair q = s.pair q) ∧
          ((s.pair p).run.isSome → (u.pair p).role = (s.pair p).role ∧ u.zones = s.zones) ∧
          ((s.pair p).run = none → (u.pair p).role = .halted ∧ (u.pair p).before = (s.pair p).role ∧
            ((s.pair p).role = .carrying → ∀ z, z ∈ s.faultZonesOn p → (u.zone z).stopped))) ∧
      (s.haltedPair = none ∨ s.db.replayAt ≠ [] →
        exec .resume s = .next ({ s with db := { s.db with refused := true } } : State).settle ∧
        ∀ info, exec (.step info) s = .next ({ s with db := { s.db with refused := true } } : State).settle) ∧
      (∀ p, s.haltedPair = some p → s.db.replayAt = [] → (s.pair p).stopA = false → (s.pair p).stopB = false →
        (s.pair p).stepStop = false →
        (s.pair p).before = .free ∨ s.versOn p ≠ [] →
        ∃ u : State, exec .resume s = .next u.settle ∧ (u.pair p).role = (s.pair p).before ∧ (u.pair p).haltBit = false ∧
          u.zones = s.zones ∧ u.chans = s.chans) ∧
      (∀ (v : Word) (p : Fin 36), bits v 5 0 = p.val → s.haltAny = false → s.inOp p = false → (s.pair p).role = .testing →
        s.inSlice p = true → (s.pair p).run = none →
        ∃ u : State, exec (.halt v) s = .next u.settle ∧ (u.pair p).role = .halted ∧ (u.pair p).before = .free ∧ u.bist.slice = none ∧
          u.bist.skipCnt = satInc s.bist.skipCnt 65535) ∧
      (∀ p, s.haltedPair = some p → s.db.replayAt = [] → (s.pair p).stepStop = true → ∃ u : State,
        exec .resume s = .next u.settle ∧ (u.pair p).role = .stopped ∧ (u.pair p).stepStop = false ∧ u.zones = s.zones) ∧
      (∀ p info, s.haltedPair = some p → s.db.replayAt = [] → s.op = none →
        let s1 := s.startPass p false
        let s2 := s1.updPair p fun q => { q with
          liveA := s1.overImage p s.db.inA q.liveA ptInitA, liveB := s1.overImage p s.db.inB q.liveB ptInitB }
        let differ := (s2.activeOn p).any fun e => s2.lanesDiffer p e.2
        ∃ (u : State) (r : Running), let info := takenWords info (delayWords r (s2.activeOn p)); (s2.pair p).run = some r ∧ exec (.step info) s = .next u.settle ∧ (u.pair p).role = .halted ∧ (u.pair p).run = none ∧
          (u.pair p).nextPass = (s.pair p).nextPass + 1#32 ∧ u.chans = s.chans ∧
          (∀ z v, (z, v) ∈ s2.activeOn p →
            (u.zone z).active.map (fun w => (w.rt.map (·.keptFrom {}), w.rtB.map (·.keptFrom {}), w.first)) =
              some ((s2.evalA p v).map (·.keptFrom {}), (s2.evalB p v).map (·.keptFrom {}), false)) ∧
          (passCauses (s2.pair p) info differ = [] → (u.pair p).lastPass = (s.pair p).nextPass ∧
            (u.pair p).stepStop = (s.pair p).stepStop ∧ (∀ z, (u.zone z).st = (s.zone z).st) ∧ u.ptsA = s.ptsA ∧ u.ptsB = s.ptsB) ∧
          (passCauses (s2.pair p) info differ ≠ [] → (u.pair p).stepStop = true)) ∧
      exec .stewardHalt s =
        .next (if s.db.broken then s else { s with db := { s.db with haltDue := true } }).settle)

/-- DB_ADDR: an access to a word of the halted pair, or of the steward's space while lock-step is broken, reads lane A; a word read twice
reads the same, and a word written reads as written. A write of state memory changes the block it belongs to in lane A alone, and goes on
to lane B, which confirms its replays in their order or fails to; what cannot be reached is refused. Test port instructions beyond the
three standard ones act as BYPASS outside bench mode; IDCODE brings the device's code, of which a read lock shows nothing; SAMPLE/PRELOAD
fills the boundary-scan chain with levels that are free (DESIGN CHOICE, log entry 78). No pin takes a cell but under EXTEST. What the
manual leaves open here is the model's choice: log entries 8 (DESIGN CHOICE), 18 (PRESUMED) and 78 (DESIGN CHOICE). -/
def Obligations.DebugAccesses : Prop := ∀ s : State,
    (∀ v : Word,
      let k := s.dbPlace (bits v 31 29) (bits v 12 0)
      let addr := v &&& 0xF0001FFF#32
      let space := bits v 31 29
      let idx := bits v 12 0
      (s.db.en = false → exec (.debugAccess v) s = .next (s.wrej 3 0 0x1B008)) ∧
      (s.db.en = true → k = none → exec (.debugAccess v) s = .next { s with db := { s.db with addr := addr, refused := true } }) ∧
      (∀ i, s.db.en = true → k = some i → bit v 28 = true → space = 1 ∨ space = 3 →
        exec (.debugAccess v) s = .next { s with db := { s.db with addr := addr, refused := true } }) ∧
      (∀ i, s.db.en = true → k = some i → bit v 28 = true → space ≠ 1 → space ≠ 3 → ∃ t,
        exec (.debugAccess v) s = .next t ∧ t.db.accDone = true ∧ (t.readTile i idx).1 = s.db.data ∧
        t.db.replayPend = s.db.replayPend ++ (if space = 4 then [] else [(i, idx, s.db.data)]) ∧
        (∀ z, (t.zone z).st = (s.zone z).st ∧ (t.zone z).active.map (fun w => w.rtB) = (s.zone z).active.map fun w => w.rtB) ∧
        (space ≠ 0 → t.zones = s.zones) ∧ { t with db := s.db, zones := s.zones } = s) ∧
      (∀ i, s.db.en = true → k = some i → bit v 28 = false → ∃ t,
        exec (.debugAccess v) s = .next t ∧ t.db.accDone = true ∧ t.db.data = (s.readTile i idx).1 ∧
        (t.readTile i idx).1 = t.db.data ∧ { t with db := s.db, freeCtr := s.freeCtr } = s)) ∧
    (∀ space idx, s.haltedPair = none → s.db.broken = false → s.dbPlace space idx = none) ∧
    (s.db.replayPend = [] → exec .replayFail s = .next s) ∧
    (∀ k i w r, s.db.replayPend = (k, i, w) :: r → ∃ t, exec .replayFail s = .next t ∧ t.db.replayFail = true ∧ t.db.replayPend = r ∧
      (k, i) ∈ t.db.replayAt ∧
      (∀ z, (t.zone z).st = (s.zone z).st ∧ (t.zone z).active.map (fun w => w.rt) = (s.zone z).active.map fun w => w.rt) ∧
      { t with db := s.db, zones := s.zones, freeCtr := s.freeCtr } = s) ∧
    s.idcode = (if s.rlOn 0 then 0#32 else ((s.otpWord 1).shadow >>> (32 : Nat)).setWidth 32) ||| 1#32 ∧
    (∀ pin, s.db.ir ≠ .extest → s.cellDriven pin = none) ∧
    (exec (.jtagInstruction .samplePreload) s = .next { s with
      freeCtr := s.freeCtr + 1, db := { s.db with ir := .samplePreload, cells := Config.freePins s.freeCtr } }) ∧
    ∀ op : JtagOp, op ≠ .samplePreload →
      let ir := if s.pm.bench = true ∨ op = .idcode then op else .bypass
      exec (.jtagInstruction op) s = .next { s with db := { s.db with
        ir := ir, dr := if ir = .idcode then s.idcode else if ir = .bypass then 0#32 else s.db.dr } }

/-- A reset of the whole device leaves what reset leaves, but for the fuses, the records in the flash, the cause and the instruction of
the test port, and the release from it gives every register its reset value again, whatever came in meanwhile (DEDUCED, log entry 62); the
two lane dies' counts start at different instants (log entry 71). A failure of the device's supplies or of HB's core supply ends trial
overrides; after one of another die's core supply alone they are kept or not, a free value (DESIGN CHOICE, log entry 6). RESET_N keeps
them, every PERST_N ends them, one in reset too. A pulse below 1 µs is ignored, one of 10 µs acts; between them it may do either (free,
log entry 7). What the manual leaves open here is the model's choice: log entries 6 (DESIGN CHOICE), 18 (PRESUMED), 62 (DEDUCED) and 71
(DESIGN CHOICE). -/
def Obligations.ResetsOfTheDevice : Prop := ∀ s : State,
    exec (.powerOnReset .all) s = .next (s.wholeReset 0 false) ∧
    exec (.powerOnReset .hub) s = .next (s.wholeReset 3 false) ∧
    (∀ loss, loss ≠ .all → loss ≠ .hub → ∃ keep,
      exec (.powerOnReset loss) s = .next (({ s with freeCtr := s.freeCtr + 1 } : State).wholeReset 3 keep)) ∧
    (∀ ns, ns < 1000 → exec (.resetN ns) s = .next s ∧ exec (.perstN ns) s = .next s) ∧
    (∀ ns, 10000 ≤ ns →
      exec (.resetN ns) s = .next (if s.pm.inReset then s else s.wholeReset 1 true) ∧
      (s.pm.inReset = true → exec (.perstN ns) s = .next { s with otp := s.otp.afterReset false }) ∧
      (s.pm.inReset = false → s.pm.flashMode = false → exec (.perstN ns) s = .next (s.wholeReset 2 false)) ∧
      (s.pm.inReset = false → s.pm.flashMode = true →
        let t := s.dropOverrides.hostReset.settle
        exec (.perstN ns) s = .next { t with hi := { t.hi with d3 := false, ready := false } })) ∧
    (∀ ns, 1000 ≤ ns → ns < 10000 → ∃ act : Bool, exec (.resetN ns) s = .next
      (let t : State := { s with freeCtr := s.freeCtr + 1 }
       if act && !s.pm.inReset then t.wholeReset 1 true else t)) ∧
    (∀ cause keep,
      let t := s.wholeReset cause keep
      { t with pending := [], freeCtr := 0, otp := State.reset.otp, bist := State.reset.bist, pm := State.reset.pm,
               db := State.reset.db } = State.reset ∧
      t.pending = s.pending ∧ t.pm = { State.reset.pm with cause := BitVec.ofNat 4 cause } ∧
      t.db = { State.reset.db with ir := if cause = 0 ∨ cause = 3 then .idcode else irKept s.db.ir } ∧
      { t.bist with flash := [] } = State.reset.bist ∧ t.bist.flash = s.bist.flash ∧
      t.otp.wlCopies = s.otp.wlCopies ∧ t.otp.rlCopies = s.otp.rlCopies ∧
      (tabWf OtpWord.init s.otp.words = true → ∀ w,
        (t.otpWord w).fuse = (s.otpWord w).fuse ∧ (t.otpWord w).check = (s.otpWord w).check ∧
        (t.otpWord w).ovr = ((s.otpWord w).ovr && keep) ∧
        (t.otpWord w).shadow = if (s.otpWord w).ovr = true ∧ keep = true then (s.otpWord w).shadow else 0#64)) ∧
    ∀ (b : BitVec 2) (seqErr : Bool),
      (s.pm.inReset = false → exec (.resetRelease b seqErr) s = .next s) ∧
      (s.pm.inReset = true → ∃ t, exec (.resetRelease b seqErr) s = .next t ∧
        t.pm = { State.reset.pm with
          inReset := false, dstate := .load, bootsel := b, bench := decide (b = 3#2), seqErr := seqErr, cause := s.pm.cause } ∧
        { t with pending := [], freeCtr := 0, otp := State.reset.otp, bist := State.reset.bist, pm := State.reset.pm,
                 db := State.reset.db, tb := State.reset.tb } = State.reset ∧
        t.bist = { State.reset.bist with flash := s.bist.flash } ∧ t.db = { State.reset.db with ir := s.db.ir } ∧
        t.tb = { State.reset.tb with skewA := t.tb.skewA, skewB := t.tb.skewB } ∧ (t.tb.skewA = 0 ↔ 0 < t.tb.skewB) ∧
        (tabWf OtpWord.init s.otp.words = true → ∀ w,
          (t.otpWord w).fuse = (s.otpWord w).fuse ∧ (t.otpWord w).ovr = (s.otpWord w).ovr))

/-- The load of the shadows: it leads to the start test, full in a host boot mode, without a flash that erases by 4 KiB and without a
record; with one, quick exactly where no reason of R335 speaks against its newest record, whose CONSUMED byte is then programmed. The read
mode and the address width are those of R447. A port enabled already begins to send. A lane whose CRC over the shadows it was delivered
fails stops every pair in its lane. The start test: while its conditions do not hold the start waits, counted as one deferral for each
wait (DESIGN CHOICE, log entry 40), and a test ends only after a check has found that they hold; a result that the stewards record
differently is folded by each and not taken, and they have mismatched; where it ends with nothing failed, a pair is UNUSABLE that has a
stop bit or found no free spare row in a tile, SPLIT where the fuses name it, else FREE, and the device enters RUN. What the manual leaves
open here is the model's choice: log entries 40 (DESIGN CHOICE) and 53 (DEDUCED). -/
def Obligations.BootAndStartTest : Prop :=
  (∀ (s : State) (excs : List OtpExc) (split : List LockRead) (ca cb : StartCrc) (fl : FlashInfo),
      (s.pm.inReset = true ∨ s.pm.dstate ≠ .load → exec (.shadowsLoaded excs split ca cb fl) s = .next s) ∧
      (s.pm.inReset = false → s.pm.dstate = .load → ∃ t, exec (.shadowsLoaded excs split ca cb fl) s = .next t ∧
        t.pm.dstate = .startTest ∧ t.otp.loaded = true ∧
        (s.pm.flashMode = false ∨ fl.sfdpOk = false → t.bist.startMode = 2#2 ∧ t.bist.recReason = 1 ∧ t.pm.quick = false ∧
          t.bist.flash = s.bist.flash) ∧
        let b : Bist := { s.bist with recSec := t.recSector fl.size }
        (s.pm.flashMode = true → fl.sfdpOk = true → t.bist.recSec = b.recSec ∧ t.pm.erase4k = fl.erase4k ∧
          t.pm.addr4 = decide (16777216 < fl.size) ∧
          t.pm.readMode = if fl.read114 = true then 2#2 else if fl.read112 = true then 1#2 else 0#2) ∧
        (s.pm.flashMode = true → fl.sfdpOk = true → fl.erase4k = false ∨ b.newest = none →
          t.bist.startMode = 2#2 ∧ t.bist.recReason = 2 ∧ t.pm.quick = false ∧ t.bist.flash = s.bist.flash) ∧
        (∀ k r, s.pm.flashMode = true → fl.sfdpOk = true → fl.erase4k = true → b.newest = some (k, r) →
          let reason := t.recReason r (ca.record && cb.record)
          t.bist.recReason = reason ∧ t.bist.startMode = (if reason = 0 then 1#2 else 2#2) ∧ t.pm.quick = decide (reason = 0) ∧
          t.bist.flash = tabSet none s.bist.flash (b.recSec + k) (some { r with consumed := 0#8 })) ∧
        (ca.shadows = false → t.laneA.withhold = true ∧ ∀ p : Fin 36, (t.pair p).stopA = true) ∧
        (cb.shadows = false → t.laneB.withhold = true ∧ ∀ p : Fin 36, (t.pair p).stopB = true) ∧
        (∀ n : Fin 32, t.port n = if (s.port n).st = .disabled then s.port n else
          { s.port n with sentPage := (s.port n).live.page false }) ∧
        (ca.shadows = true → cb.shadows = true →
          { t with otp := s.otp, pairs := s.pairs, pm := s.pm, bist := s.bist, ports := s.ports, freeCtr := s.freeCtr } = s))) ∧
  (∀ (s : State) (c : TestCond),
      (s.pm.inReset = true ∨ s.pm.dstate ≠ .startTest →
        exec (.testConditionPoll c) s = .next s ∧ ∀ res img, exec (.startTestEnd c res img) s = .next s) ∧
      (s.pm.inReset = false → s.pm.dstate = .startTest →
        (condOk c = true → exec (.testConditionPoll c) s = .next { s with bist := { s.bist with deferred := false } }) ∧
        (condOk c = false → s.bist.deferred = true → exec (.testConditionPoll c) s = .next s) ∧
        (s.bist.deferred = true → ∀ res img, exec (.startTestEnd c res img) s = .next s) ∧
        (condOk c = false → s.bist.deferred = false → ∃ t, t.bist.deferred = true ∧ t.bist.deferCnt = satInc s.bist.deferCnt 65535 ∧
          t.bist.condTj = !c.tj ∧ t.bist.condTb = !c.timebase ∧ t.bist.condVcore = !c.vcore ∧
          { t with bist := s.bist, evRings := s.evRings, hi := s.hi } = s ∧
          (∀ res img, exec (.startTestEnd c res img) s = .next t) ∧ exec (.testConditionPoll c) s = .next t) ∧
        (∀ resA resB img, condOk c = true → s.bist.deferred = false → resA ≠ resB →
          exec (.startTestEnd c ⟨resA, resB⟩ img) s = .next
            (((s.foldBoth (startWords resA) (startWords resB)).laneFault .a 0x2003#16 0).laneFault .b 0x2003#16 0)) ∧
        (∀ res img, condOk c = true → s.bist.deferred = false → s.pm.flashMode = false → s.pm.quick = false → s.bist.repairs = [] → res.repairs = [] →
          res.failed = [] → res.anaFail = [] → res.chOk = BitVec.allOnes 64 → res.portFail = 0#32 → res.lmOkA = true →
          res.lmOkB = true → (maskBits s.splitFuse).length ≤ 8 →
          ∃ u : State, exec (.startTestEnd c ⟨res, res⟩ img) s = .next u.settle ∧ u.pm.dstate = .run ∧
            (∀ p : Fin 36, (u.pair p).role =
              if (s.pair p).stopA = true ∨ (s.pair p).stopB = true ∨ (s.pair p).noSpare = true then .unusable
              else if s.splitFuse.getLsbD p then .split else .free) ∧
            u.gc.roles = true ∧ u.bist.zeroed = 0#36 ∧ u.zones = s.zones ∧ u.otp = s.otp ∧ u.db.clipped = false)))

/-- SHUTDOWN_N in RUN starts a shutdown that drops category 1 delays, and ends every command that waits (DEDUCED, log entry 35); during a
shutdown it drops the delays. When its BIST step is due the record goes into the sector that does not hold the newest one, unless the
lanes differ on it, and the device is OFF, every output off, one held in a silent state too. What the manual leaves open here is the
model's choice: log entries 35 (DEDUCED) and 54 (DEDUCED). -/
def Obligations.ShutdownAndItsRecord : Prop := ∀ s : State,
    (s.pm.dstate = .run → ∃ u : State, exec .shutdownN s = .next u.settle ∧ u.pm.dstate = .shutdown ∧ u.pm.shutO = none ∧
      u.pm.shutCut = true ∧ u.pm.bistDue = false ∧ u.waiting = [] ∧ u.bist.asked = [] ∧ u.snap.waiting = []) ∧
    (s.pm.dstate = .shutdown →
      exec .shutdownN s = .next ({ s with pm := { s.pm with shutCut := true } } : State).settle) ∧
    (s.pm.dstate ∈ [DState.load, .startTest, .config, .off] → exec .shutdownN s = .next s) ∧
    ∀ (c : TestCond) (tj : Byte) (fa fb : List BistEntry) (ch : BitVec 64),
      let differ := condOk c = true ∧ fa ≠ fb
      (s.pm.dstate ≠ .shutdown ∨ s.pm.bistDue = false → exec (.shutdownRecordWritten c tj ⟨fa, fb⟩ ch) s = .next s) ∧
      (s.pm.dstate = .shutdown → s.pm.bistDue = true → ∃ t, exec (.shutdownRecordWritten c tj ⟨fa, fb⟩ ch) s = .next t ∧
        t.pm.dstate = .off ∧ (∀ p : Fin 32, (t.port p).st = .disabled ∧ (t.port p).queue = []) ∧
        (∀ n : Fin 64, (t.chan n).cmd .a = false ∧ (t.chan n).cmd .b = false ∧ (t.chan n).nsOn = false ∧ (t.chan n).nsSilent = false) ∧ t.otp = s.otp ∧
        (¬ differ → t.zones = s.zones ∧ t.pairs = s.pairs) ∧
        (differ → ∀ p : Fin 36, (t.pair p).stopA = true ∧ (t.pair p).stopB = true) ∧
        (s.pm.flashMode = false ∨ s.pm.erase4k = false ∨ differ → t.bist.flash = s.bist.flash) ∧
        (s.pm.flashMode = true → s.pm.erase4k = true → ¬ differ →
          let es := s.bist.repairs ++ if condOk c then fa else []
          let put (k : Nat) (n : Word) : Prop := ∃ r : BistRec, t.bist.flash = tabSet none s.bist.flash (s.bist.recSec + k) (some r) ∧
            r.magic = 0x49564252#32 ∧ r.format = 1#8 ∧ r.consumed = 0xFF#8 ∧ r.counter = n ∧
            r.deviceId = (s.otpWord 0).shadow ∧ r.tjMax = tj ∧ r.entries = es.take 64 ∧
            r.result = BitVec.ofNat 8 (shutdownResult c es) ∧ r.crcA = crcA (recBytes r) ∧ r.crcB = crcB (recBytes r)
          (∀ r, s.bist.newest = some (0, r) → put 1 (nextCounter r.counter)) ∧
          (∀ r, s.bist.newest = some (1, r) → put 0 (nextCounter r.counter)) ∧
          (s.bist.newest = none → put 0 1#32)))

/-- Dormant mode is entered from RUN with every zone WITHDRAWN and LF running: the lanes run from LF, connections close, and each lane
announces its entry, which neither the other lane nor FD has taken yet (log entry 52). WAKE, or a change of a selected input at the 1 ms
read, returns to RUN; a lane whose announced return the other lane, or FD, has not taken 2 ms later counts as silent there.
PM_MODE.BENCH_EXIT: in bench mode, with lock-step intact and no pair HALTED, bench mode and the trial overrides end, and a test port
instruction that only bench mode has acts as BYPASS (log entry 18); else the write is discarded and recorded, or has no effect outside
bench mode. What the manual leaves open here is the model's choice: log entry 52 (DEDUCED). -/
def Obligations.DormantAndBenchMode : Prop :=
  (∀ s : State,
      (s.pm.dstate = .run → s.allWithdrawn = true → s.tb.lfFail = false → ∃ t, exec .dormantEntry s = .next t ∧
        t.pm.dstate = .dormant ∧ t.tb = { s.tb with laLf := true, lbLf := true, xchkOff := true } ∧ t.fd = s.fd ∧
        t.laneA = { s.laneA with dormAnn := true, annX := false, annFd := false } ∧
        t.laneB = { s.laneB with dormAnn := true, annX := false, annFd := false } ∧
        (∀ k, (t.conn k).st = .closed ∨ (t.conn k).st = .withdrawn) ∧
        t.zones = s.zones ∧ t.pairs = s.pairs ∧ t.chans = s.chans ∧ t.otp = s.otp) ∧
      (s.pm.dstate = .run → s.allWithdrawn = false ∨ s.tb.lfFail = true → exec .dormantEntry s = .next (s.wrej 1 0 0x2004)) ∧
      (s.pm.dstate = .dormant → exec .dormantEntry s = .next s) ∧
      (s.pm.dstate ≠ .run → s.pm.dstate ≠ .dormant →
        exec .dormantEntry s = .next (s.wrej (if s.allWithdrawn then 3 else 1) 0 0x2004)) ∧
      (s.pm.dstate ≠ .dormant → exec .wake s = .next s ∧ ∀ raw, exec (.dormantInputRead raw) s = .next s) ∧
      (s.pm.dstate = .dormant →
        exec .wake s = .next ({ s.dropAnns with
          tb := { s.tb with laLf := false, lbLf := false }, pm := { s.pm with dstate := .run } } : State).settle ∧
        ∀ raw : BitVec 64,
          let sel (n : Nat) : Bool := if n < 32 then bit s.pm.wakeLo n else bit s.pm.wakeHi (n - 32)
          let hit : Prop := ∃ n : Fin 64, (s.chan n).mode = 1#2 ∧ sel n = true ∧ raw.getLsbD n ≠ s.pm.rawAtEntry.getLsbD n
          ∃ u : State, u.pm.rawAtEntry = raw ∧ (∀ n : Fin 64, (s.chan n).mode = 1#2 → (u.chan n).raw = raw.getLsbD n) ∧
            { u with pm := s.pm, tb := s.tb, chans := s.chans } = s ∧
            (¬ hit → exec (.dormantInputRead raw) s = .next u ∧ u.pm.dstate = .dormant ∧ u.tb = s.tb) ∧
            (hit → exec (.dormantInputRead raw) s = .next u.wake)) ∧
      ∀ l : Lane,
        (s.pm.dstate = .dormant → exec (.wakeReturnTimeout l) s = .next s) ∧
        (s.pm.dstate ≠ .dormant →
          let u := if (s.lane l).annX = true ∧ (s.lane l).retAnn = false then s.laneFault (otherLane l) 0x2006#16 0 else s
          exec (.wakeReturnTimeout l) s = .next
            (if u.fd.dormHold = true ∧ (s.lane l).annFd = true ∧ (s.lane l).retFd = false then u.sbLost l else u).settle)) ∧
  (∀ s : State,
      (s.pm.bench = false → exec .benchExit s = .next s) ∧
      (s.pm.bench = true → s.db.broken = true ∨ (∃ p : Fin 36, (s.pair p).role = .halted) →
        exec .benchExit s = .next (s.wrej 3 0 0x2004)) ∧
      (s.pm.bench = true → s.db.broken = false → (∀ p : Fin 36, (s.pair p).role ≠ .halted) → ∃ t, exec .benchExit s = .next t ∧
        t.pm = { s.pm with bench := false } ∧
        (∀ w : Fin 256, t.otpWord w = if (s.otpWord w).ovr then { s.otpWord w with
          ovr := false, shadow := if (s.otpWord w).uncorr then 0#64 else (s.otpWord w).val } else s.otpWord w) ∧
        (∀ n : Fin 64, (s.chan n).mode = 2#2 → (t.chan n).ret = true ∧ (t.chan n).pulse = none) ∧
        (∀ n : Fin 64, (s.chan n).mode ≠ 2#2 → t.chan n = s.chan n) ∧
        t.db = { s.db with ir := irKept s.db.ir } ∧
        { t with pm := s.pm, chans := s.chans, db := s.db, otp := { t.otp with words := s.otp.words } } = s))

/-- A channel in an output mode conducts exactly while both lanes' switches are closed, which in reset, LOAD and OFF they never are: on a
safety output both command it on, no stop bit of its owner applies, no hold is on its set and the return rule and a test pulse leave it;
on a non-safety output the commands of its source, or what its silence makes of them; a hold opens an output of either mode, and a channel
in neither never conducts. FD holds lane B's command in negative encoding. -/
def Obligations.WhenAnOutputConducts : Prop := ∀ (s : State) (n : Nat),
    let h := s.setHead n
    let c := s.chan h
    (s.powered = false → s.conducts n = false) ∧
    (s.powered = true ↔ s.pm.inReset = false ∧ s.pm.dstate ≠ .load ∧ s.pm.dstate ≠ .off) ∧
    (s.powered = true → c.mode = 2#2 → (s.conducts n = true ↔ c.cmdA = true ∧ c.cmdB = false ∧ s.ownerRuns .a h = true ∧ s.ownerRuns .b h = true ∧
      s.held h = false ∧ (∀ m ∈ s.unit h, (s.chan m).ret = false) ∧ c.pulse = none)) ∧
    (s.powered = true → c.mode = 3#2 → (s.conducts n = true ↔ c.nsLevel .a = true ∧ c.nsLevel .b = true ∧ s.held h = false ∧
      ∀ m ∈ s.unit h, (s.chan m).ret = false)) ∧
    (s.held h = true → s.conducts n = false) ∧ (c.mode ≠ 2#2 → c.mode ≠ 3#2 → s.conducts n = false) ∧
    (∀ l, c.pend l = none → (s.ownerRuns l h = true ↔ c.own l ≠ 0x3F#6 ∧ s.fd.stopBit l (c.own l).toNat = false))

/-- Inputs. Before RUN is first reached every input is invalid. The raw level follows the terminal by the thresholds of TYPE, or in
wire-break mode of the group's supply, wherever in their ranges these stand, and keeps its value between them; a level that has stood
reaches the point unless a condition of R199 holds on the channel or has not been gone for a debounce time. A wire break and an
over-voltage make the point invalid at once; a wire break is counted and reported, and ends with the current or the terminal. A sample:
the next number, every input, feedback and GSTOP point and every capture word as they stand, for both lanes, the points of lane B in
negative encoding; an output of either mode whose commands are off and that no hold keeps may return. In Dormant mode there is none. What
the manual leaves open here is the model's choice: log entry 67 (DESIGN CHOICE). -/
def Obligations.FieldInputsAndSamples : Prop :=
  (∀ (s : State) (n : Fin 64) (mv vfs ua : Nat),
      let c := s.chan n
      let v := c.rawLevel n mv vfs
      (c.wbEn = false → c.type3 = false → (15000 ≤ mv → v = true) ∧ (mv ≤ 8000 → v = false) ∧ (12000 < mv → mv < 13000 → v = c.raw)) ∧
      (c.wbEn = false → c.type3 = true → (11000 ≤ mv → v = true) ∧ (mv ≤ 5000 → v = false) ∧ (8500 < mv → mv < 9000 → v = c.raw)) ∧
      (c.wbEn = true → (vfs * 780 / 1000 ≤ mv → v = true) ∧ (mv < vfs * 720 / 1000 - vfs * 5 / 100 → v = false)) ∧
      (∀ stood : Bool,
        (c.mode ≠ 1#2 → exec (.inputDebounce n ⟨mv, vfs, stood⟩) s = .next s) ∧
        (c.mode = 1#2 → exec (.inputDebounce n ⟨mv, vfs, stood⟩) s = .next (s.updChan n fun c =>
          { c with raw := v, wireBreak := c.wireBreak && !v, level := if stood then v else c.level }))) ∧
      (s.started = false → s.inputBad n = true) ∧
      (s.inputBad n = true → exec (.inputRestore n) s = .next s ∧ s.inputPt n = 0#2) ∧
      (s.inputBad n = false → exec (.inputRestore n) s = .next (s.updChan n fun c => { c with restoring := false }) ∧
        (s.updChan n fun c => { c with restoring := false }).inputPt n = (if c.level then 3#2 else 2#2) ∧
        (c.restoring = false → s.inputPt n = if c.level then 3#2 else 2#2)) ∧
      280 ≤ breakUa n ∧ breakUa n ≤ 350 ∧
      (c.mode ≠ 1#2 ∨ c.wbEn = false → exec (.wireBreak n ⟨mv, vfs, ua⟩) s = .next s) ∧
      (c.mode = 1#2 → c.wbEn = true →
        (v = true ∨ breakUa n ≤ ua → exec (.wireBreak n ⟨mv, vfs, ua⟩) s =
          .next (s.updChan n fun c => { c with raw := v, wireBreak := false })) ∧
        (v = false → ua < breakUa n →
          (c.wireBreak = true → exec (.wireBreak n ⟨mv, vfs, ua⟩) s =
            .next (s.updChan n fun c => { c with raw := false, wireBreak := true })) ∧
          (c.wireBreak = false → ∃ t, exec (.wireBreak n ⟨mv, vfs, ua⟩) s = .next t ∧ (t.chan n).wireBreak = true ∧ (t.chan n).raw = false ∧
            (t.chan n).restoring = true ∧ (t.chan n).wbCnt = satInc c.wbCnt 255 ∧ t.inputPt n = 0#2 ∧
            (∀ j, j ≠ n.val → t.chan j = s.chan j) ∧ { t with chans := s.chans, evRings := s.evRings, hi := s.hi } = s))) ∧
      (c.mode ≠ 1#2 → exec (.inputOv n mv) s = .next s) ∧
      (c.mode = 1#2 →
        (42000 < mv → exec (.inputOv n mv) s = .next (s.updChan n fun c => { c with ov := true, restoring := true }) ∧
          (s.updChan n fun c => { c with ov := true, restoring := true }).inputPt n = 0#2) ∧
        (mv < 40000 → exec (.inputOv n mv) s = .next (s.updChan n fun c => { c with ov := false })) ∧
        (40000 ≤ mv → mv ≤ 41000 → exec (.inputOv n mv) s =
          .next (s.updChan n fun c => { c with restoring := c.restoring || c.ov })))) ∧
  (∀ s : State,
      (s.pm.dstate = .dormant → exec .sample s = .next s ∧ exec .periodicSample s = .next s) ∧
      (s.pm.dstate ≠ .dormant → ∃ (t : State) (x : Trans) (pts : List (Nat × Pt)) (caps : List (BitVec 16)) (off : List Nat),
        exec .sample s = .next t ∧ exec .periodicSample s = .next t ∧ t.fd = { s.fd with sampleNum := s.fd.sampleNum + 1#32 } ∧
        t.trans = s.trans ++ [x] ∧ x.body = .sample (s.fd.sampleNum + 1#32) pts (negPts pts) caps off ∧ x.repA = true ∧ x.repB = true ∧
        x.okA = true ∧ x.okB = true ∧ pts.length = 132 ∧ caps.length = 16 ∧
        (∀ n : Fin 64, (0x20000 + n.val, s.inputPt n) ∈ pts ∧ (0x20100 + n.val, s.feedbackPt n) ∈ pts) ∧
        (∀ g ∈ s.gstopPts, g ∈ pts) ∧ (∀ c : Fin 16, caps[c.val]? = some (s.capWord c)) ∧
        (∀ n : Fin 64, (t.chan n).inPoint = s.inputPt n ∧ (t.chan n).outPoint = s.feedbackPt n ∧
          ((t.chan n).ret = true ↔ (s.chan n).ret = true ∧ (s.held n = true ∨ s.off n = false))) ∧
        { t with fd := s.fd, trans := s.trans, chans := s.chans } = s))

/-- A capture unit reads its channel: each read goes through the thresholds of the channel into the majority filter, an edge of the
selected kind counts, every N-th advances COUNT, and none is lost. FD_CH_CFG and FD_CAP_CFG are written only while every zone is
WITHDRAWN, with no admission taken up, and only with the values their rules allow; a channel that comes to NONSAFE_OUTPUT mode with the
source HOST follows its stored command; both stewards fold their verdict on each write (the word they fold is the model's choice, log
entry 46). What the manual leaves open here is the model's choice: log entries 46 (DEDUCED) and 56 (DEDUCED). -/
def Obligations.CaptureUnitsAndChannelModes : Prop := (∀ (u : Cap) (raw : Bool),
    let h := (raw :: u.hist).take (2 * u.filt.toNat + 1)
    let f := decide (2 * u.filt.toNat + 1 < 2 * (h.filter id).length)
    let edge := (u.edge.getLsbD 0 = true ∧ u.filt1 = false ∧ f = true) ∨ (u.edge.getLsbD 1 = true ∧ u.filt1 = true ∧ f = false)
    (u.take raw).hist = h ∧ (u.take raw).filt1 = f ∧
    (¬ edge → (u.take raw).count = u.count ∧ (u.take raw).residue = u.residue) ∧
    (edge → u.residue = u.presc.toNat → (u.take raw).count = u.count + 1#16 ∧ (u.take raw).residue = 0) ∧
    (edge → u.residue ≠ u.presc.toNat → (u.take raw).count = u.count ∧ (u.take raw).residue = u.residue + 1)) ∧
  ∀ s : State,
    (∀ (c : Fin 16) (vfs : Nat),
      (∀ mvs, (s.capUnit c).en = false ∨ (s.chan (s.capUnit c).src.toNat).mode ≠ 1#2 →
        exec (.captureCount c ⟨vfs, mvs⟩) s = .next s) ∧
      ((s.capUnit c).en = true → (s.chan (s.capUnit c).src.toNat).mode = 1#2 →
        let n := (s.capUnit c).src.toNat
        exec (.captureCount c ⟨vfs, []⟩) s = .next s ∧
        ∀ mv,
          let v := (s.chan n).rawLevel n mv vfs
          exec (.captureCount c ⟨vfs, [mv]⟩) s = .next ((s.updChan n fun c => { c with raw := v, wireBreak := c.wireBreak && !v }).updCap c
            fun u => u.take v)) ∧
      (∀ (mv : Nat) (mvs : List Nat) (t : State), exec (.captureCount c ⟨vfs, [mv]⟩) s = .next t →
        exec (.captureCount c ⟨vfs, mv :: mvs⟩) s = exec (.captureCount c ⟨vfs, mvs⟩) t)) ∧
    (∀ (c : Fin 16) (v : Word),
      let u := s.judgeWl (0x19300 + 8 * c)
      (s.wlLocked = true → exec (.captureConfig c v) s = .next (u.wrej 1 0 (0x19300 + 8 * c))) ∧
      (s.wlLocked = false → bits v 13 12 = 0 ∨ bits v 10 8 = 0 →
        exec (.captureConfig c v) s = .next (u.wrej 3 0 (0x19300 + 8 * c))) ∧
      (s.wlLocked = false → bits v 13 12 ≠ 0 → bits v 10 8 ≠ 0 → ∃ t, exec (.captureConfig c v) s = .next t ∧
        (t.capUnit c).en = bit v 31 ∧ (t.capUnit c).src = BitVec.ofNat 6 (bits v 21 16) ∧
        (t.capUnit c).edge = BitVec.ofNat 2 (bits v 13 12) ∧ (t.capUnit c).filt = BitVec.ofNat 3 (bits v 10 8) ∧
        (t.capUnit c).presc = BitVec.ofNat 8 (bits v 7 0) ∧
        (bit v 31 = true → (t.capUnit c).count = 0#16 ∧ (t.capUnit c).residue = 0 ∧
          (t.capUnit c).filt1 = (s.chan (bits v 21 16)).raw) ∧
        (bit v 31 = false → (t.capUnit c).count = (s.capUnit c).count) ∧ (∀ j, j ≠ c.val → t.capUnit j = s.capUnit j) ∧
        { t with capUnits := s.capUnits } = u)) ∧
    (∀ (n : Fin 64) (v : Word),
      let m := BitVec.ofNat 2 (bits v 1 0)
      let bad := (s.chan n).member = true ∨ (s.chan n).par ≠ 0#2 ∧ m.toNat < 2
      let u := s.judgeWl (0x18000 + 0x40 * n)
      (s.wlLocked = true → exec (.channelModeWrite n v) s = .next (u.wrej 1 0 (0x18000 + 0x40 * n))) ∧
      (s.wlLocked = false → bad → exec (.channelModeWrite n v) s = .next (u.wrej 3 0 (0x18000 + 0x40 * n))) ∧
      (s.wlLocked = false → ¬ bad → ∃ t, exec (.channelModeWrite n v) s = .next t ∧
        (∀ j ∈ s.setOf n, (t.chan j).mode = m ∧
          ((s.chan j).mode ≠ m → (∀ l, (t.chan j).cmd l = false) ∧ (t.chan j).pulse = none ∧ (t.chan j).level = false ∧
            ((t.chan j).restoring = true ↔ m = 1#2) ∧ ((t.chan j).ret = true ↔ m.toNat ≥ 2 ∧ t.held j = true))) ∧
        (∀ j, j ∉ s.setOf n → t.chan j = s.chan j) ∧
        (let sent : List Nat := if m = 3#2 ∧ s.pm.dstate ≠ .off then
            (s.setOf n).filter fun j => decide ((s.chan j).mode ≠ 3#2 ∧ (s.chan j).nsSrc = 1#2) else [];
          t.laneA.toFd = s.laneA.toFd ++ sent.map (fun j => .nonsafe j (s.chan j).nsOn) ∧
          t.laneB.toFd = s.laneB.toFd ++ sent.map (fun j => .nonsafe j (!(s.chan j).nsOn))) ∧
        { t with chans := s.chans, laneA := { t.laneA with toFd := s.laneA.toFd },
                 laneB := { t.laneB with toFd := s.laneB.toFd } } = u))

/-- GSTOP: each read of a terminal goes through the TYPE3 thresholds; an input whose raw level has stood at 0 is open, and with GSTOP
enabled starts a forced stop, which opens every safety output; both closed for 10 ms end it, unless a discrepancy has latched; inputs that
differ for longer than T_GDISC latch one, again once they have agreed since. Clearing EN, with every zone WITHDRAWN, ends a forced stop. A
device held in reset reads nothing and stays stopped (DEDUCED, log entry 62). What the manual leaves open here is the model's choice: log
entry 62 (DEDUCED). -/
def Obligations.GstopForcesAStop : Prop := ∀ s : State,
    (s.pm.inReset = true → ∀ (pin : GstopPin) (mv : Nat) (stood : Bool),
      exec (.gstopOpen ⟨pin, mv, stood⟩) s = .next s ∧ exec (.gstopClosed ⟨pin, mv, stood⟩) s = .next s) ∧
    (s.pm.inReset = false → ∀ (pin : GstopPin) (mv : Nat), mv ≤ 5000 → ∃ t, exec (.gstopOpen ⟨pin, mv, true⟩) s = .next t ∧
      (match pin with
        | .a => t.fd.gsA = false ∧ t.fd.gsARaw = false ∧ t.fd.gsB = s.fd.gsB
        | .b => t.fd.gsB = false ∧ t.fd.gsBRaw = false ∧ t.fd.gsA = s.fd.gsA) ∧
      (s.fd.gstopEn = true → t.fd.gsStop = true ∧ (∀ n, (t.chan (t.setHead n)).mode = 2#2 → t.conducts n = false)) ∧
      (s.fd.gstopEn = true → s.fd.gsStop = false → t.fd.gsStopCnt = satInc s.fd.gsStopCnt 65535 ∧
        ∀ n : Fin 64, (s.chan n).mode = 2#2 → (t.chan n).ret = true ∧ (t.chan n).pulse = none) ∧
      (s.fd.gstopEn = false ∨ s.fd.gsStop = true → t.fd.gsStop = s.fd.gsStop ∧ t.chans = s.chans) ∧
      { t with fd := s.fd, chans := s.chans, fl := s.fl, evRings := s.evRings, evqA := s.evqA, evqB := s.evqB, hi := s.hi } = s) ∧
    (s.pm.inReset = false → s.fd.gstopEn = false ∨ s.fd.gsStop = true → ∀ mv, 11000 ≤ mv →
      exec (.gstopClosed ⟨.a, mv, true⟩) s = .next { s with fd := { s.fd with
        gsA := true, gsARaw := true, gsAgreed := s.fd.gsAgreed || s.fd.gsB } } ∧
      exec (.gstopClosed ⟨.b, mv, true⟩) s = .next { s with fd := { s.fd with
        gsB := true, gsBRaw := true, gsAgreed := s.fd.gsAgreed || s.fd.gsA } } ∧
      (s.fd.gsDisc = false →
        let agreed := s.fd.gsAgreed || s.fd.gsA == s.fd.gsB
        exec (.gstopClosed ⟨.a, mv, false⟩) s = .next { s with fd := { s.fd with gsARaw := true, gsAgreed := agreed } } ∧
        exec (.gstopClosed ⟨.b, mv, false⟩) s = .next { s with fd := { s.fd with gsBRaw := true, gsAgreed := agreed } })) ∧
    (let may := s.pm.inReset = false ∧ s.fd.gsStop = true ∧ s.fd.gsA = true ∧ s.fd.gsB = true ∧ s.fd.gsDisc = false ∧
        s.fd.gstopEn = true;
      (¬ may → exec .gstopRelease s = .next s) ∧
      (may → ∃ t, exec .gstopRelease s = .next t ∧ t.fd = { s.fd with gsStop := false } ∧
        (∀ n : Fin 64, (s.chan n).mode = 2#2 → (t.chan n).ret = true ∧ t.checked n = false) ∧
        { t with fd := s.fd, chans := s.chans } = s)) ∧
    (s.fd.gstopEn = false ∨ s.fd.gsA = s.fd.gsB ∨ s.fd.gsDisc = true ∧ s.fd.gsAgreed = false → exec .gstopDisc s = .next s) ∧
    (s.fd.gstopEn = true → s.fd.gsA ≠ s.fd.gsB → s.fd.gsDisc = false ∨ s.fd.gsAgreed = true → ∃ t, exec .gstopDisc s = .next t ∧ t.fd = { s.fd with gsDisc := true, gsStop := true, gsBothOpen := false, gsAgreed := false } ∧
      ((∃ k r, s.findRec 0x3012#16 0x04F#12 = some k ∧ s.frec k = some r ∧
          r.code = 0x3012#16 ∧ r.loc = 0x04F#12) ∨
        (s.findRec 0x3012#16 0x04F#12 = none ∧ s.emptyRec.isSome) →
        ∃ k r, t.frec k = some r ∧ r.code = 0x3012#16 ∧ r.loc = 0x04F#12 ∧ r.st = .latched) ∧
      (∀ n, (t.chan (t.setHead n)).mode = 2#2 → t.conducts n = false) ∧ t.zones = s.zones ∧ t.pairs = s.pairs) ∧
    (∀ v : Word,
      let u := s.judgeWl 0x19210
      (s.wlLocked = true → exec (.gstopDisable v) s = .next (u.wrej 1 0 0x19210)) ∧
      (s.wlLocked = false → bits v 9 0 < 10 ∨ 1000 < bits v 9 0 → exec (.gstopDisable v) s = .next (u.wrej 3 0 0x19210)) ∧
      (s.wlLocked = false → 10 ≤ bits v 9 0 → bits v 9 0 ≤ 1000 → ∃ t, exec (.gstopDisable v) s = .next t ∧
        t.fd = { s.fd with gstopEn := false, tGdisc := BitVec.ofNat 10 (bits v 9 0), gsStop := false } ∧
        { t with fd := s.fd, chans := s.chans } = u))

/-- Test pulses: one starts only on an output that conducts, and opens its window; one that falls due while another unit's window is open
counts as deferred and starts at the window's end, and is skipped where its output is off; the readings of each member at its end say
SWITCH_A, SWITCH_B or EXT_VOLTAGE, by whether the A pulse of the same period passed, and a pulse cut short says nothing. A fault FD
latches on a channel: its bit is set on every member of the set, the set is held open, and the lanes get a report; zones, pairs and the
fault table wait for it. A condition FD goes on watching is a fault again only where it has been found gone since it latched (DEDUCED, log
entry 66), and a voltage on an output in a cross-short is that. What the manual leaves open here is the model's choice: log entry 66
(DEDUCED). -/
def Obligations.OutputTestsAndFaults : Prop :=
  (∀ (s : State) (n : Fin 64),
      let h := s.setHead n
      let c := s.chan h
      let pulses := c.mode = 2#2 ∧ c.tpEn = true
      (∀ (l : Lane) (k : Nat),
        (¬ pulses → exec (.testPulseStart n l k) s = .next s) ∧
        (∀ w, pulses → s.fd.pulseWin = some w → w ≠ h →
          (s.conducts h = true → exec (.testPulseStart n l k) s =
            .next ((s.updChan h fun c => { c with tpDefer := satInc c.tpDefer 255 }).updFd fun f =>
              { f with pulseWait := f.pulseWait ++ [.pulse h l k] })) ∧
          (s.conducts h = false → exec (.testPulseStart n l k) s = .next s)) ∧
        (pulses → s.fd.pulseWin = none ∨ s.fd.pulseWin = some h →
          (c.pulse = none → s.conducts h = true → exec (.testPulseStart n l k) s =
            .next ((s.updChan h fun c => { c with pulse := some l, pulsePer := k }).updFd fun f => { f with pulseWin := some h })) ∧
          (c.pulse ≠ none ∨ s.conducts h = false → exec (.testPulseStart n l k) s = .next s))) ∧
      (c.pulse = none → (∀ r, exec (.testPulseEnd n r false) s = .next s) ∧
        (s.fd.pulseWin ≠ some h → ∀ r, exec (.testPulseEnd n r true) s = .next s) ∧
        (s.fd.pulseWin = some h → ∀ r,
          (s.fd.pulseWait = [] → exec (.testPulseEnd n r true) s = .next { s with fd := { s.fd with pulseWin := none } }) ∧
          ∀ k l p rest, s.fd.pulseWait = .pulse k l p :: rest → (s.chan k).mode = 2#2 → (s.chan k).tpEn = true → (s.chan k).pulse = none →
            s.conducts k = true → exec (.testPulseEnd n r true) s =
              .next { s.updChan k fun c => { c with pulse := some l, pulsePer := p } with
                fd := { s.fd with pulseWin := some k, pulseWait := rest } })) ∧
      ∀ l, c.pulse = some l → ∀ m x : BitVec 4, ∃ t, exec (.testPulseEnd n ⟨m, x⟩ false) s = .next t ∧ (t.chan h).pulse = none ∧
        { t with chans := s.chans, fd := s.fd } = s ∧
        (∀ i, i < (s.setOf h).length →
          let j := (s.setOf h).getD i h
          (l = .a → m.getLsbD i = true → (t.chan j).fltSwA = true) ∧
          (l = .a → m.getLsbD i = false → x.getLsbD i = true → (t.chan j).fltExt = true) ∧
          (l = .b → x.getLsbD i = true → if c.aPassed = some c.pulsePer then (t.chan j).fltSwB = true
            else (t.chan j).fltExt = true)) ∧
        (m = 0#4 → x = 0#4 → t = s.updChan h fun c => { c with pulse := none, aPassed := if l = .a then some c.pulsePer else c.aPassed })) ∧
  ((∀ (s : State) (n : Fin 64),
      let latched (s t : State) (code : BitVec 16) : Prop :=
        t.fd = { s.fd with reports := s.fd.reports ++ [(n.val, code)] } ∧ (∀ j ∈ s.unit n, (t.chan j).pulse = none ∧
          ((s.chan j).mode = 2#2 → (t.chan j).ret = true)) ∧ (∀ j, j ∉ s.unit n → t.chan j = s.chan j) ∧
        { t with fd := s.fd, chans := s.chans } = s
      (∀ j ∈ s.unit n, ((s.faultSwA n).chan j).fltSwA = true ∧ ((s.faultSwB n).chan j).fltSwB = true ∧
        ((s.faultExt n).chan j).fltExt = true) ∧
      latched s (s.faultSwA n) 0x3001#16 ∧ latched s (s.faultSwB n) 0x3002#16 ∧ latched s (s.faultExt n) 0x3003#16 ∧
      ((s.chan n).fltCross = false → s.faultTerm n = s.faultExt n) ∧
      ((s.chan n).fltCross = true → latched s (s.faultTerm n) 0x3004#16) ∧
      (∀ b : Bool,
        let seen := s.updChan n fun c => { c with offHigh := b }
        let still := (s.chan n).offHigh = true ∧ ((s.chan n).fltExt = true ∨ (s.chan n).fltCross = true)
        (s.checked n = true → s.commandedOn n = false →
          (b = true → ¬ still → exec (.offCheck n b) s = .next (seen.faultTerm n)) ∧
          (b = false ∨ still → exec (.offCheck n b) s = .next seen)) ∧
        (s.checked n = false ∨ s.commandedOn n = true → exec (.offCheck n b) s = .next s)) ∧
      (∀ b on : Bool,
        let shown := s.updChan n fun c => { c with mid := on }
        let seen := s.updChan n fun c => { c with mid := on, midHigh := b }
        let still := (s.chan n).midHigh = true ∧ (s.chan n).fltSwA = true
        (s.checked n = true → s.swClosed .a n = false →
          (b = true → ¬ still → exec (.midNodeCheck n ⟨b, on⟩) s = .next (seen.faultSwA n)) ∧
          (b = false ∨ still → exec (.midNodeCheck n ⟨b, on⟩) s = .next seen)) ∧
        (s.checked n = false ∨ s.swClosed .a n = true → exec (.midNodeCheck n ⟨b, on⟩) s = .next shown)) ∧
      (∀ atOn inLimit : Bool,
        (s.checked n = true → s.conducts n = true → atOn = false → inLimit = false → ∃ t, exec (.onCheck n atOn inLimit) s = .next t ∧
          latched s t 0x3008#16 ∧ ∀ j ∈ s.unit n, (t.chan j).fltOn = true) ∧
        (s.checked n = false ∨ s.conducts n = false ∨ atOn = true ∨ inLimit = true → exec (.onCheck n atOn inLimit) s = .next s)) ∧
      (s.checked n = true → (s.chan n).olEn = true →
        (s.conducts n = false →
          let seen (b : Bool) := s.updChan n fun c => { c with olHigh := b }
          let still := (s.chan n).olHigh = true ∧ (s.chan n).fltOpen = true
          (¬ still → ∃ t, exec (.openLoadTest n true) s = .next t ∧ latched (seen true) t 0x3009#16 ∧
            ∀ j ∈ s.unit n, (t.chan j).fltOpen = true) ∧
          (still → exec (.openLoadTest n true) s = .next (seen true)) ∧
          exec (.openLoadTest n false) s = .next (seen false) ∧ exec (.openLoad n) s = .next s) ∧
        (s.conducts n = true → (∃ t, exec (.openLoad n) s = .next t ∧ latched s t 0x3009#16 ∧
          ∀ j ∈ s.unit n, (t.chan j).fltOpen = true) ∧ ∀ b, exec (.openLoadTest n b) s = .next s)) ∧
      (s.checked n = false ∨ (s.chan n).olEn = false → exec (.openLoad n) s = .next s ∧ ∀ b, exec (.openLoadTest n b) s = .next s) ∧
      ((s.chan n).isOutput = true →
        (∃ t, exec (.overload n) s = .next t ∧ latched s t 0x3005#16 ∧ ∀ j ∈ s.unit n, (t.chan j).fltOver = true) ∧
        (∃ t, exec (.thermal n) s = .next t ∧ latched s t 0x3006#16 ∧ ∀ j ∈ s.unit n, (t.chan j).fltTherm = true)) ∧
      ((s.chan n).isOutput = false → exec (.overload n) s = .next s ∧ exec (.thermal n) s = .next s) ∧
      ((s.chan n).mode = 2#2 → 1 < (s.unit n).length →
        ∃ t, exec (.shareFault n) s = .next t ∧ latched s t 0x3007#16 ∧ ∀ j ∈ s.unit n, (t.chan j).fltShare = true) ∧
      ((s.chan n).mode ≠ 2#2 ∨ (s.unit n).length ≤ 1 → exec (.shareFault n) s = .next s)) ∧
    ∀ (s : State) (n : Fin 64) (b : Bool),
      ((s.chan n).mode = 2#2 → s.inWindow n = false →
        exec (.feedbackDebounce n b) s = .next (s.updChan n fun c => { c with fbLevel := b, term := b, restoring := false })) ∧
      ((s.chan n).mode ≠ 2#2 → s.inWindow n = false →
        exec (.feedbackDebounce n b) s = .next (s.updChan n fun c => { c with term := b })) ∧
      (s.inWindow n = true → exec (.feedbackDebounce n b) s = .next s))

/-- The lanes receive FD's report: it is recorded and, but for ON_FAIL and OPEN_LOAD, the zones that own the output go FAULTED; a report
FD does not have to make does nothing. A cross-short names each channel the other's partner and takes the place of the EXT_VOLTAGE fault
of the first. -/
def Obligations.ChannelFaultReports : Prop := ∀ s : State,
    (∀ (n : Fin 64) (code : BitVec 16),
      ((n.val, code) ∉ s.fd.reports → exec (.channelFaultReport n code) s = .next s) ∧
      ((n.val, code) ∈ s.fd.reports → ∃ t, exec (.channelFaultReport n code) s = .next t ∧
        t.fd.reports.length + 1 = s.fd.reports.length ∧ { t.fd with reports := s.fd.reports } = s.fd ∧
        (code ≠ 0x3008#16 → code ≠ 0x3009#16 → ∀ z ∈ s.zonesOfChan n, (t.zone z).stopped) ∧
        (code = 0x3008#16 ∨ code = 0x3009#16 → t.zones = s.zones) ∧
        (∀ r y, s.findRec code (BitVec.ofNat 12 n) = some r → s.frec r = some y → y.code = code → y.loc = BitVec.ofNat 12 n →
          ∃ x, t.frec r = some x ∧ x.code = code ∧ x.loc = BitVec.ofNat 12 n ∧ x.st = .latched) ∧
        (∀ r, s.findRec code (BitVec.ofNat 12 n) = none → s.emptyRec = some r →
          ∃ x, t.frec r = some x ∧ x.code = code ∧ x.loc = BitVec.ofNat 12 n ∧ x.st = .latched) ∧
        t.pairs = s.pairs ∧ t.chans = s.chans)) ∧
    (∀ x y : Fin 64,
      ((s.chan x).fltExt = false ∨ (s.chan y).mode ≠ 2#2 ∨ y.val ∈ s.unit x → exec (.crossShort x y) s = .next s) ∧
      ((s.chan x).fltExt = true → (s.chan y).mode = 2#2 → y.val ∉ s.unit x → (∀ j ∈ s.unit y, j ∉ s.unit x) →
        ∃ t, exec (.crossShort x y) s = .next t ∧
          (∀ j ∈ s.unit x, (t.chan j).fltExt = false ∧ (t.chan j).fltCross = true ∧ (t.chan j).partner = y.val) ∧
          (∀ j ∈ s.unit y, (t.chan j).fltCross = true ∧ (t.chan j).partner = x.val) ∧
          (∀ z ∈ s.zonesOfChan y, (t.zone z).stopped) ∧ t.pairs = s.pairs))

/-- Group supplies: the thresholds with their hysteresis; an onset of UV_WARN is counted; while UV_IN holds the group's inputs are
invalid; OV, and once the device has started UV_OFF, latch and hold the group's outputs, and are recorded once the device has started; 10
ms inside the band end the latch where no record of it is held, and a reading outside the band starts them anew; the hold of a group whose
supply was below UV_OFF as RUN began ends after 10 ms above UV_OFF + 0.5 V, with no clear. Non-safety outputs: a host command is stored,
and for a HOST source goes to both lanes' switches, lane B's word in negative encoding, where it ends a silence as FD takes it, but while
FD holds the outputs for Dormant mode; any other mode discards and records it. A source silent for SILENT_T makes the channel silent once,
with an event. -/
def Obligations.GroupsAndNonSafetyOutputs : Prop :=
  ((∀ (was : Bool) (thr : Nat) (v : BitVec 16), belowThr was thr v = true ↔ v.toNat < thr * 10 + (if was then 50 else 0)) ∧
    (∀ q : Grp, q.inBand = true ↔ q.uvOff.toNat * 10 + 50 < q.vfs.toNat ∧ q.vfs.toNat < 4100) ∧
    ∀ (s : State) (g : Fin 4) (v : BitVec 16),
      let q : Grp := { s.grp g with vfs := v, stood := (s.grp g).stood && ({ s.grp g with vfs := v } : Grp).inBand }
      (let b := belowThr (s.grp g).belowWarn (s.grp g).uvWarn.toNat v
        ∃ t, exec (.uvWarn g v) s = .next t ∧ t.grp g = { q with
            belowWarn := b
            warnCnt := if b = true ∧ (s.grp g).belowWarn = false then satInc (s.grp g).warnCnt 65535 else (s.grp g).warnCnt } ∧
          (∀ j, j ≠ g.val → t.grp j = s.grp j) ∧ { t with grps := s.grps, evRings := s.evRings, evqA := s.evqA, evqB := s.evqB, hi := s.hi } = s) ∧
      (let b := belowThr (s.grp g).belowIn (s.grp g).uvIn.toNat v
        ∃ t, exec (.uvIn g v) s = .next t ∧ t.grp g = { q with belowIn := b } ∧
          (b = true → ∀ n : Fin 64, n.val / 16 = g.val → t.inputPt n = 0#2 ∧ ((t.chan n).mode = 1#2 → (t.chan n).restoring = true)) ∧
          (∀ j, j ≠ g.val → t.grp j = s.grp j) ∧ (b = false → t.chans = s.chans) ∧ { t with grps := s.grps, chans := s.chans } = s) ∧
      (let b := belowThr (s.grp g).belowOff (s.grp g).uvOff.toNat v
        ∃ t, exec (.uvOff g v) s = .next t ∧ (t.grp g).belowOff = b ∧ (t.grp g).vfs = v ∧
          (b = true → (s.grp g).belowOff = false → s.started = true → (t.grp g).uvoffLatch = true ∧
            (t.grp g).latchCnt = (if (s.grp g).latched then (s.grp g).latchCnt else satInc (s.grp g).latchCnt 65535) ∧
            (∀ n, n / 16 = g.val → t.held n = true) ∧ ∀ n : Fin 64, n.val / 16 = g.val → (s.chan n).isOutput = true → (t.chan n).ret = true) ∧
          (b = false ∨ (s.grp g).belowOff = true ∨ s.started = false → t.grp g = { q with belowOff := b } ∧
            { t with grps := s.grps } = s) ∧
          (∀ j, j ≠ g.val → t.grp j = s.grp j) ∧ t.zones = s.zones ∧ t.pairs = s.pairs) ∧
      (let b := decide ((if (s.grp g).aboveOv then 4100 else 4200) < v.toNat)
        ∃ t, exec (.groupOv g v) s = .next t ∧ (t.grp g).aboveOv = b ∧ (t.grp g).vfs = v ∧
          (b = true → (s.grp g).aboveOv = false → (t.grp g).ovLatch = true ∧
            (t.grp g).latchCnt = (if (s.grp g).latched then (s.grp g).latchCnt else satInc (s.grp g).latchCnt 65535) ∧
            (∀ n, n / 16 = g.val → t.held n = true) ∧ (s.started = false → t.fl = s.fl)) ∧
          (b = false ∨ (s.grp g).aboveOv = true → t.grp g = { q with aboveOv := b } ∧
            { t with grps := s.grps } = s) ∧
          (∀ j, j ≠ g.val → t.grp j = s.grp j) ∧ t.zones = s.zones ∧ t.pairs = s.pairs) ∧
      (∀ q : Grp, q.aboveEnd = true ↔ q.uvOff.toNat * 10 + 50 < q.vfs.toNat) ∧
      ((s.grp g).inBand = false → (s.grp g).startHold = false ∨ (s.grp g).aboveEnd = false → exec (.groupLatchEnd g) s = .next s) ∧
      ((s.grp g).inBand = false → (s.grp g).startHold = true → (s.grp g).aboveEnd = true → ∃ t, exec (.groupLatchEnd g) s = .next t ∧
        t.grp g = { s.grp g with startHold := false } ∧ (∀ j, j ≠ g.val → t.grp j = s.grp j) ∧
        (∀ n : Fin 64, n.val / 16 = g.val → (s.chan n).isOutput = true → (t.chan n).ret = true) ∧
        { t with grps := s.grps, chans := s.chans } = s) ∧
      ((s.grp g).inBand = true → s.grpRec g = false → s.fl.overflow = false → ∃ t, exec (.groupLatchEnd g) s = .next t ∧
        t.grp g = { s.grp g with stood := true, ovLatch := false, uvoffLatch := false, startHold := false } ∧ (∀ j, j ≠ g.val → t.grp j = s.grp j) ∧
        { t with grps := s.grps, chans := s.chans } = s) ∧
      ((s.grp g).inBand = true → s.grpRec g = true ∨ s.fl.overflow = true → ∃ t, exec (.groupLatchEnd g) s = .next t ∧
        t.grp g = { s.grp g with stood := true, startHold := false } ∧ (∀ j, j ≠ g.val → t.grp j = s.grp j) ∧
        ((s.grp g).startHold = false → t.chans = s.chans) ∧
        { t with grps := s.grps, chans := s.chans, fl := s.fl, evRings := s.evRings, evqA := s.evqA, evqB := s.evqB, hi := s.hi } = s)) ∧
  (∀ (s : State) (n : Fin 64) (v : Word),
      ((s.chan n).mode ≠ 3#2 → exec (.nsCmd n v) s = .next (s.wrej 3 0 (0x18024 + 0x40 * n)) ∧ exec (.nsSilent n) s = .next s) ∧
      ((s.chan n).mode = 3#2 →
        (∃ t, exec (.nsCmd n v) s = .next t ∧ t.chan n = { s.chan n with nsOn := bit v 0 } ∧
          ((s.chan n).nsSrc = 1#2 → s.pm.dstate ≠ .off → t.laneA.toFd = s.laneA.toFd ++ [.nonsafe n (bit v 0)] ∧
            t.laneB.toFd = s.laneB.toFd ++ [.nonsafe n (!bit v 0)]) ∧
          ((s.chan n).nsSrc ≠ 1#2 ∨ s.pm.dstate = .off → t.laneA = s.laneA ∧ t.laneB = s.laneB) ∧
          (∀ j, j ≠ n.val → t.chan j = s.chan j) ∧
          { t with chans := s.chans, laneA := { t.laneA with toFd := s.laneA.toFd }, laneB := { t.laneB with toFd := s.laneB.toFd } } = s) ∧
        (∀ (l : Lane) (on : Bool),
          let t := s.fdTake l ((FdCmd.nonsafe n on).inLane l)
          (s.fd.dormHold = false → (t.chan n).nsSilent = false ∧ (t.chan n).cmd l = on) ∧
          (s.fd.dormHold = true → (t.chan n).nsSilent = (s.chan n).nsSilent ∧ (t.chan n).cmd l = (s.chan n).cmd l)) ∧
        ((s.chan n).nsSrc = 0#2 ∨ (s.chan n).nsSilent = true → exec (.nsSilent n) s = .next s) ∧
        ((s.chan n).nsSrc ≠ 0#2 → (s.chan n).nsSilent = false → ∃ t, exec (.nsSilent n) s = .next t ∧ (t.chan n).nsSilent = true ∧
          (∀ l, t.swClosed l n = true → (s.chan n).silentState ≠ 0#2 ∨ t.setHead n ≠ n) ∧ (∀ j, j ≠ n.val → t.chan j = s.chan j) ∧
          { t with chans := s.chans, evRings := s.evRings, hi := s.hi } = s)))

/-- A field link frame: a bad one, and any in reset or OFF, changes nothing; a good one sets FD's stop vector of the lane from its stop
and halt bits, the heartbeat toggle and the global indication, brings what the lane announces of Dormant mode, and FD takes up to 16 words
of the lane's queue, in the lane's encoding: a switch command for a channel with an owner in that lane, a pending change of owner, or a
boundary that completes one that names it; a word the lane has to hold counts once. A word that fails its parity is discarded in its place
and is a GLOBAL fault. 4 µs without a frame stop every pair. That a silent link or a poisoned word latches every pair in both lanes is
DEDUCED (log entry 26). What the manual leaves open here is the model's choice: log entry 26 (DEDUCED). -/
def Obligations.FieldLinks : Prop := ∀ (s : State) (l : Lane),
    let u := s.fdAnnounce l
    (∀ b, exec (.fieldLinkFrame l false b) s = .next s) ∧
    (s.pm.inReset = true ∨ s.pm.dstate = .off → ∀ c b, exec (.fieldLinkFrame l c b) s = .next s) ∧
    (s.pm.dstate ≠ .dormant → (s.lane l).annFd = false → s.fd.dormHold = false → u = s) ∧
    (s.pm.dstate = .dormant → (s.lane l).dormAnn = true → (u.lane l).annFd = true ∧
      (s.fd.dormHold = false → (s.lane (otherLane l)).annFd = true → u.fd.dormHold = true ∧
        (∀ n, (u.chan (u.setHead n)).mode = 2#2 → u.conducts n = false) ∧
        ∀ n : Fin 64, (u.chan n).mode = 3#2 → (u.chan n).nsSilent = true)) ∧
    (s.pm.dstate ≠ .dormant → s.fd.dormHold = true → (s.lane l).annFd = true → s.onPll l = true → (s.lane (otherLane l)).retFd = true →
      u.fd.dormHold = false ∧ ∀ n : Fin 64, (u.chan n).mode = 3#2 → (u.chan n).nsSrc = 1#2 →
        (u.chan n).nsSilent = false ∧ ∀ k, (u.chan n).cmd k = (s.chan n).nsOn) ∧
    (s.pm.inReset = false → s.pm.dstate ≠ .off → ∃ t, exec (.fieldLinkFrame l true 0#16) s = .next t ∧
      (∀ p : Fin 36, (match l with | .a => t.fd.stopA | .b => t.fd.stopB).getLsbD p = ((s.pair p).stop l || (s.pair p).haltBit)) ∧
      t.fd.globalInd = (s.fd.globalInd || (s.lane l).global) ∧ (t.lane l).toFd = (s.lane l).toFd.drop 16 ∧
      (match l with | .a => t.fd.togA | .b => t.fd.togB) = (s.lane l).hbTog ∧
      (t.lane l).heldFd = (s.lane l).toFd.length - 16 ∧
      (match l with | .a => t.fd.stallA | .b => t.fd.stallB) =
        satAdd (match l with | .a => s.fd.stallA | .b => s.fd.stallB) ((s.lane l).toFd.length - max 16 (s.lane l).heldFd) 65535 ∧
      ((s.lane l).toFd = [] → ∀ n, (t.chan n).cmdA = (u.chan n).cmdA ∧ (t.chan n).cmdB = (u.chan n).cmdB ∧
        (t.chan n).ownA = (u.chan n).ownA ∧ (t.chan n).ownB = (u.chan n).ownB) ∧
      (∀ n on, (s.lane l).toFd = [(FdCmd.switch n on).inLane l] →
        (t.chan n).cmd l = (if (u.chan n).own l = 0x3F then (u.chan n).cmd l else on) ∧
        (t.chan n).cmd (otherLane l) = (u.chan n).cmd (otherLane l) ∧ ∀ j, j ≠ n → (t.chan j).cmd l = (u.chan j).cmd l) ∧
      (∀ n o w bd, (s.lane l).toFd = [(FdCmd.owner n o w bd).inLane l] →
        (t.chan n).pend l = some { old := o, new := w, boundary := bd } ∧ (t.chan n).own l = (u.chan n).own l ∧
        (t.chan n).cmd l = (u.chan n).cmd l ∧ t.fd.changes = noteChange l n { old := o, new := w, boundary := bd } s.fd.changes) ∧
      (∀ n bd q, (s.lane l).toFd = [(FdCmd.boundary n bd).inLane l] → (s.chan n).pend l = some q →
        (q.boundary = bd → (t.chan n).own l = q.new ∧ (t.chan n).pend l = none ∧
          (t.chan n).cmd l = ((u.chan n).cmd l && decide (q.new ≠ 0x3F#6))) ∧
        (q.boundary ≠ bd → (t.chan n).own l = (s.chan n).own l ∧ (t.chan n).pend l = some q)) ∧
      { t with fd := s.fd, chans := s.chans, laneA := s.laneA, laneB := s.laneB } = s ∧ t.lane (otherLane l) = u.lane (otherLane l)) ∧
    (∀ (m : BitVec 16) (i : Nat), s.pm.inReset = false → s.pm.dstate ≠ .off → i < 16 → i < (s.lane l).toFd.length → m.getLsbD i = true →
      ∃ t, exec (.fieldLinkFrame l true m) s = .next t ∧ t.fd.cmdPoison = true ∧ t.fd.globalHold = true ∧
        ((s.lane l).toFd.length = 1 → ∀ n, (t.chan n).cmd l = (u.chan n).cmd l ∧ (t.chan n).own l = (u.chan n).own l) ∧
        (∀ n, t.conducts n = false) ∧ (∀ z, (t.zone z).stopped) ∧ (∀ p : Fin 36, (t.pair p).stopA = true ∧ (t.pair p).stopB = true)) ∧
    (∃ t, exec (.fieldLinkSilent l) s = .next t ∧ (match l with | .a => t.fd.linkASilent | .b => t.fd.linkBSilent) = true ∧
      (∀ n, (t.chan (t.setHead n)).mode = 2#2 → t.conducts n = false) ∧ (∀ z, (t.zone z).stopped) ∧
      (∀ p : Fin 36, (t.pair p).stopA = true ∧ (t.pair p).stopB = true))

/-- FD's own checks: ownership copies that differ with no change pending, a change that both lanes have not written alike and completed in
50 µs, a heartbeat missing for longer than T_SB, an oscillator more than 5 % off. Each holds every output, stops every pair in both lanes
and every zone; without its condition, and of the last two while FD holds the outputs for Dormant mode, nothing changes. What the manual
leaves open here is the model's choice: log entry 26 (DEDUCED). -/
def Obligations.FieldDieStopsEveryOutput : Prop := ∀ s : State,
    let all (t : State) : Prop := t.fd.globalHold = true ∧ (∀ n, t.conducts n = false) ∧ (∀ z, (t.zone z).stopped) ∧
      (∀ p : Fin 36, (t.pair p).stopA = true ∧ (t.pair p).stopB = true) ∧
      { t with fd := s.fd, zones := s.zones, pairs := s.pairs, chans := s.chans, ptsA := s.ptsA, ptsB := s.ptsB, trans := s.trans,
               owed := s.owed, cat1 := s.cat1, fl := s.fl, evRings := s.evRings, evqA := s.evqA, hi := s.hi,
               laneA := { t.laneA with toFd := s.laneA.toFd }, laneB := { t.laneB with toFd := s.laneB.toFd } } = s
    let settled (n : Fin 64) : Prop := (s.chan n).pend .a = none ∧ (s.chan n).pend .b = none
    let done (q : OwnChange) : Prop := ∃ x y, q.entry .a = some x ∧ q.entry .b = some y ∧ x.new = y.new ∧ x.boundary = y.boundary ∧
      (s.chan q.ch).pend .a ≠ some x ∧ (s.chan q.ch).pend .b ≠ some y
    ((∀ n : Fin 64, settled n → (s.chan n).own .a = (s.chan n).own .b) → exec .ownershipCheck s = .next s) ∧
    ((∃ n : Fin 64, settled n ∧ (s.chan n).own .a ≠ (s.chan n).own .b) →
      ∃ t, exec .ownershipCheck s = .next t ∧ t.fd.ownDisagree = true ∧ all t) ∧
    (s.fd.changes = [] → exec .pendingOwnershipTimeout s = .next s) ∧
    (∀ q r, s.fd.changes = q :: r →
      (done q → exec .pendingOwnershipTimeout s = .next { s with fd := { s.fd with changes := r } }) ∧
      (¬ done q → ∃ t, exec .pendingOwnershipTimeout s = .next t ∧ t.fd.ownDisagree = true ∧ t.fd.changes = r ∧ all t)) ∧
    (s.fd.dormHold = true → (∀ l, exec (.sbHeartbeatLost l) s = .next s) ∧ ∀ x, exec (.fdOsc x) s = .next s) ∧
    (s.fd.dormHold = false →
      (∀ l, ∃ t, exec (.sbHeartbeatLost l) s = .next t ∧ (match l with | .a => t.fd.hbALost | .b => t.fd.hbBLost) = true ∧ all t) ∧
      (∀ x : Int, x.natAbs ≤ 50 → exec (.fdOsc x) s = .next s) ∧
      (∀ x : Int, 50 < x.natAbs → ∃ t, exec (.fdOsc x) s = .next t ∧ t.fd.oscFault = true ∧ all t))

/-- What the lanes watch of each other and of themselves: heartbeats, state hashes (what each steward has folded is the model's choice,
log entry 46), Light Meters against the lane's own copy of the limit, supplies, hub link frames: every second bad one in succession loses
what it carried, a received frame or the lane's copy of a safety entry, and the third is a fault; a frame also says which words of the
event queue fail their parity and whether HB takes any. A cross link frame: a bad one misses the toggles it carried, and a hash; a good
one brings the other lane's stop bits, or all of them where that lane withholds its heartbeat, what it announces of Dormant mode, and to
lane A the confirmation of the oldest replayed write; with nothing to report it changes nothing. What the manual leaves open here is the
model's choice: log entries 46 (DEDUCED) and 73 (DESIGN CHOICE). -/
def Obligations.LaneChecksAndCrossLink : Prop :=
  (∀ (s : State) (l : Lane),
      exec (.heartbeat l) s = .next (if (s.lane l).withhold then s else s.updLane l fun d => { d with hbTog := !d.hbTog }) ∧
      (let m (t : State) (k : Lane) := if t.suspended k then t else t.laneFault k 0x2003#16 0;
        (s.adm.hashB = ~~~s.adm.hashA → exec (.stewardStep true) s = .next s) ∧
        (s.adm.hashB ≠ ~~~s.adm.hashA → exec (.stewardStep true) s = .next (m (m s .a) .b)) ∧
        exec (.stewardStep false) s = .next (m (m s .a) .b)) ∧
      (s.suspended l = true → exec (.heartbeatLost l) s = .next s ∧
        exec (.stewardSilent l) s = .next s ∧ ∀ n, exec (.lightMeterWindow l n) s = .next s) ∧
      (s.suspended l = false →
        exec (.heartbeatLost l) s = .next (s.laneFault l 0x2006#16 0) ∧
        ((s.lane (otherLane l)).annX = true → exec (.stewardSilent l) s = .next (s.laneFault l 0x2004#16 0)) ∧
        ((s.lane (otherLane l)).annX = false → exec (.stewardSilent l) s = .next (s.voidAnns.laneFault l 0x2004#16 0)) ∧
        ∀ n : BitVec 10, ∃ u : State,
          (u.lane l).laps = n.toNat ∧ (u.lane l).minLaps = min (s.lane l).minLaps n.toNat ∧
          ((u.lane l).slow = true ↔ (s.lane l).slow = true ∨ n.toNat < 196) ∧
          ((u.lane l).fast = true ↔ (s.lane l).fast = true ∨ 600 < n.toNat) ∧
          ((u.lane l).warn = true ↔ (s.lane l).warn = true ∨ n.toNat < (match l with | .a => s.lmWarn | .b => ~~~s.lmWarnB).toNat) ∧
          u.lane (otherLane l) = s.lane (otherLane l) ∧
          { u with laneA := s.laneA, laneB := s.laneB, evRings := s.evRings, evqA := s.evqA, evqB := s.evqB, hi := s.hi } = s ∧
          exec (.lightMeterWindow l n) s = .next (if n.toNat < 196 then u.laneFault l 0x2001#16 n.toNat
            else if 600 < n.toNat then u.laneFault l 0x2002#16 n.toNat else u)) ∧
      (∀ mv : BitVec 16, ∃ u : State, { u with pm := s.pm } = s ∧
        (match l with | .a => u.pm = { s.pm with vcoreA := mv } | .b => u.pm = { s.pm with vcoreB := mv }) ∧
        exec (.supplyRange l mv) s = .next (if mv.toNat < 750 ∨ 860 < mv.toNat then u.laneFault l 0x2008#16 mv.toNat else u)) ∧
      ∀ f : HubFrame,
        let v := (s.updEvq l fun q => { q with bad := q.bad ||| f.poison }).holdEvents f.hold
        (s.evqA.words = [] → s.evqB.words = [] → f.poison = 0#64 → v = { s with hi := { s.hi with evHold := f.hold } }) ∧
        (f.crcOk = true → exec (.hubLinkFrame l f) s = .next (v.updLane l fun d => { d with hubFails := 0 })) ∧
        (f.crcOk = false →
          let n := (s.lane l).hubFails + 1
          let u := v.updLane l fun d => { d with hubFails := n }
          let w := if n % 2 = 0 then match f.content with
            | .frame => u.updLane l fun d => { d with rxq := loseFirst d.rxq }
            | .descriptor r => u.loseCopy l r
            | .other => u
          else u
          exec (.hubLinkFrame l f) s = .next (if n = 3 then w.laneFault l 0x5001#16 0 else w))) ∧
  (∀ (s : State) (l : Lane),
      (∀ (p : Fin 36) (c : Bool), exec (.laneCrossLinkFrame l false [p] false c) s = .next (s.pairFault l p 0x1002#16 0)) ∧
      (∀ (c : Bool), exec (.laneCrossLinkFrame l false [] true c) s = .next (if s.suspended l then s else s.laneFault l 0x2004#16 0)) ∧
      (∀ (ps : List (Fin 36)) (h c : Bool), ∃ t, exec (.laneCrossLinkFrame l true ps h c) s = .next t ∧
        (∀ p : Fin 36, (s.pair p).stop (otherLane l) = true → (t.pair p).stop l = true) ∧
        ((s.lane (otherLane l)).withhold = true → ∀ p : Fin 36, (t.pair p).stop l = true) ∧
        (∀ p : Fin 36, (t.pair p).stop (otherLane l) = (s.pair p).stop (otherLane l)) ∧
        (s.pm.dstate = .dormant → (s.lane (otherLane l)).dormAnn = true → (t.lane (otherLane l)).annX = true) ∧
        (∀ k i w r, l = .a → c = true → s.db.replayPend = (k, i, w) :: r → t.db.replayPend = r ∧ (k, i) ∉ t.db.replayAt) ∧
        (c = false → t.db = s.db) ∧ t.fl = s.fl ∧ t.ports = s.ports) ∧
      ((∀ p : Fin 36, (s.pair p).stop (otherLane l) = false) → (s.lane (otherLane l)).withhold = false →
        (s.lane (otherLane l)).dormAnn = false → (s.lane (otherLane l)).annX = false →
        ∀ (ps : List (Fin 36)) (h : Bool), exec (.laneCrossLinkFrame l true ps h false) s = .next s))

/-- A release mark: the mark number steps; with no operation running, a pass starts on every pair that may pass, has no pass running and
had a trigger before the mark, with its next number and the points as the mark left them; a pair that reads a point the mark changed has a
trigger for the next mark. What asks for passes and injections, and the timers of the blocks: 100 µs without a pass, a timer that expires
(the next pass to start sees it, in both lanes, or the one that has started at the very tick; where lane B's own time has not passed,
TIMER_LOST belongs to that pass), lane B's window without one, an injection that falls due, on a pair that waits to halt too; a category 1
delay that expires commands its output off in its lane. What the manual leaves open here is the model's choice: log entries 59 (DESIGN
CHOICE) and 60 (DEDUCED). -/
def Obligations.MarksTriggersAndTimers : Prop :=
  ((∀ s : State, s.lanesRun = false → exec .releaseMark s = .next s) ∧
    (∀ s : State, s.lanesRun = true → s.op = none → s.trans = [] → ∃ u : State, exec .releaseMark s = .next u.settle ∧
      u.markNum = s.markNum + 1#32 ∧ u.ptsA = s.ptsA ∧ u.ptsB = s.ptsB ∧ u.imgA = s.ptsA ∧ u.imgB = s.ptsB ∧ u.imgCaps = s.caps ∧
      (∀ z, (u.zone z).st = (s.zone z).st) ∧
      ∀ p : Fin 36,
        let q := s.pair p
        let due := q.mayPass = true ∧ q.run = none ∧ q.trig = true
        let seen := q.mayPass = true ∧ ∃ v ∈ s.fullOn p, ∃ a ∈ v.reads, s.changed a = true
        (due → (u.pair p).run = some { num := q.nextPass, mark := s.markNum + 1#32, start := s.now, coupled := false } ∧
          (u.pair p).nextPass = q.nextPass + 1#32 ∧ ((u.pair p).trig = true ↔ seen) ∧ (u.pair p).liveA = s.ptsA ∧
          (u.pair p).liveB = s.ptsB ∧ (u.pair p).liveCaps = s.caps ∧ (u.pair p).timerLost = (q.timerLost || q.timerLate) ∧
          (u.pair p).timerLate = false) ∧
        (¬ due → (u.pair p).run = q.run ∧ (u.pair p).nextPass = q.nextPass ∧
          ((u.pair p).trig = true ↔ q.trig = true ∨ seen) ∧ (u.pair p).timerLost = q.timerLost)) ∧
    (∀ (s : State) (x : Trans) (a : Nat) (v w : Pt) (p : Nat) (k : Word), s.lanesRun = true → s.trans = [x] → s.hasPt a = true →
      x.body = .posted p k [(a, v)] [(a, w)] →
      (x.repA = true → x.repB = true → ∃ u : State, exec .releaseMark s = .next u.settle ∧ u.ptOf .a a = v ∧ u.ptOf .b a = ~~~w ∧
        u.trans = []) ∧
      (x.repA = false ∨ x.repB = false → s.since x.since < 400 → ∃ u : State, exec .releaseMark s = .next u.settle ∧
        u.ptsA = s.ptsA ∧ u.ptsB = s.ptsB ∧ u.trans = [x]))) ∧
  (∀ (s : State) (p : Fin 36),
      let on := s.lanesRun = true ∧ (s.pair p).mayPass = true
      let watched := s.lanesRun = true ∧ (s.pair p).watched = true
      (on → exec (.heartbeatPass p) s = .next (s.updPair p fun q => { q with trig := true })) ∧
      (¬ on → exec (.heartbeatPass p) s = .next s) ∧
      (watched → exec (.injectionSchedule p .a) s = .next (s.updPair p fun q => { q with injDue := true }) ∧
        exec (.injectionSchedule p .b) s = .next (s.updPair p fun q => { q with injDueB := true })) ∧
      (¬ watched → ∀ l, exec (.injectionSchedule p l) s = .next s) ∧
      (∀ (z : BitVec 8) (b c : Nat) (e : ExpiryRead),
        let now := e.atMark && s.atMark p
        let gone (us : Nat) : Timer := if now then .expired us else .late us
        let early (us : Nat) : Bool := decide (e.elapsedB * 10000 + 10000000 < us * 1000 * 9995)
        (s.runningTimer p z.toNat b c = none → exec (.timerExpiry p z b c e) s = .next s ∧ exec (.timerXchk p z b c) s = .next s) ∧
        (∀ us, s.runningTimer p z.toNat b c = some us →
          (∃ (t : State) (x v : ZoneVer), exec (.timerExpiry p z b c e) s = .next t ∧ (s.zone z.toNat).active = some x ∧
            (t.zone z.toNat).active = some v ∧ (x.pair = p → (v.rt.getD b {}).timer c = gone us) ∧
            (∀ w, b < x.rtB.length → (x.rtB.getD b {}).timer c = .running w → (v.rtB.getD b {}).timer c = gone w) ∧
            (t.pair p).trig = true ∧
            (s.op = none → t.op = none ∧ (t.pair p).timerLost = ((s.pair p).timerLost || early us && now) ∧
              (t.pair p).timerLate = ((s.pair p).timerLate || early us && !now) ∧ ∀ q : Nat, q ≠ p → t.pair q = s.pair q) ∧
            (∀ y, y ≠ z.toNat → t.zone y = s.zone y) ∧ { t with zones := s.zones, pairs := s.pairs, op := s.op } = s) ∧
          exec (.timerXchk p z b c) s = .next ((s.updPair p fun q => { q with timerLost := true }).updPair p fun q =>
            { q with trig := true }))) ∧
      ∀ (l : Lane) (out : Target),
        let f := tabGet (false, false) s.cat1 (targetKey out)
        let mine := match l with | .a => f.1 | .b => f.2
        (mine = false → exec (.cat1DelayExpiry l out) s = .next s) ∧
        (mine = true → ∃ t, exec (.cat1DelayExpiry l out) s = .next t ∧
          tabGet (false, false) t.cat1 (targetKey out) = (match l with | .a => (false, f.2) | .b => (f.1, false)) ∧
          (∀ n, out = .chan n → s.pm.dstate ≠ .off → (t.lane l).toFd = (s.lane l).toFd ++ [(FdCmd.switch n false).inLane l]) ∧
          (∀ a, out = .point a → s.hasPt a = true → t.ptOf l a = 2#2 ∧ t.ptOf (otherLane l) a = s.ptOf (otherLane l) a) ∧
          t.zones = s.zones ∧ t.pairs = s.pairs ∧ t.chans = s.chans))

/-- A pass of a slice that ends with an event the slice has not injected, or without one it has, fails the slice, its pair UNUSABLE and
each such event an entry of what failed; any other flips both comparators. A pass that ends with nothing wrong, what lane B reads and its
blocks the complements of lane A's throughout: the figures of the pair, both comparators flipped, the injections shown; a zone alone on
its pair takes the state of R51 and R52. What the manual leaves open here is the model's choice: log entries 27 (DEDUCED), 69 (DESIGN
CHOICE) and 77 (DESIGN CHOICE). -/
def Obligations.CleanPassEnd : Prop := (∀ (s : State) (p : Fin 36) (info : PassInfo), (s.pair p).run = none →
    ((∀ b, s.bist.slice ≠ some (p.val, b)) → exec (.passEnd p info) s = .next s) ∧
    ∀ b, s.bist.slice = some (p.val, b) →
      let cs := sliceCauses (s.pair p) info s.bist.slicePoison
      (cs = [] → exec (.passEnd p info) s =
        .next { s.updPair p fun q => { q with codeA := flipCode q.codeA, codeB := flipCode q.codeB } with
          bist := { s.bist with slicePoison := s.bist.slicePoison || decide (info.poison ≠ 0) } }) ∧
      (cs ≠ [] → ∃ u : State, exec (.passEnd p info) s = .next u.settle ∧ (u.pair p).role = .unusable ∧
        u.bist.sliceRows = s.bist.sliceRows ++ cs.map (fun (x : Cause) => x.entry p) ∧ (∀ j : Nat, j ≠ p → u.pair j = s.pair j) ∧
        (∀ z, (u.zone z).st = (s.zone z).st) ∧
        (∀ x ∈ cs, s.fl.recs = [] → ∃ k y, u.frec k = some y ∧ y.code = x.code ∧ y.loc = BitVec.ofNat 12 p ∧ y.st = .latched))) ∧
  (∀ (s : State) (p : Fin 36) (info : PassInfo) (r : Running),
    let q := s.pair p
    q.run = some r → s.op = none → q.haltBit = false →
    passCauses q (takenWords info (delayWords r (s.stepped p r.coupled))) ((s.stepped p r.coupled).any fun e => s.lanesDiffer p e.2) = [] →
    ∃ u : State, exec (.passEnd p info) s = .next u.settle ∧
      (u.pair p).run = none ∧ (u.pair p).lastPass = r.num ∧ (u.pair p).lastTime = min 65535 (s.since r.start) ∧
      (u.pair p).maxTime = max q.maxTime (min 65535 (s.since r.start)) ∧ (u.pair p).role = q.role ∧
      (u.pair p).codeA = flipCode q.codeA ∧ (u.pair p).codeB = flipCode q.codeB ∧
      (u.pair p).injOk = (if q.injDue then q.injOk + 1#16 else q.injOk) ∧ (u.pair p).injDue = false ∧ (u.pair p).injDueB = false ∧
      (u.pair p).stopA = q.stopA ∧ (u.pair p).stopB = q.stopB ∧ (∀ j : Nat, j ≠ p → u.pair j = s.pair j) ∧
      (q.role = .free → u.zones = s.zones) ∧
      (∀ z v, q.role = .carrying ∨ q.role = .loading → s.stepped p r.coupled = [(z, v)] → s.zonesOn p = [z] →
        let rts := s.evalA p v
        (u.zone z).st = nextSt (s.zone z).st v.sec.auto (v.demands rts) (v.edge rts) (s.cat1Zone z)
          ((s.zone z).holdRestart || (s.zone z).wd.isSome) ∧
        (u.zone z).demand = v.demands rts ∧ ∃ w, (u.zone z).active = some w ∧ w.sec = v.sec ∧ w.first = false ∧
          w.rtB = w.rt.map BlockRt.neg)) ∧
  (∀ auto demand edge cat1 hold : Bool,
    nextSt .armed auto demand edge cat1 hold = (if demand = false ∧ hold = false ∧ (auto = true ∨ edge = true) then .running else .armed) ∧
    nextSt .running auto demand edge cat1 hold = (if demand then .demanded else .running) ∧
    nextSt .demanded auto demand edge cat1 hold = (if demand = true ∨ cat1 = true ∨ (auto = true ∧ hold = true) then .demanded
      else if auto then .running else .armed))

/-- The headline of a pass: a zone whose functions demand is not RUNNING after the pass of its pair, and none of its outputs is commanded
on. What the manual leaves open here is the model's choice: log entries 69 (DESIGN CHOICE) and 77 (DESIGN CHOICE). -/
def Obligations.DemandEndsEveryCommand : Prop := ∀ (s : State) (p : Fin 36) (info : PassInfo) (r : Running) (z : Nat) (v : ZoneVer),
    (s.pair p).run = some r → s.op = none → (s.pair p).haltBit = false →
    (s.pair p).role = .carrying ∨ (s.pair p).role = .loading →
    passCauses (s.pair p) (takenWords info (delayWords r (s.stepped p r.coupled)))
      ((s.stepped p r.coupled).any fun e => s.lanesDiffer p e.2) = [] →
    (z, v) ∈ s.stepped p r.coupled → v.demands (s.evalA p v) = true →
    ∃ u : State, exec (.passEnd p info) s = .next u.settle ∧ (u.zone z).st ≠ .running ∧ (u.zone z).demand = true ∧
      ∃ w, (u.zone z).active = some w ∧ w.sec = v.sec ∧
        ∀ (n : Nat) (b : Block) (g : Target) (c dl x : Nat), v.sec.blocks[n]? = some b → b.kind = .safeout g c dl x →
          (w.rt.getD n {}).c = false

/-- A commit whose outputs are not confirmed off in 10 ms is NOT_STOPPED; a withdrawal whose outputs are not is completed without; both do
nothing else where none is waiting. A pass of a tile of a split pair: its blocks step on its own lane's image; a parity error stops the
tile, and a stopped tile passes no more. No safety pair, zone or fault record is touched. What the manual leaves open here is the model's
choice: log entry 55 (DEDUCED). -/
def Obligations.TimeoutsAndTilePasses : Prop :=
  ((∀ s : State, s.op = none → exec .notStopped s = .next s) ∧
    (∀ (s : State) (op : LongOp) (z : Nat) (rb boot : Bool), s.op = some op → op.kind = .commit z rb boot →
      (op.stage ≠ 6 → exec .notStopped s = .next s) ∧
      (op.stage = 6 → ∃ u : State, exec .notStopped s = .next u.settle ∧ u.op = none ∧
        u.zone z = { s.zone z with holdRestart := false } ∧ (∀ y, y ≠ z → u.zone y = s.zone y) ∧ u.chans = s.chans)) ∧
    ∀ (s : State) (z : BitVec 8),
      ((s.zone z.toNat).active = none ∨ (s.zone z.toNat).wd = none → exec (.withdrawTimeout z) s = .next s) ∧
      (∀ v w, (s.zone z.toNat).active = some v → (s.zone z.toNat).wd = some w → ∃ u : State,
        exec (.withdrawTimeout z) s = .next u.settle ∧ u.zone z.toNat = Zone.init ∧ (∀ y, y ≠ z.toNat → u.zone y = s.zone y) ∧
        (∀ n, .chan n ∈ v.targets → s.pm.dstate ≠ .off → .switch n false ∈ u.laneA.toFd ∧ .switch n true ∈ u.laneB.toFd) ∧ u.chans = s.chans)) ∧
  (∀ (s : State) (p : Fin 36) (l : Lane) (par : Bool),
      let k := tileKey p l
      ((s.tileAt k).sec = none ∨ s.lanesRun = false ∨ (s.pair p).role ≠ .split ∨ (s.tileAt k).stopped = true →
        exec (.tilePass p l par) s = .next s) ∧
      ∀ x, (s.tileAt k).sec = some x → s.lanesRun = true → (s.pair p).role = .split → (s.tileAt k).stopped = false →
        ∃ t, exec (.tilePass p l par) s = .next t ∧ (par = true → (t.tileAt k).stopped = true ∧ t.db.tileStop.getLsbD p = true ∧
            ∀ a ∈ couples x.blocks, t.ptOf .a a = 0#2 ∧ t.ptOf .b a = 0#2) ∧
          (par = false → (t.tileAt k).stopped = false ∧ (t.tileAt k).first = false ∧ (t.tileAt k).rt = s.stepTile l (s.tileAt k) x) ∧
          (∀ j, j ≠ k → t.tileAt j = s.tileAt j) ∧ t.zones = s.zones ∧ t.pairs = s.pairs ∧ t.fl = s.fl ∧ t.ports = s.ports)

/-- DATA frames at a lane: it takes the frame HB handed to it first, unless its content was lost. Without a session, or with a handle that
is not the connection's, nothing follows; a sequence step of 0 or more than 128 is dropped and counted in lane A; a frame that passes the
lane's CRC, the CMAC and the TIMESTAMP check is accepted and reported with its points, lane B's in negative encoding; one that fails is
counted and reported as rejected. Points change only at a mark. Opening frames: one acts once both lanes have reached it, and only in the
role and state that takes it and with the connection's handle. A listener answers an OPEN that both lanes accept with the nonce it chose
as it entered OPENING, one that is CLOSED since Dormant mode too; nothing is answered while the ports send idle only; an opener in OPENING
takes an OPEN_ACK that echoes its nonce, agrees with its declaration and came back in time, and an OPEN_REFUSE that echoes it makes the
connection FAULTED where its reason says so. The ends of a session: a CLOSE, once both lanes have reached it, acts where both accept it
and makes the connection STALE, or FAULTED where its reason says so; a watchdog that expires makes a RUNNING one STALE and a NEGOTIATING
one open again; a check between the two lanes' watchdogs that fails makes it FAULTED. A RUNNING session that ends leaves its consumed
points invalid in both lanes. What the manual leaves open here is the model's choice: log entry 42 (DEDUCED). -/
def Obligations.ReceivedFrames : Prop :=
  (∀ (s : State) (l : Lane) (k : Fin 2048) (f : Frame),
      (s.rxFront l k f = false ∨ s.rxLost l = true ∨ f.ftype ≠ 1#4 → exec (.dataFrame l k f) s = .next s) ∧
      (s.rxFront l k f = true → s.rxLost l = false → f.ftype = 1#4 →
        let u := s.updLane l fun d => { d with rxq := d.rxq.tail };
        ((s.conn k).decl = none ∨ (s.conn k).st.session = false → exec (.dataFrame l k f) s = .next u) ∧
        ∀ d, (s.conn k).decl = some d → (s.conn k).st.session = true →
          let r := (s.conn k).rx l
          let n := (f.seq8 - r.eSeq.setWidth 8).toNat
          let seq := r.eSeq + BitVec.ofNat 32 n
          let late : Prop := ∃ t0, r.ts = some t0 ∧ ((f.tstamp - t0).toNat = 0 ∨ 2 ^ 31 ≤ (f.tstamp - t0).toNat)
          let passes := crcOk l d.connId seq f = true ∧ s.cmacOk d seq f = true ∧ ¬ late
          let pts := unpackPoints f.payload d.rxPoints
          (f.handle ≠ d.rxHandle → exec (.dataFrame l k f) s = .next u) ∧
          (f.handle = d.rxHandle → n = 0 ∨ 128 < n → exec (.dataFrame l k f) s = .next (if l = .a then u.updConn k fun c =>
            { c with seqDrop := satInc c.seqDrop 255 } else u)) ∧
          (f.handle = d.rxHandle → 1 ≤ n → n ≤ 128 → passes → (s.trans.any fun t => t.waits l k seq) = false →
            ∃ (t : State) (x : Trans), exec (.dataFrame l k f) s = .next t ∧ t.trans = s.trans ++ [x] ∧
            x.body = .frame k seq f.tstamp (if l = .a then n - 1 else 0) (if l = .a then pts else [])
              (if l = .a then [] else pts.map (~~~ ·)) ∧
            (x.okA = true ↔ l = .a) ∧ (x.okB = true ↔ l = .b) ∧ ((t.conn k).rx l) = { r with eSeq := seq, ts := some f.tstamp } ∧
            ((t.conn k).rx (otherLane l)) = (s.conn k).rx (otherLane l) ∧ (∀ j : Nat, j ≠ k → t.conn j = s.conn j) ∧
            { t with conns := s.conns, trans := s.trans } = u) ∧
          (f.handle = d.rxHandle → 1 ≤ n → n ≤ 128 → crcOk l d.connId seq f = false → r.errAt = [] → s.trans = [] →
            ∃ (t : State) (x : Trans), exec (.dataFrame l k f) s = .next t ∧ t.trans = [x] ∧ x.okA = false ∧ x.okB = false ∧
            (t.conn k).crcFail = satInc (s.conn k).crcFail 255 ∧ ((t.conn k).rx l) = { r with errAt := [s.now] } ∧
            (t.conn k).st = (s.conn k).st ∧ (∀ j : Nat, j ≠ k → t.conn j = s.conn j) ∧
            { t with conns := s.conns, trans := s.trans } = u))) ∧
  (∀ (s : State) (k : Fin 2048) (f : Frame),
      let front := s.rxFront .a k f = true ∧ s.rxFront .b k f = true
      let u := (s.updLane .a fun d => { d with rxq := d.rxq.tail }).updLane .b fun d => { d with rxq := d.rxq.tail }
      (¬ front → exec (.openFrame k f) s = .next s ∧ (∀ rtt, exec (.openAck k f rtt) s = .next s) ∧
        exec (.openRefuse k f) s = .next s) ∧
      (f.ftype ≠ 2#4 → exec (.openFrame k f) s = .next s) ∧ (f.ftype ≠ 3#4 → ∀ rtt, exec (.openAck k f rtt) s = .next s) ∧
      (f.ftype ≠ 4#4 → exec (.openRefuse k f) s = .next s) ∧
      ∀ d, front → (s.conn k).decl = some d →
        (f.ftype = 2#4 → d.listener = false ∨ f.handle ≠ d.rxHandle → exec (.openFrame k f) s = .next u) ∧
        (d.listener = true ∨ (s.conn k).st ≠ .opening ∨ f.handle ≠ d.rxHandle →
          (f.ftype = 3#4 → ∀ rtt, exec (.openAck k f rtt) s = .next u) ∧ (f.ftype = 4#4 → exec (.openRefuse k f) s = .next u)) ∧
        (f.handle = d.rxHandle → s.rxLost .a = false → s.rxLost .b = false → s.checkFrame .a d 0#32 f none = none →
          s.checkFrame .b d 0#32 f none = none →
          (d.listener = true → f.ftype = 2#4 → s.txIdle = true → exec (.openFrame k f) s = .next u) ∧
          (d.listener = true → f.ftype = 2#4 → s.txIdle = false →
            ((s.conn k).st = .opening → agrees d f.payload = true → topVersion (s.offer d &&& fieldBE f.payload 0 1) ≠ 0 → ∃ t,
              exec (.openFrame k f) s = .next t ∧ (t.conn k).st = .negotiating ∧
              (t.conn k).ver = topVersion (s.offer d &&& fieldBE f.payload 0 1) ∧
              (t.conn k).peerNonce = some (BitVec.ofNat 32 (fieldBE f.payload 8 4)) ∧
              (t.conn k).txSeq = BitVec.ofNat 32 (fieldBE f.payload 8 4) ∧ (t.conn k).nonce = (s.conn k).nonce ∧
              (t.conn k).usedNonce = (s.conn k).nonce ∧ (t.conn k).rxA.eSeq = (t.conn k).nonce - 1#32 ∧ (t.conn k).rxB.eSeq = (t.conn k).nonce - 1#32 ∧
              (∀ j : Nat, j ≠ k → t.conn j = s.conn j) ∧ t.zones = s.zones ∧ t.pairs = s.pairs ∧ t.ports = s.ports ∧ t.fl = s.fl) ∧
            ((s.conn k).st = .closed → (s.conn k).wakeOpen = true → agrees d f.payload = true →
              topVersion (s.offer d &&& fieldBE f.payload 0 1) ≠ 0 → d.cmac = false → ∃ t, exec (.openFrame k f) s = .next t ∧
              (t.conn k).st = .negotiating ∧ (t.conn k).ver = topVersion (s.offer d &&& fieldBE f.payload 0 1) ∧
              (t.conn k).nonce ≠ (s.conn k).nonce ∧ (t.conn k).nonce ≠ (s.conn k).usedNonce ∧ (t.conn k).wakeOpen = false) ∧
            ((s.conn k).st = .closed → (s.conn k).wakeOpen = false → ∃ t, exec (.openFrame k f) s = .next t ∧ (t.conn k).st = .closed ∧
              (t.conn k).txBuilt.length = (s.conn k).txBuilt.length + 1 ∧ { t with conns := s.conns } = u)) ∧
          (d.listener = false → (s.conn k).st = .opening → f.ftype = 3#4 → ∀ rtt,
            (fieldBE f.payload 20 4 ≠ (s.conn k).nonce.toNat → exec (.openAck k f rtt) s = .next u) ∧
            (fieldBE f.payload 20 4 = (s.conn k).nonce.toNat → 1 ≤ fieldBE f.payload 0 1 → fieldBE f.payload 0 1 ≤ 3 →
              s.offer d / 2 ^ fieldBE f.payload 0 1 % 2 = 1 → agrees d f.payload = true → ∃ t, exec (.openAck k f rtt) s = .next t ∧
              (t.conn k).rtt = min 65535 rtt ∧ (rtt ≤ d.watchdog - d.tCyc → (t.conn k).st = .negotiating ∧
                (t.conn k).ver = fieldBE f.payload 0 1 ∧ (t.conn k).txSeq = BitVec.ofNat 32 (fieldBE f.payload 8 4) ∧
                (t.conn k).rxA.eSeq = (s.conn k).nonce - 1#32) ∧
              (d.watchdog - d.tCyc < rtt → (t.conn k).st = .opening) ∧ (∀ j : Nat, j ≠ k → t.conn j = s.conn j) ∧ t.fl = s.fl)) ∧
          (d.listener = false → (s.conn k).st = .opening → f.ftype = 4#4 → fieldBE f.payload 4 4 = (s.conn k).nonce.toNat →
            (fieldBE f.payload 0 1 = 1 → ∃ t, exec (.openRefuse k f) s = .next t ∧ (t.conn k).st = .faulted ∧ (t.conn k).cause = 0x9 ∧ (t.conn k).ver = 0) ∧
            (fieldBE f.payload 0 1 = 2 → ∃ t, exec (.openRefuse k f) s = .next t ∧ (t.conn k).st = .faulted ∧ (t.conn k).cause = 0xA) ∧
            (fieldBE f.payload 0 1 ≠ 1 → fieldBE f.payload 0 1 ≠ 2 → exec (.openRefuse k f) s = .next u)))) ∧
  (∀ (s : State) (k : Fin 2048),
      (∀ f : Frame, s.rxFront .a k f = false ∨ s.rxFront .b k f = false ∨ f.ftype ≠ 5#4 → exec (.close k f) s = .next s) ∧
      (∀ f : Frame, s.rxFront .a k f = true → s.rxFront .b k f = true → f.ftype = 5#4 →
        (s.conn k).decl = none ∨ (s.conn k).st.session = false ∨ (∃ d, (s.conn k).decl = some d ∧ f.handle ≠ d.rxHandle) →
        exec (.close k f) s =
          .next ((s.updLane .a fun d => { d with rxq := d.rxq.tail }).updLane .b fun d => { d with rxq := d.rxq.tail })) ∧
      (∀ e, (s.conn k).decl = none ∨ (s.conn k).st.session = false → exec (.watchdogExpiry k e) s = .next s) ∧
      ((s.conn k).st.session = false → exec (.wdXchk k) s = .next s) ∧
      ∀ d, (s.conn k).decl = some d →
        let gone (t : State) : Prop := (s.conn k).st = .running →
          ∀ i, i < d.rxPoints → t.ptOf .a (d.rxBase + i) = 0#2 ∧ t.ptOf .b (d.rxBase + i) = 0#2
        (∀ f : Frame, s.rxFront .a k f = true → s.rxFront .b k f = true → s.rxLost .a = false → s.rxLost .b = false →
          f.handle = d.rxHandle → (s.conn k).st.session = true → f.ftype = 5#4 →
          let nA := (f.seq8 - (s.conn k).rxA.eSeq.setWidth 8).toNat
          let nB := (f.seq8 - (s.conn k).rxB.eSeq.setWidth 8).toNat
          1 ≤ nA → nA ≤ 128 → 1 ≤ nB → nB ≤ 128 →
          s.checkFrame .a d ((s.conn k).rxA.eSeq + BitVec.ofNat 32 nA) f none = none →
          s.checkFrame .b d ((s.conn k).rxB.eSeq + BitVec.ofNat 32 nB) f none = none → ∃ t, exec (.close k f) s = .next t ∧ gone t ∧
            (fieldBE f.payload 0 1 = 1 ∨ fieldBE f.payload 0 1 = 2 → (t.conn k).st = .faulted) ∧
            (fieldBE f.payload 0 1 ≠ 1 → fieldBE f.payload 0 1 ≠ 2 → (t.conn k).st = .stale ∧ (t.conn k).cause = 3) ∧
            (∀ j : Nat, j ≠ k → t.conn j = s.conn j) ∧ t.zones = s.zones ∧ t.pairs = s.pairs) ∧
        ((s.conn k).st.session = true → ∀ e,
          let early := e * 10000 + 10000000 < d.watchdog * 1000 * 9995
          ∃ t, exec (.watchdogExpiry k e) s = .next t ∧ gone t ∧
            (early → (t.conn k).st = .faulted ∧ (t.conn k).cause = 0xB ∧ (t.conn k).ver = 0) ∧
            (¬ early → (s.conn k).st = .running → (t.conn k).st = .stale ∧ (t.conn k).cause = 1) ∧
            (¬ early → (s.conn k).st = .negotiating → d.cmac = false → (t.conn k).st = .opening ∧ (t.conn k).ver = 0 ∧
              (t.conn k).nonce ≠ (s.conn k).nonce ∧ (t.conn k).nonce ≠ (s.conn k).usedNonce) ∧
            (∀ j : Nat, j ≠ k → t.conn j = s.conn j) ∧ t.zones = s.zones ∧ t.pairs = s.pairs) ∧
        ((s.conn k).st.session = true → ∃ t, exec (.wdXchk k) s = .next t ∧ gone t ∧ (t.conn k).st = .faulted ∧
          (t.conn k).cause = 0xB ∧ (∀ j : Nat, j ≠ k → t.conn j = s.conn j) ∧ t.zones = s.zones ∧ t.pairs = s.pairs))

/-- The transmit side: a request is noted while a session is on; HB merges two payloads that say the same, lane B's in negative encoding,
into one frame with the CRC of each lane, the oldest of the connection first and of whatever type, and discards and counts payloads that
differ, or one that stays alone. What a port sends is the Hyger body, in tunnel framing inside its datagram. What an opener's waits do: a
staggered first OPEN, OPEN again with the next backoff stage and the same nonce, and opening again 1 ms after a session went STALE, with a
new nonce. A listener's connection waits for the OPEN of its partner. What the manual leaves open here is the model's choice: log entry 64
(DESIGN CHOICE). -/
def Obligations.OpenersAndTransmit : Prop :=
  (∀ (s : State) (k : Fin 2048),
      ((s.conn k).st.session = true → exec (.txRequest k) s = .next (s.updConn k fun c => { c with txReq := true })) ∧
      ((s.conn k).st.session = false → exec (.txRequest k) s = .next s) ∧
      ((s.conn k).txBuilt = [] → exec (.txMerge k) s = .next s ∧ exec (.txMergeTimeout k) s = .next s) ∧
      ∀ b rest, (s.conn k).txBuilt = b :: rest →
        let lost := (s.updConn k fun c => { c with txBuilt := rest }).updPort b.port fun p =>
          { p with txMismatch := satInc p.txMismatch 65535 }
        exec (.txMergeTimeout k) s = .next lost ∧ (b.frameA.payload ≠ negBytes b.frameB.payload → exec (.txMerge k) s = .next lost) ∧
        (b.frameA.payload = negBytes b.frameB.payload → (s.port b.port).queue = [] → (s.port b.port).st = .up → s.pm.dstate = .run →
          (s.port b.port).inFlight = none → ∃ (t : State) (x : TxFrame), exec (.txMerge k) s = .next t ∧ (t.conn k).txBuilt = rest ∧
            (t.port b.port).inFlight = some x ∧ x.slot = k ∧ x.frame = { b.frameA with crcB := ~~~b.frameB.crcB } ∧
            ((s.port b.port).live.tunnel = false → (t.port b.port).wire = bodyBytes x.frame) ∧
            ((s.port b.port).live.tunnel = true → (t.port b.port).wire =
              tunnelBytes (s.port b.port).live (s.port b.port).ident b.mac b.ip (bodyBytes x.frame)) ∧
            (∀ j : Nat, j ≠ k → t.conn j = s.conn j) ∧ (∀ j, j ≠ b.port → t.port j = s.port j) ∧
            { t with conns := s.conns, ports := s.ports, handed := s.handed } = s)) ∧
  (∀ (s : State) (k : Fin 2048),
      ((s.conn k).st ≠ .opening ∨ (s.conn k).stagger = false → exec (.openStagger k) s = .next s) ∧
      ((s.conn k).decl = none → exec (.openRetry k) s = .next s ∧ exec (.staleReopen k) s = .next s) ∧
      ∀ d, (s.conn k).decl = some d →
        ((s.conn k).st = .opening → (s.conn k).stagger = true → ∃ t, exec (.openStagger k) s = .next t ∧
          (t.conn k).stagger = false ∧ (t.conn k).st = .opening ∧ (t.conn k).nonce = (s.conn k).nonce ∧
          (∀ j : Nat, j ≠ k → t.conn j = s.conn j) ∧ { t with conns := s.conns } = s) ∧
        ((s.conn k).st ≠ .opening ∨ d.listener = true ∨ (s.conn k).stagger = true → exec (.openRetry k) s = .next s) ∧
        ((s.conn k).st = .opening → d.listener = false → (s.conn k).stagger = false → ∃ t, exec (.openRetry k) s = .next t ∧
          (t.conn k).backoff = min 8 ((s.conn k).backoff + 1) ∧ (t.conn k).nonce = (s.conn k).nonce ∧ (t.conn k).st = .opening ∧
          (∀ j : Nat, j ≠ k → t.conn j = s.conn j) ∧ { t with conns := s.conns } = s) ∧
        ((s.conn k).st ≠ .stale ∨ d.listener = true ∨ (s.port d.port).st ≠ .up → exec (.staleReopen k) s = .next s) ∧
        ((s.conn k).st = .stale → d.listener = false → (s.port d.port).st = .up → d.cmac = false → ∃ t,
          exec (.staleReopen k) s = .next t ∧ (t.conn k).st = .opening ∧ (t.conn k).backoff = 0 ∧
          (t.conn k).nonce ≠ (s.conn k).nonce ∧ (∀ j : Nat, j ≠ k → t.conn j = s.conn j) ∧ t.fl = s.fl ∧ t.zones = s.zones))

/-- Port states: synchronization leads to NEGOTIATING or UP as the settings say, a page that completes the negotiation to UP, a lost one
from UP to NO_SYNC. A port sends one frame after the other. The Gatehouse: a frame is dropped for the first check it fails, with its
counter, or counted and forwarded unchanged to both lanes, behind the frames before it; before RUN every frame is dropped. At most 16
OPENs in a window of a port, and two other frames in a window of a connection, pass; each window's end clears its count. What the manual
leaves open here is the model's choice: log entries 13 (PRESUMED), 43 (DEDUCED), 44 (DEDUCED) and 79 (DESIGN CHOICE). -/
def Obligations.PortsAndGatehouse : Prop :=
  (∀ (s : State) (p : Fin 32),
      let moved (t : State) (st : PortSt) : Prop := (t.port p).st = st ∧ (∀ j : Nat, j ≠ p → t.port j = s.port j) ∧
        { t with ports := s.ports, evRings := s.evRings, evqA := s.evqA, evqB := s.evqB, hi := s.hi, freeCtr := s.freeCtr } = s
      ((s.port p).st ≠ .noSync → exec (.syncAcquired p) s = .next s) ∧
      ((s.port p).st = .noSync → ∃ t, exec (.syncAcquired p) s = .next t ∧
        moved t (if (s.port p).live.negotiates then .negotiating else .up)) ∧
      ((s.port p).st ≠ .up → exec (.syncLost p) s = .next s) ∧
      ((s.port p).st = .up → ∃ t, exec (.syncLost p) s = .next t ∧ moved t .noSync) ∧
      (∀ page : BitVec 16,
        ((s.port p).live.negotiates = false ∨ (s.port p).st = .disabled ∨ (s.port p).st = .noSync →
          exec (.negotiationComplete p page) s = .next s) ∧
        ((s.port p).live.negotiates = true → (s.port p).st = .negotiating → ∃ t, exec (.negotiationComplete p page) s = .next t ∧
          moved t (if (s.port p).live.pageOk page then .up else .negotiating) ∧ (t.port p).lpPage = page ∧
          (t.port p).anFault = (s.port p).live.pageFault page) ∧
        ((s.port p).live.negotiates = true → (s.port p).st = .up → ∃ t, exec (.negotiationComplete p page) s = .next t ∧
          moved t (if (s.port p).live.phyMode = 1#2 ∧ (s.port p).live.pageOk page = false then .noSync else .up))) ∧
      (∀ f, (s.port p).inFlight = some f → ∃ t, exec (.portTransmit p) s = .next t ∧ (t.port p).txCnt = (s.port p).txCnt + 1#32 ∧
        (t.port p).lastSent = some f ∧ moved t (s.port p).st ∧
        ((s.port p).st = .up → s.pm.dstate = .run →
          (t.port p).inFlight = (s.port p).queue.head? ∧ (t.port p).queue = (s.port p).queue.tail)) ∧
      ((s.port p).inFlight = none → (s.port p).queue = [] → exec (.portTransmit p) s = .next s)) ∧
  ((∀ (s : State) (p : Fin 32) (f : Frame) (line : LineInfo),
      ((s.port p).st ≠ .up → exec (.portFrameEnd p f line) s = .next s) ∧
      ((s.port p).st = .up →
        (∀ r, s.gatehouse p f line = some r → ∃ t, exec (.portFrameEnd p f line) s = .next t ∧
          (t.port p).ghTotal = (s.port p).ghTotal + 1#32 ∧ (t.port p).lastReason = r ∧ (t.port p).rxCnt = (s.port p).rxCnt ∧
          (∀ j : Nat, j ≠ p → t.port j = s.port j) ∧ { t with ports := s.ports } = s) ∧
        (∀ x k d, (s.port p).live.received f line = some x → s.gatehouse p f line = none → s.slotOf p x.handle = some (k, d) →
          ∃ t, exec (.portFrameEnd p f line) s = .next t ∧
          (t.port p).rxCnt = (s.port p).rxCnt + 1#32 ∧ (t.port p).ghTotal = (s.port p).ghTotal ∧
          (x.ftype = 2#4 → (t.port p).openCnt = (s.port p).openCnt + 1 ∧ t.conns = s.conns) ∧
          (x.ftype ≠ 2#4 → (t.port p).openCnt = (s.port p).openCnt ∧ (t.conn k).rateCnt = (s.conn k).rateCnt + 1 ∧
            ∀ j, j ≠ k → t.conn j = s.conn j) ∧
          (∀ j : Nat, j ≠ p → t.port j = s.port j) ∧
          t.laneA = { s.laneA with rxq := s.laneA.rxq ++ [{ slot := k, frame := x, lost := false }] } ∧
          t.laneB = { s.laneB with rxq := s.laneB.rxq ++ [{ slot := k, frame := x, lost := false }] } ∧
          { t with ports := s.ports, conns := s.conns, laneA := s.laneA, laneB := s.laneB } = s)) ∧
      (s.pm.dstate ≠ .run → s.gatehouse p f line = some 1) ∧
      ((s.port p).live.received f line = none → s.gatehouse p f line ≠ none) ∧
      (∀ x, (s.port p).live.received f line = some x →
        (∀ k d, s.slotOf p x.handle = some (k, d) → x.ftype = 2#4 → 16 ≤ (s.port p).openCnt → s.gatehouse p f line ≠ none) ∧
        (∀ k d, s.slotOf p x.handle = some (k, d) → x.ftype ≠ 2#4 → 2 ≤ (s.conn k).rateCnt → s.gatehouse p f line ≠ none) ∧
        (s.slotOf p x.handle = none → s.gatehouse p f line ≠ none))) ∧
    (∀ (s : State) (k : Fin 2048), exec (.rateWindow k) s = .next (s.updConn k fun c => { c with rateCnt := 0 })) ∧
    (∀ (s : State) (p : Fin 32), exec (.openRateWindow p) s = .next (s.updPort p fun q => { q with openCnt := 0 })))

/-- A slot: deferred without its conditions, it starts the slice of a FREE pair, which is TESTING then; the next position follows, 40
slots to a cycle. A slice that passes, as both stewards record and fold (the words they fold are the model's choice, log entry 46), frees
its pair with its stop bits cleared; one that fails makes it UNUSABLE; a result they record differently is STEWARD_MISMATCH in both; a
pair without a passing slice for 400 s is reported once. A slice whose poisoned word has not shown fails. An analogue window: it tests
nothing before RUN, with lock-step broken, outside the slot of a shared item that no BIST_RUN asks for, or for an index its item does not
have; one of FD's waits while the pulse window of a unit is open; without its conditions at its start and its end it is deferred; a failed
test, as both stewards record and fold (the words they fold are the model's choice, log entry 46), latches what its item names, a passed
one restores it; a result they record differently is STEWARD_MISMATCH in both. What the manual leaves open here is the model's choice: log
entries 40 (DESIGN CHOICE), 46 (DEDUCED), 69 (DESIGN CHOICE) and 73 (DESIGN CHOICE). -/
def Obligations.SelfTestDuringWork : Prop :=
  ((∀ (s : State) (c : SlotCond), s.testing = false → exec (.bistSlot c) s = .next s) ∧
    (∀ (s : State) (c : SlotCond), s.testing = true → s.slotWaits = true →
      exec (.bistSlot c) s = .next { s with bist := { s.bist with slotDue := some c } }) ∧
    (∀ (s : State) (c : SlotCond) (p : Fin 36), s.testing = true → s.op = none → s.bist.slice = none → s.bist.queue = [] →
      s.bist.slotNext = p.val → (s.pair p).role = .free → (s.pair p).haltBit = false → s.partOf p = false → ∃ u : State,
      exec (.bistSlot c) s = .next u.settle ∧ u.bist.slot = p.val ∧ u.bist.slotNext = (p.val + 1) % 40 ∧
      (condOk c.start = true → u.bist.slice = some (p.val, false) ∧ (u.pair p).role = .testing ∧ (u.pair p).run = none) ∧
      (condOk c.start = false → u.bist.deferCnt = satInc s.bist.deferCnt 65535 ∧ u.bist.slice = none ∧ u.pair p = s.pair p) ∧
      (∀ q : Nat, q ≠ p → u.pair q = s.pair q) ∧ u.zones = s.zones ∧ u.chans = s.chans) ∧
    (∀ (s : State) (p : Fin 36) (c : TestCond) (ra rb : SliceResult),
      (s.bist.slice = none ∨ (∃ q b, s.bist.slice = some (q, b) ∧ q ≠ p.val) ∨
        ((s.pair p).role ≠ .testing ∧ (s.pair p).role ≠ .stopped) → exec (.sliceEnd p c ⟨ra, rb⟩) s = .next s) ∧
      (∀ again, s.bist.slice = some (p.val, again) → (s.pair p).role = .testing ∨ (s.pair p).role = .stopped →
        (condOk c = false → ∃ u : State, exec (.sliceEnd p c ⟨ra, rb⟩) s = .next u.settle ∧ u.bist.slice = none ∧
          u.bist.deferCnt = satInc s.bist.deferCnt 65535 ∧
          (u.pair p).role = (if (s.pair p).role = .testing then .free else (s.pair p).role) ∧
          (∀ q : Nat, q ≠ p → u.pair q = s.pair q) ∧ u.zones = s.zones) ∧
        (condOk c = true → ra ≠ rb → exec (.sliceEnd p c ⟨ra, rb⟩) s =
          .next (((s.foldBoth (sliceWords ra) (sliceWords rb)).laneFault .a 0x2003#16 0).laneFault .b 0x2003#16 0).settle) ∧
        (condOk c = true → ra = rb → ∃ u : State, exec (.sliceEnd p c ⟨ra, rb⟩) s = .next u.settle ∧
          (ra = .pass → s.bist.slicePoison = true → (s.pair p).role = .testing ∨ s.commonFault = false → (u.pair p).role = .free ∧ (u.pair p).stopA = false ∧
            (u.pair p).stopB = false ∧ (u.pair p).passedAt = some s.now ∧ (u.pair p).last = (if again then 2 else 1) ∧
            u.bist.slice = none) ∧
          (s.bist.slicePoison = false ∨ (∃ es, ra = .fail es) ∨ (∃ es, ra = .rows es ∧ (again = true ∨ s.sparesCover p es = false)) → (u.pair p).role = .unusable ∧
            (u.pair p).last = 3 ∧ u.bist.slice = none) ∧
          (∀ es, s.bist.slicePoison = true → again = false → ra = .rows es → s.sparesCover p es = true → u.bist.slice = some (p.val, true) ∧
            u.bist.sliceRows = repaired es ∧ (u.pair p).role = (s.pair p).role ∧
            ((s.pair p).role = .testing → u.bist.repairs = s.bist.repairs ++ repaired es) ∧
            ((s.pair p).role = .stopped → u.bist.repairs = s.bist.repairs ∧ (u.pair p).rowsA = (s.pair p).rowsA ∧
              (u.pair p).rowsB = (s.pair p).rowsB)) ∧
          ((s.pair p).role = .testing → (∀ e ∈ s.zones, ∀ v, e.2.retained = some v → v.pair ≠ p) →
            (∀ q : Nat, q ≠ p → u.pair q = s.pair q) ∧ u.zones = s.zones)))) ∧
    ∀ (s : State) (p : Fin 36),
      ((s.pair p).role ∈ [Role.unusable, .split, .halted] ∨ s.bist.odueEv.getLsbD p = true → exec (.bistOverdue p) s = .next s) ∧
      ((s.pair p).role ∉ [Role.unusable, .split, .halted] → s.bist.odueEv.getLsbD p = false → ∃ t, exec (.bistOverdue p) s = .next t ∧
        t.bist.odueEv.getLsbD p = true ∧ { t with bist := { t.bist with odueEv := s.bist.odueEv }, evRings := s.evRings, hi := s.hi } = s)) ∧
  (∀ (s : State) (item : AnaItem) (i : BitVec 6) (c : WindowRead) (ok ok' : Bool),
      (s.testing = false ∨ itemCount (anaCode item) ≤ i.toNat ∨ s.windowDue item i.toNat = false →
        exec (.analogueWindow item i c ⟨ok, ok'⟩) s = .next s) ∧
      (item = .serdesLoopback → s.portMax ≤ i.toNat ∨ (s.port i.toNat).st ≠ .disabled →
        exec (.analogueWindow item i c ⟨ok, ok'⟩) s = .next s) ∧
      (s.testing = true → i.toNat < itemCount (anaCode item) → s.windowDue item i.toNat = true → inSchedule item = true →
        s.fd.pulseWin ≠ none → exec (.analogueWindow item i c ⟨ok, ok'⟩) s =
          .next (s.updFd fun f => { f with pulseWait := f.pulseWait ++ [.window item i.toNat c ⟨ok, ok'⟩] })) ∧
      (s.testing = true → i.toNat < itemCount (anaCode item) → s.windowDue item i.toNat = true →
        (item = .serdesLoopback → i.toNat < s.portMax ∧ (s.port i.toNat).st = .disabled) →
        inSchedule item = false ∨ (s.fd.pulseWin = none ∧ s.fd.pulseWait = [] ∧ c.due = []) →
        let conds := condOk c.start = true ∧ condOk c.fin = true
        let ws (b : Bool) : List Word := [word (anaCode item), word i.toNat, word (flag b 0)]
        (¬ conds → ∃ u : State, exec (.analogueWindow item i c ⟨ok, ok'⟩) s = .next u ∧
          u.bist.deferCnt = satInc s.bist.deferCnt 65535 ∧ { u with bist := s.bist, evRings := s.evRings, hi := s.hi } = s) ∧
        (conds → ok ≠ ok' → exec (.analogueWindow item i c ⟨ok, ok'⟩) s =
          .next (((s.foldBoth (ws ok) (ws ok')).laneFault .a 0x2003#16 0).laneFault .b 0x2003#16 0).settle) ∧
        (conds → ok = ok' → ∃ u : State, exec (.analogueWindow item i c ⟨ok, ok'⟩) s = .next u.settle ∧ u.bist.deferred = false ∧
          (item = .thresholdLoopback → u.bist.chOk.getLsbD i.toNat = ok) ∧
          (item = .thresholdLoopback ∨ item = .readback → ok = false → (u.chan i.toNat).loopbackFail = true ∧
            (i.toNat, 0x300A#16) ∈ u.fd.reports) ∧
          (item = .currentLimit → ok = false → (u.chan i.toNat).fltOver = true ∧ (i.toNat, 0x3005#16) ∈ u.fd.reports) ∧
          (item = .supplyXchk → (u.grp i.toNat).xchkFail = !ok ∧ (ok = false → (u.grp i.toNat).uvoffLatch = true)) ∧
          (item = .lmXchk → (if i.toNat = 0 then u.bist.lmAOk else u.bist.lmBOk) = ok) ∧
          (item = .lmXchk ∨ item = .timebaseRef → ok = false → (u.lane (laneOf i.toNat)).withhold = true ∧ ∀ z, (u.zone z).stopped) ∧
          (item = .serdesLoopback → (u.port i.toNat).serdesFail = !ok) ∧
          (item = .thresholdLoopback ∨ item = .readback ∨ item = .currentLimit ∨ item = .supplyXchk ∨ item = .serdesLoopback ∨ ok = true →
            u.zones = s.zones ∧ u.pairs = s.pairs))))

/-- The chunks of an image, its verification and the steps of it, the events of the inputs and the samples: each with its effect in every
state in which the manual gives it one. The release mark, what asks for passes and injections, the timers of the blocks and of the
outputs, the timeouts, the passes of tiles, and the requests and merges of the transmit side: each with its effect in every state in which
the manual gives it one. What the manual leaves open here is the model's choice: log entries 16 (DESIGN CHOICE), 59 (DESIGN CHOICE), 60
(DEDUCED), 64 (DESIGN CHOICE) and 67 (DESIGN CHOICE). -/
def Obligations.ImageInputPassAndTransmitCommandsComplete : Prop :=
  ((∀ (s0 : State) (o : Origin) (total len : Word) (a b : Image), let s := s0.begun o
      1 ≤ total.toNat → total.toNat ≤ 2097152 → 4 ≤ len.toNat → len.toNat ≤ 65536 → len.toNat % 4 = 0 → len.toNat ≤ total.toNat + 3 →
      s0.takes o (.imgLoad o 0#32 total len true a b) = true → exec (.imgLoad o 0#32 total len true a b) s0 =
        .next (({ s with buf := { total := total.toNat } } : State).startMove o 0x01
          { kind := .load 0 total.toNat a b, bytes := len.toNat, busOk := true })) ∧
    (∀ (s0 : State) (o : Origin), let s := s0.begun o
      s.Ready → s0.takes o (.imgVerify o) = true → ∃ (t : State) (op : LongOp), exec (.imgVerify o) s0 = .next t ∧ t.op = some op ∧
      op.kind = .verify false ∧ op.o = some o ∧ op.steps = 0 ∧ { t with op := s.op } = s) ∧
    (∀ (s : State) (op : LongOp) (boot : Bool), s.pm.dstate ≠ .dormant → s.pm.dstate ≠ .off →
      (∀ (r : Fin 16) (t : Taken), t ∈ (s.ring r).outs → s.stepping r t = false) →
      s.op = some op → op.kind = .verify boot → (s.commonFault = true → op.req0 = true) →
      (∀ o, op.o = some o → o.progress = false) →
      exec (.longOperationStep ⟨false, []⟩) s = .next ({ s with op := some { op with steps := op.steps + 1 } } : State).settle) ∧
    (∀ (s : State) (n : Fin 64) (mv vfs : Nat) (stood : Bool), (s.chan n).mode = 1#2 → ∃ t,
      exec (.inputDebounce n ⟨mv, vfs, stood⟩) s = .next t ∧ (t.chan n).raw = (s.chan n).rawLevel n mv vfs ∧
      (t.chan n).level = (if stood then (s.chan n).rawLevel n mv vfs else (s.chan n).level) ∧
      (∀ j, j ≠ n.val → t.chan j = s.chan j) ∧ { t with chans := s.chans } = s) ∧
    (∀ (s : State) (n : Fin 64), s.inputBad n = false → ∃ t, exec (.inputRestore n) s = .next t ∧
      t.chan n = { s.chan n with restoring := false } ∧ t.inputPt n = (if (s.chan n).level then 3#2 else 2#2) ∧
      (∀ j, j ≠ n.val → t.chan j = s.chan j) ∧ { t with chans := s.chans } = s) ∧
    (∀ (s : State) (n : Fin 64) (mv vfs ua : Nat), (s.chan n).mode = 1#2 → (s.chan n).wbEn = true → ∃ t,
      exec (.wireBreak n ⟨mv, vfs, ua⟩) s = .next t ∧ (t.chan n).raw = (s.chan n).rawLevel n mv vfs ∧
      ((t.chan n).wireBreak = true ↔ (s.chan n).rawLevel n mv vfs = false ∧ ua < breakUa n) ∧
      (∀ j, j ≠ n.val → t.chan j = s.chan j) ∧ { t with chans := s.chans, evRings := s.evRings, hi := s.hi } = s) ∧
    (∀ (s : State) (n : Fin 64) (mv : Nat), (s.chan n).mode = 1#2 → 42000 < mv ∨ mv < 40000 → ∃ t, exec (.inputOv n mv) s = .next t ∧
      (t.chan n).ov = decide (42000 < mv) ∧ (t.chan n).restoring = ((s.chan n).restoring || decide (42000 < mv)) ∧
      (∀ j, j ≠ n.val → t.chan j = s.chan j) ∧ { t with chans := s.chans } = s) ∧
    ∀ s : State, s.pm.dstate ≠ .dormant → ∃ t, exec .sample s = .next t ∧ exec .periodicSample s = .next t ∧
      t.fd = { s.fd with sampleNum := s.fd.sampleNum + 1#32 } ∧ t.trans.length = s.trans.length + 1 ∧
      (∀ n : Fin 64, (t.chan n).inPoint = s.inputPt n ∧ (t.chan n).outPoint = s.feedbackPt n) ∧
      { t with fd := s.fd, trans := s.trans, chans := s.chans } = s) ∧
  ((∀ s : State, s.lanesRun = true → ∃ u : State, exec .releaseMark s = .next u.settle ∧ u.markNum = s.markNum + 1#32 ∧
      u.imgA = u.ptsA ∧ u.imgB = u.ptsB ∧ u.imgCaps = u.caps) ∧
    (∀ (s : State) (p : Fin 36), s.lanesRun = true → (s.pair p).mayPass = true →
      exec (.heartbeatPass p) s = .next (s.updPair p fun q => { q with trig := true }) ∧
      exec (.injectionSchedule p .a) s = .next (s.updPair p fun q => { q with injDue := true }) ∧
      exec (.injectionSchedule p .b) s = .next (s.updPair p fun q => { q with injDueB := true })) ∧
    (∀ (s : State) (p : Fin 36) (z : BitVec 8) (b c us : Nat) (e : ExpiryRead), s.runningTimer p z.toNat b c = some us →
      (∃ (t : State) (x v : ZoneVer), exec (.timerExpiry p z b c e) s = .next t ∧ (s.zone z.toNat).active = some x ∧
        (t.zone z.toNat).active = some v ∧
        (x.pair = p → (v.rt.getD b {}).timer c = if e.atMark = true ∧ s.atMark p = true then .expired us else .late us) ∧
        (t.pair p).trig = true ∧ (s.op = none → ∀ q : Nat, q ≠ p → t.pair q = s.pair q) ∧
        (∀ y, y ≠ z.toNat → t.zone y = s.zone y)) ∧
      ∃ t, exec (.timerXchk p z b c) s = .next t ∧ t.pair p = { s.pair p with timerLost := true, trig := true } ∧
        (∀ q : Nat, q ≠ p → t.pair q = s.pair q) ∧ { t with pairs := s.pairs } = s) ∧
    (∀ (s : State) (out : Target),
      ((tabGet (false, false) s.cat1 (targetKey out)).1 = true → ∃ t, exec (.cat1DelayExpiry .a out) s = .next t ∧
        tabGet (false, false) t.cat1 (targetKey out) = (false, (tabGet (false, false) s.cat1 (targetKey out)).2) ∧
        (∀ n, out = .chan n → s.pm.dstate ≠ .off → t.laneA.toFd = s.laneA.toFd ++ [.switch n false]) ∧ t.zones = s.zones) ∧
      ((tabGet (false, false) s.cat1 (targetKey out)).2 = true → ∃ t, exec (.cat1DelayExpiry .b out) s = .next t ∧
        tabGet (false, false) t.cat1 (targetKey out) = ((tabGet (false, false) s.cat1 (targetKey out)).1, false) ∧
        (∀ n, out = .chan n → s.pm.dstate ≠ .off → t.laneB.toFd = s.laneB.toFd ++ [.switch n true]) ∧ t.zones = s.zones)) ∧
    (∀ (s : State) (op : LongOp) (z : Nat) (rb boot : Bool), s.op = some op → op.kind = .commit z rb boot → op.stage = 6 →
      ∃ u : State, exec .notStopped s = .next u.settle ∧ u.op = none ∧ u.zone z = { s.zone z with holdRestart := false }) ∧
    (∀ (s : State) (z : BitVec 8) (v : ZoneVer) (w : Withdraw), (s.zone z.toNat).active = some v → (s.zone z.toNat).wd = some w →
      ∃ u : State, exec (.withdrawTimeout z) s = .next u.settle ∧ u.zone z.toNat = Zone.init) ∧
    (∀ (s : State) (p : Fin 36) (l : Lane) (x : TileSection), (s.tileAt (tileKey p l)).sec = some x → s.lanesRun = true →
      (s.pair p).role = .split → (s.tileAt (tileKey p l)).stopped = false → ∃ t, exec (.tilePass p l false) s = .next t ∧
      (t.tileAt (tileKey p l)).rt = s.stepTile l (s.tileAt (tileKey p l)) x ∧ (t.tileAt (tileKey p l)).first = false ∧
      t.zones = s.zones ∧ t.pairs = s.pairs) ∧
    (∀ (s : State) (k : Fin 2048), (s.conn k).st.session = true →
      exec (.txRequest k) s = .next (s.updConn k fun c => { c with txReq := true })) ∧
    (∀ (s : State) (k : Fin 2048) (b : TxBuild) (rest : List TxBuild), (s.conn k).txBuilt = b :: rest →
      (∃ t, exec (.txMerge k) s = .next t ∧ (t.conn k).txBuilt = rest ∧ ∀ j : Nat, j ≠ k → t.conn j = s.conn j) ∧
      ∃ t, exec (.txMergeTimeout k) s = .next t ∧ (t.conn k).txBuilt = rest ∧
        (t.port b.port).txMismatch = satInc (s.port b.port).txMismatch 65535 ∧ ∀ j : Nat, j ≠ k → t.conn j = s.conn j) ∧
    ∀ (s : State) (k : Fin 2048) (d : ConnDecl), (s.conn k).decl = some d → d.listener = false → s.txIdle = false →
      ((s.conn k).st = .opening → (s.conn k).stagger = true → ∃ t, exec (.openStagger k) s = .next t ∧
        (t.conn k).stagger = false ∧ (t.conn k).txBuilt.length = (s.conn k).txBuilt.length + 1) ∧
      ((s.conn k).st = .opening → (s.conn k).stagger = false → ∃ t, exec (.openRetry k) s = .next t ∧
        (t.conn k).backoff = min 8 ((s.conn k).backoff + 1) ∧ (t.conn k).txBuilt.length = (s.conn k).txBuilt.length + 1) ∧
      ((s.conn k).st = .stale → (s.port d.port).st = .up → d.cmac = false → ∃ t, exec (.staleReopen k) s = .next t ∧
        (t.conn k).st = .opening ∧ (t.conn k).nonce ≠ (s.conn k).nonce))
end

