-- ==== Sys2Proof/Laws/Tab.lean ====
section
/-!
SUPPORT. Sparse tables: reading after storing, and the canonical form kept by every operation on them.
-/
namespace Sys2Proof.Machine

variable {α : Type} [DecidableEq α] {d v : α} {t : Tab α} {k j lo : Nat} {f : α → α}

omit [DecidableEq α] in
@[simp] theorem tabGet_nil : tabGet d [] k = d := rfl

omit [DecidableEq α] in
theorem tabGet_dropTo (h : k < j) : tabGet d (tabDropTo k t) j = tabGet d t j := by
  induction t with
  | nil => rfl
  | cons e r ih =>
    obtain ⟨a, w⟩ := e
    simp only [tabDropTo]
    split
    · rw [ih]; simp only [tabGet]; rw [if_pos (by omega)]
    · rfl

omit [DecidableEq α] in
theorem tabGet_dropTo_le (h : j ≤ k) : tabGet d (tabDropTo k t) j = d := by
  induction t with
  | nil => rfl
  | cons e r ih =>
    obtain ⟨a, w⟩ := e
    simp only [tabDropTo]
    split
    · exact ih
    · simp only [tabGet]; rw [if_neg (by omega), if_neg (by omega)]

/-- What is stored is read back; every other index reads as before. -/
theorem tabGet_tabSet : tabGet d (tabSet d t k v) j = if j = k then v else tabGet d t j := by
  induction t with
  | nil =>
    by_cases hv : v = d
    · simp [tabSet, hv]
    · simp only [tabSet, if_neg hv, tabGet]
      by_cases hj : j = k
      · subst hj; simp
      · have : ¬ k = j := fun e => hj e.symm
        simp [hj, this]
  | cons e r ih =>
    obtain ⟨a, w⟩ := e
    simp only [tabSet]
    by_cases h1 : a < k
    · rw [if_pos h1]
      simp only [tabGet, ih]
      by_cases hj : j = k
      · subst hj; simp [h1]
      · simp [hj]
    · rw [if_neg h1]
      by_cases h2 : a = k
      · subst h2
        rw [if_pos rfl]
        by_cases hv : v = d
        · rw [if_pos hv]
          by_cases hj : j = a
          · subst hj; rw [tabGet_dropTo_le (Nat.le_refl _)]; simp [hv]
          · rw [if_neg hj]
            by_cases hl : a < j
            · rw [tabGet_dropTo hl]; simp [tabGet, hl]
            · rw [tabGet_dropTo_le (by omega)]; simp [tabGet, hl, Ne.symm hj]
        · rw [if_neg hv]
          by_cases hj : j = a
          · subst hj; simp [tabGet]
          · simp [tabGet, hj, Ne.symm hj]
      · rw [if_neg h2]
        by_cases hv : v = d
        · rw [if_pos hv]
          by_cases hj : j = k
          · subst hj; simp [tabGet, h1, h2, hv]
          · simp [hj]
        · rw [if_neg hv]
          by_cases hj : j = k
          · subst hj; simp [tabGet]
          · rw [if_neg hj]
            by_cases hl : k < j
            · simp [tabGet, hl]
            · simp [tabGet, hl, Ne.symm hj, show ¬ a < j by omega, show ¬ a = j by omega]

theorem tabGet_tabUpd : tabGet d (tabUpd d t k f) j = if j = k then f (tabGet d t k) else tabGet d t j :=
  tabGet_tabSet

@[simp] theorem tabGet_tabUpd_self : tabGet d (tabUpd d t k f) k = f (tabGet d t k) := by simp [tabGet_tabUpd]

theorem tabGet_tabUpd_ne (h : j ≠ k) : tabGet d (tabUpd d t k f) j = tabGet d t j := by simp [tabGet_tabUpd, h]

@[simp] theorem tabGet_tabSet_self : tabGet d (tabSet d t k v) k = v := by simp [tabGet_tabSet]

theorem tabGet_tabSet_ne (h : j ≠ k) : tabGet d (tabSet d t k v) j = tabGet d t j := by simp [tabGet_tabSet, h]

/-- An update at a list of indexes without repeats. -/
theorem tabGet_tabUpdAll {ks : List Nat} {g : Nat → α → α} (h : ks.Nodup) :
    tabGet d (tabUpdAll d t ks g) j = if j ∈ ks then g j (tabGet d t j) else tabGet d t j := by
  induction ks generalizing t with
  | nil => simp [tabUpdAll]
  | cons a r ih =>
    have h' := List.nodup_cons.mp h
    have : tabUpdAll d t (a :: r) g = tabUpdAll d (tabUpd d t a (g a)) r g := rfl
    rw [this, ih h'.2]
    by_cases hj : j = a
    · subst hj; simp [h'.1]
    · simp [hj, tabGet_tabUpd_ne hj]

/-! ### The canonical form -/

theorem tabWfFrom_mono {lo' : Nat} (h : tabWfFrom d lo t = true) (hl : lo' ≤ lo) : tabWfFrom d lo' t = true := by
  cases t with
  | nil => rfl
  | cons e r =>
    obtain ⟨a, w⟩ := e
    simp only [tabWfFrom, Bool.and_eq_true, decide_eq_true_eq] at h ⊢
    exact ⟨⟨by omega, h.1.2⟩, h.2⟩

theorem tabWfFrom_dropTo (h : tabWfFrom d lo t = true) : tabWfFrom d lo (tabDropTo k t) = true := by
  induction t generalizing lo with
  | nil => rfl
  | cons e r ih =>
    obtain ⟨a, w⟩ := e
    simp only [tabDropTo]
    split
    · simp only [tabWfFrom, Bool.and_eq_true, decide_eq_true_eq] at h
      exact tabWfFrom_mono (ih h.2) (by omega)
    · exact h

theorem tabWfFrom_tabSet (h : tabWfFrom d lo t = true) (hk : lo ≤ k) : tabWfFrom d lo (tabSet d t k v) = true := by
  induction t generalizing lo with
  | nil => by_cases hv : v = d <;> simp [tabSet, tabWfFrom, hv, hk]
  | cons e r ih =>
    obtain ⟨a, w⟩ := e
    have h0 := h
    simp only [tabWfFrom, Bool.and_eq_true, decide_eq_true_eq] at h
    simp only [tabSet]
    by_cases h1 : a < k
    · rw [if_pos h1]
      simp only [tabWfFrom, Bool.and_eq_true, decide_eq_true_eq]
      exact ⟨h.1, ih h.2 (by omega)⟩
    · rw [if_neg h1]
      by_cases h2 : a = k
      · subst h2
        rw [if_pos rfl]
        by_cases hv : v = d
        · rw [if_pos hv]
          exact tabWfFrom_dropTo (tabWfFrom_mono h.2 (by omega))
        · rw [if_neg hv]
          simp only [tabWfFrom, Bool.and_eq_true, decide_eq_true_eq]
          exact ⟨⟨hk, hv⟩, h.2⟩
      · rw [if_neg h2]
        by_cases hv : v = d
        · rw [if_pos hv]; exact h0
        · rw [if_neg hv]
          simp only [tabWfFrom, Bool.and_eq_true, decide_eq_true_eq]
          exact ⟨⟨hk, hv⟩, ⟨by omega, h.1.2⟩, h.2⟩

/-- Storing keeps the canonical form. -/
theorem tabWf_tabSet (h : tabWf d t = true) : tabWf d (tabSet d t k v) = true := tabWfFrom_tabSet h (Nat.zero_le _)

theorem tabWf_tabUpd (h : tabWf d t = true) : tabWf d (tabUpd d t k f) = true := tabWf_tabSet h

theorem tabWf_tabUpdAll {ks : List Nat} {g : Nat → α → α} (h : tabWf d t = true) : tabWf d (tabUpdAll d t ks g) = true := by
  induction ks generalizing t with
  | nil => exact h
  | cons a r ih => exact ih (tabWf_tabUpd h)

theorem tabWfFrom_tabMap {g : Nat → α → α} (h : tabWfFrom d lo t = true) : tabWfFrom d lo (tabMap d g t) = true := by
  induction t generalizing lo with
  | nil => rfl
  | cons e r ih =>
    obtain ⟨a, w⟩ := e
    simp only [tabWfFrom, Bool.and_eq_true, decide_eq_true_eq] at h
    simp only [tabMap]
    split
    · exact tabWfFrom_mono (ih h.2) (by omega)
    · rename_i hv
      simp only [tabWfFrom, Bool.and_eq_true, decide_eq_true_eq]
      exact ⟨⟨h.1.1, hv⟩, ih h.2⟩

theorem tabWf_tabMap {g : Nat → α → α} (h : tabWf d t = true) : tabWf d (tabMap d g t) = true := tabWfFrom_tabMap h

end Sys2Proof.Machine
end

