-- ==== Sys2Proof/Laws/State.lean ====
section
/-!
SUPPORT. Every field and every table of the state under every update of a table.
-/
namespace Sys2Proof.Machine

variable (s : State)

/-! `updZone` -/

@[simp] theorem State.updZone_pending (z : Nat) (f : Zone → Zone) : (s.updZone z f).pending = s.pending := rfl
@[simp] theorem State.updZone_tb (z : Nat) (f : Zone → Zone) : (s.updZone z f).tb = s.tb := rfl
@[simp] theorem State.updZone_laneA (z : Nat) (f : Zone → Zone) : (s.updZone z f).laneA = s.laneA := rfl
@[simp] theorem State.updZone_laneB (z : Nat) (f : Zone → Zone) : (s.updZone z f).laneB = s.laneB := rfl
@[simp] theorem State.updZone_markNum (z : Nat) (f : Zone → Zone) : (s.updZone z f).markNum = s.markNum := rfl
@[simp] theorem State.updZone_ptsA (z : Nat) (f : Zone → Zone) : (s.updZone z f).ptsA = s.ptsA := rfl
@[simp] theorem State.updZone_ptsB (z : Nat) (f : Zone → Zone) : (s.updZone z f).ptsB = s.ptsB := rfl
@[simp] theorem State.updZone_caps (z : Nat) (f : Zone → Zone) : (s.updZone z f).caps = s.caps := rfl
@[simp] theorem State.updZone_imgA (z : Nat) (f : Zone → Zone) : (s.updZone z f).imgA = s.imgA := rfl
@[simp] theorem State.updZone_imgB (z : Nat) (f : Zone → Zone) : (s.updZone z f).imgB = s.imgB := rfl
@[simp] theorem State.updZone_imgCaps (z : Nat) (f : Zone → Zone) : (s.updZone z f).imgCaps = s.imgCaps := rfl
@[simp] theorem State.updZone_owed (z : Nat) (f : Zone → Zone) : (s.updZone z f).owed = s.owed := rfl
@[simp] theorem State.updZone_handed (z : Nat) (f : Zone → Zone) : (s.updZone z f).handed = s.handed := rfl
@[simp] theorem State.updZone_trans (z : Nat) (f : Zone → Zone) : (s.updZone z f).trans = s.trans := rfl
@[simp] theorem State.updZone_pairs (z : Nat) (f : Zone → Zone) : (s.updZone z f).pairs = s.pairs := rfl
@[simp] theorem State.updZone_cat1 (z : Nat) (f : Zone → Zone) : (s.updZone z f).cat1 = s.cat1 := rfl
@[simp] theorem State.updZone_prodOwnA (z : Nat) (f : Zone → Zone) : (s.updZone z f).prodOwnA = s.prodOwnA := rfl
@[simp] theorem State.updZone_prodOwnB (z : Nat) (f : Zone → Zone) : (s.updZone z f).prodOwnB = s.prodOwnB := rfl
@[simp] theorem State.updZone_internals (z : Nat) (f : Zone → Zone) : (s.updZone z f).internals = s.internals := rfl
@[simp] theorem State.updZone_internalsB (z : Nat) (f : Zone → Zone) : (s.updZone z f).internalsB = s.internalsB := rfl
@[simp] theorem State.updZone_chans (z : Nat) (f : Zone → Zone) : (s.updZone z f).chans = s.chans := rfl
@[simp] theorem State.updZone_grps (z : Nat) (f : Zone → Zone) : (s.updZone z f).grps = s.grps := rfl
@[simp] theorem State.updZone_capUnits (z : Nat) (f : Zone → Zone) : (s.updZone z f).capUnits = s.capUnits := rfl
@[simp] theorem State.updZone_fd (z : Nat) (f : Zone → Zone) : (s.updZone z f).fd = s.fd := rfl
@[simp] theorem State.updZone_ports (z : Nat) (f : Zone → Zone) : (s.updZone z f).ports = s.ports := rfl
@[simp] theorem State.updZone_conns (z : Nat) (f : Zone → Zone) : (s.updZone z f).conns = s.conns := rfl
@[simp] theorem State.updZone_fl (z : Nat) (f : Zone → Zone) : (s.updZone z f).fl = s.fl := rfl
@[simp] theorem State.updZone_lmWarn (z : Nat) (f : Zone → Zone) : (s.updZone z f).lmWarn = s.lmWarn := rfl
@[simp] theorem State.updZone_lmWarnB (z : Nat) (f : Zone → Zone) : (s.updZone z f).lmWarnB = s.lmWarnB := rfl
@[simp] theorem State.updZone_gts (z : Nat) (f : Zone → Zone) : (s.updZone z f).gts = s.gts := rfl
@[simp] theorem State.updZone_stg (z : Nat) (f : Zone → Zone) : (s.updZone z f).stg = s.stg := rfl
@[simp] theorem State.updZone_crcs (z : Nat) (f : Zone → Zone) : (s.updZone z f).crcs = s.crcs := rfl
@[simp] theorem State.updZone_hi (z : Nat) (f : Zone → Zone) : (s.updZone z f).hi = s.hi := rfl
@[simp] theorem State.updZone_rings (z : Nat) (f : Zone → Zone) : (s.updZone z f).rings = s.rings := rfl
@[simp] theorem State.updZone_evRings (z : Nat) (f : Zone → Zone) : (s.updZone z f).evRings = s.evRings := rfl
@[simp] theorem State.updZone_evqA (z : Nat) (f : Zone → Zone) : (s.updZone z f).evqA = s.evqA := rfl
@[simp] theorem State.updZone_evqB (z : Nat) (f : Zone → Zone) : (s.updZone z f).evqB = s.evqB := rfl
@[simp] theorem State.updZone_otp (z : Nat) (f : Zone → Zone) : (s.updZone z f).otp = s.otp := rfl
@[simp] theorem State.updZone_pm (z : Nat) (f : Zone → Zone) : (s.updZone z f).pm = s.pm := rfl
@[simp] theorem State.updZone_bist (z : Nat) (f : Zone → Zone) : (s.updZone z f).bist = s.bist := rfl
@[simp] theorem State.updZone_db (z : Nat) (f : Zone → Zone) : (s.updZone z f).db = s.db := rfl
@[simp] theorem State.updZone_tiles (z : Nat) (f : Zone → Zone) : (s.updZone z f).tiles = s.tiles := rfl
@[simp] theorem State.updZone_gc (z : Nat) (f : Zone → Zone) : (s.updZone z f).gc = s.gc := rfl
@[simp] theorem State.updZone_adm (z : Nat) (f : Zone → Zone) : (s.updZone z f).adm = s.adm := rfl
@[simp] theorem State.updZone_mig (z : Nat) (f : Zone → Zone) : (s.updZone z f).mig = s.mig := rfl
@[simp] theorem State.updZone_buf (z : Nat) (f : Zone → Zone) : (s.updZone z f).buf = s.buf := rfl
@[simp] theorem State.updZone_op (z : Nat) (f : Zone → Zone) : (s.updZone z f).op = s.op := rfl
@[simp] theorem State.updZone_waiting (z : Nat) (f : Zone → Zone) : (s.updZone z f).waiting = s.waiting := rfl
@[simp] theorem State.updZone_boot (z : Nat) (f : Zone → Zone) : (s.updZone z f).boot = s.boot := rfl
@[simp] theorem State.updZone_bootSets (z : Nat) (f : Zone → Zone) : (s.updZone z f).bootSets = s.bootSets := rfl
@[simp] theorem State.updZone_snap (z : Nat) (f : Zone → Zone) : (s.updZone z f).snap = s.snap := rfl
@[simp] theorem State.updZone_diagBuf (z : Nat) (f : Zone → Zone) : (s.updZone z f).diagBuf = s.diagBuf := rfl
@[simp] theorem State.updZone_readData (z : Nat) (f : Zone → Zone) : (s.updZone z f).readData = s.readData := rfl
@[simp] theorem State.updZone_freeCtr (z : Nat) (f : Zone → Zone) : (s.updZone z f).freeCtr = s.freeCtr := rfl
@[simp] theorem State.updZone_pair (z : Nat) (f : Zone → Zone) (i : Nat) : (s.updZone z f).pair i = s.pair i := rfl
@[simp] theorem State.updZone_chan (z : Nat) (f : Zone → Zone) (i : Nat) : (s.updZone z f).chan i = s.chan i := rfl
@[simp] theorem State.updZone_grp (z : Nat) (f : Zone → Zone) (i : Nat) : (s.updZone z f).grp i = s.grp i := rfl
@[simp] theorem State.updZone_capUnit (z : Nat) (f : Zone → Zone) (i : Nat) : (s.updZone z f).capUnit i = s.capUnit i := rfl
@[simp] theorem State.updZone_port (z : Nat) (f : Zone → Zone) (i : Nat) : (s.updZone z f).port i = s.port i := rfl
@[simp] theorem State.updZone_conn (z : Nat) (f : Zone → Zone) (i : Nat) : (s.updZone z f).conn i = s.conn i := rfl
@[simp] theorem State.updZone_gt (z : Nat) (f : Zone → Zone) (i : Nat) : (s.updZone z f).gt i = s.gt i := rfl
@[simp] theorem State.updZone_crc (z : Nat) (f : Zone → Zone) (i : Nat) : (s.updZone z f).crc i = s.crc i := rfl
@[simp] theorem State.updZone_ring (z : Nat) (f : Zone → Zone) (i : Nat) : (s.updZone z f).ring i = s.ring i := rfl
@[simp] theorem State.updZone_evRing (z : Nat) (f : Zone → Zone) (i : Nat) : (s.updZone z f).evRing i = s.evRing i := rfl
@[simp] theorem State.updZone_otpWord (z : Nat) (f : Zone → Zone) (i : Nat) : (s.updZone z f).otpWord i = s.otpWord i := rfl
@[simp] theorem State.updZone_tileAt (z : Nat) (f : Zone → Zone) (i : Nat) : (s.updZone z f).tileAt i = s.tileAt i := rfl
@[simp] theorem State.updZone_frec (z : Nat) (f : Zone → Zone) (i : Nat) : (s.updZone z f).frec i = s.frec i := rfl
@[simp] theorem State.updZone_zone_self (z : Nat) (f : Zone → Zone) : (s.updZone z f).zone z = f (s.zone z) := tabGet_tabUpd_self
theorem State.updZone_zone (z : Nat) (f : Zone → Zone) (i : Nat) : (s.updZone z f).zone i = if i = z then f (s.zone z) else s.zone i := tabGet_tabUpd
theorem State.updZone_zone_ne (z : Nat) (f : Zone → Zone) (i : Nat) (h : i ≠ z) : (s.updZone z f).zone i = s.zone i := tabGet_tabUpd_ne h

/-! `Pair.both`: what steward A does, beside steward B's own table -/

@[simp] theorem Pair.both_role (f : Pair → Pair) (q : Pair) : (Pair.both f q).role = (f q).role := rfl
@[simp] theorem Pair.both_before (f : Pair → Pair) (q : Pair) : (Pair.both f q).before = (f q).before := rfl
@[simp] theorem Pair.both_stopA (f : Pair → Pair) (q : Pair) : (Pair.both f q).stopA = (f q).stopA := rfl
@[simp] theorem Pair.both_stopB (f : Pair → Pair) (q : Pair) : (Pair.both f q).stopB = (f q).stopB := rfl
@[simp] theorem Pair.both_haltBit (f : Pair → Pair) (q : Pair) : (Pair.both f q).haltBit = (f q).haltBit := rfl
@[simp] theorem Pair.both_stepStop (f : Pair → Pair) (q : Pair) : (Pair.both f q).stepStop = (f q).stepStop := rfl
@[simp] theorem Pair.both_codeA (f : Pair → Pair) (q : Pair) : (Pair.both f q).codeA = (f q).codeA := rfl
@[simp] theorem Pair.both_codeB (f : Pair → Pair) (q : Pair) : (Pair.both f q).codeB = (f q).codeB := rfl
@[simp] theorem Pair.both_shift (f : Pair → Pair) (q : Pair) : (Pair.both f q).shift = (f q).shift := rfl
@[simp] theorem Pair.both_nextPass (f : Pair → Pair) (q : Pair) : (Pair.both f q).nextPass = (f q).nextPass := rfl
@[simp] theorem Pair.both_lastPass (f : Pair → Pair) (q : Pair) : (Pair.both f q).lastPass = (f q).lastPass := rfl
@[simp] theorem Pair.both_sigA (f : Pair → Pair) (q : Pair) : (Pair.both f q).sigA = (f q).sigA := rfl
@[simp] theorem Pair.both_sigB (f : Pair → Pair) (q : Pair) : (Pair.both f q).sigB = (f q).sigB := rfl
@[simp] theorem Pair.both_lastTime (f : Pair → Pair) (q : Pair) : (Pair.both f q).lastTime = (f q).lastTime := rfl
@[simp] theorem Pair.both_maxTime (f : Pair → Pair) (q : Pair) : (Pair.both f q).maxTime = (f q).maxTime := rfl
@[simp] theorem Pair.both_bound (f : Pair → Pair) (q : Pair) : (Pair.both f q).bound = (f q).bound := rfl
@[simp] theorem Pair.both_poisonCnt (f : Pair → Pair) (q : Pair) : (Pair.both f q).poisonCnt = (f q).poisonCnt := rfl
@[simp] theorem Pair.both_fillMax (f : Pair → Pair) (q : Pair) : (Pair.both f q).fillMax = (f q).fillMax := rfl
@[simp] theorem Pair.both_injOk (f : Pair → Pair) (q : Pair) : (Pair.both f q).injOk = (f q).injOk := rfl
@[simp] theorem Pair.both_injPos (f : Pair → Pair) (q : Pair) : (Pair.both f q).injPos = (f q).injPos := rfl
@[simp] theorem Pair.both_injPol (f : Pair → Pair) (q : Pair) : (Pair.both f q).injPol = (f q).injPol := rfl
@[simp] theorem Pair.both_injDue (f : Pair → Pair) (q : Pair) : (Pair.both f q).injDue = (f q).injDue := rfl
@[simp] theorem Pair.both_injPosB (f : Pair → Pair) (q : Pair) : (Pair.both f q).injPosB = (f q).injPosB := rfl
@[simp] theorem Pair.both_injPolB (f : Pair → Pair) (q : Pair) : (Pair.both f q).injPolB = (f q).injPolB := rfl
@[simp] theorem Pair.both_injDueB (f : Pair → Pair) (q : Pair) : (Pair.both f q).injDueB = (f q).injDueB := rfl
@[simp] theorem Pair.both_trig (f : Pair → Pair) (q : Pair) : (Pair.both f q).trig = (f q).trig := rfl
@[simp] theorem Pair.both_timerLost (f : Pair → Pair) (q : Pair) : (Pair.both f q).timerLost = (f q).timerLost := rfl
@[simp] theorem Pair.both_timerLate (f : Pair → Pair) (q : Pair) : (Pair.both f q).timerLate = (f q).timerLate := rfl
@[simp] theorem Pair.both_run (f : Pair → Pair) (q : Pair) : (Pair.both f q).run = (f q).run := rfl
@[simp] theorem Pair.both_liveA (f : Pair → Pair) (q : Pair) : (Pair.both f q).liveA = (f q).liveA := rfl
@[simp] theorem Pair.both_liveB (f : Pair → Pair) (q : Pair) : (Pair.both f q).liveB = (f q).liveB := rfl
@[simp] theorem Pair.both_liveCaps (f : Pair → Pair) (q : Pair) : (Pair.both f q).liveCaps = (f q).liveCaps := rfl
@[simp] theorem Pair.both_last (f : Pair → Pair) (q : Pair) : (Pair.both f q).last = (f q).last := rfl
@[simp] theorem Pair.both_rowsA (f : Pair → Pair) (q : Pair) : (Pair.both f q).rowsA = (f q).rowsA := rfl
@[simp] theorem Pair.both_rowsB (f : Pair → Pair) (q : Pair) : (Pair.both f q).rowsB = (f q).rowsB := rfl
@[simp] theorem Pair.both_noSpare (f : Pair → Pair) (q : Pair) : (Pair.both f q).noSpare = (f q).noSpare := rfl
@[simp] theorem Pair.both_passedAt (f : Pair → Pair) (q : Pair) : (Pair.both f q).passedAt = (f q).passedAt := rfl
@[simp] theorem Pair.both_roleB (f : Pair → Pair) (q : Pair) :
    (Pair.both f q).roleB = (f { q with role := q.roleB, shift := q.shiftB }).role := rfl
@[simp] theorem Pair.both_shiftB (f : Pair → Pair) (q : Pair) :
    (Pair.both f q).shiftB = (f { q with role := q.roleB, shift := q.shiftB }).shift := rfl

/-! `updPair` -/

@[simp] theorem State.updPair_pending (p : Nat) (f : Pair → Pair) : (s.updPair p f).pending = s.pending := rfl
@[simp] theorem State.updPair_tb (p : Nat) (f : Pair → Pair) : (s.updPair p f).tb = s.tb := rfl
@[simp] theorem State.updPair_laneA (p : Nat) (f : Pair → Pair) : (s.updPair p f).laneA = s.laneA := rfl
@[simp] theorem State.updPair_laneB (p : Nat) (f : Pair → Pair) : (s.updPair p f).laneB = s.laneB := rfl
@[simp] theorem State.updPair_markNum (p : Nat) (f : Pair → Pair) : (s.updPair p f).markNum = s.markNum := rfl
@[simp] theorem State.updPair_ptsA (p : Nat) (f : Pair → Pair) : (s.updPair p f).ptsA = s.ptsA := rfl
@[simp] theorem State.updPair_ptsB (p : Nat) (f : Pair → Pair) : (s.updPair p f).ptsB = s.ptsB := rfl
@[simp] theorem State.updPair_caps (p : Nat) (f : Pair → Pair) : (s.updPair p f).caps = s.caps := rfl
@[simp] theorem State.updPair_imgA (p : Nat) (f : Pair → Pair) : (s.updPair p f).imgA = s.imgA := rfl
@[simp] theorem State.updPair_imgB (p : Nat) (f : Pair → Pair) : (s.updPair p f).imgB = s.imgB := rfl
@[simp] theorem State.updPair_imgCaps (p : Nat) (f : Pair → Pair) : (s.updPair p f).imgCaps = s.imgCaps := rfl
@[simp] theorem State.updPair_owed (p : Nat) (f : Pair → Pair) : (s.updPair p f).owed = s.owed := rfl
@[simp] theorem State.updPair_handed (p : Nat) (f : Pair → Pair) : (s.updPair p f).handed = s.handed := rfl
@[simp] theorem State.updPair_trans (p : Nat) (f : Pair → Pair) : (s.updPair p f).trans = s.trans := rfl
@[simp] theorem State.updPair_zones (p : Nat) (f : Pair → Pair) : (s.updPair p f).zones = s.zones := rfl
@[simp] theorem State.updPair_cat1 (p : Nat) (f : Pair → Pair) : (s.updPair p f).cat1 = s.cat1 := rfl
@[simp] theorem State.updPair_prodOwnA (p : Nat) (f : Pair → Pair) : (s.updPair p f).prodOwnA = s.prodOwnA := rfl
@[simp] theorem State.updPair_prodOwnB (p : Nat) (f : Pair → Pair) : (s.updPair p f).prodOwnB = s.prodOwnB := rfl
@[simp] theorem State.updPair_internals (p : Nat) (f : Pair → Pair) : (s.updPair p f).internals = s.internals := rfl
@[simp] theorem State.updPair_internalsB (p : Nat) (f : Pair → Pair) : (s.updPair p f).internalsB = s.internalsB := rfl
@[simp] theorem State.updPair_chans (p : Nat) (f : Pair → Pair) : (s.updPair p f).chans = s.chans := rfl
@[simp] theorem State.updPair_grps (p : Nat) (f : Pair → Pair) : (s.updPair p f).grps = s.grps := rfl
@[simp] theorem State.updPair_capUnits (p : Nat) (f : Pair → Pair) : (s.updPair p f).capUnits = s.capUnits := rfl
@[simp] theorem State.updPair_fd (p : Nat) (f : Pair → Pair) : (s.updPair p f).fd = s.fd := rfl
@[simp] theorem State.updPair_ports (p : Nat) (f : Pair → Pair) : (s.updPair p f).ports = s.ports := rfl
@[simp] theorem State.updPair_conns (p : Nat) (f : Pair → Pair) : (s.updPair p f).conns = s.conns := rfl
@[simp] theorem State.updPair_fl (p : Nat) (f : Pair → Pair) : (s.updPair p f).fl = s.fl := rfl
@[simp] theorem State.updPair_lmWarn (p : Nat) (f : Pair → Pair) : (s.updPair p f).lmWarn = s.lmWarn := rfl
@[simp] theorem State.updPair_lmWarnB (p : Nat) (f : Pair → Pair) : (s.updPair p f).lmWarnB = s.lmWarnB := rfl
@[simp] theorem State.updPair_gts (p : Nat) (f : Pair → Pair) : (s.updPair p f).gts = s.gts := rfl
@[simp] theorem State.updPair_stg (p : Nat) (f : Pair → Pair) : (s.updPair p f).stg = s.stg := rfl
@[simp] theorem State.updPair_crcs (p : Nat) (f : Pair → Pair) : (s.updPair p f).crcs = s.crcs := rfl
@[simp] theorem State.updPair_hi (p : Nat) (f : Pair → Pair) : (s.updPair p f).hi = s.hi := rfl
@[simp] theorem State.updPair_rings (p : Nat) (f : Pair → Pair) : (s.updPair p f).rings = s.rings := rfl
@[simp] theorem State.updPair_evRings (p : Nat) (f : Pair → Pair) : (s.updPair p f).evRings = s.evRings := rfl
@[simp] theorem State.updPair_evqA (p : Nat) (f : Pair → Pair) : (s.updPair p f).evqA = s.evqA := rfl
@[simp] theorem State.updPair_evqB (p : Nat) (f : Pair → Pair) : (s.updPair p f).evqB = s.evqB := rfl
@[simp] theorem State.updPair_otp (p : Nat) (f : Pair → Pair) : (s.updPair p f).otp = s.otp := rfl
@[simp] theorem State.updPair_pm (p : Nat) (f : Pair → Pair) : (s.updPair p f).pm = s.pm := rfl
@[simp] theorem State.updPair_bist (p : Nat) (f : Pair → Pair) : (s.updPair p f).bist = s.bist := rfl
@[simp] theorem State.updPair_db (p : Nat) (f : Pair → Pair) : (s.updPair p f).db = s.db := rfl
@[simp] theorem State.updPair_tiles (p : Nat) (f : Pair → Pair) : (s.updPair p f).tiles = s.tiles := rfl
@[simp] theorem State.updPair_gc (p : Nat) (f : Pair → Pair) : (s.updPair p f).gc = s.gc := rfl
@[simp] theorem State.updPair_adm (p : Nat) (f : Pair → Pair) : (s.updPair p f).adm = s.adm := rfl
@[simp] theorem State.updPair_mig (p : Nat) (f : Pair → Pair) : (s.updPair p f).mig = s.mig := rfl
@[simp] theorem State.updPair_buf (p : Nat) (f : Pair → Pair) : (s.updPair p f).buf = s.buf := rfl
@[simp] theorem State.updPair_op (p : Nat) (f : Pair → Pair) : (s.updPair p f).op = s.op := rfl
@[simp] theorem State.updPair_waiting (p : Nat) (f : Pair → Pair) : (s.updPair p f).waiting = s.waiting := rfl
@[simp] theorem State.updPair_boot (p : Nat) (f : Pair → Pair) : (s.updPair p f).boot = s.boot := rfl
@[simp] theorem State.updPair_bootSets (p : Nat) (f : Pair → Pair) : (s.updPair p f).bootSets = s.bootSets := rfl
@[simp] theorem State.updPair_snap (p : Nat) (f : Pair → Pair) : (s.updPair p f).snap = s.snap := rfl
@[simp] theorem State.updPair_diagBuf (p : Nat) (f : Pair → Pair) : (s.updPair p f).diagBuf = s.diagBuf := rfl
@[simp] theorem State.updPair_readData (p : Nat) (f : Pair → Pair) : (s.updPair p f).readData = s.readData := rfl
@[simp] theorem State.updPair_freeCtr (p : Nat) (f : Pair → Pair) : (s.updPair p f).freeCtr = s.freeCtr := rfl
@[simp] theorem State.updPair_zone (p : Nat) (f : Pair → Pair) (i : Nat) : (s.updPair p f).zone i = s.zone i := rfl
@[simp] theorem State.updPair_chan (p : Nat) (f : Pair → Pair) (i : Nat) : (s.updPair p f).chan i = s.chan i := rfl
@[simp] theorem State.updPair_grp (p : Nat) (f : Pair → Pair) (i : Nat) : (s.updPair p f).grp i = s.grp i := rfl
@[simp] theorem State.updPair_capUnit (p : Nat) (f : Pair → Pair) (i : Nat) : (s.updPair p f).capUnit i = s.capUnit i := rfl
@[simp] theorem State.updPair_port (p : Nat) (f : Pair → Pair) (i : Nat) : (s.updPair p f).port i = s.port i := rfl
@[simp] theorem State.updPair_conn (p : Nat) (f : Pair → Pair) (i : Nat) : (s.updPair p f).conn i = s.conn i := rfl
@[simp] theorem State.updPair_gt (p : Nat) (f : Pair → Pair) (i : Nat) : (s.updPair p f).gt i = s.gt i := rfl
@[simp] theorem State.updPair_crc (p : Nat) (f : Pair → Pair) (i : Nat) : (s.updPair p f).crc i = s.crc i := rfl
@[simp] theorem State.updPair_ring (p : Nat) (f : Pair → Pair) (i : Nat) : (s.updPair p f).ring i = s.ring i := rfl
@[simp] theorem State.updPair_evRing (p : Nat) (f : Pair → Pair) (i : Nat) : (s.updPair p f).evRing i = s.evRing i := rfl
@[simp] theorem State.updPair_otpWord (p : Nat) (f : Pair → Pair) (i : Nat) : (s.updPair p f).otpWord i = s.otpWord i := rfl
@[simp] theorem State.updPair_tileAt (p : Nat) (f : Pair → Pair) (i : Nat) : (s.updPair p f).tileAt i = s.tileAt i := rfl
@[simp] theorem State.updPair_frec (p : Nat) (f : Pair → Pair) (i : Nat) : (s.updPair p f).frec i = s.frec i := rfl
@[simp] theorem State.updPair_pair_self (p : Nat) (f : Pair → Pair) : (s.updPair p f).pair p = Pair.both f (s.pair p) := tabGet_tabUpd_self
theorem State.updPair_pair (p : Nat) (f : Pair → Pair) (i : Nat) : (s.updPair p f).pair i = if i = p then Pair.both f (s.pair p) else s.pair i := tabGet_tabUpd
theorem State.updPair_pair_ne (p : Nat) (f : Pair → Pair) (i : Nat) (h : i ≠ p) : (s.updPair p f).pair i = s.pair i := tabGet_tabUpd_ne h

/-! `updChan` -/

@[simp] theorem State.updChan_pending (n : Nat) (f : Chan → Chan) : (s.updChan n f).pending = s.pending := rfl
@[simp] theorem State.updChan_tb (n : Nat) (f : Chan → Chan) : (s.updChan n f).tb = s.tb := rfl
@[simp] theorem State.updChan_laneA (n : Nat) (f : Chan → Chan) : (s.updChan n f).laneA = s.laneA := rfl
@[simp] theorem State.updChan_laneB (n : Nat) (f : Chan → Chan) : (s.updChan n f).laneB = s.laneB := rfl
@[simp] theorem State.updChan_markNum (n : Nat) (f : Chan → Chan) : (s.updChan n f).markNum = s.markNum := rfl
@[simp] theorem State.updChan_ptsA (n : Nat) (f : Chan → Chan) : (s.updChan n f).ptsA = s.ptsA := rfl
@[simp] theorem State.updChan_ptsB (n : Nat) (f : Chan → Chan) : (s.updChan n f).ptsB = s.ptsB := rfl
@[simp] theorem State.updChan_caps (n : Nat) (f : Chan → Chan) : (s.updChan n f).caps = s.caps := rfl
@[simp] theorem State.updChan_imgA (n : Nat) (f : Chan → Chan) : (s.updChan n f).imgA = s.imgA := rfl
@[simp] theorem State.updChan_imgB (n : Nat) (f : Chan → Chan) : (s.updChan n f).imgB = s.imgB := rfl
@[simp] theorem State.updChan_imgCaps (n : Nat) (f : Chan → Chan) : (s.updChan n f).imgCaps = s.imgCaps := rfl
@[simp] theorem State.updChan_owed (n : Nat) (f : Chan → Chan) : (s.updChan n f).owed = s.owed := rfl
@[simp] theorem State.updChan_handed (n : Nat) (f : Chan → Chan) : (s.updChan n f).handed = s.handed := rfl
@[simp] theorem State.updChan_trans (n : Nat) (f : Chan → Chan) : (s.updChan n f).trans = s.trans := rfl
@[simp] theorem State.updChan_zones (n : Nat) (f : Chan → Chan) : (s.updChan n f).zones = s.zones := rfl
@[simp] theorem State.updChan_pairs (n : Nat) (f : Chan → Chan) : (s.updChan n f).pairs = s.pairs := rfl
@[simp] theorem State.updChan_cat1 (n : Nat) (f : Chan → Chan) : (s.updChan n f).cat1 = s.cat1 := rfl
@[simp] theorem State.updChan_prodOwnA (n : Nat) (f : Chan → Chan) : (s.updChan n f).prodOwnA = s.prodOwnA := rfl
@[simp] theorem State.updChan_prodOwnB (n : Nat) (f : Chan → Chan) : (s.updChan n f).prodOwnB = s.prodOwnB := rfl
@[simp] theorem State.updChan_internals (n : Nat) (f : Chan → Chan) : (s.updChan n f).internals = s.internals := rfl
@[simp] theorem State.updChan_internalsB (n : Nat) (f : Chan → Chan) : (s.updChan n f).internalsB = s.internalsB := rfl
@[simp] theorem State.updChan_grps (n : Nat) (f : Chan → Chan) : (s.updChan n f).grps = s.grps := rfl
@[simp] theorem State.updChan_capUnits (n : Nat) (f : Chan → Chan) : (s.updChan n f).capUnits = s.capUnits := rfl
@[simp] theorem State.updChan_fd (n : Nat) (f : Chan → Chan) : (s.updChan n f).fd = s.fd := rfl
@[simp] theorem State.updChan_ports (n : Nat) (f : Chan → Chan) : (s.updChan n f).ports = s.ports := rfl
@[simp] theorem State.updChan_conns (n : Nat) (f : Chan → Chan) : (s.updChan n f).conns = s.conns := rfl
@[simp] theorem State.updChan_fl (n : Nat) (f : Chan → Chan) : (s.updChan n f).fl = s.fl := rfl
@[simp] theorem State.updChan_lmWarn (n : Nat) (f : Chan → Chan) : (s.updChan n f).lmWarn = s.lmWarn := rfl
@[simp] theorem State.updChan_lmWarnB (n : Nat) (f : Chan → Chan) : (s.updChan n f).lmWarnB = s.lmWarnB := rfl
@[simp] theorem State.updChan_gts (n : Nat) (f : Chan → Chan) : (s.updChan n f).gts = s.gts := rfl
@[simp] theorem State.updChan_stg (n : Nat) (f : Chan → Chan) : (s.updChan n f).stg = s.stg := rfl
@[simp] theorem State.updChan_crcs (n : Nat) (f : Chan → Chan) : (s.updChan n f).crcs = s.crcs := rfl
@[simp] theorem State.updChan_hi (n : Nat) (f : Chan → Chan) : (s.updChan n f).hi = s.hi := rfl
@[simp] theorem State.updChan_rings (n : Nat) (f : Chan → Chan) : (s.updChan n f).rings = s.rings := rfl
@[simp] theorem State.updChan_evRings (n : Nat) (f : Chan → Chan) : (s.updChan n f).evRings = s.evRings := rfl
@[simp] theorem State.updChan_evqA (n : Nat) (f : Chan → Chan) : (s.updChan n f).evqA = s.evqA := rfl
@[simp] theorem State.updChan_evqB (n : Nat) (f : Chan → Chan) : (s.updChan n f).evqB = s.evqB := rfl
@[simp] theorem State.updChan_otp (n : Nat) (f : Chan → Chan) : (s.updChan n f).otp = s.otp := rfl
@[simp] theorem State.updChan_pm (n : Nat) (f : Chan → Chan) : (s.updChan n f).pm = s.pm := rfl
@[simp] theorem State.updChan_bist (n : Nat) (f : Chan → Chan) : (s.updChan n f).bist = s.bist := rfl
@[simp] theorem State.updChan_db (n : Nat) (f : Chan → Chan) : (s.updChan n f).db = s.db := rfl
@[simp] theorem State.updChan_tiles (n : Nat) (f : Chan → Chan) : (s.updChan n f).tiles = s.tiles := rfl
@[simp] theorem State.updChan_gc (n : Nat) (f : Chan → Chan) : (s.updChan n f).gc = s.gc := rfl
@[simp] theorem State.updChan_adm (n : Nat) (f : Chan → Chan) : (s.updChan n f).adm = s.adm := rfl
@[simp] theorem State.updChan_mig (n : Nat) (f : Chan → Chan) : (s.updChan n f).mig = s.mig := rfl
@[simp] theorem State.updChan_buf (n : Nat) (f : Chan → Chan) : (s.updChan n f).buf = s.buf := rfl
@[simp] theorem State.updChan_op (n : Nat) (f : Chan → Chan) : (s.updChan n f).op = s.op := rfl
@[simp] theorem State.updChan_waiting (n : Nat) (f : Chan → Chan) : (s.updChan n f).waiting = s.waiting := rfl
@[simp] theorem State.updChan_boot (n : Nat) (f : Chan → Chan) : (s.updChan n f).boot = s.boot := rfl
@[simp] theorem State.updChan_bootSets (n : Nat) (f : Chan → Chan) : (s.updChan n f).bootSets = s.bootSets := rfl
@[simp] theorem State.updChan_snap (n : Nat) (f : Chan → Chan) : (s.updChan n f).snap = s.snap := rfl
@[simp] theorem State.updChan_diagBuf (n : Nat) (f : Chan → Chan) : (s.updChan n f).diagBuf = s.diagBuf := rfl
@[simp] theorem State.updChan_readData (n : Nat) (f : Chan → Chan) : (s.updChan n f).readData = s.readData := rfl
@[simp] theorem State.updChan_freeCtr (n : Nat) (f : Chan → Chan) : (s.updChan n f).freeCtr = s.freeCtr := rfl
@[simp] theorem State.updChan_zone (n : Nat) (f : Chan → Chan) (i : Nat) : (s.updChan n f).zone i = s.zone i := rfl
@[simp] theorem State.updChan_pair (n : Nat) (f : Chan → Chan) (i : Nat) : (s.updChan n f).pair i = s.pair i := rfl
@[simp] theorem State.updChan_grp (n : Nat) (f : Chan → Chan) (i : Nat) : (s.updChan n f).grp i = s.grp i := rfl
@[simp] theorem State.updChan_capUnit (n : Nat) (f : Chan → Chan) (i : Nat) : (s.updChan n f).capUnit i = s.capUnit i := rfl
@[simp] theorem State.updChan_port (n : Nat) (f : Chan → Chan) (i : Nat) : (s.updChan n f).port i = s.port i := rfl
@[simp] theorem State.updChan_conn (n : Nat) (f : Chan → Chan) (i : Nat) : (s.updChan n f).conn i = s.conn i := rfl
@[simp] theorem State.updChan_gt (n : Nat) (f : Chan → Chan) (i : Nat) : (s.updChan n f).gt i = s.gt i := rfl
@[simp] theorem State.updChan_crc (n : Nat) (f : Chan → Chan) (i : Nat) : (s.updChan n f).crc i = s.crc i := rfl
@[simp] theorem State.updChan_ring (n : Nat) (f : Chan → Chan) (i : Nat) : (s.updChan n f).ring i = s.ring i := rfl
@[simp] theorem State.updChan_evRing (n : Nat) (f : Chan → Chan) (i : Nat) : (s.updChan n f).evRing i = s.evRing i := rfl
@[simp] theorem State.updChan_otpWord (n : Nat) (f : Chan → Chan) (i : Nat) : (s.updChan n f).otpWord i = s.otpWord i := rfl
@[simp] theorem State.updChan_tileAt (n : Nat) (f : Chan → Chan) (i : Nat) : (s.updChan n f).tileAt i = s.tileAt i := rfl
@[simp] theorem State.updChan_frec (n : Nat) (f : Chan → Chan) (i : Nat) : (s.updChan n f).frec i = s.frec i := rfl
@[simp] theorem State.updChan_chan_self (n : Nat) (f : Chan → Chan) : (s.updChan n f).chan n = f (s.chan n) := tabGet_tabUpd_self
theorem State.updChan_chan (n : Nat) (f : Chan → Chan) (i : Nat) : (s.updChan n f).chan i = if i = n then f (s.chan n) else s.chan i := tabGet_tabUpd
theorem State.updChan_chan_ne (n : Nat) (f : Chan → Chan) (i : Nat) (h : i ≠ n) : (s.updChan n f).chan i = s.chan i := tabGet_tabUpd_ne h

/-! `updChans` -/

@[simp] theorem State.updChans_pending (ns : List Nat) (f : Nat → Chan → Chan) : (s.updChans ns f).pending = s.pending := rfl
@[simp] theorem State.updChans_tb (ns : List Nat) (f : Nat → Chan → Chan) : (s.updChans ns f).tb = s.tb := rfl
@[simp] theorem State.updChans_laneA (ns : List Nat) (f : Nat → Chan → Chan) : (s.updChans ns f).laneA = s.laneA := rfl
@[simp] theorem State.updChans_laneB (ns : List Nat) (f : Nat → Chan → Chan) : (s.updChans ns f).laneB = s.laneB := rfl
@[simp] theorem State.updChans_markNum (ns : List Nat) (f : Nat → Chan → Chan) : (s.updChans ns f).markNum = s.markNum := rfl
@[simp] theorem State.updChans_ptsA (ns : List Nat) (f : Nat → Chan → Chan) : (s.updChans ns f).ptsA = s.ptsA := rfl
@[simp] theorem State.updChans_ptsB (ns : List Nat) (f : Nat → Chan → Chan) : (s.updChans ns f).ptsB = s.ptsB := rfl
@[simp] theorem State.updChans_caps (ns : List Nat) (f : Nat → Chan → Chan) : (s.updChans ns f).caps = s.caps := rfl
@[simp] theorem State.updChans_imgA (ns : List Nat) (f : Nat → Chan → Chan) : (s.updChans ns f).imgA = s.imgA := rfl
@[simp] theorem State.updChans_imgB (ns : List Nat) (f : Nat → Chan → Chan) : (s.updChans ns f).imgB = s.imgB := rfl
@[simp] theorem State.updChans_imgCaps (ns : List Nat) (f : Nat → Chan → Chan) : (s.updChans ns f).imgCaps = s.imgCaps := rfl
@[simp] theorem State.updChans_owed (ns : List Nat) (f : Nat → Chan → Chan) : (s.updChans ns f).owed = s.owed := rfl
@[simp] theorem State.updChans_handed (ns : List Nat) (f : Nat → Chan → Chan) : (s.updChans ns f).handed = s.handed := rfl
@[simp] theorem State.updChans_trans (ns : List Nat) (f : Nat → Chan → Chan) : (s.updChans ns f).trans = s.trans := rfl
@[simp] theorem State.updChans_zones (ns : List Nat) (f : Nat → Chan → Chan) : (s.updChans ns f).zones = s.zones := rfl
@[simp] theorem State.updChans_pairs (ns : List Nat) (f : Nat → Chan → Chan) : (s.updChans ns f).pairs = s.pairs := rfl
@[simp] theorem State.updChans_cat1 (ns : List Nat) (f : Nat → Chan → Chan) : (s.updChans ns f).cat1 = s.cat1 := rfl
@[simp] theorem State.updChans_prodOwnA (ns : List Nat) (f : Nat → Chan → Chan) : (s.updChans ns f).prodOwnA = s.prodOwnA := rfl
@[simp] theorem State.updChans_prodOwnB (ns : List Nat) (f : Nat → Chan → Chan) : (s.updChans ns f).prodOwnB = s.prodOwnB := rfl
@[simp] theorem State.updChans_internals (ns : List Nat) (f : Nat → Chan → Chan) : (s.updChans ns f).internals = s.internals := rfl
@[simp] theorem State.updChans_internalsB (ns : List Nat) (f : Nat → Chan → Chan) : (s.updChans ns f).internalsB = s.internalsB := rfl
@[simp] theorem State.updChans_grps (ns : List Nat) (f : Nat → Chan → Chan) : (s.updChans ns f).grps = s.grps := rfl
@[simp] theorem State.updChans_capUnits (ns : List Nat) (f : Nat → Chan → Chan) : (s.updChans ns f).capUnits = s.capUnits := rfl
@[simp] theorem State.updChans_fd (ns : List Nat) (f : Nat → Chan → Chan) : (s.updChans ns f).fd = s.fd := rfl
@[simp] theorem State.updChans_ports (ns : List Nat) (f : Nat → Chan → Chan) : (s.updChans ns f).ports = s.ports := rfl
@[simp] theorem State.updChans_conns (ns : List Nat) (f : Nat → Chan → Chan) : (s.updChans ns f).conns = s.conns := rfl
@[simp] theorem State.updChans_fl (ns : List Nat) (f : Nat → Chan → Chan) : (s.updChans ns f).fl = s.fl := rfl
@[simp] theorem State.updChans_lmWarn (ns : List Nat) (f : Nat → Chan → Chan) : (s.updChans ns f).lmWarn = s.lmWarn := rfl
@[simp] theorem State.updChans_lmWarnB (ns : List Nat) (f : Nat → Chan → Chan) : (s.updChans ns f).lmWarnB = s.lmWarnB := rfl
@[simp] theorem State.updChans_gts (ns : List Nat) (f : Nat → Chan → Chan) : (s.updChans ns f).gts = s.gts := rfl
@[simp] theorem State.updChans_stg (ns : List Nat) (f : Nat → Chan → Chan) : (s.updChans ns f).stg = s.stg := rfl
@[simp] theorem State.updChans_crcs (ns : List Nat) (f : Nat → Chan → Chan) : (s.updChans ns f).crcs = s.crcs := rfl
@[simp] theorem State.updChans_hi (ns : List Nat) (f : Nat → Chan → Chan) : (s.updChans ns f).hi = s.hi := rfl
@[simp] theorem State.updChans_rings (ns : List Nat) (f : Nat → Chan → Chan) : (s.updChans ns f).rings = s.rings := rfl
@[simp] theorem State.updChans_evRings (ns : List Nat) (f : Nat → Chan → Chan) : (s.updChans ns f).evRings = s.evRings := rfl
@[simp] theorem State.updChans_evqA (ns : List Nat) (f : Nat → Chan → Chan) : (s.updChans ns f).evqA = s.evqA := rfl
@[simp] theorem State.updChans_evqB (ns : List Nat) (f : Nat → Chan → Chan) : (s.updChans ns f).evqB = s.evqB := rfl
@[simp] theorem State.updChans_otp (ns : List Nat) (f : Nat → Chan → Chan) : (s.updChans ns f).otp = s.otp := rfl
@[simp] theorem State.updChans_pm (ns : List Nat) (f : Nat → Chan → Chan) : (s.updChans ns f).pm = s.pm := rfl
@[simp] theorem State.updChans_bist (ns : List Nat) (f : Nat → Chan → Chan) : (s.updChans ns f).bist = s.bist := rfl
@[simp] theorem State.updChans_db (ns : List Nat) (f : Nat → Chan → Chan) : (s.updChans ns f).db = s.db := rfl
@[simp] theorem State.updChans_tiles (ns : List Nat) (f : Nat → Chan → Chan) : (s.updChans ns f).tiles = s.tiles := rfl
@[simp] theorem State.updChans_gc (ns : List Nat) (f : Nat → Chan → Chan) : (s.updChans ns f).gc = s.gc := rfl
@[simp] theorem State.updChans_adm (ns : List Nat) (f : Nat → Chan → Chan) : (s.updChans ns f).adm = s.adm := rfl
@[simp] theorem State.updChans_mig (ns : List Nat) (f : Nat → Chan → Chan) : (s.updChans ns f).mig = s.mig := rfl
@[simp] theorem State.updChans_buf (ns : List Nat) (f : Nat → Chan → Chan) : (s.updChans ns f).buf = s.buf := rfl
@[simp] theorem State.updChans_op (ns : List Nat) (f : Nat → Chan → Chan) : (s.updChans ns f).op = s.op := rfl
@[simp] theorem State.updChans_waiting (ns : List Nat) (f : Nat → Chan → Chan) : (s.updChans ns f).waiting = s.waiting := rfl
@[simp] theorem State.updChans_boot (ns : List Nat) (f : Nat → Chan → Chan) : (s.updChans ns f).boot = s.boot := rfl
@[simp] theorem State.updChans_bootSets (ns : List Nat) (f : Nat → Chan → Chan) : (s.updChans ns f).bootSets = s.bootSets := rfl
@[simp] theorem State.updChans_snap (ns : List Nat) (f : Nat → Chan → Chan) : (s.updChans ns f).snap = s.snap := rfl
@[simp] theorem State.updChans_diagBuf (ns : List Nat) (f : Nat → Chan → Chan) : (s.updChans ns f).diagBuf = s.diagBuf := rfl
@[simp] theorem State.updChans_readData (ns : List Nat) (f : Nat → Chan → Chan) : (s.updChans ns f).readData = s.readData := rfl
@[simp] theorem State.updChans_freeCtr (ns : List Nat) (f : Nat → Chan → Chan) : (s.updChans ns f).freeCtr = s.freeCtr := rfl
@[simp] theorem State.updChans_zone (ns : List Nat) (f : Nat → Chan → Chan) (i : Nat) : (s.updChans ns f).zone i = s.zone i := rfl
@[simp] theorem State.updChans_pair (ns : List Nat) (f : Nat → Chan → Chan) (i : Nat) : (s.updChans ns f).pair i = s.pair i := rfl
@[simp] theorem State.updChans_grp (ns : List Nat) (f : Nat → Chan → Chan) (i : Nat) : (s.updChans ns f).grp i = s.grp i := rfl
@[simp] theorem State.updChans_capUnit (ns : List Nat) (f : Nat → Chan → Chan) (i : Nat) : (s.updChans ns f).capUnit i = s.capUnit i := rfl
@[simp] theorem State.updChans_port (ns : List Nat) (f : Nat → Chan → Chan) (i : Nat) : (s.updChans ns f).port i = s.port i := rfl
@[simp] theorem State.updChans_conn (ns : List Nat) (f : Nat → Chan → Chan) (i : Nat) : (s.updChans ns f).conn i = s.conn i := rfl
@[simp] theorem State.updChans_gt (ns : List Nat) (f : Nat → Chan → Chan) (i : Nat) : (s.updChans ns f).gt i = s.gt i := rfl
@[simp] theorem State.updChans_crc (ns : List Nat) (f : Nat → Chan → Chan) (i : Nat) : (s.updChans ns f).crc i = s.crc i := rfl
@[simp] theorem State.updChans_ring (ns : List Nat) (f : Nat → Chan → Chan) (i : Nat) : (s.updChans ns f).ring i = s.ring i := rfl
@[simp] theorem State.updChans_evRing (ns : List Nat) (f : Nat → Chan → Chan) (i : Nat) : (s.updChans ns f).evRing i = s.evRing i := rfl
@[simp] theorem State.updChans_otpWord (ns : List Nat) (f : Nat → Chan → Chan) (i : Nat) : (s.updChans ns f).otpWord i = s.otpWord i := rfl
@[simp] theorem State.updChans_tileAt (ns : List Nat) (f : Nat → Chan → Chan) (i : Nat) : (s.updChans ns f).tileAt i = s.tileAt i := rfl
@[simp] theorem State.updChans_frec (ns : List Nat) (f : Nat → Chan → Chan) (i : Nat) : (s.updChans ns f).frec i = s.frec i := rfl
theorem State.updChans_chan (ns : List Nat) (f : Nat → Chan → Chan) (i : Nat) (h : ns.Nodup) :
    (s.updChans ns f).chan i = if i ∈ ns then f i (s.chan i) else s.chan i := tabGet_tabUpdAll h

/-! `updGrp` -/

@[simp] theorem State.updGrp_pending (g : Nat) (f : Grp → Grp) : (s.updGrp g f).pending = s.pending := rfl
@[simp] theorem State.updGrp_tb (g : Nat) (f : Grp → Grp) : (s.updGrp g f).tb = s.tb := rfl
@[simp] theorem State.updGrp_laneA (g : Nat) (f : Grp → Grp) : (s.updGrp g f).laneA = s.laneA := rfl
@[simp] theorem State.updGrp_laneB (g : Nat) (f : Grp → Grp) : (s.updGrp g f).laneB = s.laneB := rfl
@[simp] theorem State.updGrp_markNum (g : Nat) (f : Grp → Grp) : (s.updGrp g f).markNum = s.markNum := rfl
@[simp] theorem State.updGrp_ptsA (g : Nat) (f : Grp → Grp) : (s.updGrp g f).ptsA = s.ptsA := rfl
@[simp] theorem State.updGrp_ptsB (g : Nat) (f : Grp → Grp) : (s.updGrp g f).ptsB = s.ptsB := rfl
@[simp] theorem State.updGrp_caps (g : Nat) (f : Grp → Grp) : (s.updGrp g f).caps = s.caps := rfl
@[simp] theorem State.updGrp_imgA (g : Nat) (f : Grp → Grp) : (s.updGrp g f).imgA = s.imgA := rfl
@[simp] theorem State.updGrp_imgB (g : Nat) (f : Grp → Grp) : (s.updGrp g f).imgB = s.imgB := rfl
@[simp] theorem State.updGrp_imgCaps (g : Nat) (f : Grp → Grp) : (s.updGrp g f).imgCaps = s.imgCaps := rfl
@[simp] theorem State.updGrp_owed (g : Nat) (f : Grp → Grp) : (s.updGrp g f).owed = s.owed := rfl
@[simp] theorem State.updGrp_handed (g : Nat) (f : Grp → Grp) : (s.updGrp g f).handed = s.handed := rfl
@[simp] theorem State.updGrp_trans (g : Nat) (f : Grp → Grp) : (s.updGrp g f).trans = s.trans := rfl
@[simp] theorem State.updGrp_zones (g : Nat) (f : Grp → Grp) : (s.updGrp g f).zones = s.zones := rfl
@[simp] theorem State.updGrp_pairs (g : Nat) (f : Grp → Grp) : (s.updGrp g f).pairs = s.pairs := rfl
@[simp] theorem State.updGrp_cat1 (g : Nat) (f : Grp → Grp) : (s.updGrp g f).cat1 = s.cat1 := rfl
@[simp] theorem State.updGrp_prodOwnA (g : Nat) (f : Grp → Grp) : (s.updGrp g f).prodOwnA = s.prodOwnA := rfl
@[simp] theorem State.updGrp_prodOwnB (g : Nat) (f : Grp → Grp) : (s.updGrp g f).prodOwnB = s.prodOwnB := rfl
@[simp] theorem State.updGrp_internals (g : Nat) (f : Grp → Grp) : (s.updGrp g f).internals = s.internals := rfl
@[simp] theorem State.updGrp_internalsB (g : Nat) (f : Grp → Grp) : (s.updGrp g f).internalsB = s.internalsB := rfl
@[simp] theorem State.updGrp_chans (g : Nat) (f : Grp → Grp) : (s.updGrp g f).chans = s.chans := rfl
@[simp] theorem State.updGrp_capUnits (g : Nat) (f : Grp → Grp) : (s.updGrp g f).capUnits = s.capUnits := rfl
@[simp] theorem State.updGrp_fd (g : Nat) (f : Grp → Grp) : (s.updGrp g f).fd = s.fd := rfl
@[simp] theorem State.updGrp_ports (g : Nat) (f : Grp → Grp) : (s.updGrp g f).ports = s.ports := rfl
@[simp] theorem State.updGrp_conns (g : Nat) (f : Grp → Grp) : (s.updGrp g f).conns = s.conns := rfl
@[simp] theorem State.updGrp_fl (g : Nat) (f : Grp → Grp) : (s.updGrp g f).fl = s.fl := rfl
@[simp] theorem State.updGrp_lmWarn (g : Nat) (f : Grp → Grp) : (s.updGrp g f).lmWarn = s.lmWarn := rfl
@[simp] theorem State.updGrp_lmWarnB (g : Nat) (f : Grp → Grp) : (s.updGrp g f).lmWarnB = s.lmWarnB := rfl
@[simp] theorem State.updGrp_gts (g : Nat) (f : Grp → Grp) : (s.updGrp g f).gts = s.gts := rfl
@[simp] theorem State.updGrp_stg (g : Nat) (f : Grp → Grp) : (s.updGrp g f).stg = s.stg := rfl
@[simp] theorem State.updGrp_crcs (g : Nat) (f : Grp → Grp) : (s.updGrp g f).crcs = s.crcs := rfl
@[simp] theorem State.updGrp_hi (g : Nat) (f : Grp → Grp) : (s.updGrp g f).hi = s.hi := rfl
@[simp] theorem State.updGrp_rings (g : Nat) (f : Grp → Grp) : (s.updGrp g f).rings = s.rings := rfl
@[simp] theorem State.updGrp_evRings (g : Nat) (f : Grp → Grp) : (s.updGrp g f).evRings = s.evRings := rfl
@[simp] theorem State.updGrp_evqA (g : Nat) (f : Grp → Grp) : (s.updGrp g f).evqA = s.evqA := rfl
@[simp] theorem State.updGrp_evqB (g : Nat) (f : Grp → Grp) : (s.updGrp g f).evqB = s.evqB := rfl
@[simp] theorem State.updGrp_otp (g : Nat) (f : Grp → Grp) : (s.updGrp g f).otp = s.otp := rfl
@[simp] theorem State.updGrp_pm (g : Nat) (f : Grp → Grp) : (s.updGrp g f).pm = s.pm := rfl
@[simp] theorem State.updGrp_bist (g : Nat) (f : Grp → Grp) : (s.updGrp g f).bist = s.bist := rfl
@[simp] theorem State.updGrp_db (g : Nat) (f : Grp → Grp) : (s.updGrp g f).db = s.db := rfl
@[simp] theorem State.updGrp_tiles (g : Nat) (f : Grp → Grp) : (s.updGrp g f).tiles = s.tiles := rfl
@[simp] theorem State.updGrp_gc (g : Nat) (f : Grp → Grp) : (s.updGrp g f).gc = s.gc := rfl
@[simp] theorem State.updGrp_adm (g : Nat) (f : Grp → Grp) : (s.updGrp g f).adm = s.adm := rfl
@[simp] theorem State.updGrp_mig (g : Nat) (f : Grp → Grp) : (s.updGrp g f).mig = s.mig := rfl
@[simp] theorem State.updGrp_buf (g : Nat) (f : Grp → Grp) : (s.updGrp g f).buf = s.buf := rfl
@[simp] theorem State.updGrp_op (g : Nat) (f : Grp → Grp) : (s.updGrp g f).op = s.op := rfl
@[simp] theorem State.updGrp_waiting (g : Nat) (f : Grp → Grp) : (s.updGrp g f).waiting = s.waiting := rfl
@[simp] theorem State.updGrp_boot (g : Nat) (f : Grp → Grp) : (s.updGrp g f).boot = s.boot := rfl
@[simp] theorem State.updGrp_bootSets (g : Nat) (f : Grp → Grp) : (s.updGrp g f).bootSets = s.bootSets := rfl
@[simp] theorem State.updGrp_snap (g : Nat) (f : Grp → Grp) : (s.updGrp g f).snap = s.snap := rfl
@[simp] theorem State.updGrp_diagBuf (g : Nat) (f : Grp → Grp) : (s.updGrp g f).diagBuf = s.diagBuf := rfl
@[simp] theorem State.updGrp_readData (g : Nat) (f : Grp → Grp) : (s.updGrp g f).readData = s.readData := rfl
@[simp] theorem State.updGrp_freeCtr (g : Nat) (f : Grp → Grp) : (s.updGrp g f).freeCtr = s.freeCtr := rfl
@[simp] theorem State.updGrp_zone (g : Nat) (f : Grp → Grp) (i : Nat) : (s.updGrp g f).zone i = s.zone i := rfl
@[simp] theorem State.updGrp_pair (g : Nat) (f : Grp → Grp) (i : Nat) : (s.updGrp g f).pair i = s.pair i := rfl
@[simp] theorem State.updGrp_chan (g : Nat) (f : Grp → Grp) (i : Nat) : (s.updGrp g f).chan i = s.chan i := rfl
@[simp] theorem State.updGrp_capUnit (g : Nat) (f : Grp → Grp) (i : Nat) : (s.updGrp g f).capUnit i = s.capUnit i := rfl
@[simp] theorem State.updGrp_port (g : Nat) (f : Grp → Grp) (i : Nat) : (s.updGrp g f).port i = s.port i := rfl
@[simp] theorem State.updGrp_conn (g : Nat) (f : Grp → Grp) (i : Nat) : (s.updGrp g f).conn i = s.conn i := rfl
@[simp] theorem State.updGrp_gt (g : Nat) (f : Grp → Grp) (i : Nat) : (s.updGrp g f).gt i = s.gt i := rfl
@[simp] theorem State.updGrp_crc (g : Nat) (f : Grp → Grp) (i : Nat) : (s.updGrp g f).crc i = s.crc i := rfl
@[simp] theorem State.updGrp_ring (g : Nat) (f : Grp → Grp) (i : Nat) : (s.updGrp g f).ring i = s.ring i := rfl
@[simp] theorem State.updGrp_evRing (g : Nat) (f : Grp → Grp) (i : Nat) : (s.updGrp g f).evRing i = s.evRing i := rfl
@[simp] theorem State.updGrp_otpWord (g : Nat) (f : Grp → Grp) (i : Nat) : (s.updGrp g f).otpWord i = s.otpWord i := rfl
@[simp] theorem State.updGrp_tileAt (g : Nat) (f : Grp → Grp) (i : Nat) : (s.updGrp g f).tileAt i = s.tileAt i := rfl
@[simp] theorem State.updGrp_frec (g : Nat) (f : Grp → Grp) (i : Nat) : (s.updGrp g f).frec i = s.frec i := rfl
@[simp] theorem State.updGrp_grp_self (g : Nat) (f : Grp → Grp) : (s.updGrp g f).grp g = f (s.grp g) := tabGet_tabUpd_self
theorem State.updGrp_grp (g : Nat) (f : Grp → Grp) (i : Nat) : (s.updGrp g f).grp i = if i = g then f (s.grp g) else s.grp i := tabGet_tabUpd
theorem State.updGrp_grp_ne (g : Nat) (f : Grp → Grp) (i : Nat) (h : i ≠ g) : (s.updGrp g f).grp i = s.grp i := tabGet_tabUpd_ne h

/-! `updCap` -/

@[simp] theorem State.updCap_pending (c : Nat) (f : Cap → Cap) : (s.updCap c f).pending = s.pending := rfl
@[simp] theorem State.updCap_tb (c : Nat) (f : Cap → Cap) : (s.updCap c f).tb = s.tb := rfl
@[simp] theorem State.updCap_laneA (c : Nat) (f : Cap → Cap) : (s.updCap c f).laneA = s.laneA := rfl
@[simp] theorem State.updCap_laneB (c : Nat) (f : Cap → Cap) : (s.updCap c f).laneB = s.laneB := rfl
@[simp] theorem State.updCap_markNum (c : Nat) (f : Cap → Cap) : (s.updCap c f).markNum = s.markNum := rfl
@[simp] theorem State.updCap_ptsA (c : Nat) (f : Cap → Cap) : (s.updCap c f).ptsA = s.ptsA := rfl
@[simp] theorem State.updCap_ptsB (c : Nat) (f : Cap → Cap) : (s.updCap c f).ptsB = s.ptsB := rfl
@[simp] theorem State.updCap_caps (c : Nat) (f : Cap → Cap) : (s.updCap c f).caps = s.caps := rfl
@[simp] theorem State.updCap_imgA (c : Nat) (f : Cap → Cap) : (s.updCap c f).imgA = s.imgA := rfl
@[simp] theorem State.updCap_imgB (c : Nat) (f : Cap → Cap) : (s.updCap c f).imgB = s.imgB := rfl
@[simp] theorem State.updCap_imgCaps (c : Nat) (f : Cap → Cap) : (s.updCap c f).imgCaps = s.imgCaps := rfl
@[simp] theorem State.updCap_owed (c : Nat) (f : Cap → Cap) : (s.updCap c f).owed = s.owed := rfl
@[simp] theorem State.updCap_handed (c : Nat) (f : Cap → Cap) : (s.updCap c f).handed = s.handed := rfl
@[simp] theorem State.updCap_trans (c : Nat) (f : Cap → Cap) : (s.updCap c f).trans = s.trans := rfl
@[simp] theorem State.updCap_zones (c : Nat) (f : Cap → Cap) : (s.updCap c f).zones = s.zones := rfl
@[simp] theorem State.updCap_pairs (c : Nat) (f : Cap → Cap) : (s.updCap c f).pairs = s.pairs := rfl
@[simp] theorem State.updCap_cat1 (c : Nat) (f : Cap → Cap) : (s.updCap c f).cat1 = s.cat1 := rfl
@[simp] theorem State.updCap_prodOwnA (c : Nat) (f : Cap → Cap) : (s.updCap c f).prodOwnA = s.prodOwnA := rfl
@[simp] theorem State.updCap_prodOwnB (c : Nat) (f : Cap → Cap) : (s.updCap c f).prodOwnB = s.prodOwnB := rfl
@[simp] theorem State.updCap_internals (c : Nat) (f : Cap → Cap) : (s.updCap c f).internals = s.internals := rfl
@[simp] theorem State.updCap_internalsB (c : Nat) (f : Cap → Cap) : (s.updCap c f).internalsB = s.internalsB := rfl
@[simp] theorem State.updCap_chans (c : Nat) (f : Cap → Cap) : (s.updCap c f).chans = s.chans := rfl
@[simp] theorem State.updCap_grps (c : Nat) (f : Cap → Cap) : (s.updCap c f).grps = s.grps := rfl
@[simp] theorem State.updCap_fd (c : Nat) (f : Cap → Cap) : (s.updCap c f).fd = s.fd := rfl
@[simp] theorem State.updCap_ports (c : Nat) (f : Cap → Cap) : (s.updCap c f).ports = s.ports := rfl
@[simp] theorem State.updCap_conns (c : Nat) (f : Cap → Cap) : (s.updCap c f).conns = s.conns := rfl
@[simp] theorem State.updCap_fl (c : Nat) (f : Cap → Cap) : (s.updCap c f).fl = s.fl := rfl
@[simp] theorem State.updCap_lmWarn (c : Nat) (f : Cap → Cap) : (s.updCap c f).lmWarn = s.lmWarn := rfl
@[simp] theorem State.updCap_lmWarnB (c : Nat) (f : Cap → Cap) : (s.updCap c f).lmWarnB = s.lmWarnB := rfl
@[simp] theorem State.updCap_gts (c : Nat) (f : Cap → Cap) : (s.updCap c f).gts = s.gts := rfl
@[simp] theorem State.updCap_stg (c : Nat) (f : Cap → Cap) : (s.updCap c f).stg = s.stg := rfl
@[simp] theorem State.updCap_crcs (c : Nat) (f : Cap → Cap) : (s.updCap c f).crcs = s.crcs := rfl
@[simp] theorem State.updCap_hi (c : Nat) (f : Cap → Cap) : (s.updCap c f).hi = s.hi := rfl
@[simp] theorem State.updCap_rings (c : Nat) (f : Cap → Cap) : (s.updCap c f).rings = s.rings := rfl
@[simp] theorem State.updCap_evRings (c : Nat) (f : Cap → Cap) : (s.updCap c f).evRings = s.evRings := rfl
@[simp] theorem State.updCap_evqA (c : Nat) (f : Cap → Cap) : (s.updCap c f).evqA = s.evqA := rfl
@[simp] theorem State.updCap_evqB (c : Nat) (f : Cap → Cap) : (s.updCap c f).evqB = s.evqB := rfl
@[simp] theorem State.updCap_otp (c : Nat) (f : Cap → Cap) : (s.updCap c f).otp = s.otp := rfl
@[simp] theorem State.updCap_pm (c : Nat) (f : Cap → Cap) : (s.updCap c f).pm = s.pm := rfl
@[simp] theorem State.updCap_bist (c : Nat) (f : Cap → Cap) : (s.updCap c f).bist = s.bist := rfl
@[simp] theorem State.updCap_db (c : Nat) (f : Cap → Cap) : (s.updCap c f).db = s.db := rfl
@[simp] theorem State.updCap_tiles (c : Nat) (f : Cap → Cap) : (s.updCap c f).tiles = s.tiles := rfl
@[simp] theorem State.updCap_gc (c : Nat) (f : Cap → Cap) : (s.updCap c f).gc = s.gc := rfl
@[simp] theorem State.updCap_adm (c : Nat) (f : Cap → Cap) : (s.updCap c f).adm = s.adm := rfl
@[simp] theorem State.updCap_mig (c : Nat) (f : Cap → Cap) : (s.updCap c f).mig = s.mig := rfl
@[simp] theorem State.updCap_buf (c : Nat) (f : Cap → Cap) : (s.updCap c f).buf = s.buf := rfl
@[simp] theorem State.updCap_op (c : Nat) (f : Cap → Cap) : (s.updCap c f).op = s.op := rfl
@[simp] theorem State.updCap_waiting (c : Nat) (f : Cap → Cap) : (s.updCap c f).waiting = s.waiting := rfl
@[simp] theorem State.updCap_boot (c : Nat) (f : Cap → Cap) : (s.updCap c f).boot = s.boot := rfl
@[simp] theorem State.updCap_bootSets (c : Nat) (f : Cap → Cap) : (s.updCap c f).bootSets = s.bootSets := rfl
@[simp] theorem State.updCap_snap (c : Nat) (f : Cap → Cap) : (s.updCap c f).snap = s.snap := rfl
@[simp] theorem State.updCap_diagBuf (c : Nat) (f : Cap → Cap) : (s.updCap c f).diagBuf = s.diagBuf := rfl
@[simp] theorem State.updCap_readData (c : Nat) (f : Cap → Cap) : (s.updCap c f).readData = s.readData := rfl
@[simp] theorem State.updCap_freeCtr (c : Nat) (f : Cap → Cap) : (s.updCap c f).freeCtr = s.freeCtr := rfl
@[simp] theorem State.updCap_zone (c : Nat) (f : Cap → Cap) (i : Nat) : (s.updCap c f).zone i = s.zone i := rfl
@[simp] theorem State.updCap_pair (c : Nat) (f : Cap → Cap) (i : Nat) : (s.updCap c f).pair i = s.pair i := rfl
@[simp] theorem State.updCap_chan (c : Nat) (f : Cap → Cap) (i : Nat) : (s.updCap c f).chan i = s.chan i := rfl
@[simp] theorem State.updCap_grp (c : Nat) (f : Cap → Cap) (i : Nat) : (s.updCap c f).grp i = s.grp i := rfl
@[simp] theorem State.updCap_port (c : Nat) (f : Cap → Cap) (i : Nat) : (s.updCap c f).port i = s.port i := rfl
@[simp] theorem State.updCap_conn (c : Nat) (f : Cap → Cap) (i : Nat) : (s.updCap c f).conn i = s.conn i := rfl
@[simp] theorem State.updCap_gt (c : Nat) (f : Cap → Cap) (i : Nat) : (s.updCap c f).gt i = s.gt i := rfl
@[simp] theorem State.updCap_crc (c : Nat) (f : Cap → Cap) (i : Nat) : (s.updCap c f).crc i = s.crc i := rfl
@[simp] theorem State.updCap_ring (c : Nat) (f : Cap → Cap) (i : Nat) : (s.updCap c f).ring i = s.ring i := rfl
@[simp] theorem State.updCap_evRing (c : Nat) (f : Cap → Cap) (i : Nat) : (s.updCap c f).evRing i = s.evRing i := rfl
@[simp] theorem State.updCap_otpWord (c : Nat) (f : Cap → Cap) (i : Nat) : (s.updCap c f).otpWord i = s.otpWord i := rfl
@[simp] theorem State.updCap_tileAt (c : Nat) (f : Cap → Cap) (i : Nat) : (s.updCap c f).tileAt i = s.tileAt i := rfl
@[simp] theorem State.updCap_frec (c : Nat) (f : Cap → Cap) (i : Nat) : (s.updCap c f).frec i = s.frec i := rfl
@[simp] theorem State.updCap_capUnit_self (c : Nat) (f : Cap → Cap) : (s.updCap c f).capUnit c = f (s.capUnit c) := tabGet_tabUpd_self
theorem State.updCap_capUnit (c : Nat) (f : Cap → Cap) (i : Nat) : (s.updCap c f).capUnit i = if i = c then f (s.capUnit c) else s.capUnit i := tabGet_tabUpd
theorem State.updCap_capUnit_ne (c : Nat) (f : Cap → Cap) (i : Nat) (h : i ≠ c) : (s.updCap c f).capUnit i = s.capUnit i := tabGet_tabUpd_ne h

/-! `updPort` -/

@[simp] theorem State.updPort_pending (n : Nat) (f : Port → Port) : (s.updPort n f).pending = s.pending := rfl
@[simp] theorem State.updPort_tb (n : Nat) (f : Port → Port) : (s.updPort n f).tb = s.tb := rfl
@[simp] theorem State.updPort_laneA (n : Nat) (f : Port → Port) : (s.updPort n f).laneA = s.laneA := rfl
@[simp] theorem State.updPort_laneB (n : Nat) (f : Port → Port) : (s.updPort n f).laneB = s.laneB := rfl
@[simp] theorem State.updPort_markNum (n : Nat) (f : Port → Port) : (s.updPort n f).markNum = s.markNum := rfl
@[simp] theorem State.updPort_ptsA (n : Nat) (f : Port → Port) : (s.updPort n f).ptsA = s.ptsA := rfl
@[simp] theorem State.updPort_ptsB (n : Nat) (f : Port → Port) : (s.updPort n f).ptsB = s.ptsB := rfl
@[simp] theorem State.updPort_caps (n : Nat) (f : Port → Port) : (s.updPort n f).caps = s.caps := rfl
@[simp] theorem State.updPort_imgA (n : Nat) (f : Port → Port) : (s.updPort n f).imgA = s.imgA := rfl
@[simp] theorem State.updPort_imgB (n : Nat) (f : Port → Port) : (s.updPort n f).imgB = s.imgB := rfl
@[simp] theorem State.updPort_imgCaps (n : Nat) (f : Port → Port) : (s.updPort n f).imgCaps = s.imgCaps := rfl
@[simp] theorem State.updPort_owed (n : Nat) (f : Port → Port) : (s.updPort n f).owed = s.owed := rfl
@[simp] theorem State.updPort_handed (n : Nat) (f : Port → Port) : (s.updPort n f).handed = s.handed := rfl
@[simp] theorem State.updPort_trans (n : Nat) (f : Port → Port) : (s.updPort n f).trans = s.trans := rfl
@[simp] theorem State.updPort_zones (n : Nat) (f : Port → Port) : (s.updPort n f).zones = s.zones := rfl
@[simp] theorem State.updPort_pairs (n : Nat) (f : Port → Port) : (s.updPort n f).pairs = s.pairs := rfl
@[simp] theorem State.updPort_cat1 (n : Nat) (f : Port → Port) : (s.updPort n f).cat1 = s.cat1 := rfl
@[simp] theorem State.updPort_prodOwnA (n : Nat) (f : Port → Port) : (s.updPort n f).prodOwnA = s.prodOwnA := rfl
@[simp] theorem State.updPort_prodOwnB (n : Nat) (f : Port → Port) : (s.updPort n f).prodOwnB = s.prodOwnB := rfl
@[simp] theorem State.updPort_internals (n : Nat) (f : Port → Port) : (s.updPort n f).internals = s.internals := rfl
@[simp] theorem State.updPort_internalsB (n : Nat) (f : Port → Port) : (s.updPort n f).internalsB = s.internalsB := rfl
@[simp] theorem State.updPort_chans (n : Nat) (f : Port → Port) : (s.updPort n f).chans = s.chans := rfl
@[simp] theorem State.updPort_grps (n : Nat) (f : Port → Port) : (s.updPort n f).grps = s.grps := rfl
@[simp] theorem State.updPort_capUnits (n : Nat) (f : Port → Port) : (s.updPort n f).capUnits = s.capUnits := rfl
@[simp] theorem State.updPort_fd (n : Nat) (f : Port → Port) : (s.updPort n f).fd = s.fd := rfl
@[simp] theorem State.updPort_conns (n : Nat) (f : Port → Port) : (s.updPort n f).conns = s.conns := rfl
@[simp] theorem State.updPort_fl (n : Nat) (f : Port → Port) : (s.updPort n f).fl = s.fl := rfl
@[simp] theorem State.updPort_lmWarn (n : Nat) (f : Port → Port) : (s.updPort n f).lmWarn = s.lmWarn := rfl
@[simp] theorem State.updPort_lmWarnB (n : Nat) (f : Port → Port) : (s.updPort n f).lmWarnB = s.lmWarnB := rfl
@[simp] theorem State.updPort_gts (n : Nat) (f : Port → Port) : (s.updPort n f).gts = s.gts := rfl
@[simp] theorem State.updPort_stg (n : Nat) (f : Port → Port) : (s.updPort n f).stg = s.stg := rfl
@[simp] theorem State.updPort_crcs (n : Nat) (f : Port → Port) : (s.updPort n f).crcs = s.crcs := rfl
@[simp] theorem State.updPort_hi (n : Nat) (f : Port → Port) : (s.updPort n f).hi = s.hi := rfl
@[simp] theorem State.updPort_rings (n : Nat) (f : Port → Port) : (s.updPort n f).rings = s.rings := rfl
@[simp] theorem State.updPort_evRings (n : Nat) (f : Port → Port) : (s.updPort n f).evRings = s.evRings := rfl
@[simp] theorem State.updPort_evqA (n : Nat) (f : Port → Port) : (s.updPort n f).evqA = s.evqA := rfl
@[simp] theorem State.updPort_evqB (n : Nat) (f : Port → Port) : (s.updPort n f).evqB = s.evqB := rfl
@[simp] theorem State.updPort_otp (n : Nat) (f : Port → Port) : (s.updPort n f).otp = s.otp := rfl
@[simp] theorem State.updPort_pm (n : Nat) (f : Port → Port) : (s.updPort n f).pm = s.pm := rfl
@[simp] theorem State.updPort_bist (n : Nat) (f : Port → Port) : (s.updPort n f).bist = s.bist := rfl
@[simp] theorem State.updPort_db (n : Nat) (f : Port → Port) : (s.updPort n f).db = s.db := rfl
@[simp] theorem State.updPort_tiles (n : Nat) (f : Port → Port) : (s.updPort n f).tiles = s.tiles := rfl
@[simp] theorem State.updPort_gc (n : Nat) (f : Port → Port) : (s.updPort n f).gc = s.gc := rfl
@[simp] theorem State.updPort_adm (n : Nat) (f : Port → Port) : (s.updPort n f).adm = s.adm := rfl
@[simp] theorem State.updPort_mig (n : Nat) (f : Port → Port) : (s.updPort n f).mig = s.mig := rfl
@[simp] theorem State.updPort_buf (n : Nat) (f : Port → Port) : (s.updPort n f).buf = s.buf := rfl
@[simp] theorem State.updPort_op (n : Nat) (f : Port → Port) : (s.updPort n f).op = s.op := rfl
@[simp] theorem State.updPort_waiting (n : Nat) (f : Port → Port) : (s.updPort n f).waiting = s.waiting := rfl
@[simp] theorem State.updPort_boot (n : Nat) (f : Port → Port) : (s.updPort n f).boot = s.boot := rfl
@[simp] theorem State.updPort_bootSets (n : Nat) (f : Port → Port) : (s.updPort n f).bootSets = s.bootSets := rfl
@[simp] theorem State.updPort_snap (n : Nat) (f : Port → Port) : (s.updPort n f).snap = s.snap := rfl
@[simp] theorem State.updPort_diagBuf (n : Nat) (f : Port → Port) : (s.updPort n f).diagBuf = s.diagBuf := rfl
@[simp] theorem State.updPort_readData (n : Nat) (f : Port → Port) : (s.updPort n f).readData = s.readData := rfl
@[simp] theorem State.updPort_freeCtr (n : Nat) (f : Port → Port) : (s.updPort n f).freeCtr = s.freeCtr := rfl
@[simp] theorem State.updPort_zone (n : Nat) (f : Port → Port) (i : Nat) : (s.updPort n f).zone i = s.zone i := rfl
@[simp] theorem State.updPort_pair (n : Nat) (f : Port → Port) (i : Nat) : (s.updPort n f).pair i = s.pair i := rfl
@[simp] theorem State.updPort_chan (n : Nat) (f : Port → Port) (i : Nat) : (s.updPort n f).chan i = s.chan i := rfl
@[simp] theorem State.updPort_grp (n : Nat) (f : Port → Port) (i : Nat) : (s.updPort n f).grp i = s.grp i := rfl
@[simp] theorem State.updPort_capUnit (n : Nat) (f : Port → Port) (i : Nat) : (s.updPort n f).capUnit i = s.capUnit i := rfl
@[simp] theorem State.updPort_conn (n : Nat) (f : Port → Port) (i : Nat) : (s.updPort n f).conn i = s.conn i := rfl
@[simp] theorem State.updPort_gt (n : Nat) (f : Port → Port) (i : Nat) : (s.updPort n f).gt i = s.gt i := rfl
@[simp] theorem State.updPort_crc (n : Nat) (f : Port → Port) (i : Nat) : (s.updPort n f).crc i = s.crc i := rfl
@[simp] theorem State.updPort_ring (n : Nat) (f : Port → Port) (i : Nat) : (s.updPort n f).ring i = s.ring i := rfl
@[simp] theorem State.updPort_evRing (n : Nat) (f : Port → Port) (i : Nat) : (s.updPort n f).evRing i = s.evRing i := rfl
@[simp] theorem State.updPort_otpWord (n : Nat) (f : Port → Port) (i : Nat) : (s.updPort n f).otpWord i = s.otpWord i := rfl
@[simp] theorem State.updPort_tileAt (n : Nat) (f : Port → Port) (i : Nat) : (s.updPort n f).tileAt i = s.tileAt i := rfl
@[simp] theorem State.updPort_frec (n : Nat) (f : Port → Port) (i : Nat) : (s.updPort n f).frec i = s.frec i := rfl
@[simp] theorem State.updPort_port_self (n : Nat) (f : Port → Port) : (s.updPort n f).port n = f (s.port n) := tabGet_tabUpd_self
theorem State.updPort_port (n : Nat) (f : Port → Port) (i : Nat) : (s.updPort n f).port i = if i = n then f (s.port n) else s.port i := tabGet_tabUpd
theorem State.updPort_port_ne (n : Nat) (f : Port → Port) (i : Nat) (h : i ≠ n) : (s.updPort n f).port i = s.port i := tabGet_tabUpd_ne h

/-! `updConn` -/

@[simp] theorem State.updConn_pending (k : Nat) (f : Conn → Conn) : (s.updConn k f).pending = s.pending := rfl
@[simp] theorem State.updConn_tb (k : Nat) (f : Conn → Conn) : (s.updConn k f).tb = s.tb := rfl
@[simp] theorem State.updConn_laneA (k : Nat) (f : Conn → Conn) : (s.updConn k f).laneA = s.laneA := rfl
@[simp] theorem State.updConn_laneB (k : Nat) (f : Conn → Conn) : (s.updConn k f).laneB = s.laneB := rfl
@[simp] theorem State.updConn_markNum (k : Nat) (f : Conn → Conn) : (s.updConn k f).markNum = s.markNum := rfl
@[simp] theorem State.updConn_ptsA (k : Nat) (f : Conn → Conn) : (s.updConn k f).ptsA = s.ptsA := rfl
@[simp] theorem State.updConn_ptsB (k : Nat) (f : Conn → Conn) : (s.updConn k f).ptsB = s.ptsB := rfl
@[simp] theorem State.updConn_caps (k : Nat) (f : Conn → Conn) : (s.updConn k f).caps = s.caps := rfl
@[simp] theorem State.updConn_imgA (k : Nat) (f : Conn → Conn) : (s.updConn k f).imgA = s.imgA := rfl
@[simp] theorem State.updConn_imgB (k : Nat) (f : Conn → Conn) : (s.updConn k f).imgB = s.imgB := rfl
@[simp] theorem State.updConn_imgCaps (k : Nat) (f : Conn → Conn) : (s.updConn k f).imgCaps = s.imgCaps := rfl
@[simp] theorem State.updConn_owed (k : Nat) (f : Conn → Conn) : (s.updConn k f).owed = s.owed := rfl
@[simp] theorem State.updConn_handed (k : Nat) (f : Conn → Conn) : (s.updConn k f).handed = s.handed := rfl
@[simp] theorem State.updConn_trans (k : Nat) (f : Conn → Conn) : (s.updConn k f).trans = s.trans := rfl
@[simp] theorem State.updConn_zones (k : Nat) (f : Conn → Conn) : (s.updConn k f).zones = s.zones := rfl
@[simp] theorem State.updConn_pairs (k : Nat) (f : Conn → Conn) : (s.updConn k f).pairs = s.pairs := rfl
@[simp] theorem State.updConn_cat1 (k : Nat) (f : Conn → Conn) : (s.updConn k f).cat1 = s.cat1 := rfl
@[simp] theorem State.updConn_prodOwnA (k : Nat) (f : Conn → Conn) : (s.updConn k f).prodOwnA = s.prodOwnA := rfl
@[simp] theorem State.updConn_prodOwnB (k : Nat) (f : Conn → Conn) : (s.updConn k f).prodOwnB = s.prodOwnB := rfl
@[simp] theorem State.updConn_internals (k : Nat) (f : Conn → Conn) : (s.updConn k f).internals = s.internals := rfl
@[simp] theorem State.updConn_internalsB (k : Nat) (f : Conn → Conn) : (s.updConn k f).internalsB = s.internalsB := rfl
@[simp] theorem State.updConn_chans (k : Nat) (f : Conn → Conn) : (s.updConn k f).chans = s.chans := rfl
@[simp] theorem State.updConn_grps (k : Nat) (f : Conn → Conn) : (s.updConn k f).grps = s.grps := rfl
@[simp] theorem State.updConn_capUnits (k : Nat) (f : Conn → Conn) : (s.updConn k f).capUnits = s.capUnits := rfl
@[simp] theorem State.updConn_fd (k : Nat) (f : Conn → Conn) : (s.updConn k f).fd = s.fd := rfl
@[simp] theorem State.updConn_ports (k : Nat) (f : Conn → Conn) : (s.updConn k f).ports = s.ports := rfl
@[simp] theorem State.updConn_fl (k : Nat) (f : Conn → Conn) : (s.updConn k f).fl = s.fl := rfl
@[simp] theorem State.updConn_lmWarn (k : Nat) (f : Conn → Conn) : (s.updConn k f).lmWarn = s.lmWarn := rfl
@[simp] theorem State.updConn_lmWarnB (k : Nat) (f : Conn → Conn) : (s.updConn k f).lmWarnB = s.lmWarnB := rfl
@[simp] theorem State.updConn_gts (k : Nat) (f : Conn → Conn) : (s.updConn k f).gts = s.gts := rfl
@[simp] theorem State.updConn_stg (k : Nat) (f : Conn → Conn) : (s.updConn k f).stg = s.stg := rfl
@[simp] theorem State.updConn_crcs (k : Nat) (f : Conn → Conn) : (s.updConn k f).crcs = s.crcs := rfl
@[simp] theorem State.updConn_hi (k : Nat) (f : Conn → Conn) : (s.updConn k f).hi = s.hi := rfl
@[simp] theorem State.updConn_rings (k : Nat) (f : Conn → Conn) : (s.updConn k f).rings = s.rings := rfl
@[simp] theorem State.updConn_evRings (k : Nat) (f : Conn → Conn) : (s.updConn k f).evRings = s.evRings := rfl
@[simp] theorem State.updConn_evqA (k : Nat) (f : Conn → Conn) : (s.updConn k f).evqA = s.evqA := rfl
@[simp] theorem State.updConn_evqB (k : Nat) (f : Conn → Conn) : (s.updConn k f).evqB = s.evqB := rfl
@[simp] theorem State.updConn_otp (k : Nat) (f : Conn → Conn) : (s.updConn k f).otp = s.otp := rfl
@[simp] theorem State.updConn_pm (k : Nat) (f : Conn → Conn) : (s.updConn k f).pm = s.pm := rfl
@[simp] theorem State.updConn_bist (k : Nat) (f : Conn → Conn) : (s.updConn k f).bist = s.bist := rfl
@[simp] theorem State.updConn_db (k : Nat) (f : Conn → Conn) : (s.updConn k f).db = s.db := rfl
@[simp] theorem State.updConn_tiles (k : Nat) (f : Conn → Conn) : (s.updConn k f).tiles = s.tiles := rfl
@[simp] theorem State.updConn_gc (k : Nat) (f : Conn → Conn) : (s.updConn k f).gc = s.gc := rfl
@[simp] theorem State.updConn_adm (k : Nat) (f : Conn → Conn) : (s.updConn k f).adm = s.adm := rfl
@[simp] theorem State.updConn_mig (k : Nat) (f : Conn → Conn) : (s.updConn k f).mig = s.mig := rfl
@[simp] theorem State.updConn_buf (k : Nat) (f : Conn → Conn) : (s.updConn k f).buf = s.buf := rfl
@[simp] theorem State.updConn_op (k : Nat) (f : Conn → Conn) : (s.updConn k f).op = s.op := rfl
@[simp] theorem State.updConn_waiting (k : Nat) (f : Conn → Conn) : (s.updConn k f).waiting = s.waiting := rfl
@[simp] theorem State.updConn_boot (k : Nat) (f : Conn → Conn) : (s.updConn k f).boot = s.boot := rfl
@[simp] theorem State.updConn_bootSets (k : Nat) (f : Conn → Conn) : (s.updConn k f).bootSets = s.bootSets := rfl
@[simp] theorem State.updConn_snap (k : Nat) (f : Conn → Conn) : (s.updConn k f).snap = s.snap := rfl
@[simp] theorem State.updConn_diagBuf (k : Nat) (f : Conn → Conn) : (s.updConn k f).diagBuf = s.diagBuf := rfl
@[simp] theorem State.updConn_readData (k : Nat) (f : Conn → Conn) : (s.updConn k f).readData = s.readData := rfl
@[simp] theorem State.updConn_freeCtr (k : Nat) (f : Conn → Conn) : (s.updConn k f).freeCtr = s.freeCtr := rfl
@[simp] theorem State.updConn_zone (k : Nat) (f : Conn → Conn) (i : Nat) : (s.updConn k f).zone i = s.zone i := rfl
@[simp] theorem State.updConn_pair (k : Nat) (f : Conn → Conn) (i : Nat) : (s.updConn k f).pair i = s.pair i := rfl
@[simp] theorem State.updConn_chan (k : Nat) (f : Conn → Conn) (i : Nat) : (s.updConn k f).chan i = s.chan i := rfl
@[simp] theorem State.updConn_grp (k : Nat) (f : Conn → Conn) (i : Nat) : (s.updConn k f).grp i = s.grp i := rfl
@[simp] theorem State.updConn_capUnit (k : Nat) (f : Conn → Conn) (i : Nat) : (s.updConn k f).capUnit i = s.capUnit i := rfl
@[simp] theorem State.updConn_port (k : Nat) (f : Conn → Conn) (i : Nat) : (s.updConn k f).port i = s.port i := rfl
@[simp] theorem State.updConn_gt (k : Nat) (f : Conn → Conn) (i : Nat) : (s.updConn k f).gt i = s.gt i := rfl
@[simp] theorem State.updConn_crc (k : Nat) (f : Conn → Conn) (i : Nat) : (s.updConn k f).crc i = s.crc i := rfl
@[simp] theorem State.updConn_ring (k : Nat) (f : Conn → Conn) (i : Nat) : (s.updConn k f).ring i = s.ring i := rfl
@[simp] theorem State.updConn_evRing (k : Nat) (f : Conn → Conn) (i : Nat) : (s.updConn k f).evRing i = s.evRing i := rfl
@[simp] theorem State.updConn_otpWord (k : Nat) (f : Conn → Conn) (i : Nat) : (s.updConn k f).otpWord i = s.otpWord i := rfl
@[simp] theorem State.updConn_tileAt (k : Nat) (f : Conn → Conn) (i : Nat) : (s.updConn k f).tileAt i = s.tileAt i := rfl
@[simp] theorem State.updConn_frec (k : Nat) (f : Conn → Conn) (i : Nat) : (s.updConn k f).frec i = s.frec i := rfl
@[simp] theorem State.updConn_conn_self (k : Nat) (f : Conn → Conn) : (s.updConn k f).conn k = f (s.conn k) := tabGet_tabUpd_self
theorem State.updConn_conn (k : Nat) (f : Conn → Conn) (i : Nat) : (s.updConn k f).conn i = if i = k then f (s.conn k) else s.conn i := tabGet_tabUpd
theorem State.updConn_conn_ne (k : Nat) (f : Conn → Conn) (i : Nat) (h : i ≠ k) : (s.updConn k f).conn i = s.conn i := tabGet_tabUpd_ne h

/-! `updGt` -/

@[simp] theorem State.updGt_pending (k : Nat) (f : Gt → Gt) : (s.updGt k f).pending = s.pending := rfl
@[simp] theorem State.updGt_tb (k : Nat) (f : Gt → Gt) : (s.updGt k f).tb = s.tb := rfl
@[simp] theorem State.updGt_laneA (k : Nat) (f : Gt → Gt) : (s.updGt k f).laneA = s.laneA := rfl
@[simp] theorem State.updGt_laneB (k : Nat) (f : Gt → Gt) : (s.updGt k f).laneB = s.laneB := rfl
@[simp] theorem State.updGt_markNum (k : Nat) (f : Gt → Gt) : (s.updGt k f).markNum = s.markNum := rfl
@[simp] theorem State.updGt_ptsA (k : Nat) (f : Gt → Gt) : (s.updGt k f).ptsA = s.ptsA := rfl
@[simp] theorem State.updGt_ptsB (k : Nat) (f : Gt → Gt) : (s.updGt k f).ptsB = s.ptsB := rfl
@[simp] theorem State.updGt_caps (k : Nat) (f : Gt → Gt) : (s.updGt k f).caps = s.caps := rfl
@[simp] theorem State.updGt_imgA (k : Nat) (f : Gt → Gt) : (s.updGt k f).imgA = s.imgA := rfl
@[simp] theorem State.updGt_imgB (k : Nat) (f : Gt → Gt) : (s.updGt k f).imgB = s.imgB := rfl
@[simp] theorem State.updGt_imgCaps (k : Nat) (f : Gt → Gt) : (s.updGt k f).imgCaps = s.imgCaps := rfl
@[simp] theorem State.updGt_owed (k : Nat) (f : Gt → Gt) : (s.updGt k f).owed = s.owed := rfl
@[simp] theorem State.updGt_handed (k : Nat) (f : Gt → Gt) : (s.updGt k f).handed = s.handed := rfl
@[simp] theorem State.updGt_trans (k : Nat) (f : Gt → Gt) : (s.updGt k f).trans = s.trans := rfl
@[simp] theorem State.updGt_zones (k : Nat) (f : Gt → Gt) : (s.updGt k f).zones = s.zones := rfl
@[simp] theorem State.updGt_pairs (k : Nat) (f : Gt → Gt) : (s.updGt k f).pairs = s.pairs := rfl
@[simp] theorem State.updGt_cat1 (k : Nat) (f : Gt → Gt) : (s.updGt k f).cat1 = s.cat1 := rfl
@[simp] theorem State.updGt_prodOwnA (k : Nat) (f : Gt → Gt) : (s.updGt k f).prodOwnA = s.prodOwnA := rfl
@[simp] theorem State.updGt_prodOwnB (k : Nat) (f : Gt → Gt) : (s.updGt k f).prodOwnB = s.prodOwnB := rfl
@[simp] theorem State.updGt_internals (k : Nat) (f : Gt → Gt) : (s.updGt k f).internals = s.internals := rfl
@[simp] theorem State.updGt_internalsB (k : Nat) (f : Gt → Gt) : (s.updGt k f).internalsB = s.internalsB := rfl
@[simp] theorem State.updGt_chans (k : Nat) (f : Gt → Gt) : (s.updGt k f).chans = s.chans := rfl
@[simp] theorem State.updGt_grps (k : Nat) (f : Gt → Gt) : (s.updGt k f).grps = s.grps := rfl
@[simp] theorem State.updGt_capUnits (k : Nat) (f : Gt → Gt) : (s.updGt k f).capUnits = s.capUnits := rfl
@[simp] theorem State.updGt_fd (k : Nat) (f : Gt → Gt) : (s.updGt k f).fd = s.fd := rfl
@[simp] theorem State.updGt_ports (k : Nat) (f : Gt → Gt) : (s.updGt k f).ports = s.ports := rfl
@[simp] theorem State.updGt_conns (k : Nat) (f : Gt → Gt) : (s.updGt k f).conns = s.conns := rfl
@[simp] theorem State.updGt_fl (k : Nat) (f : Gt → Gt) : (s.updGt k f).fl = s.fl := rfl
@[simp] theorem State.updGt_lmWarn (k : Nat) (f : Gt → Gt) : (s.updGt k f).lmWarn = s.lmWarn := rfl
@[simp] theorem State.updGt_lmWarnB (k : Nat) (f : Gt → Gt) : (s.updGt k f).lmWarnB = s.lmWarnB := rfl
@[simp] theorem State.updGt_stg (k : Nat) (f : Gt → Gt) : (s.updGt k f).stg = s.stg := rfl
@[simp] theorem State.updGt_crcs (k : Nat) (f : Gt → Gt) : (s.updGt k f).crcs = s.crcs := rfl
@[simp] theorem State.updGt_hi (k : Nat) (f : Gt → Gt) : (s.updGt k f).hi = s.hi := rfl
@[simp] theorem State.updGt_rings (k : Nat) (f : Gt → Gt) : (s.updGt k f).rings = s.rings := rfl
@[simp] theorem State.updGt_evRings (k : Nat) (f : Gt → Gt) : (s.updGt k f).evRings = s.evRings := rfl
@[simp] theorem State.updGt_evqA (k : Nat) (f : Gt → Gt) : (s.updGt k f).evqA = s.evqA := rfl
@[simp] theorem State.updGt_evqB (k : Nat) (f : Gt → Gt) : (s.updGt k f).evqB = s.evqB := rfl
@[simp] theorem State.updGt_otp (k : Nat) (f : Gt → Gt) : (s.updGt k f).otp = s.otp := rfl
@[simp] theorem State.updGt_pm (k : Nat) (f : Gt → Gt) : (s.updGt k f).pm = s.pm := rfl
@[simp] theorem State.updGt_bist (k : Nat) (f : Gt → Gt) : (s.updGt k f).bist = s.bist := rfl
@[simp] theorem State.updGt_db (k : Nat) (f : Gt → Gt) : (s.updGt k f).db = s.db := rfl
@[simp] theorem State.updGt_tiles (k : Nat) (f : Gt → Gt) : (s.updGt k f).tiles = s.tiles := rfl
@[simp] theorem State.updGt_gc (k : Nat) (f : Gt → Gt) : (s.updGt k f).gc = s.gc := rfl
@[simp] theorem State.updGt_adm (k : Nat) (f : Gt → Gt) : (s.updGt k f).adm = s.adm := rfl
@[simp] theorem State.updGt_mig (k : Nat) (f : Gt → Gt) : (s.updGt k f).mig = s.mig := rfl
@[simp] theorem State.updGt_buf (k : Nat) (f : Gt → Gt) : (s.updGt k f).buf = s.buf := rfl
@[simp] theorem State.updGt_op (k : Nat) (f : Gt → Gt) : (s.updGt k f).op = s.op := rfl
@[simp] theorem State.updGt_waiting (k : Nat) (f : Gt → Gt) : (s.updGt k f).waiting = s.waiting := rfl
@[simp] theorem State.updGt_boot (k : Nat) (f : Gt → Gt) : (s.updGt k f).boot = s.boot := rfl
@[simp] theorem State.updGt_bootSets (k : Nat) (f : Gt → Gt) : (s.updGt k f).bootSets = s.bootSets := rfl
@[simp] theorem State.updGt_snap (k : Nat) (f : Gt → Gt) : (s.updGt k f).snap = s.snap := rfl
@[simp] theorem State.updGt_diagBuf (k : Nat) (f : Gt → Gt) : (s.updGt k f).diagBuf = s.diagBuf := rfl
@[simp] theorem State.updGt_readData (k : Nat) (f : Gt → Gt) : (s.updGt k f).readData = s.readData := rfl
@[simp] theorem State.updGt_freeCtr (k : Nat) (f : Gt → Gt) : (s.updGt k f).freeCtr = s.freeCtr := rfl
@[simp] theorem State.updGt_zone (k : Nat) (f : Gt → Gt) (i : Nat) : (s.updGt k f).zone i = s.zone i := rfl
@[simp] theorem State.updGt_pair (k : Nat) (f : Gt → Gt) (i : Nat) : (s.updGt k f).pair i = s.pair i := rfl
@[simp] theorem State.updGt_chan (k : Nat) (f : Gt → Gt) (i : Nat) : (s.updGt k f).chan i = s.chan i := rfl
@[simp] theorem State.updGt_grp (k : Nat) (f : Gt → Gt) (i : Nat) : (s.updGt k f).grp i = s.grp i := rfl
@[simp] theorem State.updGt_capUnit (k : Nat) (f : Gt → Gt) (i : Nat) : (s.updGt k f).capUnit i = s.capUnit i := rfl
@[simp] theorem State.updGt_port (k : Nat) (f : Gt → Gt) (i : Nat) : (s.updGt k f).port i = s.port i := rfl
@[simp] theorem State.updGt_conn (k : Nat) (f : Gt → Gt) (i : Nat) : (s.updGt k f).conn i = s.conn i := rfl
@[simp] theorem State.updGt_crc (k : Nat) (f : Gt → Gt) (i : Nat) : (s.updGt k f).crc i = s.crc i := rfl
@[simp] theorem State.updGt_ring (k : Nat) (f : Gt → Gt) (i : Nat) : (s.updGt k f).ring i = s.ring i := rfl
@[simp] theorem State.updGt_evRing (k : Nat) (f : Gt → Gt) (i : Nat) : (s.updGt k f).evRing i = s.evRing i := rfl
@[simp] theorem State.updGt_otpWord (k : Nat) (f : Gt → Gt) (i : Nat) : (s.updGt k f).otpWord i = s.otpWord i := rfl
@[simp] theorem State.updGt_tileAt (k : Nat) (f : Gt → Gt) (i : Nat) : (s.updGt k f).tileAt i = s.tileAt i := rfl
@[simp] theorem State.updGt_frec (k : Nat) (f : Gt → Gt) (i : Nat) : (s.updGt k f).frec i = s.frec i := rfl
@[simp] theorem State.updGt_gt_self (k : Nat) (f : Gt → Gt) : (s.updGt k f).gt k = f (s.gt k) := tabGet_tabUpd_self
theorem State.updGt_gt (k : Nat) (f : Gt → Gt) (i : Nat) : (s.updGt k f).gt i = if i = k then f (s.gt k) else s.gt i := tabGet_tabUpd
theorem State.updGt_gt_ne (k : Nat) (f : Gt → Gt) (i : Nat) (h : i ≠ k) : (s.updGt k f).gt i = s.gt i := tabGet_tabUpd_ne h

/-! `updCrc` -/

@[simp] theorem State.updCrc_pending (u : Nat) (f : Crc → Crc) : (s.updCrc u f).pending = s.pending := rfl
@[simp] theorem State.updCrc_tb (u : Nat) (f : Crc → Crc) : (s.updCrc u f).tb = s.tb := rfl
@[simp] theorem State.updCrc_laneA (u : Nat) (f : Crc → Crc) : (s.updCrc u f).laneA = s.laneA := rfl
@[simp] theorem State.updCrc_laneB (u : Nat) (f : Crc → Crc) : (s.updCrc u f).laneB = s.laneB := rfl
@[simp] theorem State.updCrc_markNum (u : Nat) (f : Crc → Crc) : (s.updCrc u f).markNum = s.markNum := rfl
@[simp] theorem State.updCrc_ptsA (u : Nat) (f : Crc → Crc) : (s.updCrc u f).ptsA = s.ptsA := rfl
@[simp] theorem State.updCrc_ptsB (u : Nat) (f : Crc → Crc) : (s.updCrc u f).ptsB = s.ptsB := rfl
@[simp] theorem State.updCrc_caps (u : Nat) (f : Crc → Crc) : (s.updCrc u f).caps = s.caps := rfl
@[simp] theorem State.updCrc_imgA (u : Nat) (f : Crc → Crc) : (s.updCrc u f).imgA = s.imgA := rfl
@[simp] theorem State.updCrc_imgB (u : Nat) (f : Crc → Crc) : (s.updCrc u f).imgB = s.imgB := rfl
@[simp] theorem State.updCrc_imgCaps (u : Nat) (f : Crc → Crc) : (s.updCrc u f).imgCaps = s.imgCaps := rfl
@[simp] theorem State.updCrc_owed (u : Nat) (f : Crc → Crc) : (s.updCrc u f).owed = s.owed := rfl
@[simp] theorem State.updCrc_handed (u : Nat) (f : Crc → Crc) : (s.updCrc u f).handed = s.handed := rfl
@[simp] theorem State.updCrc_trans (u : Nat) (f : Crc → Crc) : (s.updCrc u f).trans = s.trans := rfl
@[simp] theorem State.updCrc_zones (u : Nat) (f : Crc → Crc) : (s.updCrc u f).zones = s.zones := rfl
@[simp] theorem State.updCrc_pairs (u : Nat) (f : Crc → Crc) : (s.updCrc u f).pairs = s.pairs := rfl
@[simp] theorem State.updCrc_cat1 (u : Nat) (f : Crc → Crc) : (s.updCrc u f).cat1 = s.cat1 := rfl
@[simp] theorem State.updCrc_prodOwnA (u : Nat) (f : Crc → Crc) : (s.updCrc u f).prodOwnA = s.prodOwnA := rfl
@[simp] theorem State.updCrc_prodOwnB (u : Nat) (f : Crc → Crc) : (s.updCrc u f).prodOwnB = s.prodOwnB := rfl
@[simp] theorem State.updCrc_internals (u : Nat) (f : Crc → Crc) : (s.updCrc u f).internals = s.internals := rfl
@[simp] theorem State.updCrc_internalsB (u : Nat) (f : Crc → Crc) : (s.updCrc u f).internalsB = s.internalsB := rfl
@[simp] theorem State.updCrc_chans (u : Nat) (f : Crc → Crc) : (s.updCrc u f).chans = s.chans := rfl
@[simp] theorem State.updCrc_grps (u : Nat) (f : Crc → Crc) : (s.updCrc u f).grps = s.grps := rfl
@[simp] theorem State.updCrc_capUnits (u : Nat) (f : Crc → Crc) : (s.updCrc u f).capUnits = s.capUnits := rfl
@[simp] theorem State.updCrc_fd (u : Nat) (f : Crc → Crc) : (s.updCrc u f).fd = s.fd := rfl
@[simp] theorem State.updCrc_ports (u : Nat) (f : Crc → Crc) : (s.updCrc u f).ports = s.ports := rfl
@[simp] theorem State.updCrc_conns (u : Nat) (f : Crc → Crc) : (s.updCrc u f).conns = s.conns := rfl
@[simp] theorem State.updCrc_fl (u : Nat) (f : Crc → Crc) : (s.updCrc u f).fl = s.fl := rfl
@[simp] theorem State.updCrc_lmWarn (u : Nat) (f : Crc → Crc) : (s.updCrc u f).lmWarn = s.lmWarn := rfl
@[simp] theorem State.updCrc_lmWarnB (u : Nat) (f : Crc → Crc) : (s.updCrc u f).lmWarnB = s.lmWarnB := rfl
@[simp] theorem State.updCrc_gts (u : Nat) (f : Crc → Crc) : (s.updCrc u f).gts = s.gts := rfl
@[simp] theorem State.updCrc_stg (u : Nat) (f : Crc → Crc) : (s.updCrc u f).stg = s.stg := rfl
@[simp] theorem State.updCrc_hi (u : Nat) (f : Crc → Crc) : (s.updCrc u f).hi = s.hi := rfl
@[simp] theorem State.updCrc_rings (u : Nat) (f : Crc → Crc) : (s.updCrc u f).rings = s.rings := rfl
@[simp] theorem State.updCrc_evRings (u : Nat) (f : Crc → Crc) : (s.updCrc u f).evRings = s.evRings := rfl
@[simp] theorem State.updCrc_evqA (u : Nat) (f : Crc → Crc) : (s.updCrc u f).evqA = s.evqA := rfl
@[simp] theorem State.updCrc_evqB (u : Nat) (f : Crc → Crc) : (s.updCrc u f).evqB = s.evqB := rfl
@[simp] theorem State.updCrc_otp (u : Nat) (f : Crc → Crc) : (s.updCrc u f).otp = s.otp := rfl
@[simp] theorem State.updCrc_pm (u : Nat) (f : Crc → Crc) : (s.updCrc u f).pm = s.pm := rfl
@[simp] theorem State.updCrc_bist (u : Nat) (f : Crc → Crc) : (s.updCrc u f).bist = s.bist := rfl
@[simp] theorem State.updCrc_db (u : Nat) (f : Crc → Crc) : (s.updCrc u f).db = s.db := rfl
@[simp] theorem State.updCrc_tiles (u : Nat) (f : Crc → Crc) : (s.updCrc u f).tiles = s.tiles := rfl
@[simp] theorem State.updCrc_gc (u : Nat) (f : Crc → Crc) : (s.updCrc u f).gc = s.gc := rfl
@[simp] theorem State.updCrc_adm (u : Nat) (f : Crc → Crc) : (s.updCrc u f).adm = s.adm := rfl
@[simp] theorem State.updCrc_mig (u : Nat) (f : Crc → Crc) : (s.updCrc u f).mig = s.mig := rfl
@[simp] theorem State.updCrc_buf (u : Nat) (f : Crc → Crc) : (s.updCrc u f).buf = s.buf := rfl
@[simp] theorem State.updCrc_op (u : Nat) (f : Crc → Crc) : (s.updCrc u f).op = s.op := rfl
@[simp] theorem State.updCrc_waiting (u : Nat) (f : Crc → Crc) : (s.updCrc u f).waiting = s.waiting := rfl
@[simp] theorem State.updCrc_boot (u : Nat) (f : Crc → Crc) : (s.updCrc u f).boot = s.boot := rfl
@[simp] theorem State.updCrc_bootSets (u : Nat) (f : Crc → Crc) : (s.updCrc u f).bootSets = s.bootSets := rfl
@[simp] theorem State.updCrc_snap (u : Nat) (f : Crc → Crc) : (s.updCrc u f).snap = s.snap := rfl
@[simp] theorem State.updCrc_diagBuf (u : Nat) (f : Crc → Crc) : (s.updCrc u f).diagBuf = s.diagBuf := rfl
@[simp] theorem State.updCrc_readData (u : Nat) (f : Crc → Crc) : (s.updCrc u f).readData = s.readData := rfl
@[simp] theorem State.updCrc_freeCtr (u : Nat) (f : Crc → Crc) : (s.updCrc u f).freeCtr = s.freeCtr := rfl
@[simp] theorem State.updCrc_zone (u : Nat) (f : Crc → Crc) (i : Nat) : (s.updCrc u f).zone i = s.zone i := rfl
@[simp] theorem State.updCrc_pair (u : Nat) (f : Crc → Crc) (i : Nat) : (s.updCrc u f).pair i = s.pair i := rfl
@[simp] theorem State.updCrc_chan (u : Nat) (f : Crc → Crc) (i : Nat) : (s.updCrc u f).chan i = s.chan i := rfl
@[simp] theorem State.updCrc_grp (u : Nat) (f : Crc → Crc) (i : Nat) : (s.updCrc u f).grp i = s.grp i := rfl
@[simp] theorem State.updCrc_capUnit (u : Nat) (f : Crc → Crc) (i : Nat) : (s.updCrc u f).capUnit i = s.capUnit i := rfl
@[simp] theorem State.updCrc_port (u : Nat) (f : Crc → Crc) (i : Nat) : (s.updCrc u f).port i = s.port i := rfl
@[simp] theorem State.updCrc_conn (u : Nat) (f : Crc → Crc) (i : Nat) : (s.updCrc u f).conn i = s.conn i := rfl
@[simp] theorem State.updCrc_gt (u : Nat) (f : Crc → Crc) (i : Nat) : (s.updCrc u f).gt i = s.gt i := rfl
@[simp] theorem State.updCrc_ring (u : Nat) (f : Crc → Crc) (i : Nat) : (s.updCrc u f).ring i = s.ring i := rfl
@[simp] theorem State.updCrc_evRing (u : Nat) (f : Crc → Crc) (i : Nat) : (s.updCrc u f).evRing i = s.evRing i := rfl
@[simp] theorem State.updCrc_otpWord (u : Nat) (f : Crc → Crc) (i : Nat) : (s.updCrc u f).otpWord i = s.otpWord i := rfl
@[simp] theorem State.updCrc_tileAt (u : Nat) (f : Crc → Crc) (i : Nat) : (s.updCrc u f).tileAt i = s.tileAt i := rfl
@[simp] theorem State.updCrc_frec (u : Nat) (f : Crc → Crc) (i : Nat) : (s.updCrc u f).frec i = s.frec i := rfl
@[simp] theorem State.updCrc_crc_self (u : Nat) (f : Crc → Crc) : (s.updCrc u f).crc u = f (s.crc u) := tabGet_tabUpd_self
theorem State.updCrc_crc (u : Nat) (f : Crc → Crc) (i : Nat) : (s.updCrc u f).crc i = if i = u then f (s.crc u) else s.crc i := tabGet_tabUpd
theorem State.updCrc_crc_ne (u : Nat) (f : Crc → Crc) (i : Nat) (h : i ≠ u) : (s.updCrc u f).crc i = s.crc i := tabGet_tabUpd_ne h

/-! `updRing` -/

@[simp] theorem State.updRing_pending (r : Nat) (f : Ring → Ring) : (s.updRing r f).pending = s.pending := rfl
@[simp] theorem State.updRing_tb (r : Nat) (f : Ring → Ring) : (s.updRing r f).tb = s.tb := rfl
@[simp] theorem State.updRing_laneA (r : Nat) (f : Ring → Ring) : (s.updRing r f).laneA = s.laneA := rfl
@[simp] theorem State.updRing_laneB (r : Nat) (f : Ring → Ring) : (s.updRing r f).laneB = s.laneB := rfl
@[simp] theorem State.updRing_markNum (r : Nat) (f : Ring → Ring) : (s.updRing r f).markNum = s.markNum := rfl
@[simp] theorem State.updRing_ptsA (r : Nat) (f : Ring → Ring) : (s.updRing r f).ptsA = s.ptsA := rfl
@[simp] theorem State.updRing_ptsB (r : Nat) (f : Ring → Ring) : (s.updRing r f).ptsB = s.ptsB := rfl
@[simp] theorem State.updRing_caps (r : Nat) (f : Ring → Ring) : (s.updRing r f).caps = s.caps := rfl
@[simp] theorem State.updRing_imgA (r : Nat) (f : Ring → Ring) : (s.updRing r f).imgA = s.imgA := rfl
@[simp] theorem State.updRing_imgB (r : Nat) (f : Ring → Ring) : (s.updRing r f).imgB = s.imgB := rfl
@[simp] theorem State.updRing_imgCaps (r : Nat) (f : Ring → Ring) : (s.updRing r f).imgCaps = s.imgCaps := rfl
@[simp] theorem State.updRing_owed (r : Nat) (f : Ring → Ring) : (s.updRing r f).owed = s.owed := rfl
@[simp] theorem State.updRing_handed (r : Nat) (f : Ring → Ring) : (s.updRing r f).handed = s.handed := rfl
@[simp] theorem State.updRing_trans (r : Nat) (f : Ring → Ring) : (s.updRing r f).trans = s.trans := rfl
@[simp] theorem State.updRing_zones (r : Nat) (f : Ring → Ring) : (s.updRing r f).zones = s.zones := rfl
@[simp] theorem State.updRing_pairs (r : Nat) (f : Ring → Ring) : (s.updRing r f).pairs = s.pairs := rfl
@[simp] theorem State.updRing_cat1 (r : Nat) (f : Ring → Ring) : (s.updRing r f).cat1 = s.cat1 := rfl
@[simp] theorem State.updRing_prodOwnA (r : Nat) (f : Ring → Ring) : (s.updRing r f).prodOwnA = s.prodOwnA := rfl
@[simp] theorem State.updRing_prodOwnB (r : Nat) (f : Ring → Ring) : (s.updRing r f).prodOwnB = s.prodOwnB := rfl
@[simp] theorem State.updRing_internals (r : Nat) (f : Ring → Ring) : (s.updRing r f).internals = s.internals := rfl
@[simp] theorem State.updRing_internalsB (r : Nat) (f : Ring → Ring) : (s.updRing r f).internalsB = s.internalsB := rfl
@[simp] theorem State.updRing_chans (r : Nat) (f : Ring → Ring) : (s.updRing r f).chans = s.chans := rfl
@[simp] theorem State.updRing_grps (r : Nat) (f : Ring → Ring) : (s.updRing r f).grps = s.grps := rfl
@[simp] theorem State.updRing_capUnits (r : Nat) (f : Ring → Ring) : (s.updRing r f).capUnits = s.capUnits := rfl
@[simp] theorem State.updRing_fd (r : Nat) (f : Ring → Ring) : (s.updRing r f).fd = s.fd := rfl
@[simp] theorem State.updRing_ports (r : Nat) (f : Ring → Ring) : (s.updRing r f).ports = s.ports := rfl
@[simp] theorem State.updRing_conns (r : Nat) (f : Ring → Ring) : (s.updRing r f).conns = s.conns := rfl
@[simp] theorem State.updRing_fl (r : Nat) (f : Ring → Ring) : (s.updRing r f).fl = s.fl := rfl
@[simp] theorem State.updRing_lmWarn (r : Nat) (f : Ring → Ring) : (s.updRing r f).lmWarn = s.lmWarn := rfl
@[simp] theorem State.updRing_lmWarnB (r : Nat) (f : Ring → Ring) : (s.updRing r f).lmWarnB = s.lmWarnB := rfl
@[simp] theorem State.updRing_gts (r : Nat) (f : Ring → Ring) : (s.updRing r f).gts = s.gts := rfl
@[simp] theorem State.updRing_stg (r : Nat) (f : Ring → Ring) : (s.updRing r f).stg = s.stg := rfl
@[simp] theorem State.updRing_crcs (r : Nat) (f : Ring → Ring) : (s.updRing r f).crcs = s.crcs := rfl
@[simp] theorem State.updRing_hi (r : Nat) (f : Ring → Ring) : (s.updRing r f).hi = s.hi := rfl
@[simp] theorem State.updRing_evRings (r : Nat) (f : Ring → Ring) : (s.updRing r f).evRings = s.evRings := rfl
@[simp] theorem State.updRing_evqA (r : Nat) (f : Ring → Ring) : (s.updRing r f).evqA = s.evqA := rfl
@[simp] theorem State.updRing_evqB (r : Nat) (f : Ring → Ring) : (s.updRing r f).evqB = s.evqB := rfl
@[simp] theorem State.updRing_otp (r : Nat) (f : Ring → Ring) : (s.updRing r f).otp = s.otp := rfl
@[simp] theorem State.updRing_pm (r : Nat) (f : Ring → Ring) : (s.updRing r f).pm = s.pm := rfl
@[simp] theorem State.updRing_bist (r : Nat) (f : Ring → Ring) : (s.updRing r f).bist = s.bist := rfl
@[simp] theorem State.updRing_db (r : Nat) (f : Ring → Ring) : (s.updRing r f).db = s.db := rfl
@[simp] theorem State.updRing_tiles (r : Nat) (f : Ring → Ring) : (s.updRing r f).tiles = s.tiles := rfl
@[simp] theorem State.updRing_gc (r : Nat) (f : Ring → Ring) : (s.updRing r f).gc = s.gc := rfl
@[simp] theorem State.updRing_adm (r : Nat) (f : Ring → Ring) : (s.updRing r f).adm = s.adm := rfl
@[simp] theorem State.updRing_mig (r : Nat) (f : Ring → Ring) : (s.updRing r f).mig = s.mig := rfl
@[simp] theorem State.updRing_buf (r : Nat) (f : Ring → Ring) : (s.updRing r f).buf = s.buf := rfl
@[simp] theorem State.updRing_op (r : Nat) (f : Ring → Ring) : (s.updRing r f).op = s.op := rfl
@[simp] theorem State.updRing_waiting (r : Nat) (f : Ring → Ring) : (s.updRing r f).waiting = s.waiting := rfl
@[simp] theorem State.updRing_boot (r : Nat) (f : Ring → Ring) : (s.updRing r f).boot = s.boot := rfl
@[simp] theorem State.updRing_bootSets (r : Nat) (f : Ring → Ring) : (s.updRing r f).bootSets = s.bootSets := rfl
@[simp] theorem State.updRing_snap (r : Nat) (f : Ring → Ring) : (s.updRing r f).snap = s.snap := rfl
@[simp] theorem State.updRing_diagBuf (r : Nat) (f : Ring → Ring) : (s.updRing r f).diagBuf = s.diagBuf := rfl
@[simp] theorem State.updRing_readData (r : Nat) (f : Ring → Ring) : (s.updRing r f).readData = s.readData := rfl
@[simp] theorem State.updRing_freeCtr (r : Nat) (f : Ring → Ring) : (s.updRing r f).freeCtr = s.freeCtr := rfl
@[simp] theorem State.updRing_zone (r : Nat) (f : Ring → Ring) (i : Nat) : (s.updRing r f).zone i = s.zone i := rfl
@[simp] theorem State.updRing_pair (r : Nat) (f : Ring → Ring) (i : Nat) : (s.updRing r f).pair i = s.pair i := rfl
@[simp] theorem State.updRing_chan (r : Nat) (f : Ring → Ring) (i : Nat) : (s.updRing r f).chan i = s.chan i := rfl
@[simp] theorem State.updRing_grp (r : Nat) (f : Ring → Ring) (i : Nat) : (s.updRing r f).grp i = s.grp i := rfl
@[simp] theorem State.updRing_capUnit (r : Nat) (f : Ring → Ring) (i : Nat) : (s.updRing r f).capUnit i = s.capUnit i := rfl
@[simp] theorem State.updRing_port (r : Nat) (f : Ring → Ring) (i : Nat) : (s.updRing r f).port i = s.port i := rfl
@[simp] theorem State.updRing_conn (r : Nat) (f : Ring → Ring) (i : Nat) : (s.updRing r f).conn i = s.conn i := rfl
@[simp] theorem State.updRing_gt (r : Nat) (f : Ring → Ring) (i : Nat) : (s.updRing r f).gt i = s.gt i := rfl
@[simp] theorem State.updRing_crc (r : Nat) (f : Ring → Ring) (i : Nat) : (s.updRing r f).crc i = s.crc i := rfl
@[simp] theorem State.updRing_evRing (r : Nat) (f : Ring → Ring) (i : Nat) : (s.updRing r f).evRing i = s.evRing i := rfl
@[simp] theorem State.updRing_otpWord (r : Nat) (f : Ring → Ring) (i : Nat) : (s.updRing r f).otpWord i = s.otpWord i := rfl
@[simp] theorem State.updRing_tileAt (r : Nat) (f : Ring → Ring) (i : Nat) : (s.updRing r f).tileAt i = s.tileAt i := rfl
@[simp] theorem State.updRing_frec (r : Nat) (f : Ring → Ring) (i : Nat) : (s.updRing r f).frec i = s.frec i := rfl
@[simp] theorem State.updRing_ring_self (r : Nat) (f : Ring → Ring) : (s.updRing r f).ring r = f (s.ring r) := tabGet_tabUpd_self
theorem State.updRing_ring (r : Nat) (f : Ring → Ring) (i : Nat) : (s.updRing r f).ring i = if i = r then f (s.ring r) else s.ring i := tabGet_tabUpd
theorem State.updRing_ring_ne (r : Nat) (f : Ring → Ring) (i : Nat) (h : i ≠ r) : (s.updRing r f).ring i = s.ring i := tabGet_tabUpd_ne h

/-! `updEvRing` -/

@[simp] theorem State.updEvRing_pending (e : Nat) (f : EvRing → EvRing) : (s.updEvRing e f).pending = s.pending := rfl
@[simp] theorem State.updEvRing_tb (e : Nat) (f : EvRing → EvRing) : (s.updEvRing e f).tb = s.tb := rfl
@[simp] theorem State.updEvRing_laneA (e : Nat) (f : EvRing → EvRing) : (s.updEvRing e f).laneA = s.laneA := rfl
@[simp] theorem State.updEvRing_laneB (e : Nat) (f : EvRing → EvRing) : (s.updEvRing e f).laneB = s.laneB := rfl
@[simp] theorem State.updEvRing_markNum (e : Nat) (f : EvRing → EvRing) : (s.updEvRing e f).markNum = s.markNum := rfl
@[simp] theorem State.updEvRing_ptsA (e : Nat) (f : EvRing → EvRing) : (s.updEvRing e f).ptsA = s.ptsA := rfl
@[simp] theorem State.updEvRing_ptsB (e : Nat) (f : EvRing → EvRing) : (s.updEvRing e f).ptsB = s.ptsB := rfl
@[simp] theorem State.updEvRing_caps (e : Nat) (f : EvRing → EvRing) : (s.updEvRing e f).caps = s.caps := rfl
@[simp] theorem State.updEvRing_imgA (e : Nat) (f : EvRing → EvRing) : (s.updEvRing e f).imgA = s.imgA := rfl
@[simp] theorem State.updEvRing_imgB (e : Nat) (f : EvRing → EvRing) : (s.updEvRing e f).imgB = s.imgB := rfl
@[simp] theorem State.updEvRing_imgCaps (e : Nat) (f : EvRing → EvRing) : (s.updEvRing e f).imgCaps = s.imgCaps := rfl
@[simp] theorem State.updEvRing_owed (e : Nat) (f : EvRing → EvRing) : (s.updEvRing e f).owed = s.owed := rfl
@[simp] theorem State.updEvRing_handed (e : Nat) (f : EvRing → EvRing) : (s.updEvRing e f).handed = s.handed := rfl
@[simp] theorem State.updEvRing_trans (e : Nat) (f : EvRing → EvRing) : (s.updEvRing e f).trans = s.trans := rfl
@[simp] theorem State.updEvRing_zones (e : Nat) (f : EvRing → EvRing) : (s.updEvRing e f).zones = s.zones := rfl
@[simp] theorem State.updEvRing_pairs (e : Nat) (f : EvRing → EvRing) : (s.updEvRing e f).pairs = s.pairs := rfl
@[simp] theorem State.updEvRing_cat1 (e : Nat) (f : EvRing → EvRing) : (s.updEvRing e f).cat1 = s.cat1 := rfl
@[simp] theorem State.updEvRing_prodOwnA (e : Nat) (f : EvRing → EvRing) : (s.updEvRing e f).prodOwnA = s.prodOwnA := rfl
@[simp] theorem State.updEvRing_prodOwnB (e : Nat) (f : EvRing → EvRing) : (s.updEvRing e f).prodOwnB = s.prodOwnB := rfl
@[simp] theorem State.updEvRing_internals (e : Nat) (f : EvRing → EvRing) : (s.updEvRing e f).internals = s.internals := rfl
@[simp] theorem State.updEvRing_internalsB (e : Nat) (f : EvRing → EvRing) : (s.updEvRing e f).internalsB = s.internalsB := rfl
@[simp] theorem State.updEvRing_chans (e : Nat) (f : EvRing → EvRing) : (s.updEvRing e f).chans = s.chans := rfl
@[simp] theorem State.updEvRing_grps (e : Nat) (f : EvRing → EvRing) : (s.updEvRing e f).grps = s.grps := rfl
@[simp] theorem State.updEvRing_capUnits (e : Nat) (f : EvRing → EvRing) : (s.updEvRing e f).capUnits = s.capUnits := rfl
@[simp] theorem State.updEvRing_fd (e : Nat) (f : EvRing → EvRing) : (s.updEvRing e f).fd = s.fd := rfl
@[simp] theorem State.updEvRing_ports (e : Nat) (f : EvRing → EvRing) : (s.updEvRing e f).ports = s.ports := rfl
@[simp] theorem State.updEvRing_conns (e : Nat) (f : EvRing → EvRing) : (s.updEvRing e f).conns = s.conns := rfl
@[simp] theorem State.updEvRing_fl (e : Nat) (f : EvRing → EvRing) : (s.updEvRing e f).fl = s.fl := rfl
@[simp] theorem State.updEvRing_lmWarn (e : Nat) (f : EvRing → EvRing) : (s.updEvRing e f).lmWarn = s.lmWarn := rfl
@[simp] theorem State.updEvRing_lmWarnB (e : Nat) (f : EvRing → EvRing) : (s.updEvRing e f).lmWarnB = s.lmWarnB := rfl
@[simp] theorem State.updEvRing_gts (e : Nat) (f : EvRing → EvRing) : (s.updEvRing e f).gts = s.gts := rfl
@[simp] theorem State.updEvRing_stg (e : Nat) (f : EvRing → EvRing) : (s.updEvRing e f).stg = s.stg := rfl
@[simp] theorem State.updEvRing_crcs (e : Nat) (f : EvRing → EvRing) : (s.updEvRing e f).crcs = s.crcs := rfl
@[simp] theorem State.updEvRing_hi (e : Nat) (f : EvRing → EvRing) : (s.updEvRing e f).hi = s.hi := rfl
@[simp] theorem State.updEvRing_rings (e : Nat) (f : EvRing → EvRing) : (s.updEvRing e f).rings = s.rings := rfl
@[simp] theorem State.updEvRing_evqA (e : Nat) (f : EvRing → EvRing) : (s.updEvRing e f).evqA = s.evqA := rfl
@[simp] theorem State.updEvRing_evqB (e : Nat) (f : EvRing → EvRing) : (s.updEvRing e f).evqB = s.evqB := rfl
@[simp] theorem State.updEvRing_otp (e : Nat) (f : EvRing → EvRing) : (s.updEvRing e f).otp = s.otp := rfl
@[simp] theorem State.updEvRing_pm (e : Nat) (f : EvRing → EvRing) : (s.updEvRing e f).pm = s.pm := rfl
@[simp] theorem State.updEvRing_bist (e : Nat) (f : EvRing → EvRing) : (s.updEvRing e f).bist = s.bist := rfl
@[simp] theorem State.updEvRing_db (e : Nat) (f : EvRing → EvRing) : (s.updEvRing e f).db = s.db := rfl
@[simp] theorem State.updEvRing_tiles (e : Nat) (f : EvRing → EvRing) : (s.updEvRing e f).tiles = s.tiles := rfl
@[simp] theorem State.updEvRing_gc (e : Nat) (f : EvRing → EvRing) : (s.updEvRing e f).gc = s.gc := rfl
@[simp] theorem State.updEvRing_adm (e : Nat) (f : EvRing → EvRing) : (s.updEvRing e f).adm = s.adm := rfl
@[simp] theorem State.updEvRing_mig (e : Nat) (f : EvRing → EvRing) : (s.updEvRing e f).mig = s.mig := rfl
@[simp] theorem State.updEvRing_buf (e : Nat) (f : EvRing → EvRing) : (s.updEvRing e f).buf = s.buf := rfl
@[simp] theorem State.updEvRing_op (e : Nat) (f : EvRing → EvRing) : (s.updEvRing e f).op = s.op := rfl
@[simp] theorem State.updEvRing_waiting (e : Nat) (f : EvRing → EvRing) : (s.updEvRing e f).waiting = s.waiting := rfl
@[simp] theorem State.updEvRing_boot (e : Nat) (f : EvRing → EvRing) : (s.updEvRing e f).boot = s.boot := rfl
@[simp] theorem State.updEvRing_bootSets (e : Nat) (f : EvRing → EvRing) : (s.updEvRing e f).bootSets = s.bootSets := rfl
@[simp] theorem State.updEvRing_snap (e : Nat) (f : EvRing → EvRing) : (s.updEvRing e f).snap = s.snap := rfl
@[simp] theorem State.updEvRing_diagBuf (e : Nat) (f : EvRing → EvRing) : (s.updEvRing e f).diagBuf = s.diagBuf := rfl
@[simp] theorem State.updEvRing_readData (e : Nat) (f : EvRing → EvRing) : (s.updEvRing e f).readData = s.readData := rfl
@[simp] theorem State.updEvRing_freeCtr (e : Nat) (f : EvRing → EvRing) : (s.updEvRing e f).freeCtr = s.freeCtr := rfl
@[simp] theorem State.updEvRing_zone (e : Nat) (f : EvRing → EvRing) (i : Nat) : (s.updEvRing e f).zone i = s.zone i := rfl
@[simp] theorem State.updEvRing_pair (e : Nat) (f : EvRing → EvRing) (i : Nat) : (s.updEvRing e f).pair i = s.pair i := rfl
@[simp] theorem State.updEvRing_chan (e : Nat) (f : EvRing → EvRing) (i : Nat) : (s.updEvRing e f).chan i = s.chan i := rfl
@[simp] theorem State.updEvRing_grp (e : Nat) (f : EvRing → EvRing) (i : Nat) : (s.updEvRing e f).grp i = s.grp i := rfl
@[simp] theorem State.updEvRing_capUnit (e : Nat) (f : EvRing → EvRing) (i : Nat) : (s.updEvRing e f).capUnit i = s.capUnit i := rfl
@[simp] theorem State.updEvRing_port (e : Nat) (f : EvRing → EvRing) (i : Nat) : (s.updEvRing e f).port i = s.port i := rfl
@[simp] theorem State.updEvRing_conn (e : Nat) (f : EvRing → EvRing) (i : Nat) : (s.updEvRing e f).conn i = s.conn i := rfl
@[simp] theorem State.updEvRing_gt (e : Nat) (f : EvRing → EvRing) (i : Nat) : (s.updEvRing e f).gt i = s.gt i := rfl
@[simp] theorem State.updEvRing_crc (e : Nat) (f : EvRing → EvRing) (i : Nat) : (s.updEvRing e f).crc i = s.crc i := rfl
@[simp] theorem State.updEvRing_ring (e : Nat) (f : EvRing → EvRing) (i : Nat) : (s.updEvRing e f).ring i = s.ring i := rfl
@[simp] theorem State.updEvRing_otpWord (e : Nat) (f : EvRing → EvRing) (i : Nat) : (s.updEvRing e f).otpWord i = s.otpWord i := rfl
@[simp] theorem State.updEvRing_tileAt (e : Nat) (f : EvRing → EvRing) (i : Nat) : (s.updEvRing e f).tileAt i = s.tileAt i := rfl
@[simp] theorem State.updEvRing_frec (e : Nat) (f : EvRing → EvRing) (i : Nat) : (s.updEvRing e f).frec i = s.frec i := rfl
@[simp] theorem State.updEvRing_evRing_self (e : Nat) (f : EvRing → EvRing) : (s.updEvRing e f).evRing e = f (s.evRing e) := tabGet_tabUpd_self
theorem State.updEvRing_evRing (e : Nat) (f : EvRing → EvRing) (i : Nat) : (s.updEvRing e f).evRing i = if i = e then f (s.evRing e) else s.evRing i := tabGet_tabUpd
theorem State.updEvRing_evRing_ne (e : Nat) (f : EvRing → EvRing) (i : Nat) (h : i ≠ e) : (s.updEvRing e f).evRing i = s.evRing i := tabGet_tabUpd_ne h

/-! `updOtp` -/

@[simp] theorem State.updOtp_pending (w : Nat) (f : OtpWord → OtpWord) : (s.updOtp w f).pending = s.pending := rfl
@[simp] theorem State.updOtp_tb (w : Nat) (f : OtpWord → OtpWord) : (s.updOtp w f).tb = s.tb := rfl
@[simp] theorem State.updOtp_laneA (w : Nat) (f : OtpWord → OtpWord) : (s.updOtp w f).laneA = s.laneA := rfl
@[simp] theorem State.updOtp_laneB (w : Nat) (f : OtpWord → OtpWord) : (s.updOtp w f).laneB = s.laneB := rfl
@[simp] theorem State.updOtp_markNum (w : Nat) (f : OtpWord → OtpWord) : (s.updOtp w f).markNum = s.markNum := rfl
@[simp] theorem State.updOtp_ptsA (w : Nat) (f : OtpWord → OtpWord) : (s.updOtp w f).ptsA = s.ptsA := rfl
@[simp] theorem State.updOtp_ptsB (w : Nat) (f : OtpWord → OtpWord) : (s.updOtp w f).ptsB = s.ptsB := rfl
@[simp] theorem State.updOtp_caps (w : Nat) (f : OtpWord → OtpWord) : (s.updOtp w f).caps = s.caps := rfl
@[simp] theorem State.updOtp_imgA (w : Nat) (f : OtpWord → OtpWord) : (s.updOtp w f).imgA = s.imgA := rfl
@[simp] theorem State.updOtp_imgB (w : Nat) (f : OtpWord → OtpWord) : (s.updOtp w f).imgB = s.imgB := rfl
@[simp] theorem State.updOtp_imgCaps (w : Nat) (f : OtpWord → OtpWord) : (s.updOtp w f).imgCaps = s.imgCaps := rfl
@[simp] theorem State.updOtp_owed (w : Nat) (f : OtpWord → OtpWord) : (s.updOtp w f).owed = s.owed := rfl
@[simp] theorem State.updOtp_handed (w : Nat) (f : OtpWord → OtpWord) : (s.updOtp w f).handed = s.handed := rfl
@[simp] theorem State.updOtp_trans (w : Nat) (f : OtpWord → OtpWord) : (s.updOtp w f).trans = s.trans := rfl
@[simp] theorem State.updOtp_zones (w : Nat) (f : OtpWord → OtpWord) : (s.updOtp w f).zones = s.zones := rfl
@[simp] theorem State.updOtp_pairs (w : Nat) (f : OtpWord → OtpWord) : (s.updOtp w f).pairs = s.pairs := rfl
@[simp] theorem State.updOtp_cat1 (w : Nat) (f : OtpWord → OtpWord) : (s.updOtp w f).cat1 = s.cat1 := rfl
@[simp] theorem State.updOtp_prodOwnA (w : Nat) (f : OtpWord → OtpWord) : (s.updOtp w f).prodOwnA = s.prodOwnA := rfl
@[simp] theorem State.updOtp_prodOwnB (w : Nat) (f : OtpWord → OtpWord) : (s.updOtp w f).prodOwnB = s.prodOwnB := rfl
@[simp] theorem State.updOtp_internals (w : Nat) (f : OtpWord → OtpWord) : (s.updOtp w f).internals = s.internals := rfl
@[simp] theorem State.updOtp_internalsB (w : Nat) (f : OtpWord → OtpWord) : (s.updOtp w f).internalsB = s.internalsB := rfl
@[simp] theorem State.updOtp_chans (w : Nat) (f : OtpWord → OtpWord) : (s.updOtp w f).chans = s.chans := rfl
@[simp] theorem State.updOtp_grps (w : Nat) (f : OtpWord → OtpWord) : (s.updOtp w f).grps = s.grps := rfl
@[simp] theorem State.updOtp_capUnits (w : Nat) (f : OtpWord → OtpWord) : (s.updOtp w f).capUnits = s.capUnits := rfl
@[simp] theorem State.updOtp_fd (w : Nat) (f : OtpWord → OtpWord) : (s.updOtp w f).fd = s.fd := rfl
@[simp] theorem State.updOtp_ports (w : Nat) (f : OtpWord → OtpWord) : (s.updOtp w f).ports = s.ports := rfl
@[simp] theorem State.updOtp_conns (w : Nat) (f : OtpWord → OtpWord) : (s.updOtp w f).conns = s.conns := rfl
@[simp] theorem State.updOtp_fl (w : Nat) (f : OtpWord → OtpWord) : (s.updOtp w f).fl = s.fl := rfl
@[simp] theorem State.updOtp_lmWarn (w : Nat) (f : OtpWord → OtpWord) : (s.updOtp w f).lmWarn = s.lmWarn := rfl
@[simp] theorem State.updOtp_lmWarnB (w : Nat) (f : OtpWord → OtpWord) : (s.updOtp w f).lmWarnB = s.lmWarnB := rfl
@[simp] theorem State.updOtp_gts (w : Nat) (f : OtpWord → OtpWord) : (s.updOtp w f).gts = s.gts := rfl
@[simp] theorem State.updOtp_stg (w : Nat) (f : OtpWord → OtpWord) : (s.updOtp w f).stg = s.stg := rfl
@[simp] theorem State.updOtp_crcs (w : Nat) (f : OtpWord → OtpWord) : (s.updOtp w f).crcs = s.crcs := rfl
@[simp] theorem State.updOtp_hi (w : Nat) (f : OtpWord → OtpWord) : (s.updOtp w f).hi = s.hi := rfl
@[simp] theorem State.updOtp_rings (w : Nat) (f : OtpWord → OtpWord) : (s.updOtp w f).rings = s.rings := rfl
@[simp] theorem State.updOtp_evRings (w : Nat) (f : OtpWord → OtpWord) : (s.updOtp w f).evRings = s.evRings := rfl
@[simp] theorem State.updOtp_evqA (w : Nat) (f : OtpWord → OtpWord) : (s.updOtp w f).evqA = s.evqA := rfl
@[simp] theorem State.updOtp_evqB (w : Nat) (f : OtpWord → OtpWord) : (s.updOtp w f).evqB = s.evqB := rfl
@[simp] theorem State.updOtp_pm (w : Nat) (f : OtpWord → OtpWord) : (s.updOtp w f).pm = s.pm := rfl
@[simp] theorem State.updOtp_bist (w : Nat) (f : OtpWord → OtpWord) : (s.updOtp w f).bist = s.bist := rfl
@[simp] theorem State.updOtp_db (w : Nat) (f : OtpWord → OtpWord) : (s.updOtp w f).db = s.db := rfl
@[simp] theorem State.updOtp_tiles (w : Nat) (f : OtpWord → OtpWord) : (s.updOtp w f).tiles = s.tiles := rfl
@[simp] theorem State.updOtp_gc (w : Nat) (f : OtpWord → OtpWord) : (s.updOtp w f).gc = s.gc := rfl
@[simp] theorem State.updOtp_adm (w : Nat) (f : OtpWord → OtpWord) : (s.updOtp w f).adm = s.adm := rfl
@[simp] theorem State.updOtp_mig (w : Nat) (f : OtpWord → OtpWord) : (s.updOtp w f).mig = s.mig := rfl
@[simp] theorem State.updOtp_buf (w : Nat) (f : OtpWord → OtpWord) : (s.updOtp w f).buf = s.buf := rfl
@[simp] theorem State.updOtp_op (w : Nat) (f : OtpWord → OtpWord) : (s.updOtp w f).op = s.op := rfl
@[simp] theorem State.updOtp_waiting (w : Nat) (f : OtpWord → OtpWord) : (s.updOtp w f).waiting = s.waiting := rfl
@[simp] theorem State.updOtp_boot (w : Nat) (f : OtpWord → OtpWord) : (s.updOtp w f).boot = s.boot := rfl
@[simp] theorem State.updOtp_bootSets (w : Nat) (f : OtpWord → OtpWord) : (s.updOtp w f).bootSets = s.bootSets := rfl
@[simp] theorem State.updOtp_snap (w : Nat) (f : OtpWord → OtpWord) : (s.updOtp w f).snap = s.snap := rfl
@[simp] theorem State.updOtp_diagBuf (w : Nat) (f : OtpWord → OtpWord) : (s.updOtp w f).diagBuf = s.diagBuf := rfl
@[simp] theorem State.updOtp_readData (w : Nat) (f : OtpWord → OtpWord) : (s.updOtp w f).readData = s.readData := rfl
@[simp] theorem State.updOtp_freeCtr (w : Nat) (f : OtpWord → OtpWord) : (s.updOtp w f).freeCtr = s.freeCtr := rfl
@[simp] theorem State.updOtp_zone (w : Nat) (f : OtpWord → OtpWord) (i : Nat) : (s.updOtp w f).zone i = s.zone i := rfl
@[simp] theorem State.updOtp_pair (w : Nat) (f : OtpWord → OtpWord) (i : Nat) : (s.updOtp w f).pair i = s.pair i := rfl
@[simp] theorem State.updOtp_chan (w : Nat) (f : OtpWord → OtpWord) (i : Nat) : (s.updOtp w f).chan i = s.chan i := rfl
@[simp] theorem State.updOtp_grp (w : Nat) (f : OtpWord → OtpWord) (i : Nat) : (s.updOtp w f).grp i = s.grp i := rfl
@[simp] theorem State.updOtp_capUnit (w : Nat) (f : OtpWord → OtpWord) (i : Nat) : (s.updOtp w f).capUnit i = s.capUnit i := rfl
@[simp] theorem State.updOtp_port (w : Nat) (f : OtpWord → OtpWord) (i : Nat) : (s.updOtp w f).port i = s.port i := rfl
@[simp] theorem State.updOtp_conn (w : Nat) (f : OtpWord → OtpWord) (i : Nat) : (s.updOtp w f).conn i = s.conn i := rfl
@[simp] theorem State.updOtp_gt (w : Nat) (f : OtpWord → OtpWord) (i : Nat) : (s.updOtp w f).gt i = s.gt i := rfl
@[simp] theorem State.updOtp_crc (w : Nat) (f : OtpWord → OtpWord) (i : Nat) : (s.updOtp w f).crc i = s.crc i := rfl
@[simp] theorem State.updOtp_ring (w : Nat) (f : OtpWord → OtpWord) (i : Nat) : (s.updOtp w f).ring i = s.ring i := rfl
@[simp] theorem State.updOtp_evRing (w : Nat) (f : OtpWord → OtpWord) (i : Nat) : (s.updOtp w f).evRing i = s.evRing i := rfl
@[simp] theorem State.updOtp_tileAt (w : Nat) (f : OtpWord → OtpWord) (i : Nat) : (s.updOtp w f).tileAt i = s.tileAt i := rfl
@[simp] theorem State.updOtp_frec (w : Nat) (f : OtpWord → OtpWord) (i : Nat) : (s.updOtp w f).frec i = s.frec i := rfl
@[simp] theorem State.updOtp_otpWord_self (w : Nat) (f : OtpWord → OtpWord) : (s.updOtp w f).otpWord w = f (s.otpWord w) := tabGet_tabUpd_self
theorem State.updOtp_otpWord (w : Nat) (f : OtpWord → OtpWord) (i : Nat) : (s.updOtp w f).otpWord i = if i = w then f (s.otpWord w) else s.otpWord i := tabGet_tabUpd
theorem State.updOtp_otpWord_ne (w : Nat) (f : OtpWord → OtpWord) (i : Nat) (h : i ≠ w) : (s.updOtp w f).otpWord i = s.otpWord i := tabGet_tabUpd_ne h

/-! `updTile` -/

@[simp] theorem State.updTile_pending (k : Nat) (f : Tile → Tile) : (s.updTile k f).pending = s.pending := rfl
@[simp] theorem State.updTile_tb (k : Nat) (f : Tile → Tile) : (s.updTile k f).tb = s.tb := rfl
@[simp] theorem State.updTile_laneA (k : Nat) (f : Tile → Tile) : (s.updTile k f).laneA = s.laneA := rfl
@[simp] theorem State.updTile_laneB (k : Nat) (f : Tile → Tile) : (s.updTile k f).laneB = s.laneB := rfl
@[simp] theorem State.updTile_markNum (k : Nat) (f : Tile → Tile) : (s.updTile k f).markNum = s.markNum := rfl
@[simp] theorem State.updTile_ptsA (k : Nat) (f : Tile → Tile) : (s.updTile k f).ptsA = s.ptsA := rfl
@[simp] theorem State.updTile_ptsB (k : Nat) (f : Tile → Tile) : (s.updTile k f).ptsB = s.ptsB := rfl
@[simp] theorem State.updTile_caps (k : Nat) (f : Tile → Tile) : (s.updTile k f).caps = s.caps := rfl
@[simp] theorem State.updTile_imgA (k : Nat) (f : Tile → Tile) : (s.updTile k f).imgA = s.imgA := rfl
@[simp] theorem State.updTile_imgB (k : Nat) (f : Tile → Tile) : (s.updTile k f).imgB = s.imgB := rfl
@[simp] theorem State.updTile_imgCaps (k : Nat) (f : Tile → Tile) : (s.updTile k f).imgCaps = s.imgCaps := rfl
@[simp] theorem State.updTile_owed (k : Nat) (f : Tile → Tile) : (s.updTile k f).owed = s.owed := rfl
@[simp] theorem State.updTile_handed (k : Nat) (f : Tile → Tile) : (s.updTile k f).handed = s.handed := rfl
@[simp] theorem State.updTile_trans (k : Nat) (f : Tile → Tile) : (s.updTile k f).trans = s.trans := rfl
@[simp] theorem State.updTile_zones (k : Nat) (f : Tile → Tile) : (s.updTile k f).zones = s.zones := rfl
@[simp] theorem State.updTile_pairs (k : Nat) (f : Tile → Tile) : (s.updTile k f).pairs = s.pairs := rfl
@[simp] theorem State.updTile_cat1 (k : Nat) (f : Tile → Tile) : (s.updTile k f).cat1 = s.cat1 := rfl
@[simp] theorem State.updTile_prodOwnA (k : Nat) (f : Tile → Tile) : (s.updTile k f).prodOwnA = s.prodOwnA := rfl
@[simp] theorem State.updTile_prodOwnB (k : Nat) (f : Tile → Tile) : (s.updTile k f).prodOwnB = s.prodOwnB := rfl
@[simp] theorem State.updTile_internals (k : Nat) (f : Tile → Tile) : (s.updTile k f).internals = s.internals := rfl
@[simp] theorem State.updTile_internalsB (k : Nat) (f : Tile → Tile) : (s.updTile k f).internalsB = s.internalsB := rfl
@[simp] theorem State.updTile_chans (k : Nat) (f : Tile → Tile) : (s.updTile k f).chans = s.chans := rfl
@[simp] theorem State.updTile_grps (k : Nat) (f : Tile → Tile) : (s.updTile k f).grps = s.grps := rfl
@[simp] theorem State.updTile_capUnits (k : Nat) (f : Tile → Tile) : (s.updTile k f).capUnits = s.capUnits := rfl
@[simp] theorem State.updTile_fd (k : Nat) (f : Tile → Tile) : (s.updTile k f).fd = s.fd := rfl
@[simp] theorem State.updTile_ports (k : Nat) (f : Tile → Tile) : (s.updTile k f).ports = s.ports := rfl
@[simp] theorem State.updTile_conns (k : Nat) (f : Tile → Tile) : (s.updTile k f).conns = s.conns := rfl
@[simp] theorem State.updTile_fl (k : Nat) (f : Tile → Tile) : (s.updTile k f).fl = s.fl := rfl
@[simp] theorem State.updTile_lmWarn (k : Nat) (f : Tile → Tile) : (s.updTile k f).lmWarn = s.lmWarn := rfl
@[simp] theorem State.updTile_lmWarnB (k : Nat) (f : Tile → Tile) : (s.updTile k f).lmWarnB = s.lmWarnB := rfl
@[simp] theorem State.updTile_gts (k : Nat) (f : Tile → Tile) : (s.updTile k f).gts = s.gts := rfl
@[simp] theorem State.updTile_stg (k : Nat) (f : Tile → Tile) : (s.updTile k f).stg = s.stg := rfl
@[simp] theorem State.updTile_crcs (k : Nat) (f : Tile → Tile) : (s.updTile k f).crcs = s.crcs := rfl
@[simp] theorem State.updTile_hi (k : Nat) (f : Tile → Tile) : (s.updTile k f).hi = s.hi := rfl
@[simp] theorem State.updTile_rings (k : Nat) (f : Tile → Tile) : (s.updTile k f).rings = s.rings := rfl
@[simp] theorem State.updTile_evRings (k : Nat) (f : Tile → Tile) : (s.updTile k f).evRings = s.evRings := rfl
@[simp] theorem State.updTile_evqA (k : Nat) (f : Tile → Tile) : (s.updTile k f).evqA = s.evqA := rfl
@[simp] theorem State.updTile_evqB (k : Nat) (f : Tile → Tile) : (s.updTile k f).evqB = s.evqB := rfl
@[simp] theorem State.updTile_otp (k : Nat) (f : Tile → Tile) : (s.updTile k f).otp = s.otp := rfl
@[simp] theorem State.updTile_pm (k : Nat) (f : Tile → Tile) : (s.updTile k f).pm = s.pm := rfl
@[simp] theorem State.updTile_bist (k : Nat) (f : Tile → Tile) : (s.updTile k f).bist = s.bist := rfl
@[simp] theorem State.updTile_db (k : Nat) (f : Tile → Tile) : (s.updTile k f).db = s.db := rfl
@[simp] theorem State.updTile_gc (k : Nat) (f : Tile → Tile) : (s.updTile k f).gc = s.gc := rfl
@[simp] theorem State.updTile_adm (k : Nat) (f : Tile → Tile) : (s.updTile k f).adm = s.adm := rfl
@[simp] theorem State.updTile_mig (k : Nat) (f : Tile → Tile) : (s.updTile k f).mig = s.mig := rfl
@[simp] theorem State.updTile_buf (k : Nat) (f : Tile → Tile) : (s.updTile k f).buf = s.buf := rfl
@[simp] theorem State.updTile_op (k : Nat) (f : Tile → Tile) : (s.updTile k f).op = s.op := rfl
@[simp] theorem State.updTile_waiting (k : Nat) (f : Tile → Tile) : (s.updTile k f).waiting = s.waiting := rfl
@[simp] theorem State.updTile_boot (k : Nat) (f : Tile → Tile) : (s.updTile k f).boot = s.boot := rfl
@[simp] theorem State.updTile_bootSets (k : Nat) (f : Tile → Tile) : (s.updTile k f).bootSets = s.bootSets := rfl
@[simp] theorem State.updTile_snap (k : Nat) (f : Tile → Tile) : (s.updTile k f).snap = s.snap := rfl
@[simp] theorem State.updTile_diagBuf (k : Nat) (f : Tile → Tile) : (s.updTile k f).diagBuf = s.diagBuf := rfl
@[simp] theorem State.updTile_readData (k : Nat) (f : Tile → Tile) : (s.updTile k f).readData = s.readData := rfl
@[simp] theorem State.updTile_freeCtr (k : Nat) (f : Tile → Tile) : (s.updTile k f).freeCtr = s.freeCtr := rfl
@[simp] theorem State.updTile_zone (k : Nat) (f : Tile → Tile) (i : Nat) : (s.updTile k f).zone i = s.zone i := rfl
@[simp] theorem State.updTile_pair (k : Nat) (f : Tile → Tile) (i : Nat) : (s.updTile k f).pair i = s.pair i := rfl
@[simp] theorem State.updTile_chan (k : Nat) (f : Tile → Tile) (i : Nat) : (s.updTile k f).chan i = s.chan i := rfl
@[simp] theorem State.updTile_grp (k : Nat) (f : Tile → Tile) (i : Nat) : (s.updTile k f).grp i = s.grp i := rfl
@[simp] theorem State.updTile_capUnit (k : Nat) (f : Tile → Tile) (i : Nat) : (s.updTile k f).capUnit i = s.capUnit i := rfl
@[simp] theorem State.updTile_port (k : Nat) (f : Tile → Tile) (i : Nat) : (s.updTile k f).port i = s.port i := rfl
@[simp] theorem State.updTile_conn (k : Nat) (f : Tile → Tile) (i : Nat) : (s.updTile k f).conn i = s.conn i := rfl
@[simp] theorem State.updTile_gt (k : Nat) (f : Tile → Tile) (i : Nat) : (s.updTile k f).gt i = s.gt i := rfl
@[simp] theorem State.updTile_crc (k : Nat) (f : Tile → Tile) (i : Nat) : (s.updTile k f).crc i = s.crc i := rfl
@[simp] theorem State.updTile_ring (k : Nat) (f : Tile → Tile) (i : Nat) : (s.updTile k f).ring i = s.ring i := rfl
@[simp] theorem State.updTile_evRing (k : Nat) (f : Tile → Tile) (i : Nat) : (s.updTile k f).evRing i = s.evRing i := rfl
@[simp] theorem State.updTile_otpWord (k : Nat) (f : Tile → Tile) (i : Nat) : (s.updTile k f).otpWord i = s.otpWord i := rfl
@[simp] theorem State.updTile_frec (k : Nat) (f : Tile → Tile) (i : Nat) : (s.updTile k f).frec i = s.frec i := rfl
@[simp] theorem State.updTile_tileAt_self (k : Nat) (f : Tile → Tile) : (s.updTile k f).tileAt k = f (s.tileAt k) := tabGet_tabUpd_self
theorem State.updTile_tileAt (k : Nat) (f : Tile → Tile) (i : Nat) : (s.updTile k f).tileAt i = if i = k then f (s.tileAt k) else s.tileAt i := tabGet_tabUpd
theorem State.updTile_tileAt_ne (k : Nat) (f : Tile → Tile) (i : Nat) (h : i ≠ k) : (s.updTile k f).tileAt i = s.tileAt i := tabGet_tabUpd_ne h

/-! `updFd` -/

@[simp] theorem State.updFd_pending (f : Fd → Fd) : (s.updFd f).pending = s.pending := rfl
@[simp] theorem State.updFd_tb (f : Fd → Fd) : (s.updFd f).tb = s.tb := rfl
@[simp] theorem State.updFd_laneA (f : Fd → Fd) : (s.updFd f).laneA = s.laneA := rfl
@[simp] theorem State.updFd_laneB (f : Fd → Fd) : (s.updFd f).laneB = s.laneB := rfl
@[simp] theorem State.updFd_markNum (f : Fd → Fd) : (s.updFd f).markNum = s.markNum := rfl
@[simp] theorem State.updFd_ptsA (f : Fd → Fd) : (s.updFd f).ptsA = s.ptsA := rfl
@[simp] theorem State.updFd_ptsB (f : Fd → Fd) : (s.updFd f).ptsB = s.ptsB := rfl
@[simp] theorem State.updFd_caps (f : Fd → Fd) : (s.updFd f).caps = s.caps := rfl
@[simp] theorem State.updFd_imgA (f : Fd → Fd) : (s.updFd f).imgA = s.imgA := rfl
@[simp] theorem State.updFd_imgB (f : Fd → Fd) : (s.updFd f).imgB = s.imgB := rfl
@[simp] theorem State.updFd_imgCaps (f : Fd → Fd) : (s.updFd f).imgCaps = s.imgCaps := rfl
@[simp] theorem State.updFd_owed (f : Fd → Fd) : (s.updFd f).owed = s.owed := rfl
@[simp] theorem State.updFd_handed (f : Fd → Fd) : (s.updFd f).handed = s.handed := rfl
@[simp] theorem State.updFd_trans (f : Fd → Fd) : (s.updFd f).trans = s.trans := rfl
@[simp] theorem State.updFd_zones (f : Fd → Fd) : (s.updFd f).zones = s.zones := rfl
@[simp] theorem State.updFd_pairs (f : Fd → Fd) : (s.updFd f).pairs = s.pairs := rfl
@[simp] theorem State.updFd_cat1 (f : Fd → Fd) : (s.updFd f).cat1 = s.cat1 := rfl
@[simp] theorem State.updFd_prodOwnA (f : Fd → Fd) : (s.updFd f).prodOwnA = s.prodOwnA := rfl
@[simp] theorem State.updFd_prodOwnB (f : Fd → Fd) : (s.updFd f).prodOwnB = s.prodOwnB := rfl
@[simp] theorem State.updFd_internals (f : Fd → Fd) : (s.updFd f).internals = s.internals := rfl
@[simp] theorem State.updFd_internalsB (f : Fd → Fd) : (s.updFd f).internalsB = s.internalsB := rfl
@[simp] theorem State.updFd_chans (f : Fd → Fd) : (s.updFd f).chans = s.chans := rfl
@[simp] theorem State.updFd_grps (f : Fd → Fd) : (s.updFd f).grps = s.grps := rfl
@[simp] theorem State.updFd_capUnits (f : Fd → Fd) : (s.updFd f).capUnits = s.capUnits := rfl
@[simp] theorem State.updFd_ports (f : Fd → Fd) : (s.updFd f).ports = s.ports := rfl
@[simp] theorem State.updFd_conns (f : Fd → Fd) : (s.updFd f).conns = s.conns := rfl
@[simp] theorem State.updFd_fl (f : Fd → Fd) : (s.updFd f).fl = s.fl := rfl
@[simp] theorem State.updFd_lmWarn (f : Fd → Fd) : (s.updFd f).lmWarn = s.lmWarn := rfl
@[simp] theorem State.updFd_lmWarnB (f : Fd → Fd) : (s.updFd f).lmWarnB = s.lmWarnB := rfl
@[simp] theorem State.updFd_gts (f : Fd → Fd) : (s.updFd f).gts = s.gts := rfl
@[simp] theorem State.updFd_stg (f : Fd → Fd) : (s.updFd f).stg = s.stg := rfl
@[simp] theorem State.updFd_crcs (f : Fd → Fd) : (s.updFd f).crcs = s.crcs := rfl
@[simp] theorem State.updFd_hi (f : Fd → Fd) : (s.updFd f).hi = s.hi := rfl
@[simp] theorem State.updFd_rings (f : Fd → Fd) : (s.updFd f).rings = s.rings := rfl
@[simp] theorem State.updFd_evRings (f : Fd → Fd) : (s.updFd f).evRings = s.evRings := rfl
@[simp] theorem State.updFd_evqA (f : Fd → Fd) : (s.updFd f).evqA = s.evqA := rfl
@[simp] theorem State.updFd_evqB (f : Fd → Fd) : (s.updFd f).evqB = s.evqB := rfl
@[simp] theorem State.updFd_otp (f : Fd → Fd) : (s.updFd f).otp = s.otp := rfl
@[simp] theorem State.updFd_pm (f : Fd → Fd) : (s.updFd f).pm = s.pm := rfl
@[simp] theorem State.updFd_bist (f : Fd → Fd) : (s.updFd f).bist = s.bist := rfl
@[simp] theorem State.updFd_db (f : Fd → Fd) : (s.updFd f).db = s.db := rfl
@[simp] theorem State.updFd_tiles (f : Fd → Fd) : (s.updFd f).tiles = s.tiles := rfl
@[simp] theorem State.updFd_gc (f : Fd → Fd) : (s.updFd f).gc = s.gc := rfl
@[simp] theorem State.updFd_adm (f : Fd → Fd) : (s.updFd f).adm = s.adm := rfl
@[simp] theorem State.updFd_mig (f : Fd → Fd) : (s.updFd f).mig = s.mig := rfl
@[simp] theorem State.updFd_buf (f : Fd → Fd) : (s.updFd f).buf = s.buf := rfl
@[simp] theorem State.updFd_op (f : Fd → Fd) : (s.updFd f).op = s.op := rfl
@[simp] theorem State.updFd_waiting (f : Fd → Fd) : (s.updFd f).waiting = s.waiting := rfl
@[simp] theorem State.updFd_boot (f : Fd → Fd) : (s.updFd f).boot = s.boot := rfl
@[simp] theorem State.updFd_bootSets (f : Fd → Fd) : (s.updFd f).bootSets = s.bootSets := rfl
@[simp] theorem State.updFd_snap (f : Fd → Fd) : (s.updFd f).snap = s.snap := rfl
@[simp] theorem State.updFd_diagBuf (f : Fd → Fd) : (s.updFd f).diagBuf = s.diagBuf := rfl
@[simp] theorem State.updFd_readData (f : Fd → Fd) : (s.updFd f).readData = s.readData := rfl
@[simp] theorem State.updFd_freeCtr (f : Fd → Fd) : (s.updFd f).freeCtr = s.freeCtr := rfl
@[simp] theorem State.updFd_zone (f : Fd → Fd) (i : Nat) : (s.updFd f).zone i = s.zone i := rfl
@[simp] theorem State.updFd_pair (f : Fd → Fd) (i : Nat) : (s.updFd f).pair i = s.pair i := rfl
@[simp] theorem State.updFd_chan (f : Fd → Fd) (i : Nat) : (s.updFd f).chan i = s.chan i := rfl
@[simp] theorem State.updFd_grp (f : Fd → Fd) (i : Nat) : (s.updFd f).grp i = s.grp i := rfl
@[simp] theorem State.updFd_capUnit (f : Fd → Fd) (i : Nat) : (s.updFd f).capUnit i = s.capUnit i := rfl
@[simp] theorem State.updFd_port (f : Fd → Fd) (i : Nat) : (s.updFd f).port i = s.port i := rfl
@[simp] theorem State.updFd_conn (f : Fd → Fd) (i : Nat) : (s.updFd f).conn i = s.conn i := rfl
@[simp] theorem State.updFd_gt (f : Fd → Fd) (i : Nat) : (s.updFd f).gt i = s.gt i := rfl
@[simp] theorem State.updFd_crc (f : Fd → Fd) (i : Nat) : (s.updFd f).crc i = s.crc i := rfl
@[simp] theorem State.updFd_ring (f : Fd → Fd) (i : Nat) : (s.updFd f).ring i = s.ring i := rfl
@[simp] theorem State.updFd_evRing (f : Fd → Fd) (i : Nat) : (s.updFd f).evRing i = s.evRing i := rfl
@[simp] theorem State.updFd_otpWord (f : Fd → Fd) (i : Nat) : (s.updFd f).otpWord i = s.otpWord i := rfl
@[simp] theorem State.updFd_tileAt (f : Fd → Fd) (i : Nat) : (s.updFd f).tileAt i = s.tileAt i := rfl
@[simp] theorem State.updFd_frec (f : Fd → Fd) (i : Nat) : (s.updFd f).frec i = s.frec i := rfl
@[simp] theorem State.updFd_fd (f : Fd → Fd) : (s.updFd f).fd = f s.fd := rfl

/-! `updPm` -/

@[simp] theorem State.updPm_pending (f : Pm → Pm) : (s.updPm f).pending = s.pending := rfl
@[simp] theorem State.updPm_tb (f : Pm → Pm) : (s.updPm f).tb = s.tb := rfl
@[simp] theorem State.updPm_laneA (f : Pm → Pm) : (s.updPm f).laneA = s.laneA := rfl
@[simp] theorem State.updPm_laneB (f : Pm → Pm) : (s.updPm f).laneB = s.laneB := rfl
@[simp] theorem State.updPm_markNum (f : Pm → Pm) : (s.updPm f).markNum = s.markNum := rfl
@[simp] theorem State.updPm_ptsA (f : Pm → Pm) : (s.updPm f).ptsA = s.ptsA := rfl
@[simp] theorem State.updPm_ptsB (f : Pm → Pm) : (s.updPm f).ptsB = s.ptsB := rfl
@[simp] theorem State.updPm_caps (f : Pm → Pm) : (s.updPm f).caps = s.caps := rfl
@[simp] theorem State.updPm_imgA (f : Pm → Pm) : (s.updPm f).imgA = s.imgA := rfl
@[simp] theorem State.updPm_imgB (f : Pm → Pm) : (s.updPm f).imgB = s.imgB := rfl
@[simp] theorem State.updPm_imgCaps (f : Pm → Pm) : (s.updPm f).imgCaps = s.imgCaps := rfl
@[simp] theorem State.updPm_owed (f : Pm → Pm) : (s.updPm f).owed = s.owed := rfl
@[simp] theorem State.updPm_handed (f : Pm → Pm) : (s.updPm f).handed = s.handed := rfl
@[simp] theorem State.updPm_trans (f : Pm → Pm) : (s.updPm f).trans = s.trans := rfl
@[simp] theorem State.updPm_zones (f : Pm → Pm) : (s.updPm f).zones = s.zones := rfl
@[simp] theorem State.updPm_pairs (f : Pm → Pm) : (s.updPm f).pairs = s.pairs := rfl
@[simp] theorem State.updPm_cat1 (f : Pm → Pm) : (s.updPm f).cat1 = s.cat1 := rfl
@[simp] theorem State.updPm_prodOwnA (f : Pm → Pm) : (s.updPm f).prodOwnA = s.prodOwnA := rfl
@[simp] theorem State.updPm_prodOwnB (f : Pm → Pm) : (s.updPm f).prodOwnB = s.prodOwnB := rfl
@[simp] theorem State.updPm_internals (f : Pm → Pm) : (s.updPm f).internals = s.internals := rfl
@[simp] theorem State.updPm_internalsB (f : Pm → Pm) : (s.updPm f).internalsB = s.internalsB := rfl
@[simp] theorem State.updPm_chans (f : Pm → Pm) : (s.updPm f).chans = s.chans := rfl
@[simp] theorem State.updPm_grps (f : Pm → Pm) : (s.updPm f).grps = s.grps := rfl
@[simp] theorem State.updPm_capUnits (f : Pm → Pm) : (s.updPm f).capUnits = s.capUnits := rfl
@[simp] theorem State.updPm_fd (f : Pm → Pm) : (s.updPm f).fd = s.fd := rfl
@[simp] theorem State.updPm_ports (f : Pm → Pm) : (s.updPm f).ports = s.ports := rfl
@[simp] theorem State.updPm_conns (f : Pm → Pm) : (s.updPm f).conns = s.conns := rfl
@[simp] theorem State.updPm_fl (f : Pm → Pm) : (s.updPm f).fl = s.fl := rfl
@[simp] theorem State.updPm_lmWarn (f : Pm → Pm) : (s.updPm f).lmWarn = s.lmWarn := rfl
@[simp] theorem State.updPm_lmWarnB (f : Pm → Pm) : (s.updPm f).lmWarnB = s.lmWarnB := rfl
@[simp] theorem State.updPm_gts (f : Pm → Pm) : (s.updPm f).gts = s.gts := rfl
@[simp] theorem State.updPm_stg (f : Pm → Pm) : (s.updPm f).stg = s.stg := rfl
@[simp] theorem State.updPm_crcs (f : Pm → Pm) : (s.updPm f).crcs = s.crcs := rfl
@[simp] theorem State.updPm_hi (f : Pm → Pm) : (s.updPm f).hi = s.hi := rfl
@[simp] theorem State.updPm_rings (f : Pm → Pm) : (s.updPm f).rings = s.rings := rfl
@[simp] theorem State.updPm_evRings (f : Pm → Pm) : (s.updPm f).evRings = s.evRings := rfl
@[simp] theorem State.updPm_evqA (f : Pm → Pm) : (s.updPm f).evqA = s.evqA := rfl
@[simp] theorem State.updPm_evqB (f : Pm → Pm) : (s.updPm f).evqB = s.evqB := rfl
@[simp] theorem State.updPm_otp (f : Pm → Pm) : (s.updPm f).otp = s.otp := rfl
@[simp] theorem State.updPm_bist (f : Pm → Pm) : (s.updPm f).bist = s.bist := rfl
@[simp] theorem State.updPm_db (f : Pm → Pm) : (s.updPm f).db = s.db := rfl
@[simp] theorem State.updPm_tiles (f : Pm → Pm) : (s.updPm f).tiles = s.tiles := rfl
@[simp] theorem State.updPm_gc (f : Pm → Pm) : (s.updPm f).gc = s.gc := rfl
@[simp] theorem State.updPm_adm (f : Pm → Pm) : (s.updPm f).adm = s.adm := rfl
@[simp] theorem State.updPm_mig (f : Pm → Pm) : (s.updPm f).mig = s.mig := rfl
@[simp] theorem State.updPm_buf (f : Pm → Pm) : (s.updPm f).buf = s.buf := rfl
@[simp] theorem State.updPm_op (f : Pm → Pm) : (s.updPm f).op = s.op := rfl
@[simp] theorem State.updPm_waiting (f : Pm → Pm) : (s.updPm f).waiting = s.waiting := rfl
@[simp] theorem State.updPm_boot (f : Pm → Pm) : (s.updPm f).boot = s.boot := rfl
@[simp] theorem State.updPm_bootSets (f : Pm → Pm) : (s.updPm f).bootSets = s.bootSets := rfl
@[simp] theorem State.updPm_snap (f : Pm → Pm) : (s.updPm f).snap = s.snap := rfl
@[simp] theorem State.updPm_diagBuf (f : Pm → Pm) : (s.updPm f).diagBuf = s.diagBuf := rfl
@[simp] theorem State.updPm_readData (f : Pm → Pm) : (s.updPm f).readData = s.readData := rfl
@[simp] theorem State.updPm_freeCtr (f : Pm → Pm) : (s.updPm f).freeCtr = s.freeCtr := rfl
@[simp] theorem State.updPm_zone (f : Pm → Pm) (i : Nat) : (s.updPm f).zone i = s.zone i := rfl
@[simp] theorem State.updPm_pair (f : Pm → Pm) (i : Nat) : (s.updPm f).pair i = s.pair i := rfl
@[simp] theorem State.updPm_chan (f : Pm → Pm) (i : Nat) : (s.updPm f).chan i = s.chan i := rfl
@[simp] theorem State.updPm_grp (f : Pm → Pm) (i : Nat) : (s.updPm f).grp i = s.grp i := rfl
@[simp] theorem State.updPm_capUnit (f : Pm → Pm) (i : Nat) : (s.updPm f).capUnit i = s.capUnit i := rfl
@[simp] theorem State.updPm_port (f : Pm → Pm) (i : Nat) : (s.updPm f).port i = s.port i := rfl
@[simp] theorem State.updPm_conn (f : Pm → Pm) (i : Nat) : (s.updPm f).conn i = s.conn i := rfl
@[simp] theorem State.updPm_gt (f : Pm → Pm) (i : Nat) : (s.updPm f).gt i = s.gt i := rfl
@[simp] theorem State.updPm_crc (f : Pm → Pm) (i : Nat) : (s.updPm f).crc i = s.crc i := rfl
@[simp] theorem State.updPm_ring (f : Pm → Pm) (i : Nat) : (s.updPm f).ring i = s.ring i := rfl
@[simp] theorem State.updPm_evRing (f : Pm → Pm) (i : Nat) : (s.updPm f).evRing i = s.evRing i := rfl
@[simp] theorem State.updPm_otpWord (f : Pm → Pm) (i : Nat) : (s.updPm f).otpWord i = s.otpWord i := rfl
@[simp] theorem State.updPm_tileAt (f : Pm → Pm) (i : Nat) : (s.updPm f).tileAt i = s.tileAt i := rfl
@[simp] theorem State.updPm_frec (f : Pm → Pm) (i : Nat) : (s.updPm f).frec i = s.frec i := rfl
@[simp] theorem State.updPm_pm (f : Pm → Pm) : (s.updPm f).pm = f s.pm := rfl

end Sys2Proof.Machine
end

