-- ==== Sys2Proof/Laws/Ops.lean ====
section
/-!
SUPPORT. What the shared operations change: each differs from the state it is given in one named part alone (`Only`), and what it does
there.
-/
namespace Sys2Proof.Machine
open Sys2Proof

/-- A part of the state: `m s t` is `s` with that part taken from `t`. -/
structure Part (m : State → State → State) : Prop where
  self : ∀ s, m s s = s
  again : ∀ s t u, m (m s t) u = m s u

/-- `t` differs from `s` in the part `m` alone. -/
def Only (m : State → State → State) (s t : State) : Prop := m s t = t

section
variable {m m' : State → State → State} {s t u : State}

theorem Only.refl (p : Part m) (s : State) : Only m s s := p.self s

theorem Only.trans (p : Part m) (h : Only m s t) (k : Only m t u) : Only m s u := by
  unfold Only at *
  have e : m s u = m (m s t) u := (p.again s t u).symm
  rw [e, h, k]

theorem Only.mono (h : Only m s t) (w : ∀ s t, m' s (m s t) = m s t) : Only m' s t := by
  unfold Only at *
  rw [← h, w]

/-- Taking the part back gives the old state. -/
theorem Only.back (p : Part m) (h : Only m s t) : m t s = s := by
  unfold Only at h
  have e : m (m s t) s = m s s := p.again s t s
  rw [h, p.self] at e
  exact e

theorem Only.foldl {α : Type} {f : State → α → State} (p : Part m) (h : ∀ t x, Only m t (f t x)) (xs : List α) (s : State) :
    Only m s (xs.foldl f s) := by
  induction xs generalizing s with
  | nil => exact Only.refl p s
  | cons x r ih => exact Only.trans p (h s x) (ih (f s x))
end

/-! ### Parts -/

/-- Event rings and the queues to them. -/
abbrev evPart (s t : State) : State := { s with evRings := t.evRings, evqA := t.evqA, evqB := t.evqB, hi := t.hi }
abbrev ringPart (s t : State) : State := { s with rings := t.rings, hi := t.hi }
abbrev recPart (s t : State) : State := { s with fl := t.fl, evRings := t.evRings, evqA := t.evqA, evqB := t.evqB, hi := t.hi }
abbrev zonePart (s t : State) : State := { s with zones := t.zones, evRings := t.evRings, evqA := t.evqA, evqB := t.evqB, hi := t.hi }
abbrev ptPart (s t : State) : State := { s with ptsA := t.ptsA, ptsB := t.ptsB, trans := t.trans }
abbrev outPart (s t : State) : State := { s with
  ptsA := t.ptsA, ptsB := t.ptsB, trans := t.trans, owed := t.owed, cat1 := t.cat1
  laneA := { s.laneA with toFd := t.laneA.toFd }, laneB := { s.laneB with toFd := t.laneB.toFd } }
abbrev fzPart (s t : State) : State := { s with
  ptsA := t.ptsA, ptsB := t.ptsB, trans := t.trans, owed := t.owed, cat1 := t.cat1, zones := t.zones, evRings := t.evRings, evqA := t.evqA, evqB := t.evqB, hi := t.hi
  laneA := { s.laneA with toFd := t.laneA.toFd }, laneB := { s.laneB with toFd := t.laneB.toFd } }
abbrev raisePart (s t : State) : State := { s with
  ptsA := t.ptsA, ptsB := t.ptsB, trans := t.trans, owed := t.owed, cat1 := t.cat1, zones := t.zones, evRings := t.evRings, evqA := t.evqA, evqB := t.evqB, hi := t.hi
  fl := t.fl
  laneA := { s.laneA with toFd := t.laneA.toFd }, laneB := { s.laneB with toFd := t.laneB.toFd } }
abbrev latchPart (s t : State) : State := { s with
  ptsA := t.ptsA, ptsB := t.ptsB, trans := t.trans, zones := t.zones, pairs := t.pairs, evRings := t.evRings, evqA := t.evqA, evqB := t.evqB, hi := t.hi }
abbrev stopPart (s t : State) : State := { s with
  ptsA := t.ptsA, ptsB := t.ptsB, trans := t.trans, owed := t.owed, cat1 := t.cat1, zones := t.zones, evRings := t.evRings, evqA := t.evqA, evqB := t.evqB, hi := t.hi
  fl := t.fl, pairs := t.pairs
  laneA := { s.laneA with toFd := t.laneA.toFd }, laneB := { s.laneB with toFd := t.laneB.toFd } }

theorem evPart_part : Part evPart := ⟨fun _ => rfl, fun _ _ _ => rfl⟩
theorem ringPart_part : Part ringPart := ⟨fun _ => rfl, fun _ _ _ => rfl⟩
theorem recPart_part : Part recPart := ⟨fun _ => rfl, fun _ _ _ => rfl⟩
theorem zonePart_part : Part zonePart := ⟨fun _ => rfl, fun _ _ _ => rfl⟩
theorem ptPart_part : Part ptPart := ⟨fun _ => rfl, fun _ _ _ => rfl⟩
theorem outPart_part : Part outPart := ⟨fun _ => rfl, fun _ _ _ => rfl⟩
theorem fzPart_part : Part fzPart := ⟨fun _ => rfl, fun _ _ _ => rfl⟩
theorem raisePart_part : Part raisePart := ⟨fun _ => rfl, fun _ _ _ => rfl⟩
theorem latchPart_part : Part latchPart := ⟨fun _ => rfl, fun _ _ _ => rfl⟩
theorem stopPart_part : Part stopPart := ⟨fun _ => rfl, fun _ _ _ => rfl⟩

theorem State.toRing_only (s : State) (t k p : Nat) (b : Bool) : Only evPart s (s.toRing t k p b) := by
  unfold State.toRing
  simp only []
  repeat' split
  all_goals rfl

theorem State.updEvq_only (s : State) (l : Lane) (f : Evq → Evq) : Only evPart s (s.updEvq l f) := by
  cases l <;> rfl

theorem State.laneEvent_only (s : State) (l : Lane) (t p : Nat) : Only evPart s (s.laneEvent l t p) := by
  unfold State.laneEvent
  split
  · exact Only.trans evPart_part (State.updEvq_only s l _) rfl
  · exact Only.trans evPart_part (State.updEvq_only s l _) (State.toRing_only _ _ _ _ _)

theorem State.postEvent_only (s : State) (t k p : Nat) : Only evPart s (s.postEvent t k p) := by
  unfold State.postEvent
  split
  · exact State.laneEvent_only s .a t p
  · exact State.laneEvent_only s .b t p
  · exact State.toRing_only _ _ _ _ _

theorem State.setZoneSt_only (s : State) (z : Nat) (st : ZoneSt) : Only zonePart s (s.setZoneSt z st) := by
  unfold State.setZoneSt
  simp only []
  split
  · rfl
  · exact Only.trans zonePart_part (t := s.updZone z fun y => { y with st := st }) rfl
      ((State.postEvent_only _ _ _ _).mono fun _ _ => rfl)

theorem State.completion_only (s : State) (r c o st : Nat) (i : Bool) (res : Nat) :
    Only ringPart s (s.completion r c o st i res) := by
  have h : ∀ t : State, Only ringPart t (t.postCq r c o st i res) := fun t => by
    unfold State.postCq
    simp only []
    repeat' split
    all_goals rfl
  unfold State.completion
  split
  · rfl
  · refine Only.trans ringPart_part ?_ (h _)
    split <;> rfl

theorem State.setRec_only (s : State) (k : Nat) (r : Option FaultRec) : Only recPart s (s.setRec k r) := rfl

theorem State.reportRec_only (s : State) (k : Nat) : Only recPart s (s.reportRec k) := by
  unfold State.reportRec
  split
  · rfl
  · split
    · exact Only.trans recPart_part (State.setRec_only s k _) ((State.postEvent_only _ _ _ _).mono fun _ _ => rfl)
    · exact State.setRec_only s k _

theorem State.record_only (s : State) (code : BitVec 16) (loc : BitVec 12) (la lb : Bool) (d p : Nat) (zs : List Nat) :
    Only recPart s (s.record code loc la lb d p zs) := by
  unfold State.record
  split
  · split
    · rfl
    · refine Only.trans recPart_part (t := State.setRec _ _ _) ?_ (State.reportRec_only _ _)
      rfl
  · split
    · rfl
    · refine Only.trans recPart_part (t := State.setRec _ _ _) ?_ (State.reportRec_only _ _)
      rfl

theorem State.setPtLane_only (s : State) (l : Lane) (a : Nat) (p : Pt) : Only ptPart s (s.setPtLane l a p) := by
  cases l <;> rfl

theorem State.dropLane_only (s : State) (l : Lane) (as : List Nat) : Only ptPart s (s.dropLane l as) := by
  unfold State.dropLane
  exact Only.trans ptPart_part (Only.foldl ptPart_part (fun t x => State.setPtLane_only t l x _) as s) rfl

theorem State.dropPts_only (s : State) (as : List Nat) : Only ptPart s (s.dropPts as) :=
  Only.trans ptPart_part (State.dropLane_only s .a as) (State.dropLane_only _ .b as)

theorem State.commandLane_only (s : State) (l : Lane) (t : Target) (on : Bool) : Only outPart s (s.commandLane l t on) := by
  unfold State.commandLane
  split
  · unfold State.pushFd
    split
    · rfl
    · cases l <;> rfl
  · cases on
    · unfold State.owe
      cases l <;> (simp only [Bool.false_eq_true, if_false]; split <;> rfl)
    · cases l <;> rfl

theorem State.outputsOff_only (s : State) (ts : List Target) : Only outPart s (s.outputsOff ts) := by
  unfold State.outputsOff
  refine Only.foldl outPart_part (fun t x => ?_) ts s
  exact Only.trans outPart_part (Only.trans outPart_part (State.commandLane_only t .a x false) (State.commandLane_only _ .b x false)) rfl

theorem State.faultZone_only (s : State) (z : Nat) : Only fzPart s (s.faultZone z) := by
  unfold State.faultZone
  simp only []
  refine Only.trans fzPart_part (t := State.updZone _ z _) ?_ ((State.setZoneSt_only _ _ _).mono fun _ _ => rfl)
  refine Only.trans fzPart_part ?_ rfl
  split
  · have h : ∀ (t : State) (l : Lane) as, Only fzPart t (t.dropLane l as) :=
      fun t l as => (State.dropLane_only t l as).mono fun _ _ => rfl
    have h1 := fun v : ZoneVer => Only.trans fzPart_part ((State.outputsOff_only s (safeouts v.sec.blocks)).mono fun _ _ => rfl)
      ((State.dropPts_only _ (couples v.sec.blocks)).mono fun _ _ => rfl)
    repeat' split
    · exact Only.trans fzPart_part (Only.trans fzPart_part (h1 _) (h _ _ _)) (h _ _ _)
    · exact Only.trans fzPart_part (h1 _) (h _ _ _)
    · exact Only.trans fzPart_part (h1 _) (h _ _ _)
    · exact h1 _
  · rfl

theorem State.raise_only (s : State) (code : BitVec 16) (loc : BitVec 12) (la lb : Bool) (d p : Nat) (scope : List Nat) :
    Only raisePart s (s.raise code loc la lb d p scope) := by
  unfold State.raise
  exact Only.trans raisePart_part
    (Only.foldl raisePart_part (fun t x => (State.faultZone_only t x).mono fun _ _ => rfl) _ s)
    ((State.record_only _ _ _ _ _ _ _ _).mono fun _ _ => rfl)

theorem State.unload_only (s : State) (p : Nat) : Only zonePart s (s.unload p) := by
  unfold State.unload
  refine Only.foldl zonePart_part (fun t x => ?_) _ s
  repeat' split
  all_goals rfl

theorem State.dropPairPts_only (s : State) (l : Lane) (p : Nat) : Only ptPart s (s.dropPairPts l p) := by
  unfold State.dropPairPts
  refine Only.foldl ptPart_part (fun t x => ?_) _ s
  split
  · exact State.dropLane_only _ _ _
  · rfl

theorem State.latchBit_only (s : State) (l : Lane) (p : Nat) : Only latchPart s (s.latchBit l p) := by
  unfold State.latchBit
  split
  · rfl
  · refine Only.trans latchPart_part ?_ ((State.dropPairPts_only _ l p).mono fun _ _ => rfl)
    exact Only.trans latchPart_part ((State.unload_only s p).mono fun _ _ => rfl) rfl

theorem State.latchAll_only (s : State) (l : Lane) : Only latchPart s (s.latchAll l) :=
  Only.foldl latchPart_part (fun t x => State.latchBit_only t l x) _ s

theorem State.pairFault_only (s : State) (l : Lane) (p : Nat) (c : BitVec 16) (d : Nat) : Only stopPart s (s.pairFault l p c d) := by
  unfold State.pairFault
  refine Only.trans stopPart_part (t := s.stopPair l p) ?_ ((State.raise_only _ _ _ _ _ _ _ _).mono fun _ _ => rfl)
  unfold State.stopPair
  split
  · rfl
  · exact (State.latchBit_only _ _ _).mono fun _ _ => rfl
/-! ### Queue parity (R376) -/

/-- A word fails its check at the output exactly where an odd number of its bits changed in the queue. -/
@[simp] theorem wordFails_eq (w d : Nat) (upset : Bool) : wordFails w d upset = upset := by
  unfold wordFails parityFails oddParity
  cases oddBits d w <;> cases upset <;> rfl

/-- The same of an event word, whatever its event. -/
@[simp] theorem evWord_fails (type payload ord : Nat) (upset : Bool) : (evWord type payload ord).fails upset = upset := by
  have h := wordFails_eq 136 (evData type payload) upset
  simp only [wordFails] at h
  simp only [EvWord.fails, evWord, h]

end Sys2Proof.Machine
end

