-- ==== Sys2Proof/WellFormed.lean ====
section
/-!
DEFINITION. Well-formed commands: what the type of a command leaves open and the manual bounds. The meanings
answer for every command, well-formed or not; these checks say which commands the block can meet.
-/
namespace Sys2Proof

/-- A payload length that R256 allows: a multiple of 4, up to 256 bytes. -/
def Frame.wf (f : Frame) : Bool :=
  decide (f.payload.length % 4 = 0) && decide (f.payload.length ≤ 256)

/-- A list that names nothing twice. -/
def noRepeats {α : Type} [DecidableEq α] : List α → Bool
  | [] => true
  | a :: r => !r.contains a && noRepeats r

/-- A BIST record holds at most 64 entries (R333). -/
def entriesWf (es : List BistEntry) : Bool := decide (es.length ≤ 64)

/-- A slice result within a record's size. -/
def SliceResult.wf : SliceResult → Bool
  | .pass => true
  | .rows es => entriesWf es && !es.isEmpty
  | .fail es => entriesWf es

/-- The pulses a word took, at most five; a bit fails after the fifth alone, or with the supply (R427, R430). -/
def ProgOutcome.wf (o : ProgOutcome) : Bool :=
  decide (1 ≤ o.pulses) && decide (o.pulses ≤ 5) &&
  (decide (o.pulses = 5) || o.loss.isSome || (decide (o.failData = 0#64) && decide (o.failCheck = 0#8)))

/-- A copy that verifies is blown (R428). -/
def LockOutcome.wf (o : LockOutcome) : Bool := decide (o.verified &&& o.seen = o.verified)

/-- The frames a command brings that a Gatehouse has let through. -/
def Instr.forwarded : Instr → List Frame
  | .dataFrame _ _ f => [f]
  | .openFrame _ f => [f]
  | .openAck _ f _ => [f]
  | .openRefuse _ f => [f]
  | .close _ f => [f]
  | _ => []

/-- The well-formed commands. -/
def Instr.wf : Instr → Bool
  | .writeLock _ _ _ pulses copies => decide (1 ≤ pulses) && decide (pulses ≤ 15) && copies.wf
  | .readLock _ _ _ pulses copies => decide (1 ≤ pulses) && decide (pulses ≤ 15) && copies.wf
  | .otpProgram _ _ _ _ out => out.wf
  | .shadowsLoaded excs split _ _ _ => noRepeats (excs.map fun e => e.word) && noRepeats (split.map fun e => (e.rd, e.region))
  | .startTestEnd _ r img => noRepeats (img.map fun e => e.1) && noRepeats r.a.failed && entriesWf r.a.repairs && noRepeats r.b.failed && entriesWf r.b.repairs
  | .shutdownRecordWritten _ _ r _ => entriesWf r.a && entriesWf r.b
  | .crossShort x y => decide (x ≠ y)
  | .laneCrossLinkFrame _ _ pairs _ _ => noRepeats pairs
  | .sliceEnd _ _ r => r.a.wf && r.b.wf
  | .otpDriftScan words locks => noRepeats (words.map fun w => w.1) && noRepeats (locks.map fun e => (e.rd, e.region))
  | .dataFrame _ _ f => f.wf
  | .openFrame _ f => f.wf
  | .openAck _ f _ => f.wf
  | .openRefuse _ f => f.wf
  | .close _ f => f.wf
  | _ => true

end Sys2Proof
end

