-- ==== Sys2Proof/Laws/PerInstr.lean ====
section
/-!
SUPPORT. Statements about every command as syntax. `Payload`: the payload of every frame that a well-formed command brings past
a Gatehouse keeps the size rule of R256.
-/
namespace Sys2Proof.Laws

/-- R256: a payload is a multiple of 4 bytes, at most 256 of them. -/
def Payload.Statement (i : Instr) : Prop :=
  i.wf = true → ∀ f ∈ i.forwarded, f.payload.length % 4 = 0 ∧ f.payload.length ≤ 256

/-- A command that brings no frame past a Gatehouse. -/
theorem Payload.of_nil {i : Instr} (h : i.forwarded = []) : Payload.Statement i := by
  intro _ f hf
  rw [h] at hf
  exact absurd hf List.not_mem_nil

/-- A command that brings one, which its well-formedness bounds. -/
theorem Payload.of_one {i : Instr} {f : Frame} (h : i.forwarded = [f]) (hw : i.wf = f.wf) : Payload.Statement i := by
  intro h0 g hg
  rw [h, List.mem_singleton] at hg
  subst hg
  rw [hw] at h0
  simpa [Frame.wf] using h0

theorem Payload.imgLoad (o : Origin) (offset total len : Word) (busOk : Bool) (imgA imgB : Image) : Payload.Statement (.imgLoad o offset total len busOk imgA imgB) := of_nil rfl
theorem Payload.imgVerify (o : Origin) : Payload.Statement (.imgVerify o) := of_nil rfl
theorem Payload.zoneAdmit (o : Origin) (zones : BitVec 256) (pair : Byte) : Payload.Statement (.zoneAdmit o zones pair) := of_nil rfl
theorem Payload.zoneCommit (o : Origin) (zone : BitVec 8) (accept : Word) : Payload.Statement (.zoneCommit o zone accept) := of_nil rfl
theorem Payload.rollback (o : Origin) (zone : BitVec 8) (accept : Word) : Payload.Statement (.rollback o zone accept) := of_nil rfl
theorem Payload.zoneWithdraw (o : Origin) (zone : BitVec 8) : Payload.Statement (.zoneWithdraw o zone) := of_nil rfl
theorem Payload.zoneMigrate (o : Origin) (zones : BitVec 256) (src tgt : Byte) : Payload.Statement (.zoneMigrate o zones src tgt) := of_nil rfl
theorem Payload.zoneRestart (o : Origin) (zone : BitVec 8) : Payload.Statement (.zoneRestart o zone) := of_nil rfl
theorem Payload.connOpen (o : Origin) (slot : BitVec 16) : Payload.Statement (.connOpen o slot) := of_nil rfl
theorem Payload.connClose (o : Origin) (slot : BitVec 16) : Payload.Statement (.connClose o slot) := of_nil rfl
theorem Payload.portEnable (o : Origin) (port : Byte) : Payload.Statement (.portEnable o port) := of_nil rfl
theorem Payload.portDisable (o : Origin) (port : Byte) : Payload.Statement (.portDisable o port) := of_nil rfl
theorem Payload.bistRun (o : Origin) (item index : Byte) : Payload.Statement (.bistRun o item index) := of_nil rfl
theorem Payload.channelCal (o : Origin) (index : Byte) : Payload.Statement (.channelCal o index) := of_nil rfl
theorem Payload.diagRead (o : Origin) (zone : BitVec 8) (first count : BitVec 16) (bufLen : Word) (busOk : Bool) : Payload.Statement (.diagRead o zone first count bufLen busOk) := of_nil rfl
theorem Payload.snapshot (o : Origin) (first count bufLen : Word) (busOk : Bool) : Payload.Statement (.snapshot o first count bufLen busOk) := of_nil rfl
theorem Payload.otpRead (o : Origin) (word count : Byte) : Payload.Statement (.otpRead o word count) := of_nil rfl
theorem Payload.otpProgram (o : Origin) (index : Byte) (data : Word64) (tjOk : Bool) (out : ProgOutcome) : Payload.Statement (.otpProgram o index data tjOk out) := of_nil rfl
theorem Payload.writeLock (o : Origin) (index : Byte) (tjOk : Bool) (pulses : Nat) (copies : LockOutcome) : Payload.Statement (.writeLock o index tjOk pulses copies) := of_nil rfl
theorem Payload.readLock (o : Origin) (index : Byte) (tjOk : Bool) (pulses : Nat) (copies : LockOutcome) : Payload.Statement (.readLock o index tjOk pulses copies) := of_nil rfl
theorem Payload.otpShadowSet (o : Origin) (word : Byte) (data : Word64) : Payload.Statement (.otpShadowSet o word data) := of_nil rfl
theorem Payload.otpShadowRemove (o : Origin) (word : Byte) : Payload.Statement (.otpShadowRemove o word) := of_nil rfl
theorem Payload.timeSync (o : Origin) : Payload.Statement (.timeSync o) := of_nil rfl
theorem Payload.shutdown (o : Origin) : Payload.Statement (.shutdown o) := of_nil rfl
theorem Payload.sqTail (offset : BitVec 12) (value : Word) : Payload.Statement (.sqTail offset value) := of_nil rfl
theorem Payload.cqHead (offset : BitVec 12) (value : Word) : Payload.Statement (.cqHead offset value) := of_nil rfl
theorem Payload.evHead (offset : BitVec 12) (value : Word) : Payload.Statement (.evHead offset value) := of_nil rfl
theorem Payload.descriptorFetch (r : Fin 16) (entry : Option Entry) : Payload.Statement (.descriptorFetch r entry) := of_nil rfl
theorem Payload.safetyDescriptorCheck (r : Fin 16) (copyA copyB : Option Entry) : Payload.Statement (.safetyDescriptorCheck r copyA copyB) := of_nil rfl
theorem Payload.ringEnable (r : Fin 16) (value : Word) : Payload.Statement (.ringEnable r value) := of_nil rfl
theorem Payload.ringDisable (r : Fin 16) : Payload.Statement (.ringDisable r) := of_nil rfl
theorem Payload.eventRingEnable (e : Fin 4) (value : Word) : Payload.Statement (.eventRingEnable e value) := of_nil rfl
theorem Payload.versionSelect (value : Word) : Payload.Statement (.versionSelect value) := of_nil rfl
theorem Payload.safeSeqWrite (r : Fin 16) (value : Word) : Payload.Statement (.safeSeqWrite r value) := of_nil rfl
theorem Payload.functionLevelReset : Payload.Statement .functionLevelReset := of_nil rfl
theorem Payload.d3hot : Payload.Statement .d3hot := of_nil rfl
theorem Payload.registerWrite (offset : BitVec 18) (be : BitVec 4) (value : Word) (src : Requester) (copyB : Option Word) : Payload.Statement (.registerWrite offset be value src copyB) := of_nil rfl
theorem Payload.accessTimeout (die : Die) (isRead : Bool) : Payload.Statement (.accessTimeout die isRead) := of_nil rfl
theorem Payload.timebaseLoRead (which : Timebase) : Payload.Statement (.timebaseLoRead which) := of_nil rfl
theorem Payload.gtCapRead (k : Fin 32) : Payload.Statement (.gtCapRead k) := of_nil rfl
theorem Payload.gtCmpWrite (k : Fin 32) (value : Word) (tickAtLoad : Bool) : Payload.Statement (.gtCmpWrite k value tickAtLoad) := of_nil rfl
theorem Payload.gtEnable (k : Fin 32) (value : Word) : Payload.Statement (.gtEnable k value) := of_nil rfl
theorem Payload.gtDisable (k : Fin 32) (value : Word) : Payload.Statement (.gtDisable k value) := of_nil rfl
theorem Payload.softwareCapture (k : Fin 32) : Payload.Statement (.softwareCapture k) := of_nil rfl
theorem Payload.gtMatch (k : Fin 32) : Payload.Statement (.gtMatch k) := of_nil rfl
theorem Payload.gtCapture (k : Fin 32) : Payload.Statement (.gtCapture k) := of_nil rfl
theorem Payload.staggerLoad : Payload.Statement .staggerLoad := of_nil rfl
theorem Payload.staggerPeriodEnd : Payload.Statement .staggerPeriodEnd := of_nil rfl
theorem Payload.ckCfgWrite (u : Fin 8) (value : Word) : Payload.Statement (.ckCfgWrite u value) := of_nil rfl
theorem Payload.ckData32 (u : Fin 8) (value : Word) : Payload.Statement (.ckData32 u value) := of_nil rfl
theorem Payload.ckData16 (u : Fin 8) (value : Word) : Payload.Statement (.ckData16 u value) := of_nil rfl
theorem Payload.ckData8 (u : Fin 8) (value : Word) : Payload.Statement (.ckData8 u value) := of_nil rfl
theorem Payload.ckSeed (u : Fin 8) (value : Word) : Payload.Statement (.ckSeed u value) := of_nil rfl
theorem Payload.faultClear (keyA keyB : Word) : Payload.Statement (.faultClear keyA keyB) := of_nil rfl
theorem Payload.clearComplete (fdPass : List (BitVec 16 × BitVec 12)) : Payload.Statement (.clearComplete fdPass) := of_nil rfl
theorem Payload.faultAcknowledgement : Payload.Statement .faultAcknowledgement := of_nil rfl
theorem Payload.debugEnable (value : Word) : Payload.Statement (.debugEnable value) := of_nil rfl
theorem Payload.halt (value : Word) : Payload.Statement (.halt value) := of_nil rfl
theorem Payload.resume : Payload.Statement .resume := of_nil rfl
theorem Payload.step (info : PassInfo) : Payload.Statement (.step info) := of_nil rfl
theorem Payload.stewardHalt : Payload.Statement .stewardHalt := of_nil rfl
theorem Payload.debugAccess (value : Word) : Payload.Statement (.debugAccess value) := of_nil rfl
theorem Payload.replayFail : Payload.Statement .replayFail := of_nil rfl
theorem Payload.dormantEntry : Payload.Statement .dormantEntry := of_nil rfl
theorem Payload.wake : Payload.Statement .wake := of_nil rfl
theorem Payload.benchExit : Payload.Statement .benchExit := of_nil rfl
theorem Payload.nsCmd (ch : Fin 64) (value : Word) : Payload.Statement (.nsCmd ch value) := of_nil rfl
theorem Payload.channelModeWrite (ch : Fin 64) (value : Word) : Payload.Statement (.channelModeWrite ch value) := of_nil rfl
theorem Payload.captureConfig (c : Fin 16) (value : Word) : Payload.Statement (.captureConfig c value) := of_nil rfl
theorem Payload.gstopDisable (value : Word) : Payload.Statement (.gstopDisable value) := of_nil rfl
theorem Payload.powerOnReset (loss : PowerLoss) : Payload.Statement (.powerOnReset loss) := of_nil rfl
theorem Payload.resetN (lowNs : Nat) : Payload.Statement (.resetN lowNs) := of_nil rfl
theorem Payload.perstN (lowNs : Nat) : Payload.Statement (.perstN lowNs) := of_nil rfl
theorem Payload.resetRelease (bootsel : BitVec 2) (seqErr : Bool) : Payload.Statement (.resetRelease bootsel seqErr) := of_nil rfl
theorem Payload.shutdownN : Payload.Statement .shutdownN := of_nil rfl
theorem Payload.shadowsLoaded (excs : List OtpExc) (split : List LockRead) (crcOkA crcOkB : StartCrc) (flash : FlashInfo) : Payload.Statement (.shadowsLoaded excs split crcOkA crcOkB flash) := of_nil rfl
theorem Payload.testConditionPoll (cond : TestCond) : Payload.Statement (.testConditionPoll cond) := of_nil rfl
theorem Payload.startTestEnd (cond : TestCond) (res : Found StartResult) (flashImg : List (BitVec 24 × Image × Image)) : Payload.Statement (.startTestEnd cond res flashImg) := of_nil rfl
theorem Payload.longOperationStep (work : StepWork) : Payload.Statement (.longOperationStep work) := of_nil rfl
theorem Payload.shutdownRecordWritten (cond : TestCond) (tjMax : Byte) (fails : Found (List BistEntry)) (chOk : BitVec 64) : Payload.Statement (.shutdownRecordWritten cond tjMax fails chOk) := of_nil rfl
theorem Payload.gstopOpen (r : GstopRead) : Payload.Statement (.gstopOpen r) := of_nil rfl
theorem Payload.gstopRelease : Payload.Statement .gstopRelease := of_nil rfl
theorem Payload.gstopDisc : Payload.Statement .gstopDisc := of_nil rfl
theorem Payload.inputDebounce (ch : Fin 64) (r : InputRead) : Payload.Statement (.inputDebounce ch r) := of_nil rfl
theorem Payload.inputRestore (ch : Fin 64) : Payload.Statement (.inputRestore ch) := of_nil rfl
theorem Payload.wireBreak (ch : Fin 64) (r : WireRead) : Payload.Statement (.wireBreak ch r) := of_nil rfl
theorem Payload.inputOv (ch : Fin 64) (mv : Nat) : Payload.Statement (.inputOv ch mv) := of_nil rfl
theorem Payload.sample : Payload.Statement .sample := of_nil rfl
theorem Payload.periodicSample : Payload.Statement .periodicSample := of_nil rfl
theorem Payload.captureCount (c : Fin 16) (r : CaptureReads) : Payload.Statement (.captureCount c r) := of_nil rfl
theorem Payload.uvWarn (g : Fin 4) (vfs : BitVec 16) : Payload.Statement (.uvWarn g vfs) := of_nil rfl
theorem Payload.uvIn (g : Fin 4) (vfs : BitVec 16) : Payload.Statement (.uvIn g vfs) := of_nil rfl
theorem Payload.uvOff (g : Fin 4) (vfs : BitVec 16) : Payload.Statement (.uvOff g vfs) := of_nil rfl
theorem Payload.groupOv (g : Fin 4) (vfs : BitVec 16) : Payload.Statement (.groupOv g vfs) := of_nil rfl
theorem Payload.groupLatchEnd (g : Fin 4) : Payload.Statement (.groupLatchEnd g) := of_nil rfl
theorem Payload.testPulseStart (ch : Fin 64) (lane : Lane) (period : Nat) : Payload.Statement (.testPulseStart ch lane period) := of_nil rfl
theorem Payload.testPulseEnd (ch : Fin 64) (r : PulseRead) (settled : Bool) : Payload.Statement (.testPulseEnd ch r settled) := of_nil rfl
theorem Payload.feedbackDebounce (ch : Fin 64) (level : Bool) : Payload.Statement (.feedbackDebounce ch level) := of_nil rfl
theorem Payload.offCheck (ch : Fin 64) (termHigh : Bool) : Payload.Statement (.offCheck ch termHigh) := of_nil rfl
theorem Payload.onCheck (ch : Fin 64) (atOn inLimit : Bool) : Payload.Statement (.onCheck ch atOn inLimit) := of_nil rfl
theorem Payload.openLoadTest (ch : Fin 64) (above4V : Bool) : Payload.Statement (.openLoadTest ch above4V) := of_nil rfl
theorem Payload.openLoad (ch : Fin 64) : Payload.Statement (.openLoad ch) := of_nil rfl
theorem Payload.overload (ch : Fin 64) : Payload.Statement (.overload ch) := of_nil rfl
theorem Payload.thermal (ch : Fin 64) : Payload.Statement (.thermal ch) := of_nil rfl
theorem Payload.shareFault (ch : Fin 64) : Payload.Statement (.shareFault ch) := of_nil rfl
theorem Payload.crossShort (x y : Fin 64) : Payload.Statement (.crossShort x y) := of_nil rfl
theorem Payload.channelFaultReport (ch : Fin 64) (code : BitVec 16) : Payload.Statement (.channelFaultReport ch code) := of_nil rfl
theorem Payload.nsSilent (ch : Fin 64) : Payload.Statement (.nsSilent ch) := of_nil rfl
theorem Payload.analogueWindow (item : AnaItem) (index : BitVec 6) (w : WindowRead) (passed : Found Bool) : Payload.Statement (.analogueWindow item index w passed) := of_nil rfl
theorem Payload.fieldLinkFrame (lane : Lane) (crcOk : Bool) (poison : BitVec 16) : Payload.Statement (.fieldLinkFrame lane crcOk poison) := of_nil rfl
theorem Payload.fieldLinkSilent (lane : Lane) : Payload.Statement (.fieldLinkSilent lane) := of_nil rfl
theorem Payload.ownershipCheck : Payload.Statement .ownershipCheck := of_nil rfl
theorem Payload.pendingOwnershipTimeout : Payload.Statement .pendingOwnershipTimeout := of_nil rfl
theorem Payload.sbHeartbeatLost (lane : Lane) : Payload.Statement (.sbHeartbeatLost lane) := of_nil rfl
theorem Payload.fdOsc (permille : Int) : Payload.Statement (.fdOsc permille) := of_nil rfl
theorem Payload.heartbeat (lane : Lane) : Payload.Statement (.heartbeat lane) := of_nil rfl
theorem Payload.heartbeatLost (lane : Lane) : Payload.Statement (.heartbeatLost lane) := of_nil rfl
theorem Payload.laneCrossLinkFrame (dst : Lane) (crcOk : Bool) (pairs : List (Fin 36)) (hash confirm : Bool) : Payload.Statement (.laneCrossLinkFrame dst crcOk pairs hash confirm) := of_nil rfl
theorem Payload.stewardStep (agree : Bool) : Payload.Statement (.stewardStep agree) := of_nil rfl
theorem Payload.stewardSilent (lane : Lane) : Payload.Statement (.stewardSilent lane) := of_nil rfl
theorem Payload.timebaseXchk (lane : Lane) (ppm10 : Int) : Payload.Statement (.timebaseXchk lane ppm10) := of_nil rfl
theorem Payload.xchkResume : Payload.Statement .xchkResume := of_nil rfl
theorem Payload.pllLockLoss (lane : Lane) : Payload.Statement (.pllLockLoss lane) := of_nil rfl
theorem Payload.lightMeterWindow (lane : Lane) (laps : BitVec 10) : Payload.Statement (.lightMeterWindow lane laps) := of_nil rfl
theorem Payload.supplyRange (lane : Lane) (mv : BitVec 16) : Payload.Statement (.supplyRange lane mv) := of_nil rfl
theorem Payload.hubLinkFrame (lane : Lane) (f : HubFrame) : Payload.Statement (.hubLinkFrame lane f) := of_nil rfl
theorem Payload.releaseMark : Payload.Statement .releaseMark := of_nil rfl
theorem Payload.heartbeatPass (p : Fin 36) : Payload.Statement (.heartbeatPass p) := of_nil rfl
theorem Payload.timerExpiry (p : Fin 36) (zone : BitVec 8) (blk chan : Nat) (e : ExpiryRead) : Payload.Statement (.timerExpiry p zone blk chan e) := of_nil rfl
theorem Payload.timerXchk (p : Fin 36) (zone : BitVec 8) (blk chan : Nat) : Payload.Statement (.timerXchk p zone blk chan) := of_nil rfl
theorem Payload.passEnd (p : Fin 36) (info : PassInfo) : Payload.Statement (.passEnd p info) := of_nil rfl
theorem Payload.passWatch (p : Fin 36) (lane : Lane) : Payload.Statement (.passWatch p lane) := of_nil rfl
theorem Payload.startWatch (p : Fin 36) (lane : Lane) : Payload.Statement (.startWatch p lane) := of_nil rfl
theorem Payload.injectionSchedule (p : Fin 36) (lane : Lane) : Payload.Statement (.injectionSchedule p lane) := of_nil rfl
theorem Payload.cat1DelayExpiry (lane : Lane) (out : Target) : Payload.Statement (.cat1DelayExpiry lane out) := of_nil rfl
theorem Payload.notStopped : Payload.Statement .notStopped := of_nil rfl
theorem Payload.withdrawTimeout (zone : BitVec 8) : Payload.Statement (.withdrawTimeout zone) := of_nil rfl
theorem Payload.tilePass (p : Fin 36) (lane : Lane) (parity : Bool) : Payload.Statement (.tilePass p lane parity) := of_nil rfl
theorem Payload.txRequest (slot : Fin 2048) : Payload.Statement (.txRequest slot) := of_nil rfl
theorem Payload.txMerge (slot : Fin 2048) : Payload.Statement (.txMerge slot) := of_nil rfl
theorem Payload.txMergeTimeout (slot : Fin 2048) : Payload.Statement (.txMergeTimeout slot) := of_nil rfl
theorem Payload.portTransmit (port : Fin 32) : Payload.Statement (.portTransmit port) := of_nil rfl
theorem Payload.openStagger (slot : Fin 2048) : Payload.Statement (.openStagger slot) := of_nil rfl
theorem Payload.openRetry (slot : Fin 2048) : Payload.Statement (.openRetry slot) := of_nil rfl
theorem Payload.staleReopen (slot : Fin 2048) : Payload.Statement (.staleReopen slot) := of_nil rfl
theorem Payload.watchdogExpiry (slot : Fin 2048) (elapsedB : Nat) : Payload.Statement (.watchdogExpiry slot elapsedB) := of_nil rfl
theorem Payload.wdXchk (slot : Fin 2048) : Payload.Statement (.wdXchk slot) := of_nil rfl
theorem Payload.dataFrame (lane : Lane) (slot : Fin 2048) (f : Frame) : Payload.Statement (.dataFrame lane slot f) := of_one rfl rfl
theorem Payload.openFrame (slot : Fin 2048) (f : Frame) : Payload.Statement (.openFrame slot f) := of_one rfl rfl
theorem Payload.openAck (slot : Fin 2048) (f : Frame) (rtt : Nat) : Payload.Statement (.openAck slot f rtt) := of_one rfl rfl
theorem Payload.openRefuse (slot : Fin 2048) (f : Frame) : Payload.Statement (.openRefuse slot f) := of_one rfl rfl
theorem Payload.close (slot : Fin 2048) (f : Frame) : Payload.Statement (.close slot f) := of_one rfl rfl
theorem Payload.syncAcquired (port : Fin 32) : Payload.Statement (.syncAcquired port) := of_nil rfl
theorem Payload.negotiationComplete (port : Fin 32) (page : BitVec 16) : Payload.Statement (.negotiationComplete port page) := of_nil rfl
theorem Payload.syncLost (port : Fin 32) : Payload.Statement (.syncLost port) := of_nil rfl
theorem Payload.portFrameEnd (port : Fin 32) (f : Frame) (line : LineInfo) : Payload.Statement (.portFrameEnd port f line) := of_nil rfl
theorem Payload.rateWindow (slot : Fin 2048) : Payload.Statement (.rateWindow slot) := of_nil rfl
theorem Payload.openRateWindow (port : Fin 32) : Payload.Statement (.openRateWindow port) := of_nil rfl
theorem Payload.bistSlot (cond : SlotCond) : Payload.Statement (.bistSlot cond) := of_nil rfl
theorem Payload.sliceEnd (p : Fin 36) (cond : TestCond) (res : Found SliceResult) : Payload.Statement (.sliceEnd p cond res) := of_nil rfl
theorem Payload.bistOverdue (p : Fin 36) : Payload.Statement (.bistOverdue p) := of_nil rfl
theorem Payload.otpDriftScan (words : List (Fin 256 × OtpSense)) (locks : List LockRead) : Payload.Statement (.otpDriftScan words locks) := of_nil rfl
theorem Payload.lfFail : Payload.Statement .lfFail := of_nil rfl
theorem Payload.dormantInputRead (raw : BitVec 64) : Payload.Statement (.dormantInputRead raw) := of_nil rfl
theorem Payload.wakeReturnTimeout (lane : Lane) : Payload.Statement (.wakeReturnTimeout lane) := of_nil rfl
theorem Payload.recordGone (k : Fin 64) : Payload.Statement (.recordGone k) := of_nil rfl
theorem Payload.midNodeCheck (ch : Fin 64) (r : MidRead) : Payload.Statement (.midNodeCheck ch r) := of_nil rfl
theorem Payload.gstopClosed (r : GstopRead) : Payload.Statement (.gstopClosed r) := of_nil rfl
theorem Payload.lfEdge : Payload.Statement .lfEdge := of_nil rfl
theorem Payload.hbReady : Payload.Statement .hbReady := of_nil rfl
theorem Payload.d0 : Payload.Statement .d0 := of_nil rfl
theorem Payload.vectorMessage (v : Fin 32) : Payload.Statement (.vectorMessage v) := of_nil rfl
theorem Payload.registerRead (addr : BusAddr) : Payload.Statement (.registerRead addr) := of_nil rfl
theorem Payload.jtagInstruction (op : JtagOp) : Payload.Statement (.jtagInstruction op) := of_nil rfl

end Sys2Proof.Laws
end

