-- ==== Sys2Proof/Laws/Steps.lean ====
section
/-!
SUPPORT. What the operations that stand around a pass end and a step of a long operation do where there is nothing for them to do: no word
that fails its parity, no commit in progress, no bytes to move.
-/
namespace Sys2Proof.Machine
open Sys2Proof

/-- With no bit of its words changed on the way, a delay stage loses none (R376). -/
theorem takenWords_clean (info : PassInfo) (ws : List Nat) (h : info.poison = 0) : takenWords info ws = info := by
  have hb (k : Nat) : (0 : Nat).testBit k = false := Nat.zero_testBit k
  unfold takenWords
  rw [h]
  simp only [wordFails_eq, hb, List.filter_false, List.length_nil]
  rw [← h]

/-- Without an operation a pass end has no commit to look at (R181). -/
@[simp] theorem State.armDue_idle (s : State) (h : s.op = none) : s.armDue = s := by
  unfold State.armDue
  rw [h]

/-- A step in which no ring's command moves bytes moves none (R398). -/
@[simp] theorem State.moveAll_nil (s : State) : s.moveAll [] = s := by
  unfold State.moveAll
  induction List.finRange 16 with
  | nil => rfl
  | cons r rs ih =>
    rw [List.foldl_cons]
    cases h : (s.ring r).moving with
    | none => exact ih
    | some e => simpa using ih

/-- A command that has nothing to move is moved by no step. -/
theorem State.moveAll_idle (s : State) (bytes : List Nat) (h : ∀ r : Fin 16, (s.ring r).moving = none) : s.moveAll bytes = s := by
  unfold State.moveAll
  induction List.finRange 16 with
  | nil => rfl
  | cons r rs ih => rw [List.foldl_cons, h r, ih]

end Sys2Proof.Machine
end

