-- ==== Sys2Proof/Tests/Slice0.lean ====
section
/-!
SUPPORT. The model's own tests: the checks of WellFormed refuse a term each; single steps on small states with results the manual gives;
and for every statement of Certificates/Slice0/Obligations.lean that has hypotheses a state and operands that meet them, clause by clause.
-/
set_option maxRecDepth 4000
set_option Elab.async false
namespace Sys2Proof.Tests
open Sys2Proof Sys2Proof.Machine

/-! ### Well-formed commands -/

def o0 : Origin := ⟨0, 7#16, false⟩

def frame0 : Frame := {
  ftype := 1#4, ver := 1#2, cmac := false, resv := false, handle := 1#16, seq8 := 101#8, tstamp := 60#32, payload := [0xFF#8, 0#8, 0#8, 0#8]
  crcA := 0#32, crcB := 0#32, tag := 0#64 }

def entry0 : BistEntry := ⟨0#6, .a, 0#3, 0#16, 0#8, 0#2⟩

/-- A start test without a failure. -/
def res0 : StartResult := ⟨[], [], 0#64, 0#32, true, true, []⟩
def flash0 : FlashInfo := ⟨true, 65536, true, true, false, true⟩
def otpZero : OtpSense := ⟨0#64, 0#8⟩

/-- A payload length is a multiple of 4 up to 256 (R256). -/
theorem test_wf_frames :
    (Instr.dataFrame .a 0 frame0).wf = true ∧ (Instr.dataFrame .a 0 { frame0 with payload := [1#8] }).wf = false ∧
    (Instr.openFrame 0 { frame0 with payload := List.replicate 260 0#8 }).wf = false ∧
    (Instr.openAck 0 { frame0 with payload := [1#8] } 5).wf = false ∧ (Instr.openRefuse 0 { frame0 with payload := [1#8] }).wf = false ∧
    (Instr.close 0 { frame0 with payload := [1#8] }).wf = false := by decide

/-- A list that names something twice is refused. -/
theorem test_wf_lists :
    (Instr.shadowsLoaded [⟨3, otpZero, otpZero⟩, ⟨3, otpZero, otpZero⟩] [] ⟨true, true⟩ ⟨true, true⟩ flash0).wf = false ∧
    (Instr.shadowsLoaded [] [⟨true, 2, 1#3, 3#3⟩, ⟨true, 2, 0#3, 0#3⟩] ⟨true, true⟩ ⟨true, true⟩ flash0).wf = false ∧
    (Instr.laneCrossLinkFrame .a false [1, 1] false false).wf = false ∧ (Instr.laneCrossLinkFrame .a false [1, 2] false false).wf = true ∧
    (Instr.otpDriftScan [(1, otpZero), (1, otpZero)] []).wf = false ∧
    (Instr.otpDriftScan [] [⟨false, 2, 0#3, 0#3⟩, ⟨false, 2, 0#3, 0#3⟩]).wf = false ∧
    (Instr.crossShort 1 1).wf = false ∧ (Instr.crossShort 1 2).wf = true := by decide

/-- Records hold 64 entries (R333), an attempt uses five pulses (R427), a lock has three copies (R424), a copy that verifies is
blown (R428). -/
theorem test_wf_sizes :
    (Instr.startTestEnd ⟨true, true, true⟩ ⟨{ res0 with failed := [1, 1] }, res0⟩ []).wf = false ∧
    (Instr.startTestEnd ⟨true, true, true⟩ ⟨res0, { res0 with repairs := List.replicate 65 entry0 }⟩ []).wf = false ∧
    (Instr.shutdownRecordWritten ⟨true, true, true⟩ 0#8 ⟨List.replicate 65 entry0, []⟩ 0#64).wf = false ∧
    (Instr.sliceEnd 0 ⟨true, true, true⟩ ⟨.pass, .rows []⟩).wf = false ∧ (Instr.sliceEnd 0 ⟨true, true, true⟩ ⟨.pass, .pass⟩).wf = true ∧
    (Instr.sliceEnd 0 ⟨true, true, true⟩ ⟨.fail (List.replicate 65 entry0), .pass⟩).wf = false ∧
    (Instr.otpProgram o0 3#8 1#64 true ⟨6, 0#64, 0#8, none⟩).wf = false ∧ (Instr.otpProgram o0 3#8 1#64 true ⟨4, 1#64, 0#8, none⟩).wf = false ∧
    (Instr.otpProgram o0 3#8 1#64 true ⟨5, 1#64, 0#8, none⟩).wf = true ∧ (Instr.otpProgram o0 3#8 1#64 true ⟨2, 1#64, 0#8, some .hub⟩).wf = true ∧
    (Instr.writeLock o0 3#8 true 16 ⟨0#3, 0#3, none⟩).wf = false ∧ (Instr.readLock o0 3#8 true 1 ⟨1#3, 0#3, none⟩).wf = false ∧
    (Instr.readLock o0 3#8 true 15 ⟨1#3, 3#3, none⟩).wf = true := by decide

/-! ### Small states -/

/-- A device in RUN, out of reset, its shadows loaded, variant IV3264, version 2 selected. -/
def run0 : State := { State.reset with
  pm := { State.reset.pm with dstate := .run, inReset := false }
  hi := { State.reset.hi with selected := 2#8, ready := true }
  otp := { State.reset.otp with loaded := true, applied := 2#2, wl := 0x8007#16 } }

/-- A device on its way to RUN, and others. -/
def at' (d : DState) : State := { run0 with pm := { run0.pm with dstate := d } }

def bs0 : List Block := [⟨.and, [some (.point 0x20000), some (.const true)]⟩, ⟨.safeout (.chan 0) (some 0) (some 0) (some 10000), [some (.sig 0 0 0)]⟩]

def sec0 (z : Nat) (auto : Bool) (bs : List Block) : ZoneSection :=
  ⟨BitVec.ofNat 8 z, 1#16, auto, none, [⟨1, 100, none, [bs.length - 1]⟩], bs, []⟩

def ver0 (z p : Nat) (bs : List Block) : ZoneVer :=
  { imageId := 1#32, sec := sec0 z true bs, admitted := true, pair := p, rt := bs.map fun _ => {}, first := false }

/-- A zone with an ACTIVE version on a pair that carries it. -/
def up (s : State) (z p : Nat) (st : ZoneSt) : State :=
  (s.updZone z fun _ => { active := some (ver0 z p bs0), st := st }).updPair p fun q => { q with role := .carrying }

def armed0 : State := up run0 0 5 .armed

def running' : Running := { num := 4#32, mark := 3#32, start := 0#64 }

/-- A pass runs on a pair, on a given level of the input of channel 0. -/
def inPass (s : State) (p : Nat) (v : Pt) : State := s.updPair p fun q => { q with
  run := some running', nextPass := 5#32, liveA := [(0x20000, v)], liveB := [(0x20000, ~~~v)] }

def pass0 : State := inPass (up run0 0 5 .running) 5 3#2

def clean : PassInfo := ⟨false, false, 0, none, none, false, false, false⟩
def good : TestCond := ⟨true, true, true⟩
def bad : TestCond := ⟨true, true, false⟩

def chan' (s : State) (n m : Nat) : State := s.updChan n fun c => { c with mode := BitVec.ofNat 2 m }

/-- Channel 0 a safety output that both lanes command on, owned by pair 5. -/
def out0 : State :=
  { (run0.updChan 0 fun c => { c with mode := 2#2, cmdA := true, cmdB := false, ownA := 5, ownB := ~~~5#6 }) with
    fd := { run0.fd with gsStop := false, gsA := true, gsB := true } }

def rec0 (code : Nat) (loc : Nat) : FaultRec := {
  code := BitVec.ofNat 16 code, loc := BitVec.ofNat 12 loc, laneA := true, laneB := true, st := .latched, time := 0#32, count := 1
  detail := 0#16, firstZone := 0, zoneCnt := 0, passLo := 0#16, evAt := none, evPend := false }

def withRec (s : State) (code loc : Nat) : State := { s with fl := { s.fl with recs := [(0, some (rec0 code loc))] } }

/-- A table with no empty entry. -/
def fullRecs (s : State) : State :=
  { s with fl := { s.fl with recs := (List.range 64).map fun k => (k, some (rec0 0x3001 (0x100 + k))) } }

def decl0 (listener : Bool) : ConnDecl := {
  port := 0, connId := 0x1234#32, listener := listener, rxHandle := 1#16, txHandle := 2#16, rxBase := 0x10, rxPoints := 4, txBase := 0x20
  txPoints := 4, cycDecl := some 1000, wdDecl := some 4000, niDecl := some 10, noDecl := some 10, txPhase := 0, minVer := 1, cmac := false, keyId := 0
  partnerMac := 0#48, partnerIp := 0#32 }

def conn' (listener : Bool) (st : ConnSt) : State :=
  (run0.updConn 0 fun c => { c with
    decl := some (decl0 listener), st := st, nonce := 77#32, rxA := { eSeq := 100#32 }, rxB := { eSeq := 100#32 } }).updPort 0 fun p =>
    { p with st := .up }

/-- A frame as its sender sealed it. -/
def sealed' (seq : Nat) (ft : Nat) (payload : List Byte) : Frame :=
  run0.sealFrame (decl0 true) (BitVec.ofNat 32 seq) { frame0 with
    ftype := BitVec.ofNat 4 ft, ver := if ft = 1 ∨ ft = 5 then 1#2 else 0#2, seq8 := BitVec.ofNat 8 seq, payload := payload }

def img0 : Image := {
  major := 1, minor := 0, size := 100, bytes := [1#8, 2#8], crcA := 0#32, crcB := 0#32, imageId := 9#32, splitMask := 0#36, ack := none
  chans := [], conns := [], internals := [], zones := [], tiles := [], boot := [] }

def entry' (op : Nat) : Entry := {
  opcode := BitVec.ofNat 8 op, flags := 1#8, cid := 7#16, dcrc := 0#32, addr := 0#64, len := 0#32, hostSeq := 0#32, param := 0#320 }
def fixed (e : Entry) : Entry := { e with dcrc := crcA (entryCrcBytes e) }

/-- Ring 0 enabled with one entry to fetch. -/
def ring0 : State := run0.updRing 0 fun q => { q with st := .enabled, sqTail := 1#12 }

def split0 : State :=
  (run0.updPair 0 fun q => { q with role := .split }).updTile (tileKey 0 .a) fun t => { t with sec := some ⟨0, .a, bs0, []⟩, rt := [{}, {}] }

def gt' (k : Nat) (f : Gt → Gt) : State := run0.updGt k fun g => f { g with en := true }

/-- An accepted entry, and a device whose ring 0 has it next. -/
def spell (op flags len : Nat) (param : Nat) : Entry :=
  { entry' op with flags := BitVec.ofNat 8 flags, len := BitVec.ofNat 32 len, param := BitVec.ofNat 320 param }
def host (s : State) (e : Entry) : State :=
  s.updRing 0 fun q => { q with st := .enabled, outs := [{ cid := 7#16, opcode := e.opcode, entry := some e }] }

/-- A command whose entry stands behind it meets what a statement asks of the state it finds. -/
abbrev Meets (s : State) (e : Entry) (c : Instr) (P : State → Prop) : Prop := (host s e).takes o0 c = true ∧ P ((host s e).begun o0)

/-! ### Results the manual gives -/

def nine : List Byte := [0x31#8, 0x32#8, 0x33#8, 0x34#8, 0x35#8, 0x36#8, 0x37#8, 0x38#8, 0x39#8]
def ck (poly : Nat) (inv refl : Bool) (v : Word) : Word :=
  (({ poly := BitVec.ofNat 3 poly, finalInv := inv, reflect := refl, val := v } : Crc).foldBytes nine).result

/-- The check values of R372's table. -/
theorem test_crc_check_values :
    ck 0 true true 0xFFFFFFFF#32 = 0xE3069283#32 ∧ ck 2 true true 0xFFFFFFFF#32 = 0xCBF43926#32 ∧
    ck 3 false false 0xFFFF#32 = 0x29B1#32 ∧ ck 3 false false 0#32 = 0x31C3#32 ∧ ck 4 true false 0xFF#32 = 0xDF#32 := by decide +kernel

/-- A DATA32 fold takes the little-endian word "1234" in memory order (R373). -/
theorem test_crc_data32_order :
    (match execCkData32 0 0x34333231#32 run0 with | .next t => decide (t.crc 0 = ((run0.crc 0).foldBytes (nine.take 4))) | _ => false) = true := by
  decide +kernel

/-- NIST's AES-CMAC of the empty message under its example key, first 8 bytes. -/
theorem test_cmac_empty :
    cmacTag [0x2b#8, 0x7e#8, 0x15#8, 0x16#8, 0x28#8, 0xae#8, 0xd2#8, 0xa6#8, 0xab#8, 0xf7#8, 0x15#8, 0x88#8, 0x09#8, 0xcf#8, 0x4f#8, 0x3c#8] []
      = 0xbb1d6929e9593728#64 := by decide +kernel

/-- The two refused writes of K7 (19_register_map.md). -/
theorem test_refused_writes :
    (match execRegisterWrite 0x18B04#18 15#4 0x00010BB8#32 .host none armed0 with
     | .next t => decide (t.readGc 0x14 = 0x01218B04#32) &&
       (match execRegisterWrite 0x19080#18 3#4 0#32 .host none t with | .next u => decide (u.readGc 0x14 = 0x02419080#32) | _ => false)
     | _ => false) = true := by decide +kernel

def dual' (st : Nat) : BlockRt := { st := st }

/-- OUT falls in the pass that sees the first channel open (R109, K7's e-stop). -/
theorem test_estop_first_channel :
    (let q := stepDual 100 0 false 2#2 3#2 (dual' 3); q.st = 4 ∧ q.outs = [2#2] ∧ q.t1 = .running 100000) ∧
    (stepDual 100 0 false 2#2 2#2 (dual' 3)).st = 1 ∧ (stepDual 100 0 false 3#2 2#2 { st := 4, t1 := .expired 1 }).codes = [0x02] := by decide

def exit' (m1 m2 a b : Pt) : List (Option Pt) :=
  [some a, some b, some m1, some m2, none, none, some 3#2, none, some 3#2]

/-- K7's pallet exit: SYNC to MUTED on the second sensor; a person who breaks the curtain in SYNC ends in WAIT_CLEAR with MUTE_SEQUENCE
and OUT 0 (R115). -/
theorem test_muted_exit :
    (let q := stepCurtain 10 0 1 1000 20000 60000 0 false (exit' 3#2 3#2 3#2 3#2) { st := 1, sub := 3, t2 := .running 1 }
     q.st = 2 ∧ q.t3 = .running 20000000 ∧ q.outs = [3#2, 3#2]) ∧
    (let q := stepCurtain 10 0 1 1000 20000 60000 0 false (exit' 2#2 3#2 2#2 2#2) { st := 1, sub := 3, t2 := .running 1 }
     q.st = 3 ∧ q.codes = [0x20] ∧ q.outs = [2#2, 2#2]) := by decide

/-- EP9 with 174 slots at S = 8 has T_pb 1.228 µs (05_deadline_admission.md). -/
theorem test_pass_bound : tPb 174 8 = 1228 ∧ boundOf 174 8 = 123 := by decide

/-- T_in of K7's light curtain and hall stop (paths 1 and 2 of the admission of recipe B). -/
theorem test_path_inputs :
    (let w (c : ConnDecl) : World := ⟨[], fun _ => 0, fun _ _ => (0, 0), fun _ => [(0, c)], fun _ => false⟩
     (w { decl0 true with cycDecl := some 250, wdDecl := some 600, niDecl := some 120 }).tIn (ver0 0 5 bs0) 0x12 = some 981300 ∧
     (w { decl0 true with cycDecl := some 1000, wdDecl := none, niDecl := some 500 }).tIn (ver0 0 5 bs0) 0x12 = some 4512500) := by decide

/-- The delays of K7's congested hall switch, steps 3 and 4 (R294); marks are 100 ns apart. -/
theorem test_excess_delay :
    nextE { e := 0, named := some (8001000#32, 200010400#32) } 8003000#32 200038400#32 = 799 ∧
    nextE { e := 799, named := some (8003000#32, 200038400#32) } 8004000#32 200050000#32 = 958 := by decide

/-- The cartoner frame: 272 points take 68 bytes; 20 to 23 with point 21 at valid 0 spell 0xFB (R258). -/
theorem test_cartoner_payload :
    payloadBytes 272 = 68 ∧ (packPoints ((List.range 272).map fun k => if k = 21 then 2#2 else 3#2))[5]? = some 0xFB#8 := by decide +kernel

/-- A restart edge needs a press from 50 ms to 5 s (R127). -/
theorem test_restart_press :
    (let q := stepRestart false [some 2#2] { st := 2, t2 := .running 1 }; q.c = true ∧ q.st = 0) ∧
    (let q := stepRestart false [some 2#2] { st := 1, t1 := .running 1, t2 := .running 1 }; q.c = false ∧ q.codes = [0x48]) := by decide

/-- A tunnel datagram the port builds is one its partner's checks take, and one bit of it changed is not (R260, R261). -/
theorem test_tunnel_datagram :
    (let bs := tunnelBytes (run0.port 0).live 7#16 0x020000000001#48 0x0A000001#32 (bodyBytes frame0);
     isUdp bs = true ∧ tunnelBad bs = false ∧ frameOf ((bs.drop 50).take (fieldBE bs 46 2)) = some frame0 ∧
     fcsOk bs = true ∧ ipSumOk bs = true ∧ fcsOk (bs.set 30 (bs.getD 30 0#8 ^^^ 1#8)) = false) := by decide +kernel

/-- The majority of 2 x FILT + 1 reads: one read of three is a disturbance, two are a level (R202). -/
theorem test_majority_of_reads :
    (let u : Cap := { filt := 1#3, edge := 1#2 };
     (((u.take true).take false).take false).count = 0#16 ∧ ((u.take true).take true).count = 1#16) := by decide
/-! ### Witnesses: the machine, registers, timebases, timers -/

theorem witness_StepRunsTheFrontCommand : ({ run0 with pending := [.lfFail] } : State).pending = .lfFail :: [] := rfl

theorem witness_IdleTickAdvancesTheCounts :
    run0.pending = [] ∧ State.reset.pm.inReset = true ∧ run0.pm.inReset = false ∧
    (let g := (gt' 0 fun g => { g with ticked := true }).gt 0; g.en = true ∧ g.ticked = true) ∧
    (let g := (gt' 0 fun g => { g with div := 98 }).gt 0; g.en = true ∧ g.ticked = false ∧ g.div < g.presc.toNat) ∧
    (let g := (gt' 0 fun g => { g with div := 99 }).gt 0; g.en = true ∧ g.ticked = false ∧ g.presc.toNat ≤ g.div) ∧
    (run0.gt 15).en = false ∧ run0.stg.en = false := by decide

theorem witness_NothingFollowsAQuietState : run0.Quiet :=
  ⟨rfl, rfl, fun _ => ⟨rfl, rfl⟩, fun _ => rfl, rfl, rfl, rfl, by decide, rfl⟩

theorem witness_EveryStepKeepsTheSettingsInRange : run0.SettingsInRange ∧ ∃ t, step run0 = .next t :=
  ⟨⟨by decide, by decide, by decide, by decide, by decide, by decide, by decide, by decide⟩, _, rfl⟩

theorem witness_OffsetWithoutRegister : run0.hasReg (0x3FFFC#18).toNat = false ∧ run0.hasReg (0x0030#18).toNat = false := by decide +kernel

def ofFields (a b c : Nat) : Word := BitVec.ofNat 32 (a * 2 ^ 18 + b * 2 ^ 9 + c)

theorem witness_SettingsWithARange :
    run0.reaches .host = true ∧ run0.pm.inReset = false ∧ run0.wlLocked = false ∧ armed0.pm.inReset = false ∧ armed0.wlLocked = true ∧
    (20 ≤ bits 20#32 7 0 ∧ bits 20#32 7 0 ≤ 200) ∧ (20 ≤ bits 200#32 7 0 ∧ bits 200#32 7 0 ≤ 200) ∧ bits 19#32 7 0 < 20 ∧ 200 < bits 201#32 7 0 ∧
    (196 ≤ bits (ofFields 0 392 0) 19 10 ∧ bits (ofFields 0 392 0) 19 10 ≤ 600) ∧
    (196 ≤ bits (ofFields 0 1200 0) 19 10 ∧ bits (ofFields 0 1200 0) 19 10 ≤ 600) ∧
    bits (ofFields 0 390 0) 19 10 < 196 ∧ 600 < bits (ofFields 0 1202 0) 19 10 ∧
    (let v := ofFields 100 60 80;
      100 ≤ bits v 26 18 ∧ bits v 26 18 ≤ 300 ∧ 60 ≤ bits v 17 9 ∧ bits v 17 9 ≤ 200 ∧ 80 ≤ bits v 8 0 ∧ bits v 8 0 ≤ 300) ∧
    (let v := ofFields 300 200 300;
      100 ≤ bits v 26 18 ∧ bits v 26 18 ≤ 300 ∧ 60 ≤ bits v 17 9 ∧ bits v 17 9 ≤ 200 ∧ 80 ≤ bits v 8 0 ∧ bits v 8 0 ≤ 300) ∧
    (let v := ofFields 300 201 300;
      ¬ (100 ≤ bits v 26 18 ∧ bits v 26 18 ≤ 300 ∧ 60 ≤ bits v 17 9 ∧ bits v 17 9 ≤ 200 ∧ 80 ≤ bits v 8 0 ∧ bits v 8 0 ≤ 300)) ∧
    2 ≤ (2#32).toNat ∧ (1#32).toNat < 2 := by decide +kernel

theorem witness_GeneralRegisters :
    run0.reaches .boot = true ∧ ({ run0 with pm := { run0.pm with bench := true }, db := { run0.db with ir := .dbgAccess } } : State).reaches .debug = true := by
  decide

theorem witness_DiscardedWritesAreRecorded :
    run0.reaches .host = true ∧ run0.hasReg 0x19200 = true ∧ 0x7#4 ≠ 0xF#4 ∧ writable 0x19200 = true ∧ isWl 0x19200 = true ∧
    run0.pm.inReset = false ∧ armed0.hasReg 0x19200 = true ∧ armed0.onHb 0x19200 = false ∧ armed0.wlLocked = true ∧ run0.onFd 0x19200 = true ∧
    run0.wlLocked = false ∧ armed0.hasReg 0x8000 = true ∧ writable 0x8000 = true ∧ isWl 0x8000 = true ∧ armed0.onHb 0x8000 = true ∧
    armed0.allWithdrawn = false ∧ (1#32 ≠ 2#32) ∧ State.reset.pm.inReset = true ∧ writable 0x18024 = true ∧ run0.hasReg 0x18024 = true ∧
    run0.onFd 0x18024 = true ∧ isWl 0x18024 = false := by decide +kernel

theorem witness_Timebases :
    run0.tb.laLf = false ∧ run0.tb.lbLf = false ∧ run0.tb.xchkOff = false ∧
    ({ run0 with tb := { run0.tb with laLf := true } } : State).tb.laLf = true ∧
    ({ run0 with tb := { run0.tb with lbLf := true } } : State).tb.lbLf = true ∧
    ({ run0 with tb := { run0.tb with xchkOff := true } } : State).tb.xchkOff = true := by decide

theorem witness_TimerEnableAndDisable :
    (((15 : Fin 32).val < 16 ∧ bits 0x80000000#32 15 0 = 0)) ∧ 4 < bits 0x00A00001#32 23 21 ∧
    (State.reset.portMax ≤ bits 0x08600001#32 28 24 ∧ 3 ≤ bits 0x08600001#32 23 21) ∧
    ¬ (((15 : Fin 32).val < 16 ∧ bits 0xC0000063#32 15 0 = 0) ∨ 4 < bits 0xC0000063#32 23 21 ∨
      (3 ≤ bits 0xC0000063#32 23 21 ∧ run0.portMax ≤ bits 0xC0000063#32 28 24)) ∧
    ((gt' 15 id).gt 15).en = true ∧ (run0.gt 16).en = false := by decide

theorem witness_TimerCaptures :
    ((gt' 31 fun g => { g with capSrc := 1#3 }).gt 31).en = true ∧ ((gt' 31 fun g => { g with capSrc := 1#3 }).gt 31).capSrc = 1#3 ∧
    (run0.gt 0).en = false ∧ ((gt' 0 id).gt 0).capSrc ≠ 1#3 ∧ ((gt' 0 fun g => { g with capSrc := 4#3 }).gt 0).capSrc ≠ 0#3 ∧
    ((gt' 0 id).gt 0).capSrc = 0#3 := by decide

/-- A member of the stagger group whose phase the period reaches. -/
def member0 : State := { (gt' 16 fun g => { g with phase := 999#32 }) with stg := { run0.stg with en := true } }

theorem witness_TimerEvents :
    ((gt' 15 id).gt 15).en = true ∧ ((gt' 15 id).gt 15).lvl = false ∧ (member0.gt 16).en = true ∧ (member0.gt 16).lvl = false ∧
    (member0.gt 16).phase ≠ 0#32 ∧ (({ gt' 17 fun g => { g with phase := 0#32 } with stg := { run0.stg with en := true } } : State).gt 17).phase = 0#32 ∧ member0.stg.en = true ∧ (member0.gt 16).phase < member0.stg.period ∧ 16 ≤ (16 : Fin 32).val ∧ (15 : Fin 32).val < 16 ∧
    ¬ (((gt' 15 id).gt 15).en = true ∧ 5#32 = ((gt' 15 id).gt 15).count) ∧ (run0.gt 0).en = false := by decide

theorem witness_StaggerLoadsAtTheReturnToZero :
    run0.stg.en = false ∧ member0.stg.en = true ∧
    ({ member0 with stg := { member0.stg with loadPend := true } } : State).stg.loadPend = true := by decide

theorem witness_CrcUnits :
    ({} : Crc).val = 0xFFFFFFFF#32 ∧ ({} : Crc).finalInv = true ∧ ({} : Crc).poly = 0#3 ∧ ({} : Crc).reflect = true ∧
    ({ poly := 1#3, reflect := false } : Crc).poly = 1#3 ∧ ({ poly := 1#3, reflect := false } : Crc).reflect = false ∧
    bits 0x10#32 4 2 ≤ 4 ∧ 4 < bits 0x14#32 4 2 := by decide

/-! ### Witnesses: the host interface -/

/-- Event ring 1, four entries of one sixteen full, `lost` events lost. -/
def ev' (head tail lost : Nat) : State := run0.updEvRing 1 fun q => { q with
  en := true, head := BitVec.ofNat 12 head, tail := BitVec.ofNat 12 tail, lostCnt := lost }

theorem witness_Doorbells :
    (run0.ring 0).st = .disabled ∧ 2 ^ (ring0.ring 0).size.toNat ≤ ((16#32).setWidth 12 : BitVec 12).toNat ∧ (ring0.ring 0).st ≠ .disabled ∧
    ((15#32).setWidth 12 : BitVec 12).toNat < 2 ^ (ring0.ring 0).size.toNat ∧ (ring0.ring 0).st = .enabled ∧ (ring0.ring 0).held = [] ∧
    (run0.evRing 3).en = false ∧ ((ev' 0 0 0).evRing 1).en = true ∧ 2 ^ ((ev' 0 0 0).evRing 1).size.toNat ≤ ((16#32).setWidth 12 : BitVec 12).toNat ∧
    ((15#32).setWidth 12 : BitVec 12).toNat < 2 ^ ((ev' 0 0 0).evRing 1).size.toNat ∧ ((ev' 0 0 0).evRing 1).lostCnt = 0 ∧
    0 < ((ev' 0 3 2).evRing 1).lostCnt ∧
    ringNext ((ev' 0 3 2).evRing 1).size ((ev' 0 3 2).evRing 1).tail ≠ (15#32).setWidth 12 ∧
    (0x00D#12).toNat % 4 ≠ 0 ∧ (0x80 ≤ (0x0FC#12).toNat ∧ (0x0FC#12).toNat < 0x100) ∧ 0x110 ≤ (0x110#12).toNat := by decide

def full0 : State := ring0.updRing 0 fun q => { q with cqTail := 15#12 }

theorem witness_CompletionsAndEvents :
    run0.hi.d3 = false ∧ (run0.ring o0.ring).st = .disabled ∧ (ring0.ring o0.ring).st = .enabled ∧ (ring0.ring o0.ring).held = [] ∧
    ringNext (ring0.ring o0.ring).size (ring0.ring o0.ring).cqTail ≠ (ring0.ring o0.ring).cqHead ∧ full0.hi.d3 = false ∧
    (full0.ring o0.ring).st = .enabled ∧ ringNext (full0.ring o0.ring).size (full0.ring o0.ring).cqTail = (full0.ring o0.ring).cqHead ∧
    (let s : State := { run0 with hi := { run0.hi with route := 0x55555555#32 }, evqA := { run0.evqA with bad := 1#64 } }
     (s.evRing (s.route 5)).en = false ∧ s.evqA.bad.getLsbD 0 = true ∧ s.evqB.bad.getLsbD 0 = false ∧ ¬ (s.hi.evHold = true ∧ (1 = 1 ∨ 1 = 2))) ∧
    (let s : State := { run0 with hi := { run0.hi with evHold := true } }; s.hi.evHold = true ∧ s.hi.d3 = false) ∧
    (let s : State := { (ev' 0 15 0) with hi := { run0.hi with route := 0x55555555#32, evHold := true } }
     (s.evRing (s.route 5)).en = true ∧ s.hi.d3 = false ∧ ¬ (s.hi.evHold = true ∧ (3 = 1 ∨ 3 = 2)) ∧
     ringNext (s.evRing (s.route 5)).size (s.evRing (s.route 5)).tail = (s.evRing (s.route 5)).head) ∧
    (let s : State := { (ev' 1 15 0) with hi := { run0.hi with route := 0x55555555#32 } }
     s.hi.evHold = false ∧ (s.evRing (s.route 5)).en = true ∧
     ringNext (s.evRing (s.route 5)).size (s.evRing (s.route 5)).tail ≠ (s.evRing (s.route 5)).head) := by
  decide +kernel

theorem witness_DescriptorsAreFetched :
    hostOrigin (.timeSync o0) = some o0 ∧ ring0.takes o0 (.timeSync o0) = false ∧
    (host run0 (spell 0x50 1 0 0)).takes o0 (.snapshot o0 0#32 16#32 20#32 true) = false ∧
    ring0.fetchTurn ≠ some (15 : Fin 16).val ∧ ring0.fetchTurn = some (0 : Fin 16).val ∧ (entry' 0x51).opcode.toNat ∈ [0x02, 0x51] ∧
    (entry' 0x50).opcode.toNat ∈ [0x01, 0x50] ∧ entryBad { entry' 0x50 with flags := 0#8 } = false ∧ entryBad { entry' 0x50 with param := 1#320 } = true ∧
    (entry' 0x60).opcode.toNat ∉ [0x02, 0x10, 0x11, 0x12, 0x13, 0x14, 0x20, 0x21, 0x22, 0x23, 0x30, 0x41, 0x42, 0x51, 0x01, 0x31, 0x32,
      0x40, 0x50] := by decide +kernel

def checked0 : State := ring0.updRing 0 fun q => { q with checking := some { cid := 7#16, opcode := 0x51#8 } }
def cq0 : CqEntry := { cid := 7#16, status := 0#8, phase := false, interm := false, sqHead := 0#12, opcode := 0x51#8, ts := 0#64, res := 0#384 }

theorem witness_SafetyEntriesAreChecked :
    (checked0.ring 0).checking ≠ none ∧ (ring0.ring 0).checking = none ∧
    ((checked0.updRing 0 fun q => { q with held := [cq0] }).ring 0).held ≠ [] ∧ (checked0.ring 0).held = [] ∧ (checked0.ring 0).lostA = false ∧
    (checked0.ring 0).lostB = false ∧ ({ entry' 0x51 with flags := 0#8 }).flags.getLsbD 0 = false ∧
    (entry' 0x51).flags.getLsbD 0 = true ∧ (entry' 0x51).dcrc ≠ crcA (entryCrcBytes (entry' 0x51)) ∧
    (fixed (entry' 0x51)).dcrc = crcA (entryCrcBytes (fixed (entry' 0x51))) ∧
    (fixed { entry' 0x51 with hostSeq := 1#32 }).hostSeq ≠ (checked0.ring 0).seqA ∧
    (fixed { entry' 0x51 with hostSeq := 1#32 }).dcrc = crcA (entryCrcBytes (fixed { entry' 0x51 with hostSeq := 1#32 })) ∧
    (fixed (entry' 0x51)).hostSeq = (checked0.ring 0).seqA ∧ (fixed (entry' 0x51)).hostSeq = ~~~(checked0.ring 0).seqB ∧
    fixed (entry' 0x51) ≠ fixed { entry' 0x51 with cid := 8#16 } ∧ (fixed (entry' 0x51)).opcode.toNat ∈ safetyOpcodes ∧
    entryBad (fixed (entry' 0x51)) = false := by decide +kernel

def outs0 (xs : List Taken) : State := ring0.updRing 0 fun q => { q with outs := xs }
def taken0 : Taken := { cid := 7#16, opcode := 0x10#8 }

theorem witness_RingsAreEnabledAndDisabled :
    (4 ≤ bits 4#32 3 0 ∧ bits 4#32 3 0 ≤ 12 ∧ run0.hi.selected ≠ 0#8) ∧ (4 ≤ bits 0x1F0C#32 3 0 ∧ bits 0x1F0C#32 3 0 ≤ 12) ∧
    ¬ (4 ≤ bits 13#32 3 0 ∧ bits 13#32 3 0 ≤ 12 ∧ run0.hi.selected ≠ 0#8) ∧ ¬ (4 ≤ bits 3#32 3 0 ∧ bits 3#32 3 0 ≤ 12 ∧ run0.hi.selected ≠ 0#8) ∧
    (run0.ring 15).st = .disabled ∧ (run0.ring 15).st ≠ .enabled ∧ (ring0.ring 0).st = .enabled ∧ ring0.op = none ∧ ring0.waiting = [] ∧
    ring0.bist.asked = [] ∧ ring0.snap.waiting = [] ∧ ring0.pm.shutO = none ∧ ring0.zones = [] ∧ ring0.hi.d3 = false ∧ (ring0.ring 0).held = [] ∧
    (ring0.ring 0).checking = none ∧ (ring0.ring 0).resetDue = false ∧ (ring0.ring 0).outs = [] ∧ ((outs0 [taken0]).ring 0).outs = [taken0] ∧
    ((outs0 [taken0]).ring 0).st = .enabled ∧ (run0.evRing 3).en = false ∧ bit 0x80000004#32 31 = true ∧
    ((ev' 0 0 0).evRing 1).en = true ∧ bit 4#32 31 = false ∧ (4 ≤ bits 0x80000004#32 3 0 ∧ bits 0x80000004#32 3 0 ≤ 12) ∧
    ¬ (4 ≤ bits 0x80000003#32 3 0) := by decide

theorem witness_VersionIsSelected :
    (∀ r : Fin 16, (run0.ring r).st = .disabled) ∧ (∀ e : Fin 4, (run0.evRing e).en = false) ∧ bits 1#32 7 0 = 1 ∧ bits 2#32 7 0 = 2 ∧
    ¬ ((∀ r : Fin 16, (ring0.ring r).st = .disabled) ∧ True) ∧ ¬ (bits 3#32 7 0 = 1 ∨ bits 3#32 7 0 = 2) := by decide +kernel

/-- Vector 3 with an entry to report, masked or not (the mask bit is stored inverted). -/
def vec3 (open' : Bool) : State := { run0 with hi := { run0.hi with
  due := 8#32, msix := if open' then [(15, 1#32)] else [] } }

theorem witness_FunctionStates :
    State.reset.hi.ready = false ∧ run0.hi.ready = true ∧ ({ run0 with hi := { run0.hi with d3 := true } } : State).hi.d3 = true ∧
    run0.hi.due.getLsbD 3 = false ∧
    (vec3 true).hi.due.getLsbD 3 = true ∧ (vec3 true).hi.d3 = false ∧ bit ((vec3 true).hi.msixWord (4 * 3 + 3)) 0 = false ∧
    (vec3 false).hi.due.getLsbD 3 = true ∧ bit ((vec3 false).hi.msixWord (4 * 3 + 3)) 0 = true := by decide

/-- Every command of the host has an entry that spells it and stands behind it. -/
theorem witness_HostCommandsHaveEntries :
    (host run0 (spell 0x01 1 4 (2 ^ 32))).takes o0 (.imgLoad o0 0#32 1#32 4#32 true img0 img0) = true ∧
    (host run0 (spell 0x02 1 0 0)).takes o0 (.imgVerify o0) = true ∧
    (host run0 (spell 0x10 1 0 (5 * 2 ^ 256 + 1))).takes o0 (.zoneAdmit o0 1#256 5#8) = true ∧
    (host run0 (spell 0x11 1 0 (9 * 2 ^ 32 + 3))).takes o0 (.zoneCommit o0 3#8 9#32) = true ∧
    (host run0 (spell 0x11 5 0 (9 * 2 ^ 32 + 3))).takes o0 (.rollback o0 3#8 9#32) = true ∧
    (host run0 (spell 0x12 1 0 3)).takes o0 (.zoneWithdraw o0 3#8) = true ∧
    (host run0 (spell 0x13 1 0 (7 * 2 ^ 264 + 5 * 2 ^ 256 + 1))).takes o0 (.zoneMigrate o0 1#256 5#8 7#8) = true ∧
    (host run0 (spell 0x14 1 0 3)).takes o0 (.zoneRestart o0 3#8) = true ∧
    (host run0 (spell 0x20 1 0 0x203)).takes o0 (.connOpen o0 0x203#16) = true ∧
    (host run0 (spell 0x21 1 0 0x203)).takes o0 (.connClose o0 0x203#16) = true ∧
    (host run0 (spell 0x22 1 0 31)).takes o0 (.portEnable o0 31#8) = true ∧
    (host run0 (spell 0x23 1 0 31)).takes o0 (.portDisable o0 31#8) = true ∧
    (host run0 (spell 0x30 1 0 0x2302)).takes o0 (.bistRun o0 2#8 35#8) = true ∧
    (host run0 (spell 0x30 1 0 0x2308)).takes o0 (.channelCal o0 35#8) = true ∧
    (host run0 (spell 0x31 1 16 (2 * 2 ^ 32 + 2 ^ 16 + 3))).takes o0 (.diagRead o0 3#8 1#16 2#16 16#32 true) = true ∧
    (host run0 (spell 0x32 1 20 (16 * 2 ^ 32 + 32))).takes o0 (.snapshot o0 32#32 16#32 20#32 true) = true ∧
    (host run0 (spell 0x40 1 0 0x421)).takes o0 (.otpRead o0 0x21#8 4#8) = true ∧
    (host run0 (spell 0x41 1 0 (5 * 2 ^ 64 + 0x4800))).takes o0 (.otpProgram o0 0x48#8 5#64 true ⟨1, 0#64, 0#8, none⟩) = true ∧
    (host run0 (spell 0x41 1 0 0x401)).takes o0 (.writeLock o0 4#8 true 3 ⟨7#3, 7#3, none⟩) = true ∧
    (host run0 (spell 0x41 1 0 0x402)).takes o0 (.readLock o0 4#8 true 3 ⟨7#3, 7#3, none⟩) = true ∧
    (host run0 (spell 0x42 1 0 (5 * 2 ^ 64 + 0x8400))).takes o0 (.otpShadowSet o0 0x84#8 5#64) = true ∧
    (host run0 (spell 0x42 1 0 0x8401)).takes o0 (.otpShadowRemove o0 0x84#8) = true ∧
    (host run0 (spell 0x50 1 0 0)).takes o0 (.timeSync o0) = true ∧
    (host run0 (spell 0x51 1 0 0)).takes o0 (.shutdown o0) = true := by decide +kernel

def verifyE : Entry := spell 0x02 1 0 0

theorem witness_StewardCommands :
    waitOrigin (.imgVerify o0) = some (o0, 0x02) ∧
    Meets { run0 with db := { run0.db with broken := true } } verifyE (.imgVerify o0) (fun s => s.db.broken = true) ∧
    Meets (at' .dormant) verifyE (.imgVerify o0) (fun s => s.pm.dstate ∈ [DState.load, .startTest, .config, .dormant] ∧ s.db.broken = false) ∧
    Meets (at' .load) verifyE (.imgVerify o0) (fun s => s.pm.dstate ∈ [DState.load, .startTest, .config, .dormant] ∧ s.db.broken = false) ∧
    Meets (at' .shutdown) verifyE (.imgVerify o0) (fun s => s.pm.dstate = .shutdown) ∧
    (at' .off).pm.dstate = .off ∧ (host (at' .off) verifyE).takes o0 (.imgVerify o0) = false := by decide +kernel

/-! ### Witnesses: the host's commands -/

theorem witness_Ready : ((host run0 verifyE).begun o0).Ready := ⟨rfl, rfl, rfl, rfl⟩

/-- Half an image in the load buffer. -/
def buf' (total loaded : Nat) (x : Option Image) : State := { run0 with buf := { total := total, loaded := loaded, imgA := x, imgB := x } }

/-- The figures of IMG_LOAD that are taken. -/
abbrev loadGood (off total len : Word) : Prop :=
  1 ≤ total.toNat ∧ total.toNat ≤ 2097152 ∧ 4 ≤ len.toNat ∧ len.toNat ≤ 65536 ∧ len.toNat % 4 = 0 ∧
    off.toNat + len.toNat ≤ total.toNat + 3

def loadE (off total len : Nat) : Entry := spell 0x01 1 len (total * 2 ^ 32 + off)

theorem witness_ImageLoad :
    Meets (buf' 2097152 65536 none) (loadE 65536 2097152 65536) (.imgLoad o0 65536#32 2097152#32 65536#32 true img0 img0)
      (fun s => loadGood 65536#32 2097152#32 65536#32 ∧ (65536#32).toNat = s.buf.loaded ∧ (2097152#32).toNat = s.buf.total) ∧
    Meets (buf' 2097152 65536 none) (loadE 65536 2097148 65536) (.imgLoad o0 65536#32 2097148#32 65536#32 true img0 img0)
      (fun s => loadGood 65536#32 2097148#32 65536#32 ∧ (65536#32).toNat = s.buf.loaded ∧ (2097148#32).toNat ≠ s.buf.total) ∧
    Meets (buf' 2097152 4 none) (loadE 65536 2097152 65536) (.imgLoad o0 65536#32 2097152#32 65536#32 true img0 img0)
      (fun s => loadGood 65536#32 2097152#32 65536#32 ∧ 65536#32 ≠ 0#32 ∧ (65536#32).toNat ≠ s.buf.loaded) ∧
    Meets run0 (loadE 0 1 4) (.imgLoad o0 0#32 1#32 4#32 false img0 img0) (fun _ => loadGood 0#32 1#32 4#32) ∧
    Meets run0 (loadE 0 2097153 4) (.imgLoad o0 0#32 2097153#32 4#32 true img0 img0) (fun _ => ¬ loadGood 0#32 2097153#32 4#32) ∧
    Meets run0 verifyE (.imgVerify o0) (fun s => s.pm.dstate = .run ∧ s.op = none) := by decide +kernel

def verify0 (s : State) (b : Bool) : State := { s with op := some {
  kind := .verify false, o := some { o0 with progress := b }, stage := 0, start := 0#64 } }

/-- An image of one internal point, with both its CRCs. -/
def whole0 : Image := { img0 with internals := [(0x21000, .standard)], crcA := crcA img0.bytes, crcB := crcB img0.bytes }

theorem witness_VerifySteps :
    (verify0 run0 false).pm.dstate ≠ .dormant ∧ (verify0 run0 false).pm.dstate ≠ .off ∧ (∀ r : Fin 16, ((verify0 run0 false).ring r).outs = []) ∧
    (∃ op o, (verify0 run0 false).op = some op ∧ op.kind = .verify false ∧ op.o = some o ∧ o.progress = false) ∧
    ((verify0 run0 false).commonFault = false) ∧ (verify0 run0 false).buf.imgA = none ∧
    (let s := verify0 (buf' 100 64 (some img0)) false; s.buf.imgA = some img0 ∧ s.buf.imgB = some img0 ∧ s.buf.loaded < s.buf.total) ∧
    (let s := verify0 (buf' 100 100 (some img0)) false; s.buf.imgA = some img0 ∧ s.buf.imgB = some img0 ∧ s.buf.total ≤ s.buf.loaded) ∧
    img0.major = 1 ∧ img0.minor ≤ 3 ∧ img0.size ≤ 2097152 ∧ img0.zones = [] ∧ crcA img0.bytes ≠ img0.crcA ∧
    crcA whole0.bytes = whole0.crcA ∧ crcB whole0.bytes = whole0.crcB ∧ crcB { whole0 with crcB := 0#32 }.bytes ≠ 0#32 ∧
    ({ img0 with minor := 4 } : Image).minor > 3 ∧ whole0.zones = [] ∧ whole0.chans = [] ∧ whole0.conns = [] ∧ whole0.tiles = [] ∧
    whole0.ack = none ∧ (verify0 (buf' 100 100 (some whole0)) false).imageBad whole0 = none :=
  ⟨by decide, by decide, by decide, ⟨_, _, rfl, rfl, rfl, rfl⟩, by decide, rfl, by decide, by decide, by decide, by decide, by decide, rfl, by decide +kernel, by decide +kernel,
    by decide +kernel, by decide +kernel, by decide, rfl, rfl, rfl, rfl, rfl, by decide +kernel⟩

/-- Ring 0 has one command, which moves data. -/
def moves (s : State) (op : Nat) (m : Move) : State := s.updRing 0 fun q => { q with
  st := .enabled, outs := [{ cid := 7#16, opcode := BitVec.ofNat 8 op, entry := some (spell op 1 0 0), started := true, move := some m }] }
def loadMove (off : Nat) (ok : Bool) : Move := { kind := .load off 100 img0 img0, bytes := 8, moved := 4, busOk := ok }
def diagMove : Move := { kind := .diag 0 0, bytes := 16, busOk := true }

theorem witness_DataMoves :
    (∀ m ∈ [loadMove 0 false, loadMove 0 true, diagMove, { kind := .sheet, bytes := 20, busOk := true }],
      ((moves armed0 1 m).ring 0).moving.map (·.2) = some m ∧ m.moved < m.bytes) ∧
    (moves run0 1 (loadMove 0 true)).op = none ∧ (moves run0 1 (loadMove 0 true)).pm.dstate ∉ [DState.config, .dormant, .off] ∧
    (moves run0 1 (loadMove 0 true)).pm.shutO = none ∧ (moves run0 1 (loadMove 0 true)).bist.asked = [] ∧
    min 8 (4 + 4) = (loadMove 0 true).bytes ∧ min 8 (4 + 3) < (loadMove 0 true).bytes ∧
    (buf' 100 64 none).buf.loaded = 64 ∧ (buf' 100 64 none).buf.total = 100 ∧ (buf' 100 64 none).buf.loaded ≠ 60 ∧
    ((armed0.zone 0).active.any fun v => decide (0 + 2 ≤ v.sec.blocks.length) && decide (1 < v.rt.length)) = true := by decide +kernel

/-- A zone with a STAGED version, and with a RETAINED one on pair 5, which carries it. -/
def staged0 (z : Nat) (admitted : Bool) : State :=
  (run0.updZone z fun y => { y with staged := some { ver0 z 5 bs0 with admitted := admitted } }).updPair 5 fun q => { q with role := .carrying }

def retained0 : State :=
  ((up run0 0 2 .running).updZone 0 fun y => { y with retained := some (ver0 0 5 bs0) }).updPair 5 fun q => { q with role := .carrying }

def admitE (p z : Nat) : Entry := spell 0x10 1 0 (p * 2 ^ 256 + 2 ^ z)
def migrateE (src tgt : Nat) : Entry := spell 0x13 1 0 (tgt * 2 ^ 264 + src * 2 ^ 256)

theorem witness_AdmissionsAreTakenUp :
    Meets (staged0 255 false) (admitE 35 255) (.zoneAdmit o0 (BitVec.twoPow 256 255) 35#8) (fun s =>
      (35#8).toNat < 36 ∧ (s.pair (35#8).toNat).role = .free ∧ (s.pair (35#8).toNat).haltBit = false ∧
      maskBits (BitVec.twoPow 256 255) ≠ [] ∧ (maskBits (BitVec.twoPow 256 255)).length ≤ 64 ∧
      ∀ z ∈ maskBits (BitVec.twoPow 256 255), (s.zone z).active = none ∧ (s.zone z).wd = none ∧
        (s.zone z).staged.isSome = true ∧ (s.zone z).staged.all (fun v => !v.admitted)) ∧
    Meets run0 (spell 0x10 1 0 (35 * 2 ^ 256)) (.zoneAdmit o0 0#256 35#8) (fun _ => True) ∧
    Meets run0 (admitE 35 255) (.zoneAdmit o0 (BitVec.twoPow 256 255) 35#8) (fun s => (s.zone (255 : Fin 256)).staged = none) ∧
    Meets (up run0 0 5 .running) (migrateE 5 35) (.zoneMigrate o0 0#256 5#8 35#8) (fun s =>
      (s.pair (5#8).toNat).role = .carrying ∧ (s.pair (35#8).toNat).role = .free ∧ (s.pair (35#8).toNat).haltBit = false ∧
      (5#8 : Byte) ≠ 35#8 ∧ s.zonesOn (5#8).toNat ≠ []) := by
  decide +kernel

def commitE (fl z acc : Nat) : Entry := spell 0x11 fl 0 (acc * 2 ^ 32 + z)
def accept0 : Word := (ver0 255 5 bs0).accept

/-- The operation of a commit as it is taken up. -/
def commitOp (s : State) : LongOp := {
  kind := .commit 255 false false, o := some o0, tgt := 5, stage := 6, start := s.tb.a, sample0 := s.fd.sampleNum, req0 := s.commonFault }

theorem witness_CommitsAreTakenUp :
    Meets (chan' (staged0 255 true) 0 2) (commitE 1 255 accept0.toNat) (.zoneCommit o0 255#8 accept0) (fun s =>
      (s.zone 255).staged.any (fun v => v.admitted && decide (accept0 = v.accept) && !s.down v.pair && !s.commitReady (commitOp s) 255 v) = true ∧
      (s.zone 255).wd = none) ∧
    Meets (staged0 255 true) (commitE 1 255 (accept0.toNat ^^^ 1)) (.zoneCommit o0 255#8 (accept0 ^^^ 1#32)) (fun s =>
      (s.zone 255).staged.any (fun v => v.admitted && decide (accept0 ^^^ 1#32 ≠ v.accept)) = true ∧ (s.zone 255).accFails < 3) ∧
    Meets (staged0 255 false) (commitE 1 255 0) (.zoneCommit o0 255#8 0#32) (fun s => (s.zone 255).staged.any (fun v => !v.admitted) = true) ∧
    Meets run0 (commitE 1 0 0) (.zoneCommit o0 0#8 0#32) (fun s => (s.zone 0).staged = none) ∧
    Meets run0 (commitE 5 0 0) (.rollback o0 0#8 0#32) (fun s => (s.zone 0).retained = none) ∧
    Meets retained0 (commitE 5 0 ((ver0 0 5 bs0).accept.toNat ^^^ 1)) (.rollback o0 0#8 ((ver0 0 5 bs0).accept ^^^ 1#32)) (fun s =>
      (s.zone 0).retained.any (fun v => decide ((ver0 0 5 bs0).accept ^^^ 1#32 ≠ v.accept)) = true) ∧
    Meets retained0 (commitE 5 0 (ver0 0 5 bs0).accept.toNat) (.rollback o0 0#8 (ver0 0 5 bs0).accept) (fun s =>
      (s.zone 0).retained.any (fun v => decide ((ver0 0 5 bs0).accept = v.accept) && decide (v.pair < 36) &&
        decide ((s.pair v.pair).role = .carrying) && !(s.pair v.pair).haltBit) = true ∧ (s.zone 0).wd = none) := by decide +kernel

/-- A commit of a version that drives nothing has nothing to wait for. -/
theorem witness_CommitThatNeedNotWait :
    (let s := (host ((run0.updZone 255 fun y => { y with staged := some (ver0 255 5 []) }).updPair 5 fun q => { q with role := .carrying })
        (commitE 1 255 (ver0 255 5 []).accept.toNat)).begun o0
     s.commitReady (commitOp s) 255 (ver0 255 5 []) = true ∧ s.down 5 = false) := by decide +kernel

theorem witness_WithdrawAndRestart :
    Meets armed0 (spell 0x12 1 0 0) (.zoneWithdraw o0 0#8) (fun s => (s.zone 0).active.isSome = true ∧ (s.zone 0).wd = none) ∧
    Meets (staged0 255 false) (spell 0x12 1 0 255) (.zoneWithdraw o0 255#8) (fun s => (s.zone 255).active = none ∧
      (s.zone 255).staged.any (fun v => !v.admitted) = true ∧ (s.zone 255).st = .withdrawn) ∧
    Meets run0 (spell 0x12 1 0 255) (.zoneWithdraw o0 255#8) (fun s => (s.zone 255).active = none ∧ (s.zone 255).staged = none) ∧
    Meets armed0 (spell 0x14 1 0 0) (.zoneRestart o0 0#8) (fun s => (s.zone 0).st ≠ .faulted) ∧
    Meets (withRec (up run0 0 5 .faulted) 0x3001 0) (spell 0x14 1 0 0) (.zoneRestart o0 0#8) (fun s =>
      (s.zone 0).st = .faulted ∧ s.blocked 0 = true) ∧
    Meets (up run0 0 5 .faulted) (spell 0x14 1 0 0) (.zoneRestart o0 0#8) (fun s =>
      (s.zone 0).st = .faulted ∧ s.blocked 0 = false ∧ s.pairHealthy (s.zone 0).pairOf = true) ∧
    Meets run0 (spell 0x51 1 0 0) (.shutdown o0) (fun s => s.pm.dstate = .run) := by decide +kernel

def port' (st : PortSt) : State := run0.updPort 31 fun p => { p with st := st }

theorem witness_ConnectionAndPortCommands :
    Meets (conn' true .closed) (spell 0x20 1 0 0) (.connOpen o0 0#16) (fun s =>
      (s.conn 0).decl = some (decl0 true) ∧ (decl0 true).port < s.portMax ∧ (s.conn 0).st = .closed ∧ (decl0 true).cmac = false) ∧
    Meets (conn' true .running) (spell 0x21 1 0 0) (.connClose o0 0#16) (fun s =>
      (s.conn 0).decl = some (decl0 true) ∧ (s.conn 0).st ≠ .withdrawn ∧ (s.conn 0).st ≠ .closed ∧ s.usersOf (decl0 true) = false) ∧
    Meets ((conn' true .running).updZone 0 fun y => { y with active := some (ver0 0 5 [⟨.not, [some (.point 0x10)]⟩]) })
      (spell 0x21 1 0 0) (.connClose o0 0#16) (fun s =>
      (s.conn 0).decl = some (decl0 true) ∧ (s.conn 0).st = .running ∧ s.usersOf (decl0 true) = true) ∧
    Meets run0 (spell 0x22 1 0 31) (.portEnable o0 31#8) (fun s => (31#8).toNat < s.portMax ∧ (s.port 31).st = .disabled ∧
      (s.port 31).serdesFail = false ∧ (s.port 31).cfg.tunnel = false) ∧
    Meets { run0 with otp := { run0.otp with applied := 0#2 } } (spell 0x22 1 0 8) (.portEnable o0 8#8) (fun s =>
      s.portMax ≤ (8#8).toNat ∧ (8#8).toNat < 32) ∧
    Meets (port' .up) (spell 0x23 1 0 31) (.portDisable o0 31#8) (fun s => (s.port 31).st ≠ .disabled) := by decide +kernel

def noFree : State :=
  { armed0 with pairs := (List.range 36).map fun p => (p, { Pair.init with role := if p = 5 then .carrying else .unusable }) }

def bistE (item index : Nat) : Entry := spell 0x30 1 0 (index * 256 + item)

theorem witness_SelfTestCommands :
    Meets run0 (bistE 0 35) (.bistRun o0 0#8 35#8) (fun s => (s.pair 35).role = .free) ∧
    Meets noFree (bistE 0 5) (.bistRun o0 0#8 5#8) (fun s =>
      (s.pair 5).role = .carrying ∧ (∀ p : Fin 36, (s.pair p).role ≠ .free) ∧ s.retainedOnly 5 0x3F = none) ∧
    Meets run0 (bistE 0 36) (.bistRun o0 0#8 36#8) (fun _ => 36 ≤ (36#8).toNat) ∧
    Meets run0 (bistE 1 63) (.bistRun o0 1#8 63#8) (fun _ => (1#8).toNat ∈ [1, 2, 3]) ∧
    Meets run0 (bistE 3 0) (.bistRun o0 3#8 0#8) (fun _ => (3#8).toNat ∈ [1, 2, 3]) ∧
    Meets run0 (bistE 8 64) (.channelCal o0 64#8) (fun _ => 64 ≤ (64#8).toNat) ∧
    Meets (up run0 0 5 .running) (bistE 8 0) (.channelCal o0 0#8) (fun s => s.calBlocked 0 = true) ∧
    Meets (chan' run0 63 1) (bistE 8 63) (.channelCal o0 63#8) (fun s => s.calBlocked 63 = false ∧ (s.chan 63).mode = 1#2) ∧
    Meets (chan' run0 63 2) (bistE 8 63) (.channelCal o0 63#8) (fun s => s.calBlocked 63 = false ∧ (s.chan 63).mode = 2#2 ∧ 63 ∈ s.unit 63) := by
  decide +kernel

def diagE (z f n len : Nat) : Entry := spell 0x31 1 len (n * 2 ^ 32 + f * 2 ^ 16 + z)
def snapE (f n len : Nat) : Entry := spell 0x32 1 len (n * 2 ^ 32 + f)
abbrev snapGood (f n len : Word) : Prop :=
  f.toNat % 16 = 0 ∧ n.toNat % 16 = 0 ∧ 16 ≤ n.toNat ∧ n.toNat ≤ 137216 ∧ f.toNat + n.toNat ≤ 0x21800 ∧ 16 + n.toNat / 4 ≤ len.toNat

theorem witness_ReadingCommands :
    Meets run0 (diagE 0 0 1025 8200) (.diagRead o0 0#8 0#16 1025#16 8200#32 true) (fun _ => 1024 < (1025#16).toNat) ∧
    Meets run0 (diagE 0 0 9 64) (.diagRead o0 0#8 0#16 9#16 64#32 true) (fun _ => (64#32).toNat < 8 * (9#16).toNat) ∧
    Meets run0 (diagE 0 0 1024 8192) (.diagRead o0 0#8 0#16 1024#16 8192#32 true) (fun s =>
      1 ≤ (1024#16).toNat ∧ (1024#16).toNat ≤ 1024 ∧ 8 * (1024#16).toNat ≤ (8192#32).toNat ∧ (s.zone 0).active = none) ∧
    Meets armed0 (diagE 0 1 2 16) (.diagRead o0 0#8 1#16 2#16 16#32 true) (fun s =>
      (s.zone 0).active.any (fun v => decide ((1#16).toNat < v.sec.blocks.length)) = true ∧ 8 * (2#16).toNat ≤ (16#32).toNat) ∧
    Meets armed0 (diagE 0 2 1 16) (.diagRead o0 0#8 2#16 1#16 16#32 true) (fun s =>
      (s.zone 0).active.any (fun v => decide (v.sec.blocks.length ≤ (2#16).toNat)) = true ∧ 8 * (1#16).toNat ≤ (16#32).toNat) ∧
    Meets run0 (snapE 0 137216 34320) (.snapshot o0 0#32 137216#32 34320#32 true) (fun _ => snapGood 0#32 137216#32 34320#32) ∧
    Meets run0 (snapE 0x217F0 16 20) (.snapshot o0 0x217F0#32 16#32 20#32 false) (fun _ => snapGood 0x217F0#32 16#32 20#32) ∧
    Meets run0 (snapE 0x21800 16 20) (.snapshot o0 0x21800#32 16#32 20#32 true) (fun _ => ¬ snapGood 0x21800#32 16#32 20#32) ∧
    Meets run0 (spell 0x50 1 0 0) (.timeSync o0) (fun _ => True) := by decide +kernel

theorem witness_OtpReadsAndDriftScan :
    Meets run0 (spell 0x40 1 0 0x005) (.otpRead o0 5#8 0#8) (fun _ => (0#8).toNat = 0) ∧
    Meets run0 (spell 0x40 1 0 0x505) (.otpRead o0 5#8 5#8) (fun _ => 4 < (5#8).toNat) ∧
    Meets run0 (spell 0x40 1 0 0x21F) (.otpRead o0 0x1F#8 2#8) (fun _ => 16 < (0x1F#8).toNat % 16 + (2#8).toNat) ∧
    Meets run0 (spell 0x40 1 0 0x4FC) (.otpRead o0 0xFC#8 4#8) (fun _ => 1 ≤ (4#8).toNat ∧ (4#8).toNat ≤ 4 ∧
      (0xFC#8).toNat % 16 + (4#8).toNat ≤ 16) ∧
    State.reset.otp.loaded = false ∧ run0.otp.loaded = true := by decide +kernel

def loaded0 : State := run0.loadShadows [] []

theorem witness_OtpDrift :
    loaded0.otp.loaded = true ∧ (∀ r : Fin 16, loaded0.lockDrifts [] r = false) ∧
    (∀ w : Fin 256, loaded0.scanWord [] w = (loaded0.otpWord w).val) ∧
    (let ws : List (Fin 256 × OtpSense) := [(3, ⟨5#64, otpCheck 5#64⟩)]
     loaded0.scanWord ws 3 ≠ (loaded0.otpWord 3).val ∧ (∀ j : Fin 256, j ≠ 3 → loaded0.scanWord ws j = (loaded0.otpWord j).val)) ∧
    ((run0.updOtp 3 fun x => { x with drifted := true }).otpWord (3 : Fin 256)).drifted = true ∧
    (loaded0.otpWord (3 : Fin 256)).drifted = false := by decide +kernel

def bench0 : State := { run0 with pm := { run0.pm with bench := true } }
def goodProg : ProgOutcome := ⟨1, 0#64, 0#8, none⟩
def progE (w d : Nat) : Entry := spell 0x41 1 0 (d * 2 ^ 64 + w * 256)
def wlE (r : Nat) : Entry := spell 0x41 1 0 (r * 256 + 1)
def rlE (r : Nat) : Entry := spell 0x41 1 0 (r * 256 + 2)
def setE (w : Nat) : Entry := spell 0x42 1 0 (5 * 2 ^ 64 + w * 256)
def removeE (w : Nat) : Entry := spell 0x42 1 0 (w * 256 + 1)
def lock0 : LockOutcome := ⟨7#3, 7#3, none⟩

theorem witness_OtpProgramming :
    Meets run0 (progE 48 0) (.otpProgram o0 48#8 0#64 true goodProg) (fun _ => True) ∧
    Meets armed0 (progE 48 5) (.otpProgram o0 48#8 5#64 true goodProg) (fun s => s.allWithdrawn = false) ∧
    Meets run0 (progE 15 5) (.otpProgram o0 15#8 5#64 true goodProg) (fun s => s.allWithdrawn = true ∧ s.wlOn ((15#8).toNat / 16) = true) ∧
    Meets (run0.updOtp 48 fun x => { x with fuse := 1#64 }) (progE 48 5) (.otpProgram o0 48#8 5#64 true goodProg) (fun s =>
      s.allWithdrawn = true ∧ s.wlOn ((48#8).toNat / 16) = false ∧ (s.otpWord (48#8).toNat).prog = true) ∧
    Meets run0 (progE 48 5) (.otpProgram o0 48#8 5#64 true goodProg) (fun s =>
      s.allWithdrawn = true ∧ s.wlOn ((48#8).toNat / 16) = false ∧ (s.otpWord (48#8).toNat).prog = false ∧
      5#64 &&& goodProg.failData = 0#64 ∧ otpCheck 5#64 &&& goodProg.failCheck = 0#8) ∧
    Meets run0 (progE 48 5) (.otpProgram o0 48#8 5#64 true ⟨5, 4#64, 0#8, none⟩) (fun s =>
      (s.otpWord (48#8).toNat).prog = false ∧ 5#64 &&& 4#64 ≠ 0#64) ∧
    Meets run0 (progE 48 5) (.otpProgram o0 48#8 5#64 true ⟨2, 4#64, 0#8, some .hub⟩) (fun s => (s.otpWord (48#8).toNat).prog = false) := by
  decide +kernel

theorem witness_OtpLocksAndOverrides :
    Meets run0 (wlE 16) (.writeLock o0 16#8 true 3 lock0) (fun _ => 15 < (16#8).toNat) ∧
    Meets run0 (rlE 16) (.readLock o0 16#8 true 3 lock0) (fun _ => 15 < (16#8).toNat) ∧
    Meets armed0 (wlE 14) (.writeLock o0 14#8 true 3 lock0) (fun s => s.allWithdrawn = false) ∧
    Meets run0 (rlE 14) (.readLock o0 14#8 false 3 lock0) (fun _ => True) ∧
    Meets run0 (wlE 15) (.writeLock o0 15#8 true 3 lock0) (fun s => s.allWithdrawn = true ∧ s.wlOn 15 = true) ∧
    Meets { run0 with otp := { run0.otp with rl := 1#16 } } (rlE 0) (.readLock o0 0#8 true 3 lock0) (fun s => s.rlOn 0 = true) ∧
    Meets run0 (wlE 14) (.writeLock o0 14#8 true 3 lock0) (fun s => s.allWithdrawn = true ∧ s.wlOn 14 = false) ∧
    Meets run0 (rlE 15) (.readLock o0 15#8 true 3 lock0) (fun s => s.rlOn 15 = false) ∧
    Meets run0 (rlE 15) (.readLock o0 15#8 true 3 ⟨3#3, 7#3, none⟩) (fun s => s.rlOn 15 = false) ∧
    Meets run0 (setE 48) (.otpShadowSet o0 48#8 5#64) (fun s => s.pm.bench = false) ∧
    Meets bench0 (setE 16) (.otpShadowSet o0 16#8 5#64) (fun s => s.pm.bench = true ∧ (16#8).toNat / 16 ≠ 3 ∧ (16#8).toNat / 16 < 8) ∧
    Meets bench0 (removeE 224) (.otpShadowRemove o0 224#8) (fun _ => 13 < (224#8).toNat / 16) ∧
    Meets { bench0 with otp := { bench0.otp with wl := 8#16 } } (setE 63) (.otpShadowSet o0 63#8 5#64) (fun s =>
      (63#8).toNat / 16 = 3 ∧ s.wlOn ((63#8).toNat / 16) = true) ∧
    Meets bench0 (setE 223) (.otpShadowSet o0 223#8 5#64) (fun s =>
      8 ≤ (223#8).toNat / 16 ∧ (223#8).toNat / 16 ≤ 13 ∧ s.wlOn ((223#8).toNat / 16) = false) ∧
    Meets bench0 (removeE 48) (.otpShadowRemove o0 48#8) (fun s => s.pm.bench = true ∧ s.wlOn 3 = false) := by decide +kernel
/-! ### Witnesses: faults, debug -/

theorem witness_FaultsAreRecorded :
    (0 ∈ [0] ∧ (armed0.zone 0).st ≠ .withdrawn) ∧ (withRec armed0 0x1002 5).findRec 0x1002#16 5#12 = some 0 ∧
    (withRec armed0 0x1002 5).frec 0 = some (rec0 0x1002 5) ∧ armed0.findRec 0x1002#16 5#12 = none ∧ armed0.emptyRec = some 0 ∧
    (fullRecs armed0).findRec 0x1002#16 5#12 = none ∧ (fullRecs armed0).emptyRec = none := by decide +kernel

theorem witness_PairFaultStopsThePair :
    (armed0.pair (5 : Fin 36)).role ≠ .testing ∧ (armed0.pair (5 : Fin 36)).stop .a = false ∧ 0 ∈ armed0.faultZonesOn 5 ∧
    (∀ e ∈ armed0.zones, e.1 = 1 → e.2.pairOf ≠ 5) ∧ pass0.lanesRun = true ∧ (pass0.pair (5 : Fin 36)).watchedBy .a = true ∧
    (pass0.pair (5 : Fin 36)).run.isSome = true ∧ State.reset.lanesRun = false ∧ (run0.pair (35 : Fin 36)).run = none ∧
    (run0.pair (35 : Fin 36)).watchedBy .b = true ∧ run0.lanesRun = true ∧ (run0.pair (35 : Fin 36)).stop .a = false ∧
    (let s := run0.updPair 35 fun q => { q with stopA := true, role := .unusable };
      (s.pair (35 : Fin 36)).run = none ∧ (s.pair (35 : Fin 36)).stop (otherLane .b) = true ∧ (s.pair (35 : Fin 36)).watchedBy .b = true) ∧
    (pass0.pair (5 : Fin 36)).run = some running' ∧
    passCauses (pass0.pair (5 : Fin 36)) { clean with codeB := some 3#2 } false ≠ [] ∧ pass0.op = none := by decide +kernel

/-- A parity error stops a pass, whatever its delay stage words. -/
theorem witness_PairFaultStopsThePair_words (ws : List Nat) (d : Bool) :
    passCauses (pass0.pair (5 : Fin 36)) (takenWords { clean with parityA := true } ws) d ≠ [] := by
  rw [takenWords_clean _ _ rfl]; cases d <;> decide +kernel

def clear0 (c : Clear) (s : State) : State := { s with fl := { s.fl with clear := some c } }
def args (a b : Nat) : State := { run0 with fl := { run0.fl with
  argA := BitVec.ofNat 32 a, argB := ~~~BitVec.ofNat 32 b, ackEn := true, ackEnB := false, ackCh := 9#6, ackChB := ~~~9#6 } }
def sel0 : Clear := { code := 0#16, loc := 0xFFF#12, sel := [0], again := [], ack := false }

theorem witness_ClearsOfFaults :
    (clear0 sel0 run0).fl.clear.isSome = true ∧ run0.fl.clear = none ∧ (5#32 ≠ ~~~run0.fl.argA) ∧
    (0xFFFFFFFE#32 = ~~~(args 1 2).fl.argA ∧ 0xFFFFFFFD#32 = ~~~(~~~(args 1 2).fl.argB) ∧ (args 1 2).fl.argA ≠ ~~~(args 1 2).fl.argB) ∧
    (0xFFFFFFFE#32 = ~~~(args 1 1).fl.argA ∧ 0xFFFFFFFE#32 = ~~~(~~~(args 1 1).fl.argB) ∧ (args 1 1).fl.argA = ~~~(args 1 1).fl.argB) ∧
    run0.fl.ackEn = false ∧ ((args 0 0).fl.ackEn = true ∧ (args 0 0).fl.ackEnB = false ∧ (args 0 0).fl.ackChB = ~~~(args 0 0).fl.ackCh) ∧
    (args 0 0).fl.clear = none ∧ (clear0 sel0 (args 0 0)).fl.clear.isSome = true ∧ (0, some (rec0 0x3005 63)) ∈ (withRec run0 0x3005 63).fl.recs ∧
    (clear0 { sel0 with sel := [] } run0).fl.clear = some { sel0 with sel := [] } ∧ sel0.ack = false ∧
    (clear0 sel0 (withRec run0 0x3005 63)).frec 0 = some (rec0 0x3005 63) ∧ resetOnly (rec0 0x2005 0).code = true ∧
    resetOnly (rec0 0x3005 63).code = false ∧ 0 ∉ sel0.again ∧ (clear0 sel0 (withRec run0 0x3005 63)).reportDue (rec0 0x3005 63) = false ∧
    { run0 with fd := { run0.fd with reports := [(63, 0x3005#16)] } }.reportDue (rec0 0x3005 63) = true ∧ (clear0 sel0 (withRec run0 0x3005 63)).causeGone (rec0 0x3005 63) [] = true ∧
    (clear0 sel0 (withRec run0 0x3001 63)).causeGone (rec0 0x3001 63) [] = false ∧ run0.frec (63 : Fin 64) = none ∧
    (withRec run0 0x3012 0).frec (0 : Fin 64) = some (rec0 0x3012 0) ∧
    (rec0 0x3012 0).code ∉ [0x3001#16, 0x3002#16, 0x3003#16, 0x3004#16, 0x3010#16, 0x3011#16] ∧
    (∀ c ∈ [0x3001, 0x3002, 0x3004, 0x3011], (withRec run0 c 0x3F).frec (0 : Fin 64) = some (rec0 c 0x3F) ∧ (rec0 c 0x3F).st = .latched) ∧
    (clear0 sel0 (withRec run0 0x300A 63)).frec 0 = some (rec0 0x300A 63) ∧ resetOnly (rec0 0x300A 63).code = false ∧
    (clear0 sel0 (withRec run0 0x300A 63)).causeGone (rec0 0x300A 63) [(0x300A#16, 63#12)] = true ∧
    (clear0 sel0 (withRec run0 0x300A 63)).causeGone (rec0 0x300A 63) [] = false := by decide +kernel

/-- The debugger is enabled; a pair is HALTED. -/
def db0 : State := { run0 with db := { run0.db with en := true }, pm := { run0.pm with bench := true } }
def halted0 (back : Role) : State :=
  (if back = .carrying then { up db0 0 5 .faulted with pm := db0.pm, db := db0.db } else db0).updPair 5 fun q => { q with
    role := .halted, before := back, haltBit := true }
def fused : State := { bench0 with otp := { bench0.otp with sealOk := 8#16, words := [(48, { val := 0x8000000000000000#64 })], seal3 := true } }

theorem witness_DebugRequests :
    fused.debugFuse = true ∧ fused.pm.bench = true ∧ fused.db.broken = false ∧ run0.db.en = false ∧ db0.db.en = true ∧ 36 ≤ bits 36#32 5 0 ∧
    (halted0 .free).haltAny = true ∧ (let s := { db0 with op := some { kind := .verify false, o := none, start := 0#64, tgt := 35 } }; s.inOp (bits 35#32 5 0) = true) ∧
    bits 35#32 5 0 = (35 : Fin 36).val ∧ db0.haltAny = false ∧ db0.inOp (35 : Fin 36) = false ∧ (db0.pair (35 : Fin 36)).role = .free ∧
    (inPass db0 35 3#2).haltAny = false ∧ ((inPass db0 35 3#2).pair (35 : Fin 36)).run.isSome = true ∧ (db0.pair (35 : Fin 36)).run = none ∧
    (let s := up db0 0 5 .running; s.db.en = true ∧ (s.pair (5 : Fin 36)).role = .carrying ∧ 0 ∈ s.faultZonesOn 5 ∧ s.haltAny = false) ∧
    db0.haltedPair = none ∧ ({ halted0 .free with db := { db0.db with replayAt := [(1, 2)] } } : State).db.replayAt ≠ [] ∧
    (halted0 .free).haltedPair = some 5 ∧ (halted0 .free).db.replayAt = [] ∧ ((halted0 .free).pair 5).stopA = false ∧
    ((halted0 .free).pair 5).stopB = false ∧ ((halted0 .free).pair 5).stepStop = false ∧ ((halted0 .free).pair 5).before = .free ∧
    (halted0 .carrying).haltedPair = some 5 ∧ (halted0 .carrying).versOn 5 ≠ [] ∧ (halted0 .carrying).op = none := by decide +kernel

def slicing0 : State := { db0.updPair 35 (fun q => { q with role := .testing }) with bist := { db0.bist with slice := some (35, false) } }

/-- A slice in progress, a STEP that latched a stop bit, a STEP pass with nothing wrong and one with a parity error. -/
theorem witness_DebugRequests_slice_and_step :
    (slicing0.pair (35 : Fin 36)).role = .testing ∧ slicing0.inSlice (35 : Fin 36) = true ∧ (slicing0.pair (35 : Fin 36)).run = none ∧
    slicing0.haltAny = false ∧ slicing0.inOp (35 : Fin 36) = false ∧
    (let s := (halted0 .free).updPair 5 fun q => { q with stepStop := true }; s.haltedPair = some 5 ∧ (s.pair 5).stepStop = true) ∧
    (let s := halted0 .carrying
     let s1 := s.startPass 5 false
     let s2 := s1.updPair 5 fun q => { q with
       liveA := s1.overImage 5 s.db.inA q.liveA ptInitA, liveB := s1.overImage 5 s.db.inB q.liveB ptInitB }
     (s2.activeOn 5).map (·.1) = [0] ∧ (∀ e ∈ s2.activeOn 5, s2.lanesDiffer 5 e.2 = false) ∧ passCauses (s2.pair 5) clean false = [] ∧
     passCauses (s2.pair 5) { clean with parityA := true } false ≠ []) := by decide +kernel

/-- The words of a pass that nothing hits are taken as they are. -/
theorem witness_DebugRequests_words (ws : List Nat) :
    takenWords clean ws = clean ∧ takenWords { clean with parityA := true } ws = { clean with parityA := true } :=
  ⟨takenWords_clean _ _ rfl, takenWords_clean _ _ rfl⟩

theorem witness_DebugAccesses :
    run0.db.en = false ∧ db0.dbPlace (bits 0#32 31 29) (bits 0#32 12 0) = none ∧
    (halted0 .free).dbPlace (bits 0x000010FF#32 31 29) (bits 0x000010FF#32 12 0) = some 5 ∧ (halted0 .free).db.en = true ∧
    (halted0 .free).dbPlace (bits 0x00001100#32 31 29) (bits 0x00001100#32 12 0) = none ∧
    (halted0 .free).dbPlace (bits 0x300003FF#32 31 29) (bits 0x300003FF#32 12 0) = some 69 ∧ bit 0x300003FF#32 28 = true ∧ bits 0x300003FF#32 31 29 = 1 ∧
    (halted0 .free).dbPlace (bits 0x70000007#32 31 29) (bits 0x70000007#32 12 0) = some 197 ∧ bits 0x70000007#32 31 29 = 3 ∧
    (halted0 .free).dbPlace (bits 0x500000FF#32 31 29) (bits 0x500000FF#32 12 0) = some 133 ∧ bits 0x500000FF#32 31 29 ≠ 1 ∧ bits 0x500000FF#32 31 29 ≠ 3 ∧
    (let s : State := { run0 with db := { db0.db with broken := true } };
      s.dbPlace (bits 0x90001FFF#32 31 29) (bits 0x90001FFF#32 12 0) = some 256 ∧ s.db.en = true ∧ bit 0x90001FFF#32 28 = true) ∧
    (halted0 .free).dbPlace (bits 7#32 31 29) (bits 7#32 12 0) = some 5 ∧ bit 7#32 28 = false ∧
    run0.haltedPair = none ∧ run0.db.broken = false ∧ run0.db.replayPend = [] ∧
    ({ run0 with db := { run0.db with replayPend := [(5, 7, 9#32)] } } : State).db.replayPend = (5, 7, 9#32) :: [] ∧ bench0.pm.bench = true ∧ run0.db.ir ≠ .extest ∧ JtagOp.extest ≠ .samplePreload := by decide +kernel

/-! ### Witnesses: reset, start, shutdown, Dormant -/

def hostBoot (d : DState) : State := { at' d with pm := { (at' d).pm with bootsel := 0#2 } }

def flash (d : DState) : State := { at' d with pm := { (at' d).pm with bootsel := 1#2, erase4k := true } }

theorem witness_ResetsOfTheDevice :
    PowerLoss.lane .a ≠ .all ∧ PowerLoss.field ≠ .hub ∧ 999 < 1000 ∧ 10000 ≤ 10000 ∧ State.reset.pm.inReset = true ∧ run0.pm.inReset = false ∧
    (hostBoot .run).pm.flashMode = false ∧ (hostBoot .run).pm.inReset = false ∧ (flash .run).pm.flashMode = true ∧ (flash .run).pm.inReset = false ∧
    1000 ≤ 1000 ∧ 9999 < 10000 ∧ tabWf OtpWord.init run0.otp.words = true := by decide +kernel

def record0 (n : Nat) : BistRec := {
  magic := 0x49564252#32, format := 1#8, consumed := 0xFF#8, result := 0#8, cond := 0#8, counter := BitVec.ofNat 32 n, deviceId := 0#64
  tjMax := 0#8, pairOk := 0#64, chOk := 0#64, entries := [], crcA := 0#32, crcB := 0#32 }

/-- The two sectors of the flash. -/
def sectors (s : State) (a b : Option BistRec) : State := { s with bist := { s.bist with recSec := 14, flash := [(14, a), (15, b)] } }

theorem witness_BootAndStartTest :
    State.reset.pm.inReset = true ∧ run0.pm.dstate ≠ .load ∧ (hostBoot .load).pm.inReset = false ∧ (hostBoot .load).pm.dstate = .load ∧
    (hostBoot .load).pm.flashMode = false ∧ flash0.sfdpOk = true ∧ flash0.erase4k = true ∧ ({ flash0 with sfdpOk := false } : FlashInfo).sfdpOk = false ∧
    ({ flash0 with erase4k := false } : FlashInfo).erase4k = false ∧ (flash .load).pm.flashMode = true ∧ (flash .load).pm.inReset = false ∧
    (flash .load).pm.dstate = .load ∧ (flash .load).recSector flash0.size = 14 ∧
    ({ (flash .load).bist with recSec := (flash .load).recSector flash0.size } : Bist).newest = none ∧
    (sectors (flash .load) (some (record0 1)) none).bist.newest = some (0, record0 1) ∧
    (sectors (flash .load) (some (record0 1)) (some (record0 2))).bist.newest = some (1, record0 2) ∧
    (sectors (flash .load) (some (record0 0xFFFFFFFE)) (some (record0 1))).bist.newest = some (1, record0 1) ∧ run0.pm.dstate ≠ .startTest ∧
    (hostBoot .startTest).pm.dstate = .startTest ∧ (hostBoot .startTest).pm.inReset = false ∧ condOk good = true ∧ condOk bad = false ∧
    (hostBoot .startTest).bist.deferred = false ∧ res0 ≠ { res0 with lmOkA := false } ∧
    ({ hostBoot .startTest with bist := { run0.bist with deferred := true } } : State).bist.deferred = true ∧ (hostBoot .startTest).pm.flashMode = false ∧
    (hostBoot .startTest).pm.quick = false ∧ (hostBoot .startTest).bist.repairs = [] ∧ (maskBits (hostBoot .startTest).splitFuse).length ≤ 8 ∧
    { res0 with chOk := BitVec.allOnes 64 }.failed = [] ∧ { res0 with chOk := BitVec.allOnes 64 }.anaFail = [] ∧ res0.portFail = 0#32 ∧
    ((run0.updPair 0 fun q => { q with noSpare := true }).pair (0 : Fin 36)).noSpare = true ∧ (run0.pair (35 : Fin 36)).noSpare = false ∧
    (⟨false, true⟩ : StartCrc).shadows = false ∧ (⟨true, false⟩ : StartCrc).record = false ∧ (⟨true, false⟩ : StartCrc).shadows = true ∧
    (let s : State := { hostBoot .startTest with otp := { run0.otp with sealOk := 8#16, words := [(49, { shadow := 0x800000000#64 })] } };
      s.splitFuse.getLsbD (35 : Fin 36) = true ∧ (maskBits s.splitFuse).length ≤ 8) := by decide +kernel

theorem witness_ShutdownAndItsRecord :
    run0.pm.dstate = .run ∧ (at' .shutdown).pm.dstate = .shutdown ∧ (at' .off).pm.dstate ∈ [DState.load, .startTest, .config, .off] ∧
    (at' .shutdown).pm.bistDue = false ∧ condOk good = true ∧ [entry0] ≠ ([] : List BistEntry) ∧
    (let s : State := { flash .shutdown with pm := { (flash .shutdown).pm with bistDue := true } };
      s.pm.dstate = .shutdown ∧ s.pm.bistDue = true ∧ s.pm.flashMode = true ∧ s.pm.erase4k = true ∧ s.bist.newest = none ∧
      (sectors s (some (record0 1)) none).bist.newest = some (0, record0 1) ∧
      (sectors s (some (record0 1)) (some (record0 2))).bist.newest = some (1, record0 2)) ∧
    (hostBoot .shutdown).pm.flashMode = false := by decide +kernel

theorem witness_DormantAndBenchMode :
    run0.pm.dstate = .run ∧ run0.allWithdrawn = true ∧ run0.tb.lfFail = false ∧ armed0.pm.dstate = .run ∧ armed0.allWithdrawn = false ∧
    ({ run0 with tb := { run0.tb with lfFail := true } } : State).tb.lfFail = true ∧ (at' .dormant).pm.dstate = .dormant ∧
    (at' .shutdown).pm.dstate ≠ .run ∧ (at' .shutdown).pm.dstate ≠ .dormant ∧
    (let s : State := { chan' (at' .dormant) 63 1 with pm := { (at' .dormant).pm with wakeHi := 0x80000000#32 } };
      s.pm.dstate = .dormant ∧ (s.chan (63 : Fin 64)).mode = 1#2 ∧ bit s.pm.wakeHi (63 - 32) = true ∧
      (0x8000000000000000#64).getLsbD 63 ≠ s.pm.rawAtEntry.getLsbD 63) ∧
    ¬ ((run0.lane .a).annX = true ∧ (run0.lane .a).retAnn = false) ∧ run0.fd.dormHold = false ∧
    (let s : State := { run0 with laneA := { run0.laneA with annX := true, annFd := true, retAnn := false, retFd := false }, fd := { run0.fd with dormHold := true } };
      s.pm.dstate ≠ .dormant ∧ (s.lane .a).annX = true ∧ (s.lane .a).retAnn = false ∧ s.fd.dormHold = true ∧ (s.lane .a).annFd = true ∧
      (s.lane .a).retFd = false) ∧
    run0.pm.bench = false ∧ bench0.pm.bench = true ∧ bench0.db.broken = false ∧ (∀ p : Fin 36, (bench0.pair p).role ≠ .halted) ∧
    (∃ p : Fin 36, ((halted0 .free).pair p).role = .halted) ∧ (halted0 .free).pm.bench = true ∧
    ({ bench0 with db := { bench0.db with broken := true } } : State).db.broken = true ∧ ((chan' bench0 63 2).chan (63 : Fin 64)).mode = 2#2 ∧
    (bench0.chan (0 : Fin 64)).mode ≠ 2#2 := by decide +kernel

/-! ### Witnesses: the field side -/

theorem witness_WhenAnOutputConducts :
    out0.powered = true ∧ run0.powered = true ∧ State.reset.powered = false ∧ (at' .off).powered = false ∧ out0.setHead 0 = 0 ∧ (out0.chan 0).mode = 2#2 ∧ (out0.chan 0).pend .b = none ∧ out0.conducts 0 = true ∧ run0.held 63 = false ∧
    ((chan' run0 63 2).held ((chan' run0 63 2).setHead 63)) = true ∧ (run0.chan (run0.setHead 63)).mode ≠ 2#2 ∧ (run0.chan (run0.setHead 63)).mode ≠ 3#2 := by
  decide +kernel

def wb0 (f : Chan → Chan) : State := run0.updChan 63 fun c => f { c with mode := 1#2, wbEn := true, restoring := false }

theorem witness_FieldInputsAndSamples :
    ((chan' run0 63 1).chan (63 : Fin 64)).wbEn = false ∧ ((chan' run0 63 1).chan (63 : Fin 64)).type3 = true ∧ 15000 ≤ 24000 ∧
    ((run0.updChan 63 fun c => { c with mode := 1#2, type3 := false }).chan (63 : Fin 64)).type3 = false ∧
    ((wb0 id).chan (63 : Fin 64)).wbEn = true ∧ 24000 * 780 / 1000 ≤ 18720 ∧ 16079 < 24000 * 720 / 1000 - 24000 * 5 / 100 ∧
    (run0.chan (63 : Fin 64)).mode ≠ 1#2 ∧ ((chan' run0 63 1).chan (63 : Fin 64)).mode = 1#2 ∧ (chan' run0 63 1).inputBad (63 : Fin 64) = false ∧
    ((chan' run0 63 1).chan (63 : Fin 64)).restoring = false ∧
    (run0.updChan 63 fun c => { c with mode := 1#2, ov := true }).inputBad (63 : Fin 64) = true ∧ ((wb0 id).chan (63 : Fin 64)).mode = 1#2 ∧
    ((wb0 id).chan (63 : Fin 64)).wireBreak = false ∧ ((wb0 fun c => { c with wireBreak := true }).chan (63 : Fin 64)).wireBreak = true ∧
    42000 < 42001 ∧ 39999 < 40000 ∧ (at' .load).started = false ∧ (at' .dormant).pm.dstate = .dormant ∧ run0.pm.dstate ≠ .dormant := by decide +kernel

/-- A terminal at the supply is no broken wire, one at 0 V with no current is, wherever the thresholds stand. -/
theorem witness_FieldInputsAndSamples_wire :
    ((wb0 id).chan (63 : Fin 64)).rawLevel (63 : Fin 64) 24000 24000 = true ∧ ((wb0 id).chan (63 : Fin 64)).rawLevel (63 : Fin 64) 0 24000 = false ∧
    0 < breakUa (63 : Fin 64) ∧ breakUa (63 : Fin 64) ≤ 350 := by
  have h : ((wb0 id).chan (63 : Fin 64)).wbEn = true := by decide +kernel
  have r : ((wb0 id).chan (63 : Fin 64)).raw = false := by decide +kernel
  refine ⟨?_, ?_, ?_, ?_⟩ <;> simp only [Chan.rawLevel, breakUa, h, r, if_true] <;> (try split) <;> (try split) <;> first | rfl | omega

def cap0 (en : Bool) : State := (chan' run0 63 1).updCap 15 fun c => { c with en := en, src := 63#6, presc := 255#8 }

theorem witness_CaptureUnitsAndChannelModes :
    (let u : Cap := { filt := 1#3, edge := 1#2, presc := 0#8 };
      u.edge.getLsbD 0 = true ∧ u.filt1 = false ∧ decide (3 < 2 * ((true :: [true]).filter id).length) = true ∧ u.residue = u.presc.toNat) ∧
    (let u : Cap := { filt := 1#3, edge := 2#2, presc := 255#8 }; u.edge.getLsbD 1 = true ∧ u.filt1 = false ∧ u.residue ≠ u.presc.toNat) ∧
    ((cap0 false).capUnit (15 : Fin 16)).en = false ∧ ((cap0 true).capUnit (15 : Fin 16)).en = true ∧
    ((cap0 true).chan ((cap0 true).capUnit (15 : Fin 16)).src.toNat).mode = 1#2 ∧ (run0.chan (run0.capUnit (0 : Fin 16)).src.toNat).mode ≠ 1#2 ∧
    armed0.wlLocked = true ∧ run0.wlLocked = false ∧ bits 0x00000100#32 13 12 = 0 ∧ bits 0x00001000#32 10 8 = 0 ∧
    bits 0x803F17FF#32 13 12 ≠ 0 ∧ bits 0x803F17FF#32 10 8 ≠ 0 ∧ bit 0x803F17FF#32 31 = true ∧ bit 0x003F17FF#32 31 = false ∧
    ((run0.updChan 63 fun c => { c with member := true }).chan (63 : Fin 64)).member = true ∧
    ((run0.updChan 62 fun c => { c with par := 1#2 }).chan (62 : Fin 64)).par ≠ 0#2 ∧ (BitVec.ofNat 2 (bits 1#32 1 0)).toNat < 2 ∧
    ¬ ((run0.chan (63 : Fin 64)).member = true ∨ (run0.chan (63 : Fin 64)).par ≠ 0#2 ∧ (BitVec.ofNat 2 (bits 1#32 1 0)).toNat < 2) ∧
    63 ∈ run0.setOf 63 ∧ 62 ∉ run0.setOf 63 ∧
    (BitVec.ofNat 2 (bits 3#32 1 0) = 3#2 ∧ ((run0.updChan 63 fun c => { c with nsSrc := 1#2 }).chan 63).nsSrc = 1#2 ∧ (run0.chan 63).mode ≠ 3#2) ∧ (run0.chan 63).mode ≠ 1#2 ∧ (run0.chan 63).mode = 0#2 := by decide +kernel

theorem witness_CaptureUnits_read : ∃ t, exec (.captureCount 15 ⟨24000, [24000]⟩) (cap0 true) = .next t := ⟨_, rfl⟩

def gstop (f : Fd → Fd) : State := { chan' run0 63 2 with fd := f { run0.fd with gsStop := false, gsA := true, gsB := true } }

theorem witness_GstopForcesAStop :
    State.reset.pm.inReset = true ∧ (gstop id).pm.inReset = false ∧ (gstop id).fd.gstopEn = true ∧ (gstop id).fd.gsStop = false ∧ (gstop fun f => { f with gstopEn := false }).fd.gstopEn = false ∧
    (gstop fun f => { f with gsStop := true }).fd.gsStop = true ∧ (gstop fun f => { f with gsStop := true }).fd.gsA = true ∧
    (gstop fun f => { f with gsStop := true }).fd.gsDisc = false ∧ (gstop id).fd.gsA = (gstop id).fd.gsB ∧
    (gstop fun f => { f with gsB := false }).fd.gsA ≠ (gstop fun f => { f with gsB := false }).fd.gsB ∧ (gstop fun f => { f with gsB := false }).fd.gsDisc = false ∧
    ((gstop fun f => { f with gsDisc := true, gsAgreed := false }).fd.gsDisc = true ∧ (gstop fun f => { f with gsDisc := true, gsAgreed := false }).fd.gsAgreed = false) ∧
    (let s := gstop fun f => { f with gsB := false, gsDisc := true, gsAgreed := true };
      s.fd.gstopEn = true ∧ s.fd.gsA ≠ s.fd.gsB ∧ s.fd.gsAgreed = true) ∧
    (gstop id).findRec 0x3012#16 0x04F#12 = none ∧ (gstop id).emptyRec.isSome = true ∧
    (withRec (gstop id) 0x3012 0x4F).findRec 0x3012#16 0x04F#12 = some 0 ∧ ((gstop id).chan ((gstop id).setHead 63)).mode = 2#2 ∧
    armed0.wlLocked = true ∧ (gstop id).wlLocked = false ∧ bits 9#32 9 0 < 10 ∧ 1000 < bits 1001#32 9 0 ∧
    (10 ≤ bits 10#32 9 0 ∧ bits 1000#32 9 0 ≤ 1000) := by decide +kernel

/-- Channel 0 as a safety output, with one change. -/
def out' (f : Chan → Chan) : State := out0.updChan 0 f

/-- A test pulse of channel 63 has its window open, and channel 0 may wait for it. -/
def window (w : Nat) (q : List PulseWait) : State := { out0 with fd := { out0.fd with pulseWin := some w, pulseWait := q } }

def skipped : State := { window 63 [] with chans := (out' fun c => { c with cmdA := false }).chans }

theorem witness_OutputTestsAndFaults :
    (out0.chan (out0.setHead (0 : Fin 64))).mode = 2#2 ∧ (out0.chan (out0.setHead (0 : Fin 64))).tpEn = true ∧
    (run0.chan (run0.setHead (63 : Fin 64))).mode ≠ 2#2 ∧ ((out' fun c => { c with tpEn := false }).chan 0).tpEn = false ∧
    (window 63 []).fd.pulseWin = some 63 ∧ 63 ≠ (window 63 []).setHead (0 : Fin 64) ∧ ((window 63 []).chan 0).tpEn = true ∧ out0.fd.pulseWin = none ∧
    (out0.chan (out0.setHead (0 : Fin 64))).pulse = none ∧ out0.conducts (out0.setHead (0 : Fin 64)) = true ∧
    ((out' fun c => { c with pulse := some .a }).chan 0).pulse = some .a ∧ (out' fun c => { c with cmdB := true }).conducts 0 = false ∧
    (out' fun c => { c with pulse := some .b }).setHead (0 : Fin 64) = 0 ∧ ((out' fun c => { c with pulse := some .b }).chan 0).pulse = some .b ∧
    ((window 63 []).chan ((window 63 []).setHead (63 : Fin 64))).pulse = none ∧ (window 63 []).fd.pulseWin = some ((window 63 []).setHead (63 : Fin 64)) ∧
    (window 63 []).fd.pulseWait = [] ∧ (window 63 [.pulse 0 .b 7]).fd.pulseWait = .pulse 0 .b 7 :: [] ∧ ((window 63 [.pulse 0 .b 7]).chan 0).mode = 2#2 ∧
    ((window 63 [.pulse 0 .b 7]).chan 0).tpEn = true ∧ ((window 63 [.pulse 0 .b 7]).chan 0).pulse = none ∧ (window 63 [.pulse 0 .b 7]).conducts 0 = true ∧
    skipped.fd.pulseWin = some 63 ∧ (skipped.chan 0).mode = 2#2 ∧ (skipped.chan 0).tpEn = true ∧ skipped.conducts 0 = false ∧
    0 < (out0.setOf (out0.setHead (0 : Fin 64))).length ∧ (1#4 : BitVec 4).getLsbD 0 = true := by decide +kernel

theorem witness_OutputTestsAndFaults_checks :
    out0.checked (0 : Fin 64) = true ∧ out0.commandedOn (0 : Fin 64) = true ∧ out0.swClosed .a (0 : Fin 64) = true ∧
    (out' fun c => { c with cmdA := false }).swClosed .a (0 : Fin 64) = false ∧ ((out' fun c => { c with cmdA := false }).chan 0).fltSwA = false ∧
    (out' fun c => { c with cmdA := false }).checked (0 : Fin 64) = true ∧ (out' fun c => { c with retG := true }).checked (0 : Fin 64) = false ∧
    (out' fun c => { c with cmdA := false }).commandedOn (0 : Fin 64) = false ∧ ((out' fun c => { c with cmdA := false }).chan 0).fltExt = false ∧
    ((out' fun c => { c with cmdA := false }).chan 0).fltCross = false ∧ ((out' fun c => { c with fltExt := true }).chan 0).fltExt = true ∧
    run0.conducts (63 : Fin 64) = false ∧ (out' fun c => { c with olEn := true }).checked (0 : Fin 64) = true ∧
    ((out' fun c => { c with olEn := true }).chan 0).olEn = true ∧ (out' fun c => { c with olEn := true }).conducts (0 : Fin 64) = true ∧
    (out' fun c => { c with olEn := true, cmdB := true }).conducts (0 : Fin 64) = false ∧
    (out' fun c => { c with olEn := true, cmdB := true }).checked (0 : Fin 64) = true ∧ (out0.chan 0).fltOpen = false ∧ (out0.chan 0).olEn = false ∧
    (out0.chan 0).isOutput = true ∧ (run0.chan (63 : Fin 64)).isOutput = false ∧ 1 < ((out' fun c => { c with par := 1#2 }).unit (0 : Fin 64)).length ∧
    (out0.unit (0 : Fin 64)).length ≤ 1 ∧ (run0.chan (63 : Fin 64)).mode ≠ 2#2 ∧ 63 ∉ out0.unit (0 : Fin 64) ∧ out0.inWindow (0 : Fin 64) = false ∧
    run0.inWindow (63 : Fin 64) = false ∧
    (window 0 []).inWindow (0 : Fin 64) = true ∧ (window 63 []).conducts 0 = true ∧
    ((out' fun c => { c with offHigh := true, fltExt := true }).chan 0).offHigh = true ∧
    ((out' fun c => { c with midHigh := true, fltSwA := true }).chan 0).midHigh = true ∧
    ((out' fun c => { c with olEn := true, cmdB := true, olHigh := true, fltOpen := true }).chan 0).olHigh = true ∧
    ((out' fun c => { c with fltCross := true }).chan 0).fltCross = true := by decide +kernel

def reported (code : Nat) : State := { up out0 0 5 .running with fd := { out0.fd with reports := [(0, BitVec.ofNat 16 code)] } }

theorem witness_ChannelFaultReports :
    (((63 : Fin 64).val, 0x3001#16) ∉ (reported 0x3001).fd.reports) ∧ ((0 : Fin 64).val, 0x3001#16) ∈ (reported 0x3001).fd.reports ∧
    (0x3001#16 ≠ 0x3008#16 ∧ 0x3001#16 ≠ 0x3009#16) ∧ 0 ∈ (reported 0x3001).zonesOfChan (0 : Fin 64) ∧ ((0 : Fin 64).val, 0x3009#16) ∈ (reported 0x3009).fd.reports ∧
    (withRec (reported 0x3001) 0x3001 0).findRec 0x3001#16 (BitVec.ofNat 12 (0 : Fin 64)) = some 0 ∧
    (withRec (reported 0x3001) 0x3001 0).frec 0 = some (rec0 0x3001 0) ∧ (reported 0x3001).findRec 0x3001#16 (BitVec.ofNat 12 (0 : Fin 64)) = none ∧
    (reported 0x3001).emptyRec = some 0 ∧ (out0.chan (63 : Fin 64)).fltExt = false ∧
    (let s := chan' (out' fun c => { c with fltExt := true }) 63 2;
      (s.chan (0 : Fin 64)).fltExt = true ∧ (s.chan (63 : Fin 64)).mode = 2#2 ∧ 63 ∉ s.unit (0 : Fin 64) ∧ (∀ j ∈ s.unit (63 : Fin 64), j ∉ s.unit (0 : Fin 64))) ∧
    (let s := (out' fun c => { c with fltExt := true, par := 1#2 }).updChan 1 fun c => { c with member := true, mode := 2#2 };
      1 ∈ s.unit (0 : Fin 64)) := by decide +kernel

theorem witness_GroupsAndNonSafetyOutputs :
    belowThr (run0.grp (3 : Fin 4)).belowWarn (run0.grp (3 : Fin 4)).uvWarn.toNat 1919#16 = true ∧
    belowThr (run0.grp (3 : Fin 4)).belowWarn (run0.grp (3 : Fin 4)).uvWarn.toNat 1920#16 = false ∧
    belowThr (run0.grp (3 : Fin 4)).belowIn (run0.grp (3 : Fin 4)).uvIn.toNat 1499#16 = true ∧ (63 : Fin 64).val / 16 = (3 : Fin 4).val ∧
    belowThr (run0.grp (3 : Fin 4)).belowIn (run0.grp (3 : Fin 4)).uvIn.toNat 1500#16 = false ∧
    belowThr (run0.grp (3 : Fin 4)).belowOff (run0.grp (3 : Fin 4)).uvOff.toNat 1599#16 = true ∧ (run0.grp (3 : Fin 4)).belowOff = false ∧
    run0.started = true ∧ (at' .load).started = false ∧ ((chan' run0 63 2).chan (63 : Fin 64)).mode = 2#2 ∧
    belowThr (run0.grp (3 : Fin 4)).belowOff (run0.grp (3 : Fin 4)).uvOff.toNat 1600#16 = false ∧
    decide ((if (run0.grp (3 : Fin 4)).aboveOv then 4100 else 4200) < (4201#16).toNat) = true ∧ (run0.grp (3 : Fin 4)).aboveOv = false ∧
    decide ((if (run0.grp (3 : Fin 4)).aboveOv then 4100 else 4200) < (4200#16).toNat) = false ∧
    (run0.grp (3 : Fin 4)).latched = false ∧ ((run0.updGrp 3 fun q => { q with vfs := 1650#16 }).grp (3 : Fin 4)).inBand = false ∧
    ((run0.updGrp 3 fun q => { q with vfs := 1651#16 }).grp (3 : Fin 4)).inBand = true ∧ ((run0.updGrp 3 fun q => { q with vfs := 4099#16 }).grp (3 : Fin 4)).inBand = true ∧
    ((run0.updGrp 3 fun q => { q with vfs := 4100#16 }).grp (3 : Fin 4)).inBand = false ∧
    (let s := run0.updGrp 3 fun q => { q with vfs := 1650#16, startHold := true };
      (s.grp (3 : Fin 4)).inBand = false ∧ (s.grp (3 : Fin 4)).startHold = true ∧ (s.grp (3 : Fin 4)).aboveEnd = false) ∧
    (let s := run0.updGrp 3 fun q => { q with vfs := 4100#16, startHold := true };
      (s.grp (3 : Fin 4)).inBand = false ∧ (s.grp (3 : Fin 4)).startHold = true ∧ (s.grp (3 : Fin 4)).aboveEnd = true) ∧
    run0.fd.dormHold = false ∧ ({ run0 with fd := { run0.fd with dormHold := true } } : State).fd.dormHold = true ∧ (at' .off).pm.dstate = .off ∧
    run0.grpRec (3 : Fin 4) = false ∧ run0.fl.overflow = false ∧ (withRec run0 0x3010 0x43).grpRec (3 : Fin 4) = true ∧
    ({ run0 with fl := { run0.fl with overflow := true } } : State).fl.overflow = true ∧ (run0.chan (63 : Fin 64)).mode ≠ 3#2 ∧
    ((chan' run0 63 3).chan (63 : Fin 64)).mode = 3#2 ∧ ((chan' run0 63 3).chan (63 : Fin 64)).nsSrc = 0#2 ∧
    ((run0.updChan 63 fun c => { c with mode := 3#2, nsSrc := 1#2 }).chan (63 : Fin 64)).nsSrc = 1#2 ∧
    ((run0.updChan 63 fun c => { c with mode := 3#2, nsSrc := 1#2 }).chan (63 : Fin 64)).nsSilent = false ∧
    (run0.updChan 63 fun c => { c with mode := 3#2, nsSrc := 1#2 }).fd.dormHold = false ∧
    ((run0.updChan 63 fun c => { c with mode := 3#2, nsSrc := 2#2, nsSilent := true }).chan (63 : Fin 64)).nsSilent = true := by decide +kernel

/-! ### Witnesses: links, lanes, passes -/

def queued (l : Lane) (xs : List FdCmd) (s : State) : State := s.updLane l fun d => { d with toFd := xs }
def pending0 : State := out0.updChan 0 fun c => { c with pendA := some ⟨5, 0x3F, 3#32⟩ }

/-- Both lanes have announced Dormant mode to each other, lane A to FD; and FD waits for lane B's return. -/
def dorm0 : State := { at' .dormant with
  laneA := { run0.laneA with dormAnn := true, retAnn := false, annX := true, annFd := true }
  laneB := { run0.laneB with dormAnn := true, retAnn := false, annX := true } }
def waking0 : State := { run0 with fd := { run0.fd with dormHold := true }, tb := { run0.tb with laLf := false, lbLf := false }
                                   laneA := { run0.laneA with annFd := true, retFd := true }, laneB := { run0.laneB with annFd := true } }

theorem witness_FieldLinks :
    (run0.pm.dstate ≠ .dormant ∧ (run0.lane .a).annFd = false ∧ run0.fd.dormHold = false) ∧
    (dorm0.pm.dstate = .dormant ∧ (dorm0.lane .b).dormAnn = true ∧ dorm0.fd.dormHold = false ∧ (dorm0.lane (otherLane .b)).annFd = true) ∧
    (waking0.pm.dstate ≠ .dormant ∧ waking0.fd.dormHold = true ∧ (waking0.lane .b).annFd = true ∧ waking0.onPll .b = true ∧
      (waking0.lane (otherLane .b)).retFd = true) ∧
    State.reset.pm.inReset = true ∧ (at' .off).pm.dstate = .off ∧ run0.pm.inReset = false ∧ run0.pm.dstate ≠ .off ∧
    (run0.lane .a).toFd = [] ∧ ((queued .a [.switch 63 true] out0).lane .a).toFd = [(FdCmd.switch 63 true).inLane .a] ∧
    ((queued .b [.switch 0 true] out0).lane .b).toFd = [(FdCmd.switch 0 false).inLane .b] ∧
    ((queued .a [.owner 0 5 0x3F 3#32] out0).lane .a).toFd = [(FdCmd.owner 0 5 0x3F 3#32).inLane .a] ∧
    ((queued .a [.boundary 0 3#32] pending0).lane .a).toFd = [(FdCmd.boundary 0 3#32).inLane .a] ∧
    (pending0.chan 0).pend .a = some ⟨5, 0x3F, 3#32⟩ ∧ (3#32 ≠ 4#32) ∧
    (out0.chan (out0.setHead 0)).mode = 2#2 ∧ 15 < ((queued .a (List.replicate 17 (.switch 0 false)) out0).lane .a).toFd.length ∧
    (0x8000#16).getLsbD 15 = true ∧ ((queued .a [.switch 0 false] out0).lane .a).toFd.length = 1 := by decide +kernel

/-- Channel 63 with its owner in each lane, and a change of owner that lane A has pending. -/
def owns (a b : Nat) (pend : Option PendOwn) : State := run0.updChan 63 fun c => { c with
  ownA := BitVec.ofNat 6 a, ownB := ~~~BitVec.ofNat 6 b, pendA := pend }

/-- A change of owner of channel 63 that FD watches, as each lane wrote it. -/
def change0 (a b : Option PendOwn) : State := { run0 with fd := { run0.fd with changes := [⟨63, a, b.map PendOwn.neg⟩] } }

theorem witness_FieldDieStopsEveryOutput :
    (∀ n : Fin 64, (run0.chan n).pend .a = none → (run0.chan n).pend .b = none → (run0.chan n).own .a = (run0.chan n).own .b) ∧
    (∃ n : Fin 64, ((owns 5 0x3F none).chan n).pend .a = none ∧ ((owns 5 0x3F none).chan n).pend .b = none ∧
      ((owns 5 0x3F none).chan n).own .a ≠ ((owns 5 0x3F none).chan n).own .b) ∧
    run0.fd.changes = [] ∧ ((owns 5 5 (some ⟨5, 0, 3#32⟩)).chan (63 : Fin 64)).pend .a ≠ none ∧
    (let s := change0 (some ⟨5, 0, 3#32⟩) (some ⟨5, 0, 3#32⟩); let x : PendOwn := ⟨5, 0, 3#32⟩;
      let q : OwnChange := ⟨63, some x, some x.neg⟩; s.fd.changes = q :: [] ∧ q.entry .a = some x ∧ q.entry .b = some x ∧
      (s.chan q.ch).pend .a ≠ some x ∧ (s.chan q.ch).pend .b ≠ some x) ∧
    (let q : OwnChange := ⟨63, some ⟨5, 0, 3#32⟩, none⟩; (change0 (some ⟨5, 0, 3#32⟩) none).fd.changes = q :: [] ∧ q.entry .b = none) ∧
    waking0.fd.dormHold = true ∧ run0.fd.dormHold = false ∧ (50 : Int).natAbs ≤ 50 ∧ 50 < (-51 : Int).natAbs := by decide +kernel

/-- Lane B has announced Dormant mode to lane A, which has not announced its own. -/
def announced0 : State := { run0 with laneB := { run0.laneB with dormAnn := true, annX := true } }
def link0 : HubFrame := ⟨true, .other, 0#64, false⟩
def failed (n : Nat) : State := { run0 with laneA := { run0.laneA with hubFails := n } }

theorem witness_LaneChecks :
    dorm0.suspended .a = true ∧ run0.suspended .b = false ∧ run0.adm.hashB = ~~~run0.adm.hashA ∧
    ({ run0 with adm := { run0.adm with hashB := run0.adm.hashA } } : State).adm.hashB ≠ ~~~run0.adm.hashA ∧
    (waking0.suspended .a = false ∧ (waking0.lane (otherLane .a)).annX = false) ∧
    (announced0.suspended .a = false ∧ (announced0.lane (otherLane .a)).annX = true) ∧
    (195#10).toNat < 196 ∧ 600 < (601#10).toNat ∧ (749#16).toNat < 750 ∧ 860 < (861#16).toNat ∧
    run0.evqA.words = [] ∧ run0.evqB.words = [] ∧ link0.poison = 0#64 ∧ link0.crcOk = true ∧ ({ link0 with crcOk := false } : HubFrame).crcOk = false ∧
    ((failed 1).lane .a).hubFails + 1 = 2 ∧ ((failed 2).lane .a).hubFails + 1 = 3 := by decide +kernel

theorem witness_LaneCrossLinkFrames :
    ((run0.updPair 35 fun q => { q with stopB := true }).pair (35 : Fin 36)).stop (otherLane .a) = true ∧
    (({ run0 with laneB := { run0.laneB with withhold := true } } : State).lane (otherLane .a)).withhold = true ∧
    (dorm0.pm.dstate = .dormant ∧ (dorm0.lane (otherLane .a)).dormAnn = true) ∧
    ({ run0 with db := { run0.db with replayPend := [(5, 7, 9#32)] } } : State).db.replayPend = (5, 7, 9#32) :: [] ∧
    (∀ p : Fin 36, (run0.pair p).stop (otherLane .a) = false) ∧ (run0.lane (otherLane .a)).withhold = false ∧
    (run0.lane (otherLane .a)).dormAnn = false ∧ (run0.lane (otherLane .a)).annX = false := by decide +kernel

def trans0 (a b : Bool) : Trans :=
  { body := .posted 5 4#32 [(0x21000, 3#2)] [(0x21000, 3#2)], repA := a, repB := b, okA := true, okB := true, since := 0#64 }

/-- A TON block runs its timer on pair 5. -/
def timed0 (s : State) : State := s.updZone 0 fun y => { y with
  active := some { ver0 0 5 [⟨.ton (some 1000000), [some (.point 0x20000)]⟩] with
    rt := [{ t1 := .running 1000 }], rtB := [BlockRt.neg { t1 := .running 1000 }] } }

/-- A pair that waits to halt. -/
def waitsHalt : State := run0.updPair 35 fun q => { q with haltBit := true }

theorem witness_MarksTriggersAndTimers :
    State.reset.lanesRun = false ∧ armed0.lanesRun = true ∧ armed0.op = none ∧ armed0.trans = [] ∧
    (let q := (armed0.updPair 5 fun q => { q with trig := true }).pair (5 : Fin 36); q.mayPass = true ∧ q.run = none ∧ q.trig = true) ∧
    (let s : State := { armed0 with ptsA := [(0x20000, 3#2)], ptsB := [(0x20000, 0#2)] };
      (s.pair (5 : Fin 36)).mayPass = true ∧ ∃ v ∈ s.fullOn (5 : Fin 36), ∃ a ∈ v.reads, s.changed a = true) ∧
    (let q := run0.pair (35 : Fin 36); ¬ (q.mayPass = true ∧ q.run = none ∧ q.trig = true) ∧
      ¬ (q.mayPass = true ∧ ∃ v ∈ run0.fullOn (35 : Fin 36), ∃ a ∈ v.reads, run0.changed a = true)) ∧
    run0.hasPt 0x21000 = true ∧ (trans0 true true).body = .posted 5 4#32 [(0x21000, 3#2)] [(0x21000, 3#2)] ∧ (trans0 true true).repA = true ∧
    (trans0 true true).repB = true ∧ (trans0 true false).repB = false ∧
    ({ run0 with tb := { run0.tb with a := 399#64 } } : State).since (trans0 true false).since < 400 ∧
    (run0.pair (35 : Fin 36)).mayPass = true ∧ (run0.pair (35 : Fin 36)).watched = true ∧ ¬ ((split0.pair (0 : Fin 36)).watched = true) ∧
    ¬ ((split0.pair (0 : Fin 36)).mayPass = true) ∧ (waitsHalt.pair (35 : Fin 36)).watched = true ∧ (waitsHalt.pair (35 : Fin 36)).mayPass = false ∧
    (pass0.atMark (5 : Fin 36) = false ∧ ({ pass0 with markNum := 3#32 } : State).atMark (5 : Fin 36) = true) ∧ 0 < ((timed0 armed0).zone 0).active.elim 0 (fun v => v.rtB.length) ∧ run0.runningTimer (35 : Fin 36) 255 0 0 = none ∧
    (timed0 armed0).runningTimer (5 : Fin 36) 0 0 0 = some 1000 ∧ (timed0 pass0).runningTimer (5 : Fin 36) 0 0 0 = some 1000 ∧
    ((timed0 pass0).pair (5 : Fin 36)).run.isSome = true ∧ 998499 * 10000 + 10000000 < 1000 * 1000 * 9995 ∧ ¬ 998500 * 10000 + 10000000 < 1000 * 1000 * 9995 ∧
    (tabGet (false, false) run0.cat1 (targetKey (.chan 63))).1 = false ∧
    (tabGet (false, false) ({ run0 with cat1 := [(63, (true, false))] } : State).cat1 (targetKey (.chan 63))).1 = true ∧
    (tabGet (false, false) ({ run0 with cat1 := [(0x1F045, (true, true))] } : State).cat1 (targetKey (.point 0x1F005))).2 = true ∧
    run0.hasPt 0x1F005 = true := by decide +kernel

def slice0 (role : Role) (again : Bool) : State :=
  { (run0.updPair 35 fun q => { q with role := role }) with bist := { run0.bist with slice := some (35, again) } }

theorem witness_CleanPassEnd :
    (run0.pair (35 : Fin 36)).run = none ∧ (∀ b, run0.bist.slice ≠ some ((35 : Fin 36).val, b)) ∧
    ((slice0 .testing false).pair (35 : Fin 36)).run = none ∧ (slice0 .testing false).bist.slice = some ((35 : Fin 36).val, false) ∧
    (let q := (slice0 .testing false).pair (35 : Fin 36)
     sliceCauses q clean false = [] ∧ sliceCauses q { clean with codeA := some 2#2, codeB := some 2#2 } false = [] ∧
     sliceCauses q { clean with codeA := some q.codeA } false ≠ [] ∧ sliceCauses q { clean with parityA := true } false ≠ [] ∧
     sliceCauses q { clean with poison := 1 } false = [] ∧ sliceCauses q { clean with poison := 1 } true ≠ [] ∧
     sliceCauses q { clean with injHideB := true } true ≠ []) ∧ (slice0 .testing false).fl.recs = [] ∧
    (pass0.pair (5 : Fin 36)).run = some running' ∧ clean.poison = 0 ∧ pass0.op = none ∧
    (pass0.pair (5 : Fin 36)).haltBit = false ∧
    (pass0.pair (5 : Fin 36)).role = .carrying ∧ pass0.stepped (5 : Fin 36) false = [(0, ver0 0 5 bs0)] ∧ pass0.zonesOn (5 : Fin 36) = [0] ∧
    ((inPass run0 35 3#2).pair (35 : Fin 36)).role = .free ∧ ((inPass run0 35 3#2).pair (35 : Fin 36)).run = some running' ∧
    (((inPass run0 35 3#2).updPair 35 fun q => { q with injDue := true }).pair (35 : Fin 36)).injDue = true := by decide +kernel

theorem witness_CleanPassEnd_words (ws : List Nat) : passCauses (pass0.pair (5 : Fin 36)) (takenWords clean ws)
    ((pass0.stepped (5 : Fin 36) false).any fun e => pass0.lanesDiffer (5 : Fin 36) e.2) = [] := by
  rw [takenWords_clean _ _ rfl]; decide +kernel

def demand0 : State := inPass (up run0 0 5 .running) 5 2#2

theorem witness_DemandEndsEveryCommand :
    (demand0.pair (5 : Fin 36)).run = some running' ∧ clean.poison = 0 ∧ demand0.op = none ∧ (demand0.pair (5 : Fin 36)).haltBit = false ∧
    (demand0.pair (5 : Fin 36)).role = .carrying ∧
    (0, ver0 0 5 bs0) ∈ demand0.stepped (5 : Fin 36) false ∧ (ver0 0 5 bs0).demands (demand0.evalA (5 : Fin 36) (ver0 0 5 bs0)) = true ∧
    (ver0 0 5 bs0).sec.blocks[1]? = some ⟨.safeout (.chan 0) (some 0) (some 0) (some 10000), [some (.sig 0 0 0)]⟩ ∧
    (⟨.safeout (.chan 0) (some 0) (some 0) (some 10000), [some (.sig 0 0 0)]⟩ : Block).kind = .safeout (.chan 0) 0 0 10 := by decide +kernel

theorem witness_DemandEndsEveryCommand_words (ws : List Nat) : passCauses (demand0.pair (5 : Fin 36)) (takenWords clean ws)
    ((demand0.stepped (5 : Fin 36) false).any fun e => demand0.lanesDiffer (5 : Fin 36) e.2) = [] := by
  rw [takenWords_clean _ _ rfl]; decide +kernel

def commit0 (stage : Nat) : State := { armed0 with op := some { kind := .commit 0 false false, o := some o0, stage := stage, start := 0#64 } }
def leaving0 : State := armed0.updZone 0 fun y => { y with wd := some { os := [o0], sample0 := 0#32, confirmed := [], dropped := false } }

theorem witness_TimeoutsAndTilePasses :
    run0.op = none ∧ (∃ op, (commit0 7).op = some op ∧ op.kind = .commit 0 false false ∧ op.stage ≠ 6) ∧
    (∃ op, (commit0 6).op = some op ∧ op.kind = .commit 0 false false ∧ op.stage = 6) ∧ (run0.zone (255#8).toNat).active = none ∧
    (armed0.zone (0#8).toNat).wd = none ∧ (∃ v, (leaving0.zone (0#8).toNat).active = some v ∧ .chan 0 ∈ v.targets) ∧
    (∃ w, (leaving0.zone (0#8).toNat).wd = some w) ∧ leaving0.pm.dstate ≠ .off ∧ (run0.tileAt (tileKey (35 : Fin 36) .b)).sec = none ∧
    (∃ x, (split0.tileAt (tileKey (0 : Fin 36) .a)).sec = some x) ∧ split0.lanesRun = true ∧ (split0.pair (0 : Fin 36)).role = .split ∧
    (split0.tileAt (tileKey (0 : Fin 36) .a)).stopped = false :=
  ⟨rfl, ⟨_, rfl, rfl, by decide⟩, ⟨_, rfl, rfl, rfl⟩, rfl, rfl, ⟨_, rfl, by decide⟩, ⟨_, rfl⟩, by decide, rfl, ⟨_, rfl⟩, rfl, rfl, rfl⟩

/-! ### Witnesses: connections, ports, self-test -/

/-- DATA frames of a session: of the next sequence number, of one past the widest step, with a damaged CRC. -/
def data' (n : Nat) : Frame := sealed' n 1 [0xFF#8, 0#8, 0#8, 0#8]

/-- A frame HB has handed to both lanes, which lane A may have lost. -/
def handed (f : Frame) (lost : Bool) (s : State) : State := { s with
  laneA := { s.laneA with rxq := [{ slot := 0, frame := f, lost := lost }] }, laneB := { s.laneB with rxq := [{ slot := 0, frame := f, lost := false }] } }

/-- The payloads of the opening frames on the declaration of these tests. -/
def open0 : Frame := sealed' 0 2 (payOpen 0x0E (decl0 true) 5#32)
def ack0 (ver : Nat) : Frame := sealed' 0 3 (payAck ver (decl0 false) 5#32 77#32)
def refuse0 (reason : Nat) : Frame := sealed' 0 4 (payRefuse reason 0 77#32)

theorem witness_ReceivedFrames_data :
    run0.rxFront .a (0 : Fin 2048) (data' 101) = false ∧ (handed (data' 101) false run0).rxFront .a (0 : Fin 2048) (data' 101) = true ∧
    (handed (data' 101) false run0).rxFront .b (0 : Fin 2048) (data' 101) = true ∧ (handed (data' 101) false run0).rxLost .a = false ∧
    (handed (data' 101) true run0).rxLost .a = true ∧ (data' 101).handle = (decl0 true).rxHandle ∧ (data' 101).handle ≠ { data' 101 with handle := 9#16 }.handle ∧
    (run0.conn (2047 : Fin 2048)).decl = none ∧ ((conn' true .opening).conn (0 : Fin 2048)).st.session = false ∧
    ((conn' true .running).conn (0 : Fin 2048)).decl = some (decl0 true) ∧ ((conn' true .running).conn (0 : Fin 2048)).st.session = true ∧
    (data' 101).ftype = 1#4 ∧ open0.ftype ≠ 1#4 ∧
    (let r := ((conn' true .running).conn (0 : Fin 2048)).rx .a;
      ((data' 100).seq8 - r.eSeq.setWidth 8).toNat = 0 ∧ ((data' 101).seq8 - r.eSeq.setWidth 8).toNat = 1 ∧
      ((data' 228).seq8 - r.eSeq.setWidth 8).toNat = 128 ∧ 128 < ((data' 229).seq8 - r.eSeq.setWidth 8).toNat ∧ r.ts = none ∧ r.errAt = []) ∧
    crcOk .a (decl0 true).connId 101#32 (data' 101) = true ∧ crcOk .b (decl0 true).connId 228#32 (data' 228) = true ∧
    (conn' true .running).cmacOk (decl0 true) 101#32 (data' 101) = true ∧
    ((conn' true .running).trans.any fun t => t.waits .a (0 : Fin 2048) 101#32) = false ∧
    crcOk .a (decl0 true).connId 101#32 { data' 101 with crcA := 0#32 } = false ∧ (conn' true .running).trans = [] := by decide +kernel

theorem witness_ReceivedFrames_opening :
    ((conn' false .opening).conn (0 : Fin 2048)).decl = some (decl0 false) ∧ (decl0 false).listener = false ∧ open0.ftype = 2#4 ∧
    (decl0 true).listener = true ∧ (conn' true .opening).checkFrame .a (decl0 true) 0#32 open0 none = none ∧
    (conn' true .opening).checkFrame .b (decl0 true) 0#32 open0 none = none ∧ ((conn' true .opening).conn (0 : Fin 2048)).st = .opening ∧
    agrees (decl0 true) open0.payload = true ∧ topVersion ((conn' true .opening).offer (decl0 true) &&& fieldBE open0.payload 0 1) ≠ 0 ∧
    ((conn' true .closed).conn (0 : Fin 2048)).st = .closed ∧ ((conn' true .closed).conn (0 : Fin 2048)).wakeOpen = false ∧
    (((conn' true .closed).updConn 0 fun c => { c with wakeOpen := true }).conn (0 : Fin 2048)).wakeOpen = true ∧ (decl0 true).cmac = false ∧
    run0.txIdle = false ∧ (at' .dormant).txIdle = true ∧ ({ at' .shutdown with pm := { (at' .shutdown).pm with bistDue := true } } : State).txIdle = true ∧ ((conn' false .closed).conn (0 : Fin 2048)).st ≠ .opening ∧ (ack0 1).ftype = 3#4 ∧
    (conn' false .opening).checkFrame .a (decl0 false) 0#32 (ack0 3) none = none ∧
    (conn' false .opening).checkFrame .b (decl0 false) 0#32 (ack0 3) none = none ∧ ((conn' false .opening).conn (0 : Fin 2048)).st = .opening ∧
    fieldBE (ack0 3).payload 20 4 = ((conn' false .opening).conn (0 : Fin 2048)).nonce.toNat ∧ fieldBE (ack0 1).payload 0 1 = 1 ∧
    fieldBE (ack0 3).payload 0 1 = 3 ∧ (conn' false .opening).offer (decl0 false) / 2 ^ fieldBE (ack0 3).payload 0 1 % 2 = 1 ∧
    agrees (decl0 false) (ack0 3).payload = true ∧ (3000 ≤ (decl0 false).watchdog - (decl0 false).tCyc) ∧ (handed open0 false (conn' true .opening)).rxFront .a (0 : Fin 2048) open0 = true ∧
    (handed open0 false (conn' true .opening)).rxFront .b (0 : Fin 2048) open0 = true ∧ open0.handle = (decl0 true).rxHandle ∧
    (ack0 1).handle = (decl0 false).rxHandle ∧ (refuse0 1).handle = (decl0 false).rxHandle ∧
    (decl0 false).watchdog - (decl0 false).tCyc < 3001 ∧
    fieldBE (sealed' 0 3 (payAck 1 (decl0 false) 5#32 78#32)).payload 20 4 ≠ ((conn' false .opening).conn (0 : Fin 2048)).nonce.toNat ∧
    (refuse0 1).ftype = 4#4 ∧ (conn' false .opening).checkFrame .a (decl0 false) 0#32 (refuse0 1) none = none ∧
    (conn' false .opening).checkFrame .b (decl0 false) 0#32 (refuse0 1) none = none ∧
    fieldBE (refuse0 1).payload 4 4 = ((conn' false .opening).conn (0 : Fin 2048)).nonce.toNat ∧ fieldBE (refuse0 1).payload 0 1 = 1 ∧
    fieldBE (refuse0 2).payload 0 1 = 2 ∧ fieldBE (refuse0 3).payload 0 1 = 3 := by decide +kernel

def close0 (n reason : Nat) : Frame := sealed' n 5 (payClose reason)

theorem witness_ReceivedFrames_ends :
    (close0 101 0x10).ftype = 5#4 ∧ (data' 101).ftype ≠ 5#4 ∧ (close0 101 0x10).handle = (decl0 true).rxHandle ∧
    (handed (close0 101 0x10) false run0).rxFront .a (0 : Fin 2048) (close0 101 0x10) = true ∧
    (handed (close0 101 0x10) false run0).rxFront .b (0 : Fin 2048) (close0 101 0x10) = true ∧
    (handed (close0 101 0x10) false run0).rxLost .a = false ∧ (handed (close0 101 0x10) false run0).rxLost .b = false ∧
    (let nA := ((close0 228 0x10).seq8 - ((conn' true .running).conn (0 : Fin 2048)).rxA.eSeq.setWidth 8).toNat; 1 ≤ nA ∧ nA ≤ 128) ∧
    (let nB := ((close0 101 0x10).seq8 - ((conn' true .running).conn (0 : Fin 2048)).rxB.eSeq.setWidth 8).toNat; 1 ≤ nB ∧ nB ≤ 128) ∧
    (conn' true .running).checkFrame .a (decl0 true) 101#32 (close0 101 0x10) none = none ∧
    (conn' true .running).checkFrame .b (decl0 true) 101#32 (close0 101 0x10) none = none ∧ fieldBE (close0 101 1).payload 0 1 = 1 ∧
    fieldBE (close0 101 2).payload 0 1 = 2 ∧ fieldBE (close0 101 0x10).payload 0 1 = 0x10 ∧
    ((conn' true .running).conn (0 : Fin 2048)).st = .running ∧ ((conn' true .negotiating).conn (0 : Fin 2048)).st = .negotiating ∧
    (decl0 true).cmac = false ∧ 3996999 * 10000 + 10000000 < (decl0 true).watchdog * 1000 * 9995 ∧
    ¬ 3997000 * 10000 + 10000000 < (decl0 true).watchdog * 1000 * 9995 ∧ 0 < (decl0 true).rxPoints := by decide +kernel

def built0 (same : Bool) : State := ((conn' true .running).updConn 0 fun c => { c with
  txBuilt := [{ port := 0, mac := 0#48, ip := 0#32, frameA := data' 101, frameB := negFrame (if same then data' 101 else data' 102) }] }).updPort 0
    fun p => { p with inFlight := none }
def built1 : State := (conn' true .running).updConn 0 fun c => { c with
  txBuilt := [{ port := 0, mac := 0#48, ip := 0#32, frameA := data' 101, frameB := { data' 101 with payload := [0xFF#8, 0#8, 0#8, 0#8] } }] }

theorem witness_OpenersAndTransmit :
    ((conn' true .running).conn (0 : Fin 2048)).st.session = true ∧ (run0.conn (2047 : Fin 2048)).st.session = false ∧
    (run0.conn (2047 : Fin 2048)).txBuilt = [] ∧ (run0.conn (2047 : Fin 2048)).decl = none ∧ ((built0 true).conn (0 : Fin 2048)).decl = some (decl0 true) ∧
    (∃ b rest, ((built0 true).conn (0 : Fin 2048)).txBuilt = b :: rest ∧ b.frameA.payload = negBytes b.frameB.payload ∧ b.port = 0) ∧
    (∃ b rest, (built1.conn (0 : Fin 2048)).txBuilt = b :: rest ∧ b.frameA.payload ≠ negBytes b.frameB.payload) ∧ ((built0 true).port 0).queue = [] ∧
    ((built0 true).port 0).st = .up ∧ (built0 true).pm.dstate = .run ∧ ((built0 true).port 0).inFlight = none ∧
    ((conn' false .opening).conn (0 : Fin 2048)).st = .opening ∧ ((conn' false .opening).conn (0 : Fin 2048)).stagger = false ∧
    (((conn' false .opening).updConn 0 fun c => { c with stagger := true }).conn (0 : Fin 2048)).stagger = true ∧ (decl0 false).listener = false ∧
    (decl0 true).listener = true ∧ ((conn' false .stale).conn (0 : Fin 2048)).st = .stale ∧ ((conn' false .stale).port (decl0 false).port).st = .up ∧
    (((conn' false .stale).updPort 0 fun p => { p with st := .noSync }).port (decl0 false).port).st ≠ .up ∧ (decl0 false).cmac = false :=
  ⟨rfl, rfl, rfl, rfl, rfl, ⟨_, _, rfl, rfl, rfl⟩, ⟨_, _, rfl, by decide⟩, rfl, rfl, rfl, rfl, rfl, rfl, rfl, rfl, rfl, rfl, rfl, by decide, rfl⟩

def line0 : LineInfo := ⟨false, false, false, false, []⟩
def portWith (f : Port → Port) : State := (conn' true .running).updPort 0 f

theorem witness_PortsAndGatehouse :
    (run0.port (31 : Fin 32)).st ≠ .noSync ∧ ((port' .noSync).port (31 : Fin 32)).st = .noSync ∧ (run0.port (31 : Fin 32)).st ≠ .up ∧
    ((port' .up).port (31 : Fin 32)).st = .up ∧ ((port' .negotiating).port (31 : Fin 32)).live.negotiates = true ∧
    ((port' .negotiating).port (31 : Fin 32)).st = .negotiating ∧ ((port' .up).port (31 : Fin 32)).live.negotiates = true ∧
    ((portWith fun p => { p with inFlight := some ⟨0, 0#48, 0#32, frame0⟩, queue := [⟨0, 0#48, 0#32, frame0⟩] }).port (0 : Fin 32)).inFlight = some ⟨0, 0#48, 0#32, frame0⟩ ∧
    (run0.port (31 : Fin 32)).inFlight = none ∧ (run0.port (31 : Fin 32)).queue = [] ∧ (at' .load).pm.dstate ≠ .run ∧
    ((conn' true .running).port (0 : Fin 32)).st = .up ∧ (conn' true .running).gatehouse (0 : Fin 32) (data' 101) { line0 with codeErr := true } = some 2 ∧
    (conn' true .running).gatehouse (0 : Fin 32) { data' 101 with handle := 9#16 } line0 = some 5 ∧
    (conn' true .running).slotOf (0 : Fin 32) 9#16 = none ∧ (conn' true .running).gatehouse (0 : Fin 32) (data' 101) line0 = none ∧
    (conn' true .running).slotOf (0 : Fin 32) (data' 101).handle = some (0, decl0 true) ∧ (data' 101).ftype ≠ 2#4 ∧ open0.ftype = 2#4 ∧
    (conn' true .opening).gatehouse (0 : Fin 32) open0 line0 = none ∧
    (conn' true .opening).slotOf (0 : Fin 32) open0.handle = some (0, decl0 true) ∧ 16 ≤ ((portWith fun p => { p with openCnt := 16 }).port (0 : Fin 32)).openCnt ∧
    (portWith fun p => { p with openCnt := 16 }).slotOf (0 : Fin 32) open0.handle = some (0, decl0 true) ∧
    2 ≤ (((conn' true .running).updConn 0 fun c => { c with rateCnt := 2 }).conn 0).rateCnt ∧
    ((conn' true .running).port (0 : Fin 32)).live.received (data' 101) line0 = some (data' 101) ∧
    ((conn' true .running).port (0 : Fin 32)).live.received (data' 101) { line0 with packet := true } = none := by decide +kernel

theorem witness_RollingSlots :
    State.reset.testing = false ∧ run0.testing = true ∧ (slice0 .testing false).testing = true ∧ (slice0 .testing false).slotWaits = true ∧
    run0.op = none ∧ run0.bist.slice = none ∧ run0.bist.queue = [] ∧ run0.bist.slotNext = (0 : Fin 36).val ∧ (run0.pair (0 : Fin 36)).role = .free ∧
    (run0.pair (0 : Fin 36)).haltBit = false ∧ run0.partOf (0 : Fin 36) = false ∧ condOk (⟨bad, good⟩ : SlotCond).start = true ∧
    condOk (⟨good, bad⟩ : SlotCond).start = false ∧
    (let s : State := { run0 with bist := { run0.bist with slotNext := 35 } }; s.bist.slotNext = (35 : Fin 36).val ∧ (s.pair (35 : Fin 36)).role = .free) ∧
    (∃ q b, (slice0 .testing false).bist.slice = some (q, b) ∧ q ≠ (34 : Fin 36).val) ∧
    ((slice0 .free false).pair (35 : Fin 36)).role ≠ .testing ∧ ((slice0 .free false).pair (35 : Fin 36)).role ≠ .stopped ∧
    (slice0 .testing false).bist.slice = some ((35 : Fin 36).val, false) ∧ (slice0 .stopped true).bist.slice = some ((35 : Fin 36).val, true) ∧
    ((slice0 .testing false).pair (35 : Fin 36)).role = .testing ∧ ((slice0 .stopped true).pair (35 : Fin 36)).role = .stopped ∧
    (slice0 .stopped true).commonFault = false ∧ SliceResult.pass ≠ .rows [entry0] ∧
    (slice0 .testing false).sparesCover (35 : Fin 36) [{ entry0 with pair := 35#6 }] = true ∧
    (slice0 .testing false).sparesCover (35 : Fin 36) [entry0] = false ∧
    (slice0 .testing false).bist.slicePoison = false ∧
    ({ slice0 .testing false with bist := { (slice0 .testing false).bist with slicePoison := true } } : State).bist.slicePoison = true ∧
    (∀ e ∈ (slice0 .testing false).zones, ∀ v, e.2.retained = some v → v.pair ≠ 35) ∧
    (split0.pair (0 : Fin 36)).role ∈ [Role.unusable, .split, .halted] ∧
    ({ run0 with bist := { run0.bist with odueEv := 1#36 } } : State).bist.odueEv.getLsbD (0 : Fin 36) = true ∧
    (run0.pair (35 : Fin 36)).role ∉ [Role.unusable, .split, .halted] ∧ run0.bist.odueEv.getLsbD (35 : Fin 36) = false :=
  ⟨by decide, by decide, by decide, by decide, rfl, rfl, rfl, rfl, rfl, rfl, by decide, by decide, by decide, by decide, ⟨_, _, rfl, by decide⟩,
    by decide, by decide, rfl, rfl, rfl, rfl, by decide, by decide, by decide, by decide, rfl, rfl, by decide, by decide, by decide, by decide, rfl⟩

theorem witness_AnalogueWindows :
    itemCount (anaCode .supplyXchk) ≤ (4#6).toNat ∧ (63#6).toNat < itemCount (anaCode .thresholdLoopback) ∧
    run0.windowDue .lmXchk 0 = false ∧ ({ run0 with bist := { run0.bist with shared := anaSlot .lmXchk } } : State).windowDue .lmXchk 1 = true ∧
    run0.windowDue .thresholdLoopback 0 = true ∧ inSchedule .thresholdLoopback = true ∧ inSchedule .lmXchk = false ∧
    (window 63 []).fd.pulseWin ≠ none ∧ (window 63 []).testing = true ∧ run0.fd.pulseWin = none ∧ run0.fd.pulseWait = [] ∧
    (⟨good, good, []⟩ : WindowRead).due = [] ∧ condOk (⟨good, good, []⟩ : WindowRead).start = true ∧ condOk (⟨good, good, []⟩ : WindowRead).fin = true ∧
    condOk (⟨good, bad, []⟩ : WindowRead).fin = false ∧ (1#6).toNat < itemCount (anaCode .lmXchk) ∧ (31#6).toNat < run0.portMax ∧
    (run0.port (31#6).toNat).st = .disabled ∧ ((port' .up).port (31#6).toNat).st ≠ .disabled ∧ run0.portMax ≤ (32#6).toNat := by decide +kernel

/-! ### Witness: commands that complete -/

theorem witness_ImageInputPassAndTransmitCommandsComplete :
    Meets run0 (loadE 0 2097152 65536) (.imgLoad o0 0#32 2097152#32 65536#32 true img0 img0) (fun _ =>
      1 ≤ (2097152#32).toNat ∧ (2097152#32).toNat ≤ 2097152 ∧ 4 ≤ (65536#32).toNat ∧ (65536#32).toNat ≤ 65536 ∧ (65536#32).toNat % 4 = 0 ∧
      (65536#32).toNat ≤ (2097152#32).toNat + 3) ∧
    (host run0 verifyE).takes o0 (.imgVerify o0) = true ∧
    (∃ op, (verify0 run0 false).op = some op ∧ op.kind = .verify false ∧ ∀ o, op.o = some o → o.progress = false) ∧ run0.commonFault = false ∧
    (∀ (r : Fin 16) (x : Taken), x ∈ ((verify0 run0 false).ring r).outs → (verify0 run0 false).stepping r x = false) ∧
    (pass0.atMark (5 : Fin 36) = false) ∧ (conn' false .opening).txIdle = false ∧ (conn' false .stale).txIdle = false ∧
    ((wb0 id).chan (63 : Fin 64)).mode = 1#2 ∧ ((wb0 id).chan (63 : Fin 64)).wbEn = true ∧ (wb0 id).inputBad (63 : Fin 64) = false ∧
    run0.pm.dstate ≠ .dormant ∧ run0.lanesRun = true ∧ (run0.pair (35 : Fin 36)).mayPass = true ∧
    (timed0 armed0).runningTimer (5 : Fin 36) (0#8).toNat 0 0 = some 1000 ∧
    (tabGet (false, false) ({ run0 with cat1 := [(63, (true, true))] } : State).cat1 (targetKey (.chan 63))) = (true, true) ∧
    (∃ op, (commit0 6).op = some op ∧ op.kind = .commit 0 false false ∧ op.stage = 6) ∧
    (∃ v w, (leaving0.zone (0#8).toNat).active = some v ∧ (leaving0.zone (0#8).toNat).wd = some w) ∧
    (∃ x, (split0.tileAt (tileKey (0 : Fin 36) .a)).sec = some x) ∧ split0.lanesRun = true ∧ (split0.pair (0 : Fin 36)).role = .split ∧
    (split0.tileAt (tileKey (0 : Fin 36) .a)).stopped = false ∧ ((conn' true .running).conn (0 : Fin 2048)).st.session = true ∧
    (∃ b rest, ((built0 true).conn (0 : Fin 2048)).txBuilt = b :: rest) ∧ ((conn' false .opening).conn (0 : Fin 2048)).decl = some (decl0 false) ∧
    (decl0 false).listener = false ∧ (((conn' false .opening).updConn 0 fun c => { c with stagger := true }).conn (0 : Fin 2048)).stagger = true ∧
    ((conn' false .opening).conn (0 : Fin 2048)).stagger = false ∧ ((conn' false .stale).conn (0 : Fin 2048)).st = .stale ∧
    ((conn' false .stale).port (decl0 false).port).st = .up ∧ (decl0 false).cmac = false :=
  ⟨by decide +kernel, by decide +kernel, ⟨_, rfl, rfl, fun _ h => by cases h; rfl⟩, by decide +kernel, by decide +kernel, by decide, by decide, by decide,
    by decide +kernel, by decide +kernel, by decide +kernel, by decide,
    by decide, by decide +kernel, by decide +kernel, by decide +kernel, ⟨_, rfl, rfl, rfl⟩, ⟨_, _, rfl, rfl⟩, ⟨_, rfl⟩, rfl, rfl, rfl, rfl,
    ⟨_, _, rfl⟩, rfl, rfl, rfl, rfl, rfl, rfl, rfl⟩

end Sys2Proof.Tests
end

section
/-!
Offsets of BAR0 at which no register is implemented (R11). Every offset at which a read does more than return a value lies in a row of the
index, whatever the number of ports; so where no row holds an offset, a read returns 0 and a write is discarded.
-/
namespace Sys2Proof.Machine
open Sys2Proof

variable {s : State} {off : Nat}

/-! ### Offsets of the index -/

theorem RegRow.has_regArray {base stride n n2 : Nat} {die : Die} (hbase : base ≤ off) (hn : (off - base) / stride < n)
    (hn2 : (off - base) % stride / 4 < n2) (hword : (off - base) % stride % 4 = 0) : (regArray base stride n n2 die).has off = true := by
  simp [RegRow.has, regArray, hbase, hn, hn2, hword]

theorem RegRow.has_regs {base n : Nat} {die : Die} (hbase : base ≤ off) (hend : off < base + 4 * n) (hword : (off - base) % 4 = 0) :
    (regs base n die).has off = true := by
  have hd : off - base < 4 * n := by omega
  have hmod : (off - base) % (4 * n) = off - base := Nat.mod_eq_of_lt hd
  have hdiv : (off - base) / (4 * n) < 1 := by rw [Nat.div_eq_of_lt hd]; exact Nat.one_pos
  exact RegRow.has_regArray hbase hdiv (by omega) (by omega)

theorem State.hasReg_of_row {r : RegRow} (hr : r ∈ regIndex s.portMax ++ indexMsix) (h : r.has off = true) : s.hasReg off = true :=
  List.find?_isSome.mpr ⟨r, hr, h⟩

theorem State.hasReg_tbLo (h : off = 0x4000 ∨ off = 0x4010 ∨ off = 0x4020) : s.hasReg off = true := by
  obtain rfl | rfl | rfl := h
  · exact hasReg_of_row (r := regs 0x04000 3 .la) (by simp [regIndex, indexTimers]) (by decide)
  · exact hasReg_of_row (r := regs 0x04010 3 .lb) (by simp [regIndex, indexTimers]) (by decide)
  · exact hasReg_of_row (r := regs 0x04020 3 .hb) (by simp [regIndex, indexTimers]) (by decide)

theorem State.hasReg_gtCap (hlo : 0x4100 ≤ off) (hhi : off < 0x4500) (hreg : (elem off 0x4100 0x20).2 = 0xC) : s.hasReg off = true := by
  simp only [elem] at hreg
  exact hasReg_of_row (r := regArray 0x04100 0x20 32 6 .hb) (by simp [regIndex, indexTimers])
    (RegRow.has_regArray hlo (by omega) (by omega) (by omega))

theorem State.hasReg_supply (h : off = 0x2010 ∨ off = 0x2014) : s.hasReg off = true :=
  hasReg_of_row (r := regs 0x02000 7 .hb) (by simp [regIndex, indexPower]) (RegRow.has_regs (by omega) (by omega) (by omega))

theorem State.hasReg_chanInput (hlo : 0x18000 ≤ off) (hhi : off < 0x19000) (hreg : (elem off 0x18000 0x40).2 = 8) :
    s.hasReg off = true := by
  simp only [elem] at hreg
  exact hasReg_of_row (r := regArray 0x18000 0x40 64 3 .fd) (by simp [regIndex, indexField])
    (RegRow.has_regArray hlo (by omega) (by omega) (by omega))

theorem State.hasReg_chanOutput (hlo : 0x18000 ≤ off) (hhi : off < 0x19000) (hreg : (elem off 0x18000 0x40).2 = 0x2C) :
    s.hasReg off = true := by
  simp only [elem] at hreg
  exact hasReg_of_row (r := regArray 0x18010 0x40 64 8 .fd) (by simp [regIndex, indexField])
    (RegRow.has_regArray (by omega) (by omega) (by omega) (by omega))

/-! ### Accesses to an offset with no register -/

section
variable (h : s.hasReg off = false)
include h

theorem State.regValue_of_no_reg : s.regValue off = 0#32 := by simp [regValue, h]

theorem State.clearRead_of_no_reg : s.clearRead off = s := by simp [clearRead, h]

theorem State.writeReg_of_no_reg (src be : Nat) (v copyB : Word) : s.writeReg src off be v copyB = s := by simp [writeReg, h]

/-- Every measured register is implemented, so no measurement is taken. -/
theorem State.measure_of_no_reg : s.measure off = s := by
  have hsupply : ¬ (off = 0x2010 ∨ off = 0x2014) := fun hs => by simp [hasReg_supply hs] at h
  obtain ⟨hlanes, hsupplies⟩ := not_or.mp hsupply
  simp only [measure, hlanes, hsupplies, if_false]
  split_ifs with hreset hchan hin hout
  · rfl
  · obtain ⟨hlo, hhi⟩ : 0x18000 ≤ off ∧ off < 0x19000 := by simpa using hchan
    simp [hasReg_chanInput hlo hhi hin] at h
  · obtain ⟨hlo, hhi⟩ : 0x18000 ≤ off ∧ off < 0x19000 := by simpa using hchan
    simp [hasReg_chanOutput hlo hhi hout] at h
  · rfl
  · rfl

/-- The reads of their own, of a timebase and of GT_CAP, are at implemented registers too; the read left returns the value and clears. -/
theorem State.readReg_of_no_reg : s.readReg off = { s with readData := 0#32 } := by
  have htb : ¬ (off = 0x4000 ∨ off = 0x4010 ∨ off = 0x4020) := fun ht => by simp [hasReg_tbLo ht] at h
  obtain ⟨hA, hB, hH⟩ : off ≠ 0x4000 ∧ off ≠ 0x4010 ∧ off ≠ 0x4020 := by omega
  simp only [readReg]
  split_ifs with hcap
  · obtain ⟨⟨hlo, hhi⟩, hreg⟩ : (0x4100 ≤ off ∧ off < 0x4500) ∧ (elem off 0x4100 0x20).2 = 0xC := by simpa using hcap
    simp [hasReg_gtCap hlo hhi hreg] at h
  · simp only [measure_of_no_reg h, clearRead_of_no_reg h, regValue_of_no_reg h]

end

/-- Settles O7: every offset at which a read or a write does more lies in a row of the index. -/
theorem offsetWithoutRegisterReadsZeroAndTakesNoWrite : Obligations.OffsetWithoutRegisterReadsZeroAndTakesNoWrite := by
  intro s off h
  refine ⟨congrArg Host.Outcome.next (State.readReg_of_no_reg h), fun be v src other => congrArg Host.Outcome.next ?_⟩
  rw [State.writeReg_of_no_reg h, ite_self]

end Sys2Proof.Machine
end

section
/-!
The CRC units of HB (R371 to R375, R381). A unit computes in `Nat` over a width, and the CRCs of R290 in words; a shift step of the one is
a shift step of the other, so at width 32 a unit's fold of bytes is a fold of words.
-/
namespace Sys2Proof.Machine
open Sys2Proof

/-! ### The bytes of a word -/

theorem bytesLE_shiftRight_toNat (v : Word) (n i : Nat) :
    bytesLE n (v >>> (8 * i)).toNat = (List.range' i n).map fun j => (v >>> (8 * j)).setWidth 8 := by
  induction n generalizing i with
  | zero => rfl
  | succ n ih =>
    have hnext : (v >>> (8 * i)).toNat / 256 = (v >>> (8 * (i + 1))).toNat := by
      simp [Nat.shiftRight_eq_div_pow, Nat.div_div_eq_div_mul, Nat.mul_add, pow_add]
    simp only [bytesLE, hnext, ih, List.range'_succ, List.map_cons, BitVec.ofNat_toNat]

theorem bytesLE_toNat (v : Word) (n : Nat) : bytesLE n v.toNat = (List.range' 0 n).map fun j => (v >>> (8 * j)).setWidth 8 := by
  simpa using bytesLE_shiftRight_toNat v n 0

theorem bytesBE_toNat (v : Word) (n : Nat) :
    bytesBE n v.toNat = ((List.range' 0 n).map fun j => (v >>> (8 * j)).setWidth 8).reverse := by
  rw [bytesBE, bytesLE_toNat]

/-! ### The four writes that fold bytes (R373) -/

theorem exec_ckData32 (u : Fin 8) (v : Word) (s : State) :
    exec (.ckData32 u v) s = ok (s.updCrc u fun c => c.foldBytes (bytesLE 4 v.toNat)) := rfl

theorem exec_ckData16 (u : Fin 8) (v : Word) (s : State) :
    exec (.ckData16 u v) s = ok (s.updCrc u fun c => c.foldBytes (bytesLE 2 v.toNat)) := rfl

theorem exec_ckData8 (u : Fin 8) (v : Word) (s : State) :
    exec (.ckData8 u v) s = ok (s.updCrc u fun c => c.foldBytes (bytesLE 1 v.toNat)) := rfl

theorem exec_ckSeed (u : Fin 8) (v : Word) (s : State) :
    exec (.ckSeed u v) s = ok (s.updCrc u fun c => c.foldBytes (bytesBE 4 v.toNat)) := rfl

/-! ### Shift steps of a unit, and of the CRCs of R290 -/

theorem crcFold_go_toNat (poly : Word) (n : Nat) (s : Word) : crcFold.go poly.toNat n s.toNat = (crcReflStep poly n s).toNat := by
  induction n generalizing s with
  | zero => rfl
  | succ n ih =>
    have hodd : s.getLsbD 0 = true ↔ s.toNat % 2 = 1 := by simp [BitVec.getLsbD, Nat.testBit_zero]
    have hhalf : (s >>> (1 : Nat)).toNat = s.toNat / 2 := by simp [Nat.shiftRight_eq_div_pow]
    rw [crcFold.go, crcReflStep, ← ih, apply_ite BitVec.toNat, BitVec.toNat_xor, hhalf]
    simp only [hodd]

theorem crcFold_fwd_toNat (poly : Word) (n : Nat) (s : Word) : crcFold.fwd 32 poly.toNat n s.toNat = (crcFwdStep poly n s).toNat := by
  induction n generalizing s with
  | zero => rfl
  | succ n ih =>
    have htop : s.getLsbD 31 = true ↔ s.toNat / 2 ^ (32 - 1) % 2 = 1 := by simp [BitVec.getLsbD, Nat.testBit_eq_decide_div_mod_eq]
    have hdouble : (s <<< (1 : Nat)).toNat = s.toNat * 2 % 2 ^ 32 := by simp [Nat.shiftLeft_eq]
    rw [crcFold.fwd, crcFwdStep, ← ih, apply_ite BitVec.toNat, BitVec.toNat_xor, hdouble]
    simp only [htop]

/-- 0x82F63B78 is 0x1EDC6F41 in reverse order of its bits. -/
theorem crcFold_crcA (s : Word) (b : Byte) :
    crcFold 32 0x1EDC6F41 true s.toNat b = (crcReflStep 0x82F63B78#32 8 (s ^^^ (b.setWidth 32 : Word))).toNat := by
  have hrev : revBits 32 0x1EDC6F41 = (0x82F63B78#32).toNat := by decide
  have hbyte : s.toNat ^^^ b.toNat = (s ^^^ (b.setWidth 32 : Word)).toNat := by
    rw [BitVec.toNat_xor, BitVec.toNat_setWidth_of_le (by decide)]
  rw [crcFold, if_pos rfl, hrev, hbyte, crcFold_go_toNat]

theorem crcFold_crcB (s : Word) (b : Byte) :
    crcFold 32 0x741B8CD7 false s.toNat b = (crcFwdStep 0x741B8CD7#32 8 (s ^^^ ((b.setWidth 32 : Word) <<< (24 : Nat)))).toNat := by
  have hbyte : s.toNat ^^^ b.toNat * 2 ^ (32 - 8) = (s ^^^ ((b.setWidth 32 : Word) <<< (24 : Nat))).toNat := by
    have hfit : b.toNat * 2 ^ 24 < 2 ^ 32 := by omega
    rw [BitVec.toNat_xor, BitVec.toNat_shiftLeft, BitVec.toNat_setWidth_of_le (by decide), Nat.shiftLeft_eq, Nat.mod_eq_of_lt hfit]
  rw [crcFold, if_neg Bool.false_ne_true, hbyte]
  exact crcFold_fwd_toNat 0x741B8CD7#32 8 _

/-! ### Bytes folded into a unit -/

namespace Crc
variable {c : Crc}

section
variable {f : Word → Byte → Word} (hf : ∀ s b, crcFold (crcWidth c.poly) (crcPoly c.poly) c.reflect s.toNat b = (f s b).toNat)
include hf

/-- A unit whose fold of one byte a function on words gives folds bytes by that function. -/
theorem foldBytes_eq (bs : List Byte) : c.foldBytes bs = { c with val := bs.foldl f c.val } := by
  rw [foldBytes, List.foldl_hom BitVec.toNat hf, word, BitVec.ofNat_toNat, BitVec.setWidth_eq]

theorem foldBytes_append (as bs : List Byte) : c.foldBytes (as ++ bs) = (c.foldBytes as).foldBytes bs := by
  rw [foldBytes_eq hf, foldBytes_eq hf, List.foldl_append]
  exact (foldBytes_eq (c := { c with val := as.foldl f c.val }) hf bs).symm

/-- R374 at width 32. -/
theorem result_foldBytes_of_width32 (hw : crcWidth c.poly = 32) (hi : c.finalInv = true) (bs : List Byte) :
    (c.foldBytes bs).result = bs.foldl f c.val ^^^ 0xFFFFFFFF#32 := by
  have hmask : 2 ^ 32 - 1 = (0xFFFFFFFF#32).toNat := rfl
  rw [foldBytes_eq hf, result, if_pos hi, hw, hmask, ← BitVec.toNat_xor, word, BitVec.ofNat_toNat, BitVec.setWidth_eq]

/-- The bytes may come in three parts: connection identity, sequence number, frame (R290). -/
theorem result_foldBytes_three (hw : crcWidth c.poly = 32) (hi : c.finalInv = true) (as ms bs : List Byte) :
    (((c.foldBytes as).foldBytes ms).foldBytes bs).result = (as ++ ms ++ bs).foldl f c.val ^^^ 0xFFFFFFFF#32 := by
  rw [← foldBytes_append hf, ← foldBytes_append hf, result_foldBytes_of_width32 hf hw hi]

end

section
variable (hv : c.val = 0xFFFFFFFF#32) (hi : c.finalInv = true) (as ms bs : List Byte)
include hv hi

theorem result_foldBytes_crcA (hp : c.poly = 0#3) (hr : c.reflect = true) :
    (((c.foldBytes as).foldBytes ms).foldBytes bs).result = crcA (as ++ ms ++ bs) := by
  rw [result_foldBytes_three (fun s b => by rw [hp, hr]; exact crcFold_crcA s b) (by rw [hp]; rfl) hi, hv]
  rfl

theorem result_foldBytes_crcB (hp : c.poly = 1#3) (hr : c.reflect = false) :
    (((c.foldBytes as).foldBytes ms).foldBytes bs).result = crcB (as ++ ms ++ bs) := by
  rw [result_foldBytes_three (fun s b => by rw [hp, hr]; exact crcFold_crcB s b) (by rw [hp]; rfl) hi, hv]
  rfl

end

/-! ### CK_CFG (R375, R381) -/

theorem setCfg_poly_toNat (c : Crc) (v : Word) : (c.setCfg v).poly.toNat = bits v 4 2 :=
  (BitVec.toNat_ofNat _ _).trans (Nat.mod_eq_of_lt (Nat.mod_lt _ (by decide)))

/-- R372: the width of each choice of POLY. -/
theorem crcWidth_eq (p : BitVec 3) : crcWidth p = if p.toNat = 3 then 16 else if p.toNat = 4 then 8 else 32 := by
  revert p; decide

theorem setCfg_val_toNat (c : Crc) (v : Word) : (c.setCfg v).val.toNat =
    c.val.toNat % 2 ^ (if bits v 4 2 = 3 then 16 else if bits v 4 2 = 4 then 8 else 32) := by
  have hval : (c.setCfg v).val.toNat = c.val.toNat % 2 ^ crcWidth (c.setCfg v).poly :=
    (BitVec.toNat_ofNat _ _).trans (Nat.mod_eq_of_lt ((Nat.mod_le _ _).trans_lt c.val.isLt))
  rw [hval, crcWidth_eq, setCfg_poly_toNat]

end Crc

theorem exec_ckCfgWrite_of_le {v : Word} (h : bits v 4 2 ≤ 4) (u : Fin 8) (s : State) :
    exec (.ckCfgWrite u v) s = ok (s.updCrc u fun c => c.setCfg v) := if_neg (Nat.not_lt.mpr h)

theorem exec_ckCfgWrite_of_lt {v : Word} (h : 4 < bits v 4 2) (u : Fin 8) (s : State) :
    exec (.ckCfgWrite u v) s = ok (s.wrej 3 0 (0x5000 + 0x20 * u)) := if_pos h

theorem State.hasReg_ckCfg (s : State) (u : Fin 8) : s.hasReg (0x5000 + 0x20 * u) = true :=
  hasReg_of_row (r := regArray 0x05000 0x20 8 7 .hb) (by simp [regIndex, indexChecks])
    (RegRow.has_regArray (by omega) (by omega) (by omega) (by omega))

theorem elem_ckCfg (u : Fin 8) : elem (0x5000 + 0x20 * u) 0x5000 0x20 = (u.val, 0) := by
  simp only [elem, Prod.mk.injEq]
  omega

theorem State.regValue_ckCfg (s : State) (u : Fin 8) : s.regValue (0x5000 + 0x20 * u) =
    BitVec.ofNat 32 ((s.crc u).poly.toNat * 4 + (if (s.crc u).finalInv then 2 else 0) + (if (s.crc u).reflect then 1 else 0)) := by
  have hblock : (0x5000 + 0x20 * u.val) / 0x1000 = 5 := by omega
  have hunit : 0x5000 + 0x20 * u.val < 0x5100 := by omega
  have hpoly : (s.crc u).poly.toNat % 8 = (s.crc u).poly.toNat := Nat.mod_eq_of_lt (s.crc u).poly.isLt
  simp [regValue, hasReg_ckCfg, hblock, readCk, hunit, elem_ckCfg, word, fld, flag, hpoly, Nat.shiftLeft_eq]

/-- Settles O17: the writes fold the bytes of a word, a unit of width 32 computes the CRCs of R290, and CK_CFG goes by `Crc.setCfg`. -/
theorem crcUnits : Obligations.CrcUnits := by
  refine ⟨⟨fun s u v => ?folds, fun connId seq bs c hv hi => ?crcs⟩, ⟨fun s u v => ?config, fun u => ?resetValue⟩, ?checkValues⟩
  case folds =>
    rw [exec_ckData32, exec_ckData16, exec_ckData8, exec_ckSeed, bytesBE_toNat]
    simp only [bytesLE_toNat]
    exact ⟨rfl, rfl, rfl, rfl⟩
  case crcs =>
    exact ⟨fun hp hr => Crc.result_foldBytes_crcA hv hi _ _ _ hp hr, fun hp hr => Crc.result_foldBytes_crcB hv hi _ _ _ hp hr⟩
  case config =>
    refine ⟨fun hgood => ⟨_, exec_ckCfgWrite_of_le hgood u s, ?_⟩, fun hbad => ⟨_, exec_ckCfgWrite_of_lt hbad u s, rfl⟩, s.regValue_ckCfg u⟩
    rw [State.updCrc_crc_self]
    exact ⟨Crc.setCfg_poly_toNat _ v, rfl, rfl, Crc.setCfg_val_toNat _ v,
      fun w hw => State.updCrc_crc_ne _ _ _ _ (Fin.val_ne_of_ne hw), rfl⟩
  case resetValue => exact State.regValue_ckCfg State.reset u
  case checkValues => decide +kernel

end Sys2Proof.Machine
end


section
/-!
# Proofs: the queue and the settings, operation by operation

`State.kept` gathers the queue and the settings that `State.SettingsInRange` speaks of. Every internal operation of the model leaves it
as it is, but for the few that write a setting (the registers, the resets and the stagger group), which the section after the next treats.
-/
namespace Sys2Proof.Machine
open Sys2Proof

/-- What an operation leaves of a ring pair unless it enables it, disables it or takes a safety entry. -/
def Ring.marks (r : Ring) : Bool × Word × Word := (decide (r.st = .enabled), r.seqA, r.seqB)

/-- The marks of every ring pair of a table. -/
def ringMarks (t : Tab Ring) (k : Nat) : Bool × Word × Word := (tabGet Ring.init t k).marks

/-- The queue of a state, the settings of `State.SettingsInRange` and GC_SCRATCH, in one tuple. -/
def State.settings (s : State) : List Instr × Byte × (BitVec 10 × BitVec 10) × (Byte × BitVec 10) × BitVec 16 × Word × Word × Word :=
  (s.pending, s.hi.selected, (s.lmWarn, s.lmWarnB), (s.fd.tSb, s.fd.tGdisc), s.stg.presc, s.stg.shadow, s.stg.period, s.gc.scratch)

/-- The same with the marks of the ring pairs: what nearly every operation leaves as it is. -/
def State.kept (s : State) : List Instr × Byte × (BitVec 10 × BitVec 10) × (Byte × BitVec 10) × BitVec 16 × Word × Word × Word ×
    (Nat → Bool × Word × Word) :=
  (s.pending, s.hi.selected, (s.lmWarn, s.lmWarnB), (s.fd.tSb, s.fd.tGdisc), s.stg.presc, s.stg.shadow, s.stg.period, s.gc.scratch,
    ringMarks s.rings)

theorem State.settings_of_kept {s t : State} (h : t.kept = s.kept) : t.settings = s.settings := by
  simp only [State.kept, Prod.mk.injEq] at h
  simp only [State.settings, Prod.mk.injEq]
  tauto

theorem State.marks_of_kept {s t : State} (h : t.kept = s.kept) (k : Nat) : (t.ring k).marks = (s.ring k).marks := by
  simp only [State.kept, Prod.mk.injEq] at h
  obtain ⟨-, -, -, -, -, -, -, -, hmarks⟩ := h
  exact congrFun hmarks k

theorem State.updRing_settings (s : State) (r : Nat) (f : Ring → Ring) : (s.updRing r f).settings = s.settings := rfl

theorem State.foldl_kept {α : Type} {f : State → α → State} (h : ∀ t x, (f t x).kept = t.kept) (xs : List α) (s : State) :
    (xs.foldl f s).kept = s.kept := by
  induction xs generalizing s with
  | nil => rfl
  | cons x xs ih => rw [List.foldl_cons, ih, h]

theorem State.updZone_kept (s : State) (z : Nat) (f : Zone → Zone) : (State.updZone s z f).kept = s.kept := rfl
theorem State.updPair_kept (s : State) (p : Nat) (f : Pair → Pair) : (State.updPair s p f).kept = s.kept := rfl
theorem State.updChan_kept (s : State) (n : Nat) (f : Chan → Chan) : (State.updChan s n f).kept = s.kept := rfl
theorem State.updChans_kept (s : State) (ns : List Nat) (f : Nat → Chan → Chan) : (State.updChans s ns f).kept = s.kept := rfl
theorem State.updGrp_kept (s : State) (g : Nat) (f : Grp → Grp) : (State.updGrp s g f).kept = s.kept := rfl
theorem State.updCap_kept (s : State) (c : Nat) (f : Cap → Cap) : (State.updCap s c f).kept = s.kept := rfl
theorem State.updPort_kept (s : State) (n : Nat) (f : Port → Port) : (State.updPort s n f).kept = s.kept := rfl
theorem State.updConn_kept (s : State) (k : Nat) (f : Conn → Conn) : (State.updConn s k f).kept = s.kept := rfl
theorem State.updGt_kept (s : State) (k : Nat) (f : Gt → Gt) : (State.updGt s k f).kept = s.kept := rfl
theorem State.updCrc_kept (s : State) (u : Nat) (f : Crc → Crc) : (State.updCrc s u f).kept = s.kept := rfl
theorem State.updRing_kept {s : State} {r : Nat} {f : Ring → Ring} (h : (f (s.ring r)).marks = (s.ring r).marks) :
    (State.updRing s r f).kept = s.kept := by
  have hmarks : ringMarks (s.updRing r f).rings = ringMarks s.rings := by
    funext k
    simp only [ringMarks, State.updRing, tabGet_tabUpd]
    split
    · next hk => rw [hk]; exact h
    · rfl
  simp only [State.kept, hmarks]
  rfl
theorem State.updEvRing_kept (s : State) (e : Nat) (f : EvRing → EvRing) : (State.updEvRing s e f).kept = s.kept := rfl
theorem State.updOtp_kept (s : State) (w : Nat) (f : OtpWord → OtpWord) : (State.updOtp s w f).kept = s.kept := rfl
theorem State.updTile_kept (s : State) (k : Nat) (f : Tile → Tile) : (State.updTile s k f).kept = s.kept := rfl
theorem State.updFd_kept {s : State} {f : Fd → Fd} (hSb : (f s.fd).tSb = s.fd.tSb) (hDisc : (f s.fd).tGdisc = s.fd.tGdisc) :
    (s.updFd f).kept = s.kept := by
  simp [State.updFd, State.kept, hSb, hDisc]
theorem State.updPm_kept (s : State) (f : Pm → Pm) : (State.updPm s f).kept = s.kept := rfl
theorem State.updLane_kept (s : State) (l : Lane) (f : LaneDie → LaneDie) : (State.updLane s l f).kept = s.kept := by
  cases l <;> rfl
theorem State.putPt_kept (s : State) (l : Lane) (a : Nat) (p : Pt) : (State.putPt s l a p).kept = s.kept := by
  cases l <;> rfl
theorem State.setPtLane_kept (s : State) (l : Lane) (a : Nat) (p : Pt) : (State.setPtLane s l a p).kept = s.kept := by
  cases l <;> rfl
theorem State.setPt_kept (s : State) (a : Nat) (p : Pt) : (State.setPt s a p).kept = s.kept := rfl
theorem State.purge_kept (s : State) (l : Lane) (as : List Nat) : (State.purge s l as).kept = s.kept := rfl
theorem State.dropLane_kept (s : State) (l : Lane) (as : List Nat) : (State.dropLane s l as).kept = s.kept := by
  grind [State.dropLane, State.kept, State.foldl_kept, State.purge_kept, State.setPtLane_kept]
theorem State.dropPts_kept (s : State) (as : List Nat) : (State.dropPts s as).kept = s.kept := by
  grind [State.dropPts, State.kept, State.dropLane_kept]
theorem State.updCopies_kept (s : State) (f : List Copy → List Copy) : (State.updCopies s f).kept = s.kept := rfl
theorem State.pushFd_kept (s : State) (l : Lane) (c : FdCmd) : (State.pushFd s l c).kept = s.kept := by
  grind [State.pushFd, State.kept, State.updLane_kept]
theorem State.owe_kept (s : State) (l : Lane) (a : Nat) : (State.owe s l a).kept = s.kept := by
  grind [State.owe, State.kept]
theorem State.commandLane_kept (s : State) (l : Lane) (t : Target) (on : Bool) : (State.commandLane s l t on).kept = s.kept := by
  unfold State.commandLane
  grind [State.kept, State.owe_kept, State.purge_kept, State.pushFd_kept, State.setPtLane_kept]
theorem State.outputsOff_kept (s : State) (ts : List Target) : (State.outputsOff s ts).kept = s.kept := by
  grind [State.outputsOff, State.kept, State.foldl_kept, State.commandLane_kept]
theorem Hi.send_selected (h : Hi) (v : Nat) : (h.send v).selected = h.selected := by
  unfold Hi.send
  split <;> rfl
theorem Hi.dueVector_selected (h : Hi) (v : Nat) : (h.dueVector v).selected = h.selected := by
  unfold Hi.dueVector
  split
  · rfl
  · exact h.send_selected v
theorem State.dueVector_kept (s : State) (v : BitVec 5) : (s.dueVector v).kept = s.kept := by
  simp [State.dueVector, State.kept, Hi.dueVector_selected]
theorem State.writeEvent_kept (s : State) (e : Nat) (type src payload : Nat) (poison : Bool) : (State.writeEvent s e type src payload poison).kept = s.kept := by
  grind [State.writeEvent, State.kept, State.dueVector_kept, State.updEvRing_kept]
theorem State.toRing_kept (s : State) (type src payload : Nat) (poison : Bool) : (State.toRing s type src payload poison).kept = s.kept := by
  grind [State.toRing, State.kept, State.updEvRing_kept, State.writeEvent_kept]
theorem State.updEvq_kept (s : State) (l : Lane) (f : Evq → Evq) : (State.updEvq s l f).kept = s.kept := by
  cases l <;> rfl
theorem State.laneEvent_kept (s : State) (l : Lane) (type payload : Nat) : (State.laneEvent s l type payload).kept = s.kept := by
  grind [State.laneEvent, State.kept, State.toRing_kept, State.updEvq_kept]
theorem State.postEvent_kept (s : State) (type src payload : Nat) : (State.postEvent s type src payload).kept = s.kept := by
  unfold State.postEvent
  grind [State.kept, State.laneEvent_kept, State.toRing_kept]
theorem State.takeWord_kept (s : State) (l : Lane) (w : EvWord) : (s.takeWord l w).kept = s.kept := by
  unfold State.takeWord
  exact (State.toRing_kept _ _ _ _ _).trans (s.updEvq_kept l _)
theorem State.takeWords_kept (n : Nat) (s : State) : (State.takeWords n s).kept = s.kept := by
  induction n generalizing s with
  | zero => rfl
  | succ n ih =>
    unfold State.takeWords
    grind [State.takeWord_kept]
theorem State.postLost_kept (s : State) (e : Nat) : (State.postLost s e).kept = s.kept := by
  grind [State.postLost, State.kept, State.updEvRing_kept, State.writeEvent_kept]
theorem State.setZoneSt_kept (s : State) (z : Nat) (st : ZoneSt) : (State.setZoneSt s z st).kept = s.kept := by
  grind [State.setZoneSt, State.kept, State.postEvent_kept, State.updZone_kept]
/-! The marks of a ring pair -/

theorem Ring.drained_marks (r : Ring) : r.drained.marks = r.marks := by
  unfold Ring.drained
  split
  · next h =>
    have hst : r.st = .draining := by simp_all
    split <;> simp [Ring.marks, Ring.cleared, Ring.init, hst]
  · rfl

theorem Ring.post_marks (r : Ring) (x : CqEntry) : (r.post x).marks = r.marks := by
  unfold Ring.post
  split <;> rfl

theorem Ring.flush_marks (ts : Word64) (r : Ring) (xs : List CqEntry) : (r.flush ts xs).marks = r.marks := by
  induction xs generalizing r with
  | nil => rfl
  | cons x xs ih =>
    rw [Ring.flush]
    split
    · rfl
    · exact ih _

/-- The list of what is outstanding is no mark. -/
theorem State.updRing_outs_kept (s : State) (r : Nat) (f : List Taken → List Taken) :
    (s.updRing r fun q => { q with outs := f q.outs }).kept = s.kept := State.updRing_kept rfl

theorem State.postCq_kept (s : State) (ring cid opcode status : Nat) (interm : Bool) (res : Nat) :
    (State.postCq s ring cid opcode status interm res).kept = s.kept := by
  have hposted : ∀ x : CqEntry, (s.updRing ring fun r => (r.post x).drained).kept = s.kept := fun x =>
    State.updRing_kept ((Ring.drained_marks _).trans (Ring.post_marks _ x))
  unfold State.postCq
  dsimp only
  split
  · rfl
  · split
    · exact State.updRing_kept (Ring.drained_marks _)
    · split
      · exact hposted _
      · exact (State.dueVector_kept _ _).trans (hposted _)
theorem State.completion_kept (s : State) (ring cid opcode status : Nat) (interm : Bool) (res : Nat) :
    (State.completion s ring cid opcode status interm res).kept = s.kept := by
  unfold State.completion
  split
  · rfl
  · refine (State.postCq_kept _ _ _ _ _ _ _).trans ?_
    split
    · rfl
    · exact s.updRing_outs_kept ring _
theorem State.progress_kept (s : State) (o : Origin) (opcode res : Nat) : (State.progress s o opcode res).kept = s.kept := by
  grind [State.progress, State.kept, State.completion_kept]
theorem State.complete_kept (s : State) (o : Origin) (opcode status res : Nat) : (State.complete s o opcode status res).kept = s.kept := by
  grind [State.complete, State.kept, State.completion_kept]
theorem State.completeOpt_kept (s : State) (o : Option Origin) (op st res : Nat) : (s.completeOpt o op st res).kept = s.kept := by
  cases o with
  | none => rfl
  | some o => exact s.complete_kept o op st res
theorem State.completeAll_kept {α : Type} (s : State) (xs : List α) (o : α → Origin) (op st res : Nat) :
    (xs.foldl (fun t x => t.complete (o x) op st res) s).kept = s.kept :=
  State.foldl_kept (fun _ _ => State.complete_kept _ _ _ _ _) _ _
theorem State.setRec_kept (s : State) (k : Nat) (r : Option FaultRec) : (State.setRec s k r).kept = s.kept := rfl
theorem State.reportRec_kept (s : State) (k : Nat) : (State.reportRec s k).kept = s.kept := by
  grind [State.reportRec, State.kept, State.postEvent_kept, State.setRec_kept]
theorem State.flushRecs_kept (s : State) : (State.flushRecs s).kept = s.kept := by
  grind [State.flushRecs, State.kept, State.foldl_kept, State.reportRec_kept]
theorem State.record_kept (s : State) (code : BitVec 16) (loc : BitVec 12) (la lb : Bool) (detail passLo : Nat) (zs : List Nat) : (State.record s code loc la lb detail passLo zs).kept = s.kept := by
  grind [State.record, State.kept, State.reportRec_kept, State.setRec_kept]
theorem State.faultZone_kept (s : State) (z : Nat) : (State.faultZone s z).kept = s.kept := by
  grind [State.faultZone, State.kept, State.dropLane_kept, State.dropPts_kept, State.outputsOff_kept, State.setZoneSt_kept, State.updZone_kept]
theorem State.raise_kept (s : State) (code : BitVec 16) (loc : BitVec 12) (la lb : Bool) (detail passLo : Nat) (scope : List Nat) : (State.raise s code loc la lb detail passLo scope).kept = s.kept := by
  grind [State.raise, State.kept, State.foldl_kept, State.faultZone_kept, State.record_kept]
theorem State.dropPairPts_kept (s : State) (l : Lane) (p : Nat) : (State.dropPairPts s l p).kept = s.kept := by
  grind [State.dropPairPts, State.kept, State.foldl_kept, State.dropLane_kept]
theorem State.unload_kept (s : State) (p : Nat) : (State.unload s p).kept = s.kept := by
  grind [State.unload, State.kept, State.foldl_kept, State.updZone_kept]
theorem State.latchBit_kept (s : State) (l : Lane) (p : Nat) : (State.latchBit s l p).kept = s.kept := by
  grind [State.latchBit, State.kept, State.dropPairPts_kept, State.unload_kept, State.updPair_kept]
theorem State.stopPair_kept (s : State) (l : Lane) (p : Nat) : (State.stopPair s l p).kept = s.kept := by
  grind [State.stopPair, State.kept, State.latchBit_kept, State.updPair_kept]
theorem State.pairFault_kept (s : State) (l : Lane) (p : Nat) (code : BitVec 16) (detail : Nat) : (State.pairFault s l p code detail).kept = s.kept := by
  grind [State.pairFault, State.kept, State.raise_kept, State.stopPair_kept]
theorem State.pairFault2_kept (s : State) (p : Nat) (code : BitVec 16) (detail : Nat) : (State.pairFault2 s p code detail).kept = s.kept := by
  grind [State.pairFault2, State.kept, State.latchBit_kept, State.raise_kept]
theorem State.latchAll_kept (s : State) (l : Lane) : (s.latchAll l).kept = s.kept :=
  State.foldl_kept (fun _ _ => State.latchBit_kept _ _ _) _ _
theorem State.laneFault_kept (s : State) (l : Lane) (code : BitVec 16) (detail : Nat) : (State.laneFault s l code detail).kept = s.kept := by
  grind [State.laneFault, State.kept, State.latchAll_kept, State.raise_kept, State.updLane_kept]
theorem State.fdFault_kept (s : State) (code : BitVec 16) (detail : Nat) : (State.fdFault s code detail).kept = s.kept := by
  grind [State.fdFault, State.kept, State.raise_kept]
theorem State.foldBoth_kept (s : State) (a b : List Word) : (State.foldBoth s a b).kept = s.kept := rfl
theorem State.wrej_kept (s : State) (cause src off : Nat) : (State.wrej s cause src off).kept = s.kept := rfl
theorem State.judgeWl_kept (s : State) (off : Nat) : (State.judgeWl s off).kept = s.kept := rfl
theorem State.bistAsk_kept (s : State) (p prec : Nat) : (State.bistAsk s p prec).kept = s.kept := by
  grind [State.bistAsk, State.kept]
theorem State.draw_kept (s : State) : (State.draw s).2.kept = s.kept := rfl
theorem State.holdChans_kept (s : State) (ns : List Nat) : (State.holdChans s ns).kept = s.kept := rfl
theorem State.gstopWait_kept (s : State) (ns : List Nat) : (State.gstopWait s ns).kept = s.kept := rfl
theorem State.sendSample_kept (s : State) : (State.sendSample s).kept = s.kept := rfl
theorem State.hostSource_kept (s : State) (n : Nat) (was : Bool) : (State.hostSource s n was).kept = s.kept := by
  grind [State.hostSource, State.kept, State.pushFd_kept]
theorem State.holdEntered_kept (s : State) (ns : List Nat) : (State.holdEntered s ns).kept = s.kept := rfl
theorem State.newUnits_kept (s : State) (ns : List Nat) : (State.newUnits s ns).kept = s.kept := rfl
theorem State.setMode_kept (s : State) (n : Nat) (m : BitVec 2) : (State.setMode s n m).kept = s.kept := by
  grind [State.setMode, State.kept, State.foldl_kept, State.holdEntered_kept, State.hostSource_kept, State.updChans_kept]
theorem State.recGone_kept (s : State) (code : BitVec 16) (loc : BitVec 12) : (State.recGone s code loc).kept = s.kept := by
  grind [State.recGone, State.kept, State.reportRec_kept, State.setRec_kept]
theorem Fd.readGstop_settings (f : Fd) (pin : GstopPin) (mv : Nat) (stood : Bool) :
    (f.readGstop pin mv stood).tSb = f.tSb ∧ (f.readGstop pin mv stood).tGdisc = f.tGdisc := by
  unfold Fd.readGstop
  cases pin <;> exact ⟨rfl, rfl⟩
theorem State.readGstop_kept (s : State) (pin : GstopPin) (mv : Nat) (stood : Bool) : (s.readGstop pin mv stood).kept = s.kept := by
  obtain ⟨hSb, hDisc⟩ := s.fd.readGstop_settings pin mv stood
  unfold State.readGstop
  grind [State.updFd_kept, State.updFd, State.holdChans_kept, State.recGone_kept]
theorem State.chanFault_kept (s : State) (n : Nat) (code : BitVec 16) (f : Chan → Chan) : (s.chanFault n code f).kept = s.kept :=
  (State.updFd_kept rfl rfl).trans ((State.holdChans_kept _ _).trans (State.updChans_kept _ _ _))
theorem State.faultSwA_kept (s : State) (n : Nat) : (s.faultSwA n).kept = s.kept := s.chanFault_kept n _ _
theorem State.faultSwB_kept (s : State) (n : Nat) : (s.faultSwB n).kept = s.kept := s.chanFault_kept n _ _
theorem State.faultExt_kept (s : State) (n : Nat) : (s.faultExt n).kept = s.kept := s.chanFault_kept n _ _
theorem State.laneReport_kept (s : State) (n : Nat) (code : BitVec 16) (detail : Nat) : (State.laneReport s n code detail).kept = s.kept := by
  grind [State.laneReport, State.kept, State.raise_kept]
theorem State.startPulse_kept (s : State) (h : Nat) (lane : Lane) (period : Nat) : (State.startPulse s h lane period).kept = s.kept := by
  grind [State.startPulse, State.kept, State.updChan_kept, State.updFd]
theorem State.putOff_kept (s : State) (h : Nat) (lane : Lane) (period : Nat) : (State.putOff s h lane period).kept = s.kept := by
  grind [State.putOff, State.kept, State.updChan_kept, State.updFd]
theorem State.judgePulse_kept (s : State) (l : Lane) (aOk : Bool) (m : Nat) (mid term : Bool) : (State.judgePulse s l aOk m mid term).kept = s.kept := by
  unfold State.judgePulse
  grind [State.kept, State.faultExt_kept, State.faultSwA_kept, State.faultSwB_kept]
theorem State.faultTerm_kept (s : State) (n : Nat) : (State.faultTerm s n).kept = s.kept := by
  grind [State.faultTerm, State.kept, State.chanFault_kept, State.faultExt_kept]
theorem State.reclassify_kept (s : State) (x y : Nat) : (State.reclassify s x y).kept = s.kept := by
  grind [State.reclassify, State.kept, State.laneReport_kept, State.reportRec_kept, State.setRec_kept]
theorem State.grpLatch_kept (s : State) (g : Nat) (f : Grp → Grp) : (s.grpLatch g f).kept = s.kept :=
  (State.holdChans_kept _ _).trans (State.updGrp_kept s g _)
theorem State.grpFault_kept (s : State) (g : Nat) (code : BitVec 16) (vfs : BitVec 16) (f : Grp → Grp) : (State.grpFault s g code vfs f).kept = s.kept := by
  grind [State.grpFault, State.kept, State.grpLatch_kept, State.raise_kept]
theorem State.nsCmd_kept (s : State) (src n : Nat) (value : Word) : (State.nsCmd s src n value).kept = s.kept := by
  grind [State.nsCmd, State.kept, State.pushFd_kept, State.updChan_kept, State.wrej_kept]
theorem State.loseCopy_kept (s : State) (l : Lane) (r : Nat) : (State.loseCopy s l r).kept = s.kept := by
  unfold State.loseCopy
  split
  · rfl
  · refine State.updRing_kept ?_
    cases l <;> rfl
theorem State.holdEvents_kept (s : State) (hold : Bool) : (s.holdEvents hold).kept = s.kept := by
  unfold State.holdEvents
  split
  · rfl
  · exact State.takeWords_kept _ _
theorem State.kick_kept (s : State) (p : Nat) : (State.kick s p).kept = s.kept := by
  grind [State.kick, State.kept, State.updPort_kept]
theorem State.enqueue_kept (s : State) (p : Nat) (t : TxFrame) : (State.enqueue s p t).kept = s.kept := by
  grind [State.enqueue, State.kept, State.kick_kept, State.updConn_kept, State.updPort_kept]
theorem State.toMerge_kept (s : State) (slot : Nat) (d : ConnDecl) (fa fb : Frame) : (State.toMerge s slot d fa fb).kept = s.kept := rfl
theorem State.sendFrame_kept (s : State) (slot : Nat) (ft : BitVec 4) (ver : Nat) (seq : Word) (payload : List Byte) : (State.sendFrame s slot ft ver seq payload).kept = s.kept := by
  grind [State.sendFrame, State.kept, State.toMerge_kept]
theorem State.storeAdm_kept (s : State) (r rB : AdmRec) (reused : Bool) : (State.storeAdm s r rB reused).kept = s.kept := rfl
theorem State.stewardB_kept (s : State) : (State.stewardB s).kept = s.kept := rfl
theorem State.dropFrames_kept (s : State) (k : Nat) : (State.dropFrames s k).kept = s.kept := rfl
theorem State.setConn_kept (s : State) (k : Nat) (st : ConnSt) (cause : Option Nat) : (State.setConn s k st cause).kept = s.kept := by
  grind [State.setConn, State.kept, State.dropFrames_kept, State.dropPts_kept, State.postEvent_kept, State.updConn_kept]
theorem State.sendClose_kept (s : State) (k reason : Nat) : (State.sendClose s k reason).kept = s.kept := by
  grind [State.sendClose, State.kept, State.sendFrame_kept, State.updConn_kept]
theorem State.closeIfOn_kept (s : State) (k reason : Nat) : (State.closeIfOn s k reason).kept = s.kept := by
  grind [State.closeIfOn, State.kept, State.sendClose_kept]
theorem State.connFault_kept (s : State) (k : Nat) (code : BitVec 16) (cause : Nat) : (State.connFault s k code cause).kept = s.kept := by
  grind [State.connFault, State.kept, State.raise_kept, State.setConn_kept]
theorem State.newNonce_kept (s : State) (k : Nat) : (State.newNonce s k).kept = s.kept := rfl
theorem State.sendOpen_kept (s : State) (k : Nat) : (State.sendOpen s k).kept = s.kept := by
  grind [State.sendOpen, State.kept, State.sendFrame_kept, State.updConn_kept]
theorem State.enterOpening_kept (s : State) (k : Nat) (cause : Option Nat) (backoff : Option Nat) : (State.enterOpening s k cause backoff).kept = s.kept := by
  grind [State.enterOpening, State.kept, State.connFault_kept, State.newNonce_kept, State.setConn_kept, State.updConn_kept]
theorem State.firstOpen_kept (s : State) (k : Nat) : (State.firstOpen s k).kept = s.kept := by
  grind [State.firstOpen, State.kept, State.sendOpen_kept]
theorem State.stale_kept (s : State) (k cause : Nat) : (State.stale s k cause).kept = s.kept := by
  grind [State.stale, State.kept, State.setConn_kept]
theorem State.negotiate_kept (s : State) (k ver : Nat) (peer : Word) (cause : Option Nat) : (State.negotiate s k ver peer cause).kept = s.kept := by
  grind [State.negotiate, State.kept, State.dropFrames_kept, State.setConn_kept, State.updConn_kept]
theorem State.connsAtRun_kept (s : State) : (State.connsAtRun s).kept = s.kept := by
  grind [State.connsAtRun, State.kept, State.foldl_kept, State.enterOpening_kept, State.updConn_kept]
theorem State.closeAllConns_kept (s : State) : (State.closeAllConns s).kept = s.kept := by
  grind [State.closeAllConns, State.kept, State.foldl_kept, State.sendClose_kept, State.setConn_kept]
theorem State.dropOthers_kept (s : State) : (State.dropOthers s).kept = s.kept := by
  grind [State.dropOthers, State.kept, State.foldl_kept, State.updConn_kept, State.updPort_kept]
theorem State.declareConn_kept (s : State) (k : Nat) (d : ConnDecl) (b : Option ConnDecl) : (State.declareConn s k d b).kept = s.kept := by
  grind [State.declareConn, State.kept, State.setConn_kept, State.updConn_kept]
theorem State.removeConn_kept (s : State) (k : Nat) : (State.removeConn s k).kept = s.kept := by
  grind [State.removeConn, State.kept, State.closeIfOn_kept, State.setConn_kept, State.updConn_kept]
theorem State.rxFail_kept (s : State) (l : Lane) (k : Nat) (count cmac : Bool) : (State.rxFail s l k count cmac).kept = s.kept := by
  grind [State.rxFail, State.kept, State.closeIfOn_kept, State.connFault_kept, State.stale_kept, State.updConn_kept]
theorem State.report_kept (s : State) (l : Lane) (k : Nat) (seq : Word) (r : RxReport) : (State.report s l k seq r).kept = s.kept := by
  grind [State.report, State.kept]
theorem State.rxTake_kept (s : State) (l : Lane) : (State.rxTake s l).kept = s.kept := by
  cases l <;> rfl
theorem State.putPts_kept (s : State) (l : Lane) (n : Nat) (g : Nat → Nat) (p : Nat → Pt) :
    ((List.range n).foldl (fun t i => t.putPt l (g i) (p i)) s).kept = s.kept :=
  State.foldl_kept (fun _ _ => State.putPt_kept _ _ _ _) _ _
theorem State.nameFrame_kept (s : State) (k : Nat) (tstamp : Word) (lost : Nat) (ptsA ptsB : List Pt) (okA okB : Bool) :
    (s.nameFrame k tstamp lost ptsA ptsB okA okB).kept = s.kept := by
  unfold State.nameFrame
  dsimp only
  split
  · rfl
  · simp only [apply_ite State.kept, State.updConn_kept, State.stale_kept, State.setConn_kept, State.putPts_kept, ite_self]
theorem State.rxFails_kept (s : State) (k : Nat) (a b : Option Bool) : (State.rxFails s k a b).kept = s.kept := by
  unfold State.rxFails
  grind [State.kept, State.rxFail_kept]
theorem State.laneSplit_kept (s : State) (k : Nat) : (State.laneSplit s k).kept = s.kept := rfl
theorem State.checkOpening_kept (s : State) (k : Nat) (d : ConnDecl) (f : Frame) (hasA hasB : Bool) : (State.checkOpening s k d f hasA hasB).2.kept = s.kept := by
  grind [State.checkOpening, State.kept, State.laneSplit_kept, State.rxFails_kept]
theorem State.listen_kept (s : State) (k : Nat) (d : ConnDecl) (p : List Byte) : (State.listen s k d p).kept = s.kept := by
  grind [State.listen, State.kept, State.connFault_kept, State.enterOpening_kept, State.negotiate_kept, State.newNonce_kept, State.sendFrame_kept,
      State.updConn_kept]
theorem State.rxBoth_kept {s t : State} {k : Nat} {f : Frame} {a b : Bool} (h : s.rxBoth k f = some (a, b, t)) : t.kept = s.kept := by
  unfold State.rxBoth at h
  grind [State.rxTake_kept]
theorem State.takeOpening_kept (s : State) (slot : Nat) (f : Frame) (ft : BitVec 4) (takes : ConnDecl → Bool) :
    (s.takeOpening slot f ft takes).2.kept = s.kept := by
  unfold State.takeOpening
  grind [State.rxBoth_kept, State.checkOpening_kept]
theorem State.wdXchk_kept (s : State) (k : Nat) : (State.wdXchk s k).kept = s.kept := by
  grind [State.wdXchk, State.kept, State.closeIfOn_kept, State.connFault_kept]
theorem State.buildFrame_kept (s : State) (k : Nat) : (State.buildFrame s k).kept = s.kept := by
  grind [State.buildFrame, State.kept, State.toMerge_kept, State.updConn_kept]
theorem State.buildAll_kept (s : State) : (State.buildAll s).kept = s.kept := by
  grind [State.buildAll, State.kept, State.foldl_kept, State.buildFrame_kept]
theorem State.txLost_kept (s : State) (p : Nat) : (State.txLost s p).kept = s.kept := rfl
theorem State.handPoints_kept (s : State) (k : Nat) (f : Frame) : (State.handPoints s k f).kept = s.kept := by
  grind [State.handPoints, State.kept]
theorem State.txPop_kept (s : State) (k : Nat) : (State.txPop s k).kept = s.kept := rfl
theorem State.startConnOpen_kept (s : State) (o : Origin) (slot : BitVec 16) : (State.startConnOpen s o slot).kept = s.kept := by
  grind [State.startConnOpen, State.kept, State.complete_kept, State.enterOpening_kept, State.firstOpen_kept]
theorem State.startConnClose_kept (s : State) (o : Origin) (slot : BitVec 16) : (State.startConnClose s o slot).kept = s.kept := by
  grind [State.startConnClose, State.kept, State.closeIfOn_kept, State.complete_kept, State.setConn_kept]
theorem State.begun_kept (s : State) (o : Origin) : (State.begun s o).kept = s.kept := s.updRing_outs_kept _ _
theorem State.updTaken_kept (s : State) (o : Origin) (op : Nat) (f : Taken → Taken) : (State.updTaken s o op f).kept = s.kept :=
  s.updRing_outs_kept _ _
theorem State.parked_kept (s : State) (o : Origin) (op : Nat) : (State.parked s o op).kept = s.kept := s.updTaken_kept _ _ _
theorem State.startMove_kept (s : State) (o : Origin) (op : Nat) (m : Move) : (State.startMove s o op m).kept = s.kept := s.updTaken_kept _ _ _
theorem State.countTaken_kept (s : State) (r : Fin 16) (t : Taken) (m : Option Move) : (State.countTaken s r t m).kept = s.kept := by
  unfold State.countTaken
  extract_lets o due t' u
  have hu : u.kept = s.kept := s.updRing_outs_kept r _
  split
  · exact (State.progress_kept _ _ _ _).trans hu
  · exact hu
theorem State.readDiag_kept (s : State) (z f n : Nat) : (s.readDiag z f n).2.kept = s.kept := by
  unfold State.readDiag
  split <;> rfl
theorem State.moveTo_kept (s : State) (m : Move) (k : Nat) : (s.moveTo m k).2.kept = s.kept := by
  unfold State.moveTo
  split
  · exact State.readDiag_kept _ _ _ _
  · rfl
theorem State.endMove_kept (s : State) (o : Origin) (m : Move) : (s.endMove o m).kept = s.kept := by
  unfold State.endMove
  grind [State.kept, State.complete_kept]
theorem State.moveStep_kept (s : State) (r : Fin 16) (t : Taken) (m : Move) (n : Nat) : (State.moveStep s r t m n).kept = s.kept := by
  grind [State.moveStep, State.kept, State.complete_kept, State.countTaken_kept, State.endMove_kept, State.moveTo_kept]
theorem State.moveAll_kept (s : State) (bytes : List Nat) : (s.moveAll bytes).kept = s.kept := by
  refine State.foldl_kept (fun t r => ?_) _ _
  grind [State.moveStep_kept]
theorem State.abortMoves_kept (s : State) : s.abortMoves.kept = s.kept := by
  refine State.foldl_kept (fun t r => ?_) _ _
  grind [State.completion_kept]
theorem State.rebound_kept (s : State) (p : Nat) : (State.rebound s p).kept = s.kept := rfl
theorem State.vacate_kept (s : State) (p : Nat) : (State.vacate s p).kept = s.kept := by
  grind [State.vacate, State.kept, State.bistAsk_kept, State.rebound_kept, State.updPair_kept]
theorem State.load_kept (s : State) (p : Nat) : (State.load s p).kept = s.kept := rfl
theorem State.trigger_kept (s : State) (p : Nat) : (State.trigger s p).kept = s.kept := rfl
theorem State.sendOwner_kept (s : State) (chs : List Nat) (old new : Nat) (boundary : Word) : (State.sendOwner s chs old new boundary).kept = s.kept := by
  grind [State.sendOwner, State.kept, State.foldl_kept, State.pushFd_kept]
theorem State.sendBoundary_kept (s : State) (chs : List Nat) (boundary : Word) : (State.sendBoundary s chs boundary).kept = s.kept := by
  grind [State.sendBoundary, State.kept, State.foldl_kept, State.pushFd_kept]
theorem State.ownPoints_kept (s : State) (as : List Nat) (p : Nat) : (State.ownPoints s as p).kept = s.kept := rfl
theorem State.diagEvent_kept (s : State) (z n : Nat) (old r : BlockRt) : (State.diagEvent s z n old r).1.kept = s.kept := by
  grind [State.diagEvent, State.kept, State.postEvent_kept]
theorem State.diagEvents_kept (s : State) (z : Nat) (v : ZoneVer) (rts : List BlockRt) : (s.diagEvents z v rts).1.kept = s.kept := by
  have hfold : ∀ (ns : List Nat) (a : State × List BlockRt), (ns.foldl (fun a n =>
      let e := a.1.diagEvent z n (v.rt.getD n {}) (rts.getD n {})
      (e.1, a.2 ++ [e.2])) a).1.kept = a.1.kept := fun ns => by
    induction ns with
    | nil => exact fun _ => rfl
    | cons n ns ih => exact fun a => (ih _).trans (State.diagEvent_kept _ _ _ _ _)
  exact hfold _ (s, [])
theorem State.storeRt_kept (s : State) (z : Nat) (v : ZoneVer) (ra rb : List BlockRt) : (State.storeRt s z v ra rb).1.kept = s.kept := by
  grind [State.storeRt, State.kept, State.diagEvents_kept]
theorem State.restartRt_kept (s : State) (z : Nat) (v : ZoneVer) : (State.restartRt s z v).1.kept = s.kept := by
  grind [State.restartRt, State.kept, State.storeRt_kept]
theorem State.lateEvents_kept (s : State) (z : Nat) : (State.lateEvents s z).kept = s.kept := by
  grind [State.lateEvents, State.kept, State.storeRt_kept, State.updZone_kept]
theorem State.endWithdraw_kept (s : State) (z : Nat) : (State.endWithdraw s z).kept = s.kept := by
  grind [State.endWithdraw, State.kept, State.foldl_kept, State.complete_kept, State.dropPts_kept, State.ownPoints_kept, State.sendBoundary_kept,
      State.sendOwner_kept, State.setZoneSt_kept, State.updZone_kept, State.vacate_kept]
theorem State.startWithdraw_kept (s : State) (z : Nat) (os : List Origin) (cut : Bool) : (State.startWithdraw s z os cut).kept = s.kept := by
  grind [State.startWithdraw, State.kept, State.foldl_kept, State.commandLane_kept, State.trigger_kept, State.updZone_kept]
theorem State.discardStaged_kept (s : State) (z : Nat) : (State.discardStaged s z).kept = s.kept := by
  grind [State.discardStaged, State.kept, State.setZoneSt_kept, State.updZone_kept, State.vacate_kept]
theorem State.dropRetained_kept (s : State) (z : Nat) : (State.dropRetained s z).kept = s.kept := by
  grind [State.dropRetained, State.kept, State.updZone_kept, State.vacate_kept]
theorem State.dropRetainedOn_kept (s : State) (p : Nat) : (State.dropRetainedOn s p).kept = s.kept := by
  grind [State.dropRetainedOn, State.kept, State.foldl_kept, State.dropRetained_kept]
theorem State.releaseRetained_kept (s : State) (p : Nat) : (State.releaseRetained s p).kept = s.kept := by
  grind [State.releaseRetained, State.kept, State.foldl_kept, State.dropRetained_kept, State.postEvent_kept]
theorem State.applyChan_kept (s : State) (n : Nat) (d : ChanDecl) (b : Option ChanDecl) : (State.applyChan s n d b).kept = s.kept := by
  grind [State.applyChan, State.kept, State.holdEntered_kept, State.hostSource_kept, State.newUnits_kept, State.updChan_kept, State.updChans_kept]
theorem State.applyConn_kept (s : State) (k : Nat) (d b : Option ConnDecl) : (State.applyConn s k d b).kept = s.kept := by
  grind [State.applyConn, State.kept, State.declareConn_kept, State.removeConn_kept]
theorem State.applyAdded_kept (s : State) (img imgB : Image) : (State.applyAdded s img imgB).kept = s.kept := by
  grind [State.applyAdded, State.kept, State.foldl_kept, State.applyChan_kept, State.applyConn_kept]
theorem State.stage_kept (s : State) (img imgB : Image) (z : ZoneSection) (t : State) : (s.stage img imgB z t).kept = t.kept := rfl
theorem State.applyTile_kept (s : State) (t : TileSection) : (State.applyTile s t).kept = s.kept := by
  grind [State.applyTile, State.kept, State.dropPts_kept, State.updTile_kept]
theorem State.applyImage_kept (s : State) (img imgB : Image) (boot : Bool) : (s.applyImage img imgB boot).kept = s.kept := by
  unfold State.applyImage
  refine (State.foldl_kept (fun _ _ => State.applyTile_kept _ _) _ _).trans ?_
  exact (State.foldl_kept (fun _ _ => State.stage_kept _ _ _ _ _) _ _).trans (State.applyAdded_kept _ _ _)
theorem State.verifyImage_kept (s : State) (boot : Bool) : (s.verifyImage boot).2.2.kept = s.kept := by
  unfold State.verifyImage State.draw
  split
  · dsimp only
    split
    · rfl
    · split
      · rfl
      · split
        · rfl
        · split
          · exact (State.laneFault_kept _ _ _ _).trans (State.laneFault_kept _ _ _ _)
          · split
            · rfl
            · repeat' split
              all_goals first
                | rfl
                | exact State.applyImage_kept _ _ _ _
  · rfl
theorem State.setKnown_kept (s : State) (k idx : Nat) (v : Word) : (State.setKnown s k idx v).kept = s.kept := rfl
theorem State.readTile_kept (s : State) (k idx : Nat) : (State.readTile s k idx).2.kept = s.kept := by
  grind [State.readTile, State.kept, State.draw_kept, State.setKnown_kept]
theorem State.writeTile_kept (s : State) (l : Lane) (k idx : Nat) (w : Word) : (State.writeTile s l k idx w).kept = s.kept := by
  unfold State.writeTile
  grind [State.kept, State.setKnown_kept, State.updZone_kept]
theorem State.forgetTile_kept (s : State) (p : Nat) : (State.forgetTile s p).kept = s.kept := rfl
theorem State.bootFail_kept (s : State) (err st : Nat) : (State.bootFail s err st).kept = s.kept := by
  grind [State.bootFail, State.kept, State.updPm_kept]
theorem State.completeAsks_kept (s : State) (item idx status res : Nat) : (State.completeAsks s item idx status res).kept = s.kept := by
  grind [State.completeAsks, State.kept, State.foldl_kept, State.complete_kept]
theorem State.skipSlot_kept (s : State) : (State.skipSlot s).kept = s.kept := rfl
theorem State.startSlice_kept (s : State) (p : Nat) (again : Bool) : (State.startSlice s p again).kept = s.kept := rfl
theorem State.sliceLost_kept (s : State) (k : OpKind) (st : Nat) : (State.sliceLost s k st).kept = s.kept := by
  grind [State.sliceLost, State.kept, State.completeAsks_kept, State.skipSlot_kept]
theorem State.closeOp_kept (s : State) (status res : Nat) : (State.closeOp s status res).kept = s.kept := by
  grind [State.closeOp, State.kept, State.completeOpt_kept]
theorem State.setStage_kept (s : State) (n : Nat) : (State.setStage s n).kept = s.kept := by
  grind [State.setStage, State.kept]
theorem State.dropLoad_kept (s : State) (op : LongOp) : (State.dropLoad s op).kept = s.kept := by
  grind [State.dropLoad, State.kept, State.rebound_kept, State.updPair_kept, State.vacate_kept]
theorem State.refuseAs_kept (s : State) (r : AdmRec) (code status : Nat) : (State.refuseAs s r code status).kept = s.kept := by
  grind [State.refuseAs, State.kept, State.bootFail_kept, State.closeOp_kept, State.dropLoad_kept, State.sliceLost_kept, State.storeAdm_kept,
      State.updZone_kept]
theorem State.refuse_kept (s : State) (r : AdmRec) (code : Nat) : (State.refuse s r code).kept = s.kept := by
  grind [State.refuse, State.kept, State.refuseAs_kept]
theorem State.unplace_kept (s : State) (z : Nat) : (State.unplace s z).kept = s.kept := rfl
theorem State.opAbort_kept (s : State) (code status : Nat) : (State.opAbort s code status).kept = s.kept := by
  grind [State.opAbort, State.kept, State.foldl_kept, State.bistAsk_kept, State.closeOp_kept, State.dropLoad_kept, State.sliceLost_kept,
      State.unplace_kept, State.updZone_kept]
theorem State.chooseTarget_kept (s : State) (src : Nat) : (State.chooseTarget s src).1.kept = s.kept := by
  grind [State.chooseTarget, State.kept, State.releaseRetained_kept]
theorem State.opMap_kept (s : State) (f : LongOp → LongOp) : ({ s with op := s.op.map f } : State).kept = s.kept := rfl
theorem State.op_kept (s : State) (x : Option LongOp) : ({ s with op := x } : State).kept = s.kept := rfl
theorem State.opMig_kept (s : State) (x : Option LongOp) (m : Mig) : ({ s with op := x, mig := m } : State).kept = s.kept := rfl
theorem State.mig_kept (s : State) (m : Mig) : ({ s with mig := m } : State).kept = s.kept := rfl
theorem State.beginAdmission_kept (s : State) (k : OpKind) (o : Option Origin) (named : Nat) : (s.beginAdmission k o named).kept = s.kept := by
  unfold State.beginAdmission
  dsimp only
  split
  · simp only [State.refuse_kept, State.op_kept, apply_ite (fun x : State × Option Nat => x.1.kept), State.chooseTarget_kept, apply_ite State.kept,
      State.mig_kept, ite_self]
  · simp only [apply_ite State.kept, State.refuse_kept, State.setStage_kept, State.load_kept, State.opMig_kept,
      apply_ite (fun x : State × Option Nat => x.1.kept), State.chooseTarget_kept, ite_self]
theorem State.placeStaged_kept (s : State) (p z : Nat) (f : Option (Option Figures × Option NegFigures)) : (State.placeStaged s p z f).kept = s.kept := by
  grind [State.placeStaged, State.kept, State.setZoneSt_kept, State.updZone_kept]
theorem State.sendCopies_kept (s : State) (op : LongOp) : (State.sendCopies s op).kept = s.kept := by
  grind [State.sendCopies, State.kept, State.sendOwner_kept, State.setStage_kept]
theorem State.transferStart_kept (s : State) (op : LongOp) : (State.transferStart s op).kept = s.kept := by
  grind [State.transferStart, State.kept, State.sendCopies_kept, State.trigger_kept]
theorem State.transferEnd_kept (s : State) (op : LongOp) : (State.transferEnd s op).kept = s.kept := by
  grind [State.transferEnd, State.kept, State.foldl_kept, State.ownPoints_kept, State.rebound_kept, State.sendBoundary_kept, State.setStage_kept,
      State.updPair_kept, State.updZone_kept]
theorem State.faultSet_kept (s : State) (zs : List Nat) (p : Nat) : (State.faultSet s zs p).kept = s.kept := by
  grind [State.faultSet, State.kept, State.foldl_kept, State.faultZone_kept, State.setRec_kept]
theorem State.release_kept (s : State) (op : LongOp) (status : Nat) : (State.release s op status).kept = s.kept := by
  grind [State.release, State.kept, State.closeOp_kept, State.vacate_kept]
theorem State.startCopy_kept (s : State) (op : LongOp) : (State.startCopy s op).kept = s.kept := by
  grind [State.startCopy, State.kept, State.foldl_kept, State.rebound_kept, State.setStage_kept, State.transferEnd_kept, State.updZone_kept]
theorem State.startReadmit_kept (s : State) (op : LongOp) : (State.startReadmit s op).kept = s.kept := by
  grind [State.startReadmit, State.kept, State.foldl_kept, State.rebound_kept, State.restartRt_kept, State.sendCopies_kept, State.trigger_kept,
      State.updZone_kept]
theorem State.commitWait_kept (s : State) (z tgt : Nat) : (State.commitWait s z tgt).kept = s.kept := by
  grind [State.commitWait, State.kept, State.setStage_kept, State.updZone_kept]
theorem State.commitFail_kept (s : State) (status : Nat) : (State.commitFail s status).kept = s.kept := by
  grind [State.commitFail, State.kept, State.bootFail_kept, State.closeOp_kept, State.rebound_kept, State.updZone_kept]
theorem State.commitPoint_kept (s : State) (op : LongOp) (z : Nat) (rollback : Bool) (new : ZoneVer) : (State.commitPoint s op z rollback new).kept = s.kept := by
  grind [State.commitPoint, State.kept, State.foldl_kept, State.applyChan_kept, State.applyConn_kept, State.dropPts_kept, State.dropRetained_kept,
      State.ownPoints_kept, State.rebound_kept, State.restartRt_kept, State.sendOwner_kept, State.setStage_kept, State.setZoneSt_kept,
      State.trigger_kept, State.updZone_kept]
theorem State.commitDone_kept (s : State) (op : LongOp) (z : Nat) (boot : Bool) : (State.commitDone s op z boot).kept = s.kept := by
  grind [State.commitDone, State.kept, State.closeOp_kept, State.sendBoundary_kept, State.updPm_kept, State.updZone_kept]
theorem State.judge_kept (run ret : List ZoneVer) (reuse : Bool) (src p n : Nat) (s : State) :
    (State.judge run ret reuse src p n s).1.kept = s.kept := by
  induction n generalizing s with
  | zero => rfl
  | succ n ih =>
    unfold State.judge
    grind [State.releaseRetained_kept]
theorem State.placeAll_kept (s : State) (zs : List Nat) (p : Nat) (figs : Option (Option Figures × Option NegFigures)) :
    (zs.foldl (fun t z => t.placeStaged p z figs) s).kept = s.kept :=
  State.foldl_kept (fun _ _ => State.placeStaged_kept _ _ _ _) _ _
theorem State.endAdmit_kept (s : State) (op : LongOp) : (s.endAdmit op).kept = s.kept := by
  unfold State.endAdmit
  dsimp only
  split
  · rw [State.refuse_kept, State.laneFault_kept, State.laneFault_kept, State.foldBoth_kept, State.judge_kept]
  · split
    · rw [State.refuse_kept, State.judge_kept]
    · split
      all_goals try split
      all_goals simp only [State.closeOp_kept, State.rebound_kept, State.updPair_kept, State.placeAll_kept, State.opMap_kept,
        State.storeAdm_kept, State.judge_kept, State.startCopy_kept, State.startReadmit_kept, State.commitWait_kept, State.updZone_kept,
        State.completion_kept]
theorem State.coupledEnd_kept (s : State) (op : LongOp) (bad : Bool) : (State.coupledEnd s op bad).kept = s.kept := by
  grind [State.coupledEnd, State.kept, State.opAbort_kept, State.pairFault2_kept, State.stage_kept, State.transferEnd_kept, State.transferStart_kept,
      State.trigger_kept]
theorem State.opPass_kept (s : State) (p : Nat) (coupled mismatch : Bool) (va vb : List CopyView) : (State.opPass s p coupled mismatch va vb).kept = s.kept := by
  unfold State.opPass
  grind [State.kept, State.commitDone_kept, State.commitPoint_kept, State.coupledEnd_kept, State.setStage_kept, State.stage_kept,
      State.transferEnd_kept, State.trigger_kept]
theorem State.checkAdmit_kept (s : State) (op : LongOp) : (State.checkAdmit s op).kept = s.kept := by
  grind [State.checkAdmit, State.kept, State.refuse_kept]
theorem State.checkMove_kept (s : State) (op : LongOp) : (State.checkMove s op).kept = s.kept := by
  grind [State.checkMove, State.kept, State.opAbort_kept]
theorem State.checkTransfer_kept (s : State) (op : LongOp) : (State.checkTransfer s op).kept = s.kept := by
  grind [State.checkTransfer, State.kept, State.faultSet_kept, State.transferEnd_kept]
theorem State.checkCommit_kept (s : State) (op : LongOp) (z : Nat) (rb : Bool) : (State.checkCommit s op z rb).kept = s.kept := by
  grind [State.checkCommit, State.kept, State.commitFail_kept, State.trigger_kept]
theorem State.checkCommitted_kept (s : State) (op : LongOp) (z : Nat) (boot : Bool) : (State.checkCommitted s op z boot).kept = s.kept := by
  grind [State.checkCommitted, State.kept, State.commitDone_kept, State.faultSet_kept]
theorem State.abortVerify_kept (s : State) (boot : Bool) : (State.abortVerify s boot).kept = s.kept := by
  grind [State.abortVerify, State.kept, State.bootFail_kept, State.closeOp_kept]
theorem State.armDue_kept (s : State) : (State.armDue s).kept = s.kept := by
  grind [State.armDue, State.kept, State.checkCommit_kept, State.stage_kept]
theorem State.opCheck_kept (s : State) : (State.opCheck s).kept = s.kept := by
  grind [State.opCheck, State.kept, State.abortVerify_kept, State.checkAdmit_kept, State.checkCommit_kept, State.checkCommitted_kept,
      State.checkMove_kept, State.checkTransfer_kept, State.stage_kept]
theorem State.cancelOp_kept (s : State) (admitted : Nat) : (State.cancelOp s admitted).kept = s.kept := by
  grind [State.cancelOp, State.kept, State.abortVerify_kept, State.commitFail_kept, State.opAbort_kept, State.refuseAs_kept, State.release_kept,
      State.stage_kept]
theorem State.seeCond_kept (s : State) (c : TestCond) : (State.seeCond s c).kept = s.kept := rfl
theorem State.defer_kept (s : State) (c : TestCond) : (State.defer s c).kept = s.kept := by
  grind [State.defer, State.kept, State.postEvent_kept, State.seeCond_kept]
theorem State.applyRepairs_kept (s : State) (es : List BistEntry) : (State.applyRepairs s es).kept = s.kept := by
  grind [State.applyRepairs, State.kept, State.foldl_kept, State.updPair_kept]
theorem State.closeSlice_kept (s : State) (p last : Nat) (es : List BistEntry) : (State.closeSlice s p last es).kept = s.kept := by
  grind [State.closeSlice, State.kept, State.completeAsks_kept, State.updPair_kept]
theorem State.failEntries_kept (s : State) (p : Nat) (es : List BistEntry) : (State.failEntries s p es).2.kept = s.kept := by
  grind [State.failEntries, State.kept, State.draw_kept]
theorem State.failSlice_kept (s : State) (p : Nat) (es : List BistEntry) : (State.failSlice s p es).kept = s.kept := by
  grind [State.failSlice, State.kept, State.closeSlice_kept, State.dropRetainedOn_kept, State.failEntries_kept, State.updPair_kept]
theorem State.stopSlice_kept (s : State) (p : Nat) : (State.stopSlice s p).kept = s.kept := by
  grind [State.stopSlice, State.kept, State.updPair_kept]
theorem State.abortSlice_kept (s : State) (p : Nat) : (State.abortSlice s p).kept = s.kept := by
  grind [State.abortSlice, State.kept, State.bistAsk_kept, State.skipSlot_kept, State.stopSlice_kept]
theorem State.keepClaim_kept (s : State) (p : Nat) (prec : Option Nat) : (State.keepClaim s p prec).kept = s.kept := by
  unfold State.keepClaim
  grind [State.kept, State.bistAsk_kept]
theorem State.slotPair_kept (s : State) (p : Nat) (prec : Option Nat) (c : SlotCond) : (State.slotPair s p prec c).kept = s.kept := by
  grind [State.slotPair, State.kept, State.beginAdmission_kept, State.completeAsks_kept, State.defer_kept, State.keepClaim_kept, State.seeCond_kept,
      State.skipSlot_kept, State.startSlice_kept]
theorem State.runSlot_kept (s : State) (c : SlotCond) : (State.runSlot s c).kept = s.kept := by
  grind [State.runSlot, State.kept, State.defer_kept, State.seeCond_kept, State.slotPair_kept]
theorem State.emptiedSlice_kept (s : State) : (State.emptiedSlice s).kept = s.kept := by
  grind [State.emptiedSlice, State.kept, State.defer_kept, State.keepClaim_kept, State.seeCond_kept, State.startSlice_kept]
theorem State.slotProgress_kept (s : State) : (State.slotProgress s).kept = s.kept := by
  grind [State.slotProgress, State.kept, State.emptiedSlice_kept, State.failSlice_kept, State.runSlot_kept]
theorem State.fdTake_kept (s : State) (l : Lane) (c : FdCmd) : (State.fdTake s l c).kept = s.kept := by
  grind [State.fdTake, State.kept, State.updChan_kept, State.updFd]
theorem State.fdGlobal_kept (s : State) (code : BitVec 16) (detail : Nat) : (s.fdGlobal code detail).kept = s.kept := by
  unfold State.fdGlobal
  rw [State.raise_kept, State.holdChans_kept, State.latchAll_kept, State.latchAll_kept]
theorem State.endPulses_kept (s : State) : s.endPulses.kept = s.kept := State.updChans_kept s _ _
theorem State.fdAnnounce_kept (s : State) (l : Lane) : (State.fdAnnounce s l).kept = s.kept := by
  grind [State.fdAnnounce, State.kept, State.holdChans_kept, State.updChans_kept, State.updFd, State.updLane_kept]
theorem State.sbLost_kept (s : State) (l : Lane) : (State.sbLost s l).kept = s.kept := by
  grind [State.sbLost, State.kept, State.fdGlobal_kept, State.updFd]
theorem State.laneAnnounce_kept (s : State) (src : Lane) : (State.laneAnnounce s src).kept = s.kept := by
  grind [State.laneAnnounce, State.kept, State.updLane_kept]
theorem State.voidAnns_kept (s : State) : (State.voidAnns s).kept = s.kept := rfl
theorem State.askRestart_kept (s : State) (z : Nat) (os : List Origin) : (State.askRestart s z os).kept = s.kept := rfl
theorem State.startRestart_kept (s : State) (o : Origin) (z : Nat) : (State.startRestart s o z).kept = s.kept := by
  grind [State.startRestart, State.kept, State.askRestart_kept, State.complete_kept]
theorem State.finishRestart_kept (s : State) (z : Nat) : (State.finishRestart s z).kept = s.kept := by
  grind [State.finishRestart, State.kept, State.foldl_kept, State.complete_kept, State.updZone_kept]
theorem State.finishRestarts_kept (s : State) : (State.finishRestarts s).kept = s.kept := by
  grind [State.finishRestarts, State.kept, State.foldl_kept, State.finishRestart_kept]
theorem State.beginWithdraw_kept (s : State) (o : Origin) (z : Nat) : (State.beginWithdraw s o z).kept = s.kept := by
  grind [State.beginWithdraw, State.kept, State.complete_kept, State.discardStaged_kept, State.startWithdraw_kept]
theorem State.askBist_kept (s : State) (o : Origin) (item index : Byte) : (State.askBist s o item index).kept = s.kept :=
  (State.parked_kept _ _ _).trans rfl
theorem State.startCal_kept (s : State) (o : Origin) (index : Nat) : (State.startCal s o index).kept = s.kept := by
  grind [State.startCal, State.kept, State.complete_kept, State.holdChans_kept, State.updChan_kept]
theorem State.startBist_kept (s : State) (o : Origin) (item index : Byte) : (State.startBist s o item index).kept = s.kept := by
  grind [State.startBist, State.kept, State.askBist_kept, State.bistAsk_kept, State.complete_kept, State.startCal_kept]
theorem State.startVerify_kept (s : State) (o : Option Origin) (boot : Bool) : (State.startVerify s o boot).kept = s.kept := rfl
theorem State.startAdmit_kept (s : State) (o : Origin) (zones : BitVec 256) (pair : Byte) : (State.startAdmit s o zones pair).kept = s.kept := by
  grind [State.startAdmit, State.kept, State.beginAdmission_kept, State.complete_kept]
theorem State.startMigrate_kept (s : State) (o : Origin) (zones : BitVec 256) (src tgt : Byte) : (State.startMigrate s o zones src tgt).kept = s.kept := by
  grind [State.startMigrate, State.kept, State.abortSlice_kept, State.beginAdmission_kept, State.complete_kept]
theorem State.startCommit_kept (s : State) (o : Option Origin) (z : Nat) (accept : Word) (boot : Bool) : (State.startCommit s o z accept boot).kept = s.kept := by
  grind [State.startCommit, State.kept, State.bootFail_kept, State.commitWait_kept, State.completeOpt_kept, State.discardStaged_kept,
      State.opCheck_kept, State.updZone_kept]
theorem State.startRollback_kept (s : State) (o : Origin) (z : Nat) (accept : Word) : (State.startRollback s o z accept).kept = s.kept := by
  grind [State.startRollback, State.kept, State.beginAdmission_kept, State.complete_kept, State.updZone_kept]
theorem State.enterRun_kept (s : State) : s.enterRun.kept = s.kept := by
  unfold State.enterRun
  refine (State.foldl_kept (fun _ _ => State.kick_kept _ _) _ _).trans ((State.connsAtRun_kept _).trans ?_)
  refine (State.foldl_kept (fun t g => ?_) _ _).trans (State.updPm_kept s _)
  grind [State.grpLatch_kept]
theorem State.completeWaiting_kept (s : State) (cs : List Instr) :
    (cs.foldl (fun t i => match waitOrigin i with
      | some (o, c) => t.complete o c stAborted 0
      | none => t) s).kept = s.kept := by
  refine State.foldl_kept (fun t i => ?_) _ _
  grind [State.complete_kept]
theorem State.abortAll_kept (s : State) : s.abortAll.kept = s.kept := by
  unfold State.abortAll
  refine (State.foldl_kept (fun t e => ?_) _ _).trans ?_
  · dsimp only
    split
    · rw [State.completeAll_kept, State.completeAll_kept, State.updZone_kept]
    · rw [State.completeAll_kept, State.updZone_kept]
  · rw [State.abortMoves_kept]
    refine (State.completeAll_kept _ _ _ _ _ _).trans ((State.completeWaiting_kept _ _).trans ?_)
    exact State.cancelOp_kept s _
theorem State.startShutdown_kept (s : State) (o : Option Origin) (cut : Bool) : (s.startShutdown o cut).kept = s.kept := by
  unfold State.startShutdown
  rw [State.updPm_kept, State.abortAll_kept]
theorem State.withdrawAll_kept (s : State) (cut : Bool) : (State.withdrawAll s cut).kept = s.kept := by
  grind [State.withdrawAll, State.kept, State.foldl_kept, State.discardStaged_kept, State.startWithdraw_kept]
theorem State.shutProgress_kept (s : State) : (State.shutProgress s).kept = s.kept := by
  grind [State.shutProgress, State.kept, State.closeAllConns_kept, State.dropOthers_kept, State.updPm_kept, State.withdrawAll_kept]
theorem State.opHalted_kept (s : State) : (State.opHalted s).kept = s.kept := by
  grind [State.opHalted, State.kept, State.foldl_kept, State.closeOp_kept, State.complete_kept, State.updPm_kept]
theorem State.haltProgress_kept (s : State) : (State.haltProgress s).kept = s.kept := by
  grind [State.haltProgress, State.kept, State.laneFault_kept, State.opHalted_kept, State.sbLost_kept, State.withdrawAll_kept]
theorem State.takeUp_kept (s : State) (i : Instr) : (State.takeUp s i).kept = s.kept := by
  unfold State.takeUp
  grind [State.kept, State.beginWithdraw_kept, State.startAdmit_kept, State.startBist_kept, State.startCal_kept, State.startCommit_kept,
      State.startConnClose_kept, State.startConnOpen_kept, State.startMigrate_kept, State.startRestart_kept, State.startRollback_kept,
      State.startShutdown_kept, State.startVerify_kept]
theorem State.refuseWaiting_kept (s : State) (i : Instr) : (State.refuseWaiting s i).kept = s.kept := by
  grind [State.refuseWaiting, State.kept, State.complete_kept]
theorem State.await_kept (s : State) (i : Instr) (ws : List Instr) : (State.await s i ws).kept = s.kept := by
  grind [State.await, State.kept, State.parked_kept]
theorem State.submit_kept (s : State) (i : Instr) : (State.submit s i).kept = s.kept := by
  grind [State.submit, State.kept, State.await_kept, State.refuseWaiting_kept, State.takeUp_kept]
theorem State.endWithdraws_kept (s : State) : (State.endWithdraws s).kept = s.kept := by
  grind [State.endWithdraws, State.kept, State.foldl_kept, State.endWithdraw_kept]
theorem State.serve_kept (n : Nat) (s : State) : (State.serve n s).kept = s.kept := by
  induction n generalizing s with
  | zero => rfl
  | succ n ih =>
    unfold State.serve
    grind [State.kept, State.refuseWaiting_kept, State.takeUp_kept]
theorem State.settle_kept (s : State) : s.settle.kept = s.kept := by
  unfold State.settle
  simp only [State.serve_kept, State.haltProgress_kept, State.shutProgress_kept, State.slotProgress_kept, State.endWithdraws_kept,
    State.finishRestarts_kept, State.opCheck_kept]
theorem State.endVerify_kept (s : State) (boot : Bool) : (State.endVerify s boot).kept = s.kept := by
  grind [State.endVerify, State.kept, State.bootFail_kept, State.closeOp_kept, State.verifyImage_kept]
theorem State.bootNext_kept (s : State) : (State.bootNext s).kept = s.kept := by
  grind [State.bootNext, State.kept, State.beginAdmission_kept, State.bootFail_kept, State.enterRun_kept, State.startCommit_kept]
theorem State.stageDone_kept (s : State) (op : LongOp) : (State.stageDone s op).kept = s.kept := by
  grind [State.stageDone, State.kept, State.endAdmit_kept, State.endVerify_kept, State.release_kept, State.stage_kept, State.trigger_kept]
theorem State.foldStep_kept (s : State) (op : LongOp) : (State.foldStep s op).kept = s.kept := by
  grind [State.foldStep, State.kept, State.foldBoth_kept, State.stage_kept]
theorem State.countStep_kept (s : State) (op : LongOp) : (State.countStep s op).kept = s.kept := by
  grind [State.countStep, State.kept, State.foldStep_kept, State.progress_kept, State.stage_kept]
theorem State.countOthers_kept (s : State) : (State.countOthers s).kept = s.kept := by
  grind [State.countOthers, State.kept, State.foldl_kept, State.countTaken_kept]
theorem State.softRepair_kept (s : State) (es : List BistEntry) : (State.softRepair s es).kept = s.kept := by
  grind [State.softRepair, State.kept, State.applyRepairs_kept]
theorem State.passSlice_kept (s : State) (p : Nat) (again : Bool) : (State.passSlice s p again).kept = s.kept := by
  grind [State.passSlice, State.kept, State.closeSlice_kept, State.dropRetainedOn_kept, State.softRepair_kept, State.updPair_kept]
theorem State.resultsDiffer_kept (s : State) : (State.resultsDiffer s).kept = s.kept := by
  grind [State.resultsDiffer, State.kept, State.laneFault_kept]
theorem State.anaResult_kept (s : State) (item : AnaItem) (i : Nat) (pass : Bool) : (State.anaResult s item i pass).kept = s.kept := by
  unfold State.anaResult
  grind [State.kept, State.chanFault_kept, State.grpFault_kept, State.laneFault_kept, State.updGrp_kept, State.updPort_kept]
theorem State.runWindow_kept (s : State) (item : AnaItem) (i : Nat) (w : WindowRead) (passed : Found Bool) : (State.runWindow s item i w passed).kept = s.kept := by
  grind [State.runWindow, State.kept, State.anaResult_kept, State.completeAsks_kept, State.defer_kept, State.foldBoth_kept, State.resultsDiffer_kept,
      State.seeCond_kept, State.settle_kept]
theorem State.putOffAll_kept (s : State) (ds : List (Fin 64 × Lane × Nat)) : (State.putOffAll s ds).kept = s.kept := by
  grind [State.putOffAll, State.kept, State.foldl_kept, State.putOff_kept]
theorem State.mapOtp_kept (s : State) (f : Nat → OtpWord → OtpWord) : (s.mapOtp f).kept = s.kept := by
  simp only [State.mapOtp, State.kept]
theorem State.otp_kept (s : State) (q : Otp) : ({ s with otp := q } : State).kept = s.kept := rfl
theorem State.loadShadows_kept (s : State) (excs : List OtpExc) (locks : List LockRead) : (s.loadShadows excs locks).kept = s.kept := by
  unfold State.loadShadows
  exact (State.otp_kept _ _).trans ((State.otp_kept _ _).trans (State.mapOtp_kept _ _))
theorem State.dropOverrides_kept (s : State) : s.dropOverrides.kept = s.kept := State.mapOtp_kept _ _
theorem State.driftWord_kept (s : State) (w : Nat) : (State.driftWord s w).kept = s.kept := by
  grind [State.driftWord, State.kept, State.postEvent_kept, State.updOtp_kept]
theorem State.driveOut_kept (s : State) (t : Target) (category delay : Nat) (was on demand withdraw cut : Bool) : (State.driveOut s t category delay was on demand withdraw cut).kept = s.kept := by
  unfold State.driveOut
  grind [State.kept, State.commandLane_kept, State.owe_kept]
theorem State.applyZone_kept (s : State) (z : Nat) (v : ZoneVer) (rts : List BlockRt) : (State.applyZone s z v rts).kept = s.kept := by
  grind [State.applyZone, State.kept, State.foldl_kept, State.diagEvents_kept, State.driveOut_kept, State.lateEvents_kept, State.setZoneSt_kept,
      State.updZone_kept]
theorem State.asCopy_kept (s : State) (c : Copy) : (State.asCopy s c).kept = s.kept := rfl
theorem State.rearm_kept (s : State) (z : Nat) : (State.rearm s z).kept = s.kept := by
  grind [State.rearm, State.kept, State.foldl_kept, State.complete_kept, State.setZoneSt_kept, State.updZone_kept]
theorem State.passFault_kept (s : State) (p num : Nat) (x : Cause) : (State.passFault s p num x).kept = s.kept := by
  grind [State.passFault, State.kept, State.latchBit_kept, State.raise_kept]
theorem State.badCode_kept (s : State) : (State.badCode s).2.kept = s.kept := rfl
theorem State.haltNow_kept (s : State) (p : Nat) : (State.haltNow s p).kept = s.kept := by
  grind [State.haltNow, State.kept, State.dropPairPts_kept, State.raise_kept, State.updPair_kept]
theorem State.passGood_kept (s : State) (p : Nat) (r : Running) (info : PassInfo) (res : List (Nat × ZoneVer × List BlockRt)) :
    (s.passGood p r info res).kept = s.kept := by
  have hzones : ∀ (t : State) (xs : List (Nat × ZoneVer × List BlockRt)),
      (xs.foldl (fun t e => t.applyZone e.1 e.2.1 e.2.2) t).kept = t.kept :=
    fun t xs => State.foldl_kept (fun _ _ => State.applyZone_kept _ _ _ _) xs t
  have hback : ∀ (t : State) (zs : List Nat), (zs.foldl State.rearm t).kept = t.kept :=
    fun t zs => State.foldl_kept State.rearm_kept zs t
  have htrans : ∀ (t : State) (x : Trans), ({ t with trans := t.trans ++ [x] } : State).kept = t.kept := fun _ _ => rfl
  unfold State.passGood
  dsimp only
  simp only [apply_ite State.kept, State.haltNow_kept, State.opPass_kept, State.updCopies_kept, hback, htrans, hzones, State.updPair_kept,
    ite_self]
theorem State.slicePass_kept (s : State) (p : Nat) (info : PassInfo) : (State.slicePass s p info).kept = s.kept := by
  grind [State.slicePass, State.kept, State.foldl_kept, State.raise_kept, State.settle_kept, State.updPair_kept]
theorem State.seeOff_kept (s : State) (num : Word) (pts : List (Nat × Pt)) (cmdOff : List Nat) : (State.seeOff s num pts cmdOff).kept = s.kept := by
  grind [State.seeOff, State.kept, State.foldl_kept, State.stage_kept, State.updZone_kept]
theorem State.applyTrans_kept (s : State) (t : Trans) : (State.applyTrans s t).kept = s.kept := by
  grind [State.applyTrans, State.kept, State.foldl_kept, State.nameFrame_kept, State.putPt_kept, State.seeOff_kept]
theorem State.startPass_kept (s : State) (p : Nat) (coupled : Bool) : (State.startPass s p coupled).kept = s.kept := by
  grind [State.startPass, State.kept, State.foldl_kept, State.updCopies_kept, State.updPair_kept, State.updZone_kept]
theorem State.startPasses_kept (s : State) : (State.startPasses s).kept = s.kept := by
  grind [State.startPasses, State.kept, State.foldl_kept, State.startPass_kept]
theorem State.triggerReaders_kept (s : State) : s.triggerReaders.kept = s.kept := by
  refine State.foldl_kept (fun t p => ?_) _ _
  grind [State.trigger_kept]
theorem State.takeSheet_kept (s : State) : (State.takeSheet s).kept = s.kept := by
  grind [State.takeSheet, State.kept, State.updTaken_kept]
theorem State.dbRefuse_kept (s : State) : (State.dbRefuse s).kept = s.kept := rfl
theorem State.haltPair_kept (s : State) (p : Nat) : (State.haltPair s p).kept = s.kept := by
  grind [State.haltPair, State.kept, State.dbRefuse_kept, State.haltNow_kept, State.skipSlot_kept, State.stopSlice_kept, State.updPair_kept]
theorem State.resumePair_kept (s : State) : (State.resumePair s).kept = s.kept := by
  grind [State.resumePair, State.kept, State.dbRefuse_kept, State.updPair_kept, State.vacate_kept]
theorem State.stepZone_kept (s : State) (z : Nat) (v : ZoneVer) (ra rb : List BlockRt) : (State.stepZone s z v ra rb).kept = s.kept := by
  grind [State.stepZone, State.kept, State.storeRt_kept, State.updZone_kept]
theorem State.stepPair_kept (s : State) (info : PassInfo) : (State.stepPair s info).kept = s.kept := by
  grind [State.stepPair, State.kept, State.foldl_kept, State.badCode_kept, State.dbRefuse_kept, State.passFault_kept, State.passGood_kept,
      State.startPass_kept, State.stepZone_kept, State.updPair_kept]
theorem State.dbCtrl_kept (s : State) (src : Nat) (value : Word) (info : PassInfo) : (State.dbCtrl s src value info).kept = s.kept := by
  grind [State.dbCtrl, State.kept, State.haltPair_kept, State.resumePair_kept, State.stepPair_kept, State.wrej_kept]
theorem State.dbAccess_kept (s : State) (src : Nat) (value : Word) : (State.dbAccess s src value).kept = s.kept := by
  grind [State.dbAccess, State.kept, State.dbRefuse_kept, State.readTile_kept, State.wrej_kept, State.writeTile_kept]
theorem State.startClear_kept (s : State) (code : BitVec 16) (loc : BitVec 12) (ack : Bool) : (State.startClear s code loc ack).kept = s.kept := rfl
theorem State.clearRefused_kept (s : State) (code : BitVec 16) (res : Nat) : (State.clearRefused s code res).kept = s.kept := rfl
theorem State.clearWrite_kept (s : State) (src : Nat) (keyA keyB : Word) : (State.clearWrite s src keyA keyB).kept = s.kept := by
  grind [State.clearWrite, State.kept, State.clearRefused_kept, State.startClear_kept, State.wrej_kept]
theorem State.releaseField_kept (s : State) (code : BitVec 16) (loc : BitVec 12) : (State.releaseField s code loc).kept = s.kept := by
  grind [State.releaseField, State.kept, State.holdChans_kept, State.updChans_kept, State.updFd, State.updGrp_kept]
theorem State.recCleared_kept (s : State) (r : FaultRec) : (State.recCleared s r).kept = s.kept := by
  grind [State.recCleared, State.kept, State.releaseField_kept, State.setConn_kept]
theorem State.loopbacks_kept (s : State) (ks : List Nat) (fdPass : List (BitVec 16 × BitVec 12)) : (State.loopbacks s ks fdPass).kept = s.kept := by
  grind [State.loopbacks, State.kept, State.foldl_kept]
theorem State.endClear_kept (s : State) (c : Clear) (fdPass : List (BitVec 16 × BitVec 12)) : (s.endClear c fdPass).kept = s.kept := by
  unfold State.endClear
  refine (State.foldl_kept (fun t e => ?_) _ _).trans (State.loopbacks_kept s _ _)
  split
  · split
    · rw [State.postEvent_kept, State.recCleared_kept, State.setRec_kept]
    · rfl
  · rfl
theorem State.ackRestart_kept (s : State) : (State.ackRestart s).kept = s.kept := by
  grind [State.ackRestart, State.kept, State.foldl_kept, State.askRestart_kept]
theorem State.dbErr_kept (s : State) : (State.dbErr s).kept = s.kept := rfl
theorem State.writeSqTail_kept (s : State) (r : Nat) (value : Word) : (State.writeSqTail s r value).kept = s.kept := by
  unfold State.writeSqTail
  dsimp only
  split
  · split
    · exact s.dbErr_kept
    · exact State.updRing_kept rfl
  · exact s.dbErr_kept
theorem State.writeCqHead_kept (s : State) (r : Nat) (value : Word) : (State.writeCqHead s r value).kept = s.kept := by
  unfold State.writeCqHead
  dsimp only
  split
  · exact s.dbErr_kept
  · next i _ =>
    split
    · exact s.dbErr_kept
    · have hset : ∀ xs, (s.updRing r fun _ => ((({ s.ring r with cqHead := i } : Ring).flush s.stamp xs).drained)).kept = s.kept := fun xs =>
        State.updRing_kept ((Ring.drained_marks _).trans (Ring.flush_marks _ _ xs))
      split
      · exact hset _
      · exact (State.dueVector_kept _ _).trans (hset _)
theorem State.writeEvHead_kept (s : State) (e : Nat) (value : Word) : (State.writeEvHead s e value).kept = s.kept := by
  grind [State.writeEvHead, State.kept, State.dbErr_kept, State.postLost_kept, State.updEvRing_kept]
theorem State.pastEntry_kept (s : State) (r : Nat) : (State.pastEntry s r).kept = s.kept := State.updRing_kept rfl
theorem State.refuseEntry_kept (s : State) (r : Nat) (cid : BitVec 16) (op : Byte) (st : Nat) : (State.refuseEntry s r cid op st).kept = s.kept := by
  grind [State.refuseEntry, State.kept, State.pastEntry_kept, State.postCq_kept]
theorem State.takeEntry_kept (s : State) (r : Nat) (e : Entry) : (State.takeEntry s r e).kept = s.kept := by
  have houts : ((s.pastEntry r).updRing r fun q => { q with
      outs := q.outs ++ [{ cid := e.cid, opcode := e.opcode, entry := some e, ord := s.hi.accepted }] }).kept = s.kept :=
    (State.updRing_outs_kept _ r fun outs => outs ++ [_]).trans (s.pastEntry_kept r)
  exact (show State.kept _ = State.kept _ from rfl).trans houts
theorem State.acceptEntry_kept (s : State) (r : Nat) (e : Entry) : (State.acceptEntry s r e).kept = s.kept := by
  grind [State.acceptEntry, State.kept, State.refuseEntry_kept, State.takeEntry_kept]
theorem State.abortRing_kept (s : State) (r : Nat) : (s.abortRing r).kept = s.kept := by
  unfold State.abortRing
  refine (State.foldl_kept (fun t e => ?_) _ _).trans ?_
  · rw [State.completeAll_kept, State.completeAll_kept, State.updZone_kept]
  · have hshut : ∀ t : State, (match t.pm.shutO with
        | some o => if ofRing r o then (t.updPm fun p => { p with shutO := none }).complete o 0x51 stAborted 0 else t
        | none => t).kept = t.kept := fun t => by grind [State.complete_kept, State.updPm_kept]
    have hop : (match s.op with
        | some op => if (op.o.map (ofRing r)).getD false then s.cancelOp stRefused else s
        | none => s).kept = s.kept := by grind [State.cancelOp_kept]
    refine (hshut _).trans ?_
    refine (State.completeAll_kept _ _ _ _ _ _).trans ?_
    exact (State.completeWaiting_kept _ _).trans hop
theorem State.abortTaken_kept (s : State) (r : Nat) : (State.abortTaken s r).kept = s.kept := by
  unfold State.abortTaken
  refine (State.updRing_kept (Ring.drained_marks _)).trans ?_
  refine (State.foldl_kept (fun t x => t.completion_kept _ _ _ _ _ _) _ _).trans ?_
  exact State.updRing_kept rfl
/-- A ring disable, of one that is enabled. -/
theorem State.ringDisable_kept (s : State) (r : Nat) : (State.ringDisable s r).kept =
    if (s.ring r).st = .enabled then (s.updRing r fun q => { q with st := .draining }).kept else s.kept := by
  unfold State.ringDisable
  split
  · exact (State.abortTaken_kept _ r).trans (State.abortRing_kept _ r)
  · rfl
theorem State.ringDisable_settings (s : State) (r : Nat) : (State.ringDisable s r).settings = s.settings := by
  have h := s.ringDisable_kept r
  split at h
  · exact (State.settings_of_kept h).trans (s.updRing_settings r _)
  · exact State.settings_of_kept h
theorem State.ringFail_settings (s : State) (r : Nat) : (State.ringFail s r).settings = s.settings := by
  unfold State.ringFail
  exact (show State.settings _ = State.settings _ from rfl).trans ((State.settings_of_kept (State.abortRing_kept _ r)).trans
    (s.updRing_settings r _))
theorem State.ringCfg_settings (s : State) (src r : Nat) (value : Word) : (State.ringCfg s src r value).settings = s.settings := by
  have hrej : ∀ t : State, (t.wrej 3 src (0x1110 + 0x40 * r)).settings = t.settings := fun _ => rfl
  unfold State.ringCfg
  dsimp only
  split
  · split
    · exact hrej s
    · exact s.updRing_settings r _
  · have hoff : (if bit value 31 = true then s else s.ringDisable r).settings = s.settings := by
      split
      · rfl
      · exact s.ringDisable_settings r
    split
    · exact (hrej _).trans hoff
    · exact hoff
  · split
    · exact hrej s
    · rfl
theorem State.evCfg_kept (s : State) (src e : Nat) (value : Word) : (State.evCfg s src e value).kept = s.kept := by
  grind [State.evCfg, State.kept, State.postLost_kept, State.updEvRing_kept, State.wrej_kept]
theorem State.safeSeq_settings (s : State) (src r : Nat) (value copyB : Word) : (State.safeSeq s src r value copyB).settings = s.settings := by
  unfold State.safeSeq
  split
  · exact s.updRing_settings r _
  · rfl
theorem State.msixWrite_kept (s : State) (i : Nat) (value : Word) : (s.msixWrite i value).kept = s.kept := by
  unfold State.msixWrite
  grind [State.kept, Hi.dueVector_selected]
theorem State.setPort_kept (s : State) (p : Nat) (st : PortSt) : (State.setPort s p st).kept = s.kept := by
  grind [State.setPort, State.kept, State.kick_kept, State.postEvent_kept, State.updPort_kept]
theorem State.discardRx_kept (s : State) (p reason : Nat) : (State.discardRx s p reason).2.kept = s.kept := by
  grind [State.discardRx, State.kept, State.draw_kept, State.updPort_kept]
theorem State.portStale_kept (s : State) (p : Nat) : (State.portStale s p).kept = s.kept := by
  grind [State.portStale, State.kept, State.foldl_kept, State.stale_kept]
theorem State.hand_kept (s : State) (k : Nat) (f : Frame) : (State.hand s k f).kept = s.kept := rfl
theorem State.pulseActs_kept (s : State) (lowNs : Nat) : (State.pulseActs s lowNs).2.kept = s.kept := by
  grind [State.pulseActs, State.kept, State.draw_kept]
theorem State.skewLanes_kept (s : State) : (State.skewLanes s).kept = s.kept := rfl
theorem State.chooseStart_kept (s : State) (crcOk : Bool) : (State.chooseStart s crcOk).kept = s.kept := by
  grind [State.chooseStart, State.kept]
theorem State.bootFailOpen_kept (s : State) (err : Nat) : (State.bootFailOpen s err).kept = s.kept := by
  grind [State.bootFailOpen, State.kept, State.bootFail_kept, State.draw_kept]
theorem State.readSfdp_kept (s : State) (flash : FlashInfo) : (State.readSfdp s flash).kept = s.kept := by
  grind [State.readSfdp, State.kept, State.bootFailOpen_kept, State.updPm_kept]
theorem State.startRoles_kept (s : State) (bad : Nat → Bool) (rows : List BistEntry) (mask : BitVec 36) : (s.startRoles bad rows mask).kept = s.kept :=
  State.foldl_kept (fun _ _ => State.updPair_kept _ _ _) _ _
theorem State.loopFail_kept (s : State) (n : Nat) : (s.loopFail n).kept = s.kept := s.chanFault_kept n _ _
theorem State.startAnalogue_kept (s : State) (res : StartResult) (quick : Bool) : (s.startAnalogue res quick).kept = s.kept := by
  have hbist : ∀ (t : State) (b : Bist), ({ t with bist := b } : State).kept = t.kept := fun _ _ => rfl
  unfold State.startAnalogue
  dsimp only
  simp only [apply_ite State.kept, State.laneFault_kept, hbist, ite_self]
  refine (State.foldl_kept (fun t e => ?_) _ _).trans ((State.foldl_kept (fun t n => t.updPort_kept n _) _ _).trans
    ((State.foldl_kept State.loopFail_kept _ _).trans rfl))
  grind [State.anaResult_kept]
theorem State.goDormant_kept (s : State) : (State.goDormant s).kept = s.kept := by
  grind [State.goDormant, State.kept, State.foldl_kept, State.closeAllConns_kept, State.dropOthers_kept, State.updConn_kept]
theorem State.dormantWrite_kept (s : State) (src : Nat) : (State.dormantWrite s src).kept = s.kept := by
  grind [State.dormantWrite, State.kept, State.goDormant_kept, State.wrej_kept]
theorem State.dropAnns_kept (s : State) : (State.dropAnns s).kept = s.kept := rfl
theorem State.wake_kept (s : State) : (State.wake s).kept = s.kept := by
  grind [State.wake, State.kept, State.dropAnns_kept, State.settle_kept]
theorem State.writeRecord_kept (s : State) (cond : TestCond) (tjMax : Byte) (es : List BistEntry) (chOk : BitVec 64) :
    (s.writeRecord cond tjMax es chOk).kept = s.kept := by
  simp only [State.writeRecord, State.kept]
theorem State.goOff_kept (s : State) : s.goOff.kept = s.kept := by
  unfold State.goOff
  refine (State.foldl_kept (fun _ _ => (State.setPort_kept _ _ _).trans (State.updPort_kept _ _ _)) _ _).trans ?_
  exact (State.updChans_kept _ _ _).trans (State.updPm_kept _ _)
theorem State.leaveBench_kept (s : State) : (State.leaveBench s).kept = s.kept := by
  grind [State.leaveBench, State.kept, State.dropOverrides_kept, State.holdChans_kept, State.updPm_kept]
theorem State.gtCaptureAt_kept (s : State) (k : Nat) : (State.gtCaptureAt s k).kept = s.kept := by
  grind [State.gtCaptureAt, State.kept, State.postEvent_kept, State.updGt_kept]
theorem State.gtFire_kept (s : State) (k : Nat) : (State.gtFire s k).kept = s.kept := by
  grind [State.gtFire, State.kept, State.foldl_kept, State.gtCaptureAt_kept, State.postEvent_kept, State.updGt_kept]
theorem State.gtCountTo_kept (s : State) (k : Nat) (c : Word) : (State.gtCountTo s k c).kept = s.kept := rfl
theorem State.gtSetCount_kept (s : State) (k : Nat) (c : Word) : (State.gtSetCount s k c).kept = s.kept := by
  grind [State.gtSetCount, State.kept, State.gtCountTo_kept, State.gtFire_kept]
theorem State.stgCountTo_kept (s : State) (c : Word) : (State.stgCountTo s c).kept = s.kept := by
  grind [State.stgCountTo, State.kept, State.foldl_kept, State.updGt_kept]
theorem State.fireRisen_kept (s t : State) : (s.fireRisen t).kept = t.kept :=
  State.foldl_kept (fun _ _ => State.gtFire_kept _ _) _ _
theorem State.stgSetCount_kept (s : State) (c : Word) : (State.stgSetCount s c).kept = s.kept := by
  grind [State.stgSetCount, State.kept, State.fireRisen_kept, State.stgCountTo_kept]
theorem State.gtTick_kept (s : State) (k : Nat) : (State.gtTick s k).kept = s.kept := by
  grind [State.gtTick, State.kept, State.gtCountTo_kept, State.updGt_kept]
theorem State.tbLoRead_kept (s : State) (which : Timebase) : (State.tbLoRead s which).kept = s.kept := by
  unfold State.tbLoRead
  grind [State.kept]
theorem State.gtCapRead_kept (s : State) (k : Nat) : (State.gtCapRead s k).kept = s.kept := rfl
theorem State.gtWriteCmp_kept (s : State) (k : Nat) (value : Word) (tickAtLoad : Bool) : (State.gtWriteCmp s k value tickAtLoad).kept = s.kept := by
  grind [State.gtWriteCmp, State.kept, State.gtFire_kept, State.updGt_kept]
theorem State.gtWriteCfg_kept (s : State) (k : Nat) (v : Word) : (State.gtWriteCfg s k v).kept = s.kept := rfl
theorem State.measure_kept (s : State) (off : Nat) : (s.measure off).kept = s.kept := by
  unfold State.measure State.draw
  dsimp only
  repeat' split
  all_goals rfl
theorem State.clearPt_kept (s : State) (off : Nat) : (s.clearPt off).kept = s.kept := by
  unfold State.clearPt
  repeat' split
  all_goals rfl
theorem State.clearEp_kept (s : State) (off : Nat) : (s.clearEp off).kept = s.kept := by
  unfold State.clearEp
  repeat' split
  all_goals rfl
theorem State.clearFd_kept (s : State) (off : Nat) : (s.clearFd off).kept = s.kept := by
  unfold State.clearFd
  repeat' split
  all_goals rfl
theorem State.clearHub_kept (s : State) (off : Nat) : (State.clearHub s off).kept = s.kept := by
  unfold State.clearHub
  grind [State.kept, State.updEvRing_kept, State.updFd, State.updGt_kept]
theorem State.clearRead_kept (s : State) (off : Nat) : (State.clearRead s off).kept = s.kept := by
  grind [State.clearRead, State.kept, State.clearEp_kept, State.clearFd_kept, State.clearHub_kept, State.clearPt_kept]
theorem State.readReg_kept (s : State) (off : Nat) : (State.readReg s off).kept = s.kept := by
  unfold State.readReg
  grind [State.kept, State.clearRead_kept, State.gtCapRead_kept, State.measure_kept, State.tbLoRead_kept]
theorem State.writeMode_kept (s : State) (src : Nat) (v : Word) : (State.writeMode s src v).kept = s.kept := by
  grind [State.writeMode, State.kept, State.dormantWrite_kept, State.leaveBench_kept, State.wake_kept, State.wrej_kept]
theorem State.writePm_kept (s : State) (src off : Nat) (v : Word) : (State.writePm s src off v).kept = s.kept := by
  unfold State.writePm
  grind [State.kept, State.updPm_kept, State.writeMode_kept]
theorem State.writeDb_kept (s : State) (src off : Nat) (v : Word) : (State.writeDb s src off v).kept = s.kept := by
  unfold State.writeDb
  grind [State.kept, State.dbAccess_kept, State.dbCtrl_kept, State.settle_kept]
theorem State.setOut_kept (s : State) (n : Nat) (v : Word) : (State.setOut s n v).kept = s.kept := by
  grind [State.setOut, State.kept, State.newUnits_kept, State.updChan_kept, State.updChans_kept]
theorem State.driveTile_kept (s : State) (l : Lane) (x : TileSection) (rts : List BlockRt) : (State.driveTile s l x rts).kept = s.kept := by
  grind [State.driveTile, State.kept, State.foldl_kept, State.pushFd_kept]
end Sys2Proof.Machine
end


section
/-!
# Proofs: commands that write no setting

Each of them answers a state with the queue and the settings of the one it ran on.
-/
namespace Sys2Proof.Machine
open Sys2Proof

/-- What is kept of the state that a command answers. -/
def keptOf : Host.Outcome State Fault Refusal → Option (List Instr × Byte × (BitVec 10 × BitVec 10) × (Byte × BitVec 10) × BitVec 16 × Word × Word × Word × (Nat → Bool × Word × Word))
  | .next t => some t.kept
  | .fault _ => none
  | .refused _ => none
theorem keptOf_ok (t : State) : keptOf (ok t) = some t.kept := rfl
theorem keptOf_next (t : State) : keptOf (.next t) = some t.kept := rfl
theorem execSample_kept (s : State) : keptOf (execSample s) = some s.kept := by
  grind [execSample, keptOf_ok, State.kept, State.sendSample_kept]
theorem execPeriodicSample_kept (s : State) : keptOf (execPeriodicSample s) = some s.kept := by
  grind [execPeriodicSample, keptOf_ok, State.kept, State.sendSample_kept]
theorem execInputDebounce_kept (ch : Fin 64) (r : InputRead) (s : State) : keptOf (execInputDebounce ch r s) = some s.kept := by
  grind [execInputDebounce, keptOf_ok, State.kept, State.updChan_kept]
theorem execInputRestore_kept (ch : Fin 64) (s : State) : keptOf (execInputRestore ch s) = some s.kept := by
  grind [execInputRestore, keptOf_ok, State.kept, State.updChan_kept]
theorem execWireBreak_kept (ch : Fin 64) (r : WireRead) (s : State) : keptOf (execWireBreak ch r s) = some s.kept := by
  grind [execWireBreak, keptOf_ok, State.kept, State.postEvent_kept, State.updChan_kept]
theorem execInputOv_kept (ch : Fin 64) (mv : Nat) (s : State) : keptOf (execInputOv ch mv s) = some s.kept := by
  grind [execInputOv, keptOf_ok, State.kept, State.updChan_kept]
theorem execChannelModeWrite_kept (ch : Fin 64) (value : Word) (s : State) : keptOf (execChannelModeWrite ch value s) = some s.kept := by
  grind [execChannelModeWrite, keptOf_ok, State.kept, State.judgeWl_kept, State.setMode_kept, State.wrej_kept]
theorem execCaptureCount_kept (c : Fin 16) (r : CaptureReads) (s : State) : keptOf (execCaptureCount c r s) = some s.kept := by
  unfold execCaptureCount
  grind [keptOf_ok, State.kept, State.foldl_kept, State.updCap_kept, State.updChan_kept]
theorem execCaptureConfig_kept (c : Fin 16) (value : Word) (s : State) : keptOf (execCaptureConfig c value s) = some s.kept := by
  grind [execCaptureConfig, keptOf_ok, State.kept, State.judgeWl_kept, State.updCap_kept, State.wrej_kept]
theorem execGstopOpen_kept (r : GstopRead) (s : State) : keptOf (execGstopOpen r s) = some s.kept := by
  grind [execGstopOpen, keptOf_ok, State.kept, State.readGstop_kept]
theorem execGstopClosed_kept (r : GstopRead) (s : State) : keptOf (execGstopClosed r s) = some s.kept := by
  grind [execGstopClosed, keptOf_ok, State.kept, State.readGstop_kept]
theorem execGstopRelease_kept (s : State) : keptOf (execGstopRelease s) = some s.kept := by
  grind [execGstopRelease, keptOf_ok, State.kept, State.gstopWait_kept, State.updFd]
theorem execGstopDisc_kept (s : State) : keptOf (execGstopDisc s) = some s.kept := by
  grind [execGstopDisc, keptOf_ok, State.kept, State.holdChans_kept, State.raise_kept, State.updFd]
theorem execChannelFaultReport_kept (ch : Fin 64) (code : BitVec 16) (s : State) : keptOf (execChannelFaultReport ch code s) = some s.kept := by
  grind [execChannelFaultReport, keptOf_ok, State.kept, State.laneReport_kept, State.updFd]
theorem execTestPulseStart_kept (ch : Fin 64) (lane : Lane) (period : Nat) (s : State) : keptOf (execTestPulseStart ch lane period s) = some s.kept := by
  grind [execTestPulseStart, keptOf_ok, State.kept, State.putOff_kept, State.startPulse_kept]
theorem execFeedbackDebounce_kept (ch : Fin 64) (level : Bool) (s : State) : keptOf (execFeedbackDebounce ch level s) = some s.kept := by
  grind [execFeedbackDebounce, keptOf_ok, State.kept, State.updChan_kept]
theorem execOffCheck_kept (ch : Fin 64) (termHigh : Bool) (s : State) : keptOf (execOffCheck ch termHigh s) = some s.kept := by
  grind [execOffCheck, keptOf_ok, State.kept, State.faultTerm_kept, State.updChan_kept]
theorem execMidNodeCheck_kept (ch : Fin 64) (r : MidRead) (s : State) : keptOf (execMidNodeCheck ch r s) = some s.kept := by
  grind [execMidNodeCheck, keptOf_ok, State.kept, State.faultSwA_kept, State.updChan_kept]
theorem execOnCheck_kept (ch : Fin 64) (atOn inLimit : Bool) (s : State) : keptOf (execOnCheck ch atOn inLimit s) = some s.kept := by
  grind [execOnCheck, keptOf_ok, State.kept, State.chanFault_kept]
theorem execOpenLoadTest_kept (ch : Fin 64) (above4V : Bool) (s : State) : keptOf (execOpenLoadTest ch above4V s) = some s.kept := by
  grind [execOpenLoadTest, keptOf_ok, State.kept, State.chanFault_kept, State.updChan_kept]
theorem execOpenLoad_kept (ch : Fin 64) (s : State) : keptOf (execOpenLoad ch s) = some s.kept := by
  grind [execOpenLoad, keptOf_ok, State.kept, State.chanFault_kept]
theorem execOverload_kept (ch : Fin 64) (s : State) : keptOf (execOverload ch s) = some s.kept := by
  grind [execOverload, keptOf_ok, State.kept, State.chanFault_kept]
theorem execThermal_kept (ch : Fin 64) (s : State) : keptOf (execThermal ch s) = some s.kept := by
  grind [execThermal, keptOf_ok, State.kept, State.chanFault_kept]
theorem execShareFault_kept (ch : Fin 64) (s : State) : keptOf (execShareFault ch s) = some s.kept := by
  grind [execShareFault, keptOf_ok, State.kept, State.chanFault_kept]
theorem execCrossShort_kept (x y : Fin 64) (s : State) : keptOf (execCrossShort x y s) = some s.kept := by
  grind [execCrossShort, keptOf_ok, State.kept, State.holdChans_kept, State.laneReport_kept, State.reclassify_kept, State.updChans_kept, State.updFd]
theorem execRecordGone_kept (k : Fin 64) (s : State) : keptOf (execRecordGone k s) = some s.kept := by
  grind [execRecordGone, keptOf_ok, State.kept, State.reportRec_kept, State.setRec_kept, State.updChan_kept, State.updGrp_kept]
theorem execUvWarn_kept (g : Fin 4) (vfs : BitVec 16) (s : State) : keptOf (execUvWarn g vfs s) = some s.kept := by
  grind [execUvWarn, keptOf_ok, State.kept, State.postEvent_kept, State.updGrp_kept]
theorem execUvIn_kept (g : Fin 4) (vfs : BitVec 16) (s : State) : keptOf (execUvIn g vfs s) = some s.kept := by
  grind [execUvIn, keptOf_ok, State.kept, State.updChans_kept, State.updGrp_kept]
theorem execUvOff_kept (g : Fin 4) (vfs : BitVec 16) (s : State) : keptOf (execUvOff g vfs s) = some s.kept := by
  grind [execUvOff, keptOf_ok, State.kept, State.grpFault_kept, State.updGrp_kept]
theorem execGroupOv_kept (g : Fin 4) (vfs : BitVec 16) (s : State) : keptOf (execGroupOv g vfs s) = some s.kept := by
  grind [execGroupOv, keptOf_ok, State.kept, State.grpFault_kept, State.grpLatch_kept, State.updGrp_kept]
theorem execGroupLatchEnd_kept (g : Fin 4) (s : State) : keptOf (execGroupLatchEnd g s) = some s.kept := by
  grind [execGroupLatchEnd, keptOf_ok, State.kept, State.holdChans_kept, State.recGone_kept, State.updGrp_kept]
theorem execNsCmd_kept (ch : Fin 64) (value : Word) (s : State) : keptOf (execNsCmd ch value s) = some s.kept := by
  grind [execNsCmd, keptOf_ok, State.kept, State.nsCmd_kept]
theorem execNsSilent_kept (ch : Fin 64) (s : State) : keptOf (execNsSilent ch s) = some s.kept := by
  grind [execNsSilent, keptOf_ok, State.kept, State.postEvent_kept, State.updChan_kept]
theorem execDataFrame_kept (lane : Lane) (slot : Fin 2048) (f : Frame) (s : State) : keptOf (execDataFrame lane slot f s) = some s.kept := by
  grind [execDataFrame, keptOf_ok, State.kept, State.report_kept, State.rxFail_kept, State.rxTake_kept, State.updConn_kept]
theorem execOpenFrame_kept (slot : Fin 2048) (f : Frame) (s : State) : keptOf (execOpenFrame slot f s) = some s.kept := by
  grind [execOpenFrame, keptOf_ok, State.kept, State.listen_kept, State.takeOpening_kept]
theorem execOpenAck_kept (slot : Fin 2048) (f : Frame) (rtt : Nat) (s : State) : keptOf (execOpenAck slot f rtt s) = some s.kept := by
  grind [execOpenAck, keptOf_ok, State.kept, State.connFault_kept, State.negotiate_kept, State.sendFrame_kept, State.takeOpening_kept,
      State.updConn_kept]
theorem execOpenRefuse_kept (slot : Fin 2048) (f : Frame) (s : State) : keptOf (execOpenRefuse slot f s) = some s.kept := by
  grind [execOpenRefuse, keptOf_ok, State.kept, State.connFault_kept, State.takeOpening_kept]
theorem execClose_kept (slot : Fin 2048) (f : Frame) (s : State) : keptOf (execClose slot f s) = some s.kept := by
  unfold execClose
  split
  · rfl
  · split
    · rfl
    · rename_i hrx
      rw [← State.rxBoth_kept hrx]
      split
      · rfl
      · simp only [apply_ite keptOf, keptOf_ok, State.laneSplit_kept, State.connFault_kept, State.stale_kept, State.updConn_kept,
          State.rxFails_kept, apply_ite State.kept, ite_self]
theorem execOpenStagger_kept (slot : Fin 2048) (s : State) : keptOf (execOpenStagger slot s) = some s.kept := by
  grind [execOpenStagger, keptOf_ok, State.kept, State.firstOpen_kept, State.updConn_kept]
theorem execOpenRetry_kept (slot : Fin 2048) (s : State) : keptOf (execOpenRetry slot s) = some s.kept := by
  grind [execOpenRetry, keptOf_ok, State.kept, State.sendOpen_kept, State.updConn_kept]
theorem execStaleReopen_kept (slot : Fin 2048) (s : State) : keptOf (execStaleReopen slot s) = some s.kept := by
  grind [execStaleReopen, keptOf_ok, State.kept, State.enterOpening_kept, State.firstOpen_kept, State.stale_kept]
theorem execWatchdogExpiry_kept (slot : Fin 2048) (elapsedB : Nat) (s : State) : keptOf (execWatchdogExpiry slot elapsedB s) = some s.kept := by
  unfold execWatchdogExpiry
  dsimp only
  repeat' split
  all_goals simp only [keptOf_ok, State.wdXchk_kept, State.stale_kept, State.enterOpening_kept]
theorem execWdXchk_kept (slot : Fin 2048) (s : State) : keptOf (execWdXchk slot s) = some s.kept := by
  grind [execWdXchk, keptOf_ok, State.kept, State.wdXchk_kept]
theorem execTxRequest_kept (slot : Fin 2048) (s : State) : keptOf (execTxRequest slot s) = some s.kept := by
  grind [execTxRequest, keptOf_ok, State.kept, State.updConn_kept]
theorem execTxMerge_kept (slot : Fin 2048) (s : State) : keptOf (execTxMerge slot s) = some s.kept := by
  grind [execTxMerge, keptOf_ok, State.kept, State.enqueue_kept, State.handPoints_kept, State.txLost_kept, State.txPop_kept]
theorem execTxMergeTimeout_kept (slot : Fin 2048) (s : State) : keptOf (execTxMergeTimeout slot s) = some s.kept := by
  grind [execTxMergeTimeout, keptOf_ok, State.kept, State.txLost_kept, State.txPop_kept]
theorem keptOf_command {s : State} {o : Origin} {c : Instr} {effect : State → Host.Outcome State Fault Refusal}
    (h : ∀ t, keptOf (effect t) = some t.kept) : keptOf (s.command o c effect) = some s.kept := by
  unfold State.command
  split
  · exact (h _).trans (congrArg some (s.begun_kept o))
  · rfl
theorem execImgLoad_kept (o : Origin) (offset total len : Word) (busOk : Bool) (imgA imgB : Image) (s : State) : keptOf (execImgLoad o offset total len busOk imgA imgB s) = some s.kept :=
  keptOf_command fun t => by grind [keptOf_ok, State.kept, State.draw, State.complete_kept, State.load_kept, State.startMove_kept]
theorem execFieldLinkFrame_kept (lane : Lane) (crcOk : Bool) (poison : BitVec 16) (s : State) : keptOf (execFieldLinkFrame lane crcOk poison s) = some s.kept := by
  unfold execFieldLinkFrame
  grind [keptOf_ok, State.kept, State.foldl_kept, State.endPulses_kept, State.fdAnnounce_kept, State.fdGlobal_kept, State.fdTake_kept,
      State.holdChans_kept, State.updFd, State.updLane_kept]
theorem execFieldLinkSilent_kept (lane : Lane) (s : State) : keptOf (execFieldLinkSilent lane s) = some s.kept := by
  grind [execFieldLinkSilent, keptOf_ok, State.kept, State.latchAll_kept, State.raise_kept, State.updFd]
theorem execOwnershipCheck_kept (s : State) : keptOf (execOwnershipCheck s) = some s.kept := by
  grind [execOwnershipCheck, keptOf_ok, State.kept, State.fdGlobal_kept, State.updFd]
theorem execPendingOwnershipTimeout_kept (s : State) : keptOf (execPendingOwnershipTimeout s) = some s.kept := by
  grind [execPendingOwnershipTimeout, keptOf_ok, State.kept, State.fdGlobal_kept, State.updFd]
theorem execSbHeartbeatLost_kept (lane : Lane) (s : State) : keptOf (execSbHeartbeatLost lane s) = some s.kept := by
  grind [execSbHeartbeatLost, keptOf_ok, State.kept, State.sbLost_kept]
theorem execFdOsc_kept (permille : Int) (s : State) : keptOf (execFdOsc permille s) = some s.kept := by
  grind [execFdOsc, keptOf_ok, State.kept, State.fdGlobal_kept, State.updFd]
theorem execHeartbeat_kept (lane : Lane) (s : State) : keptOf (execHeartbeat lane s) = some s.kept := by
  grind [execHeartbeat, keptOf_ok, State.kept, State.updLane_kept]
theorem execHeartbeatLost_kept (lane : Lane) (s : State) : keptOf (execHeartbeatLost lane s) = some s.kept := by
  grind [execHeartbeatLost, keptOf_ok, State.kept, State.laneFault_kept]
theorem execLaneCrossLinkFrame_kept (dst : Lane) (crcOk : Bool) (pairs : List (Fin 36)) (hash confirm : Bool) (s : State) : keptOf (execLaneCrossLinkFrame dst crcOk pairs hash confirm s) = some s.kept := by
  unfold execLaneCrossLinkFrame
  grind [keptOf_ok, State.kept, State.foldl_kept, State.laneAnnounce_kept, State.laneFault_kept, State.latchAll_kept, State.latchBit_kept,
      State.pairFault_kept, State.writeTile_kept]
theorem execStewardStep_kept (agree : Bool) (s : State) : keptOf (execStewardStep agree s) = some s.kept := by
  grind [execStewardStep, keptOf_ok, State.kept, State.laneFault_kept]
theorem execStewardSilent_kept (lane : Lane) (s : State) : keptOf (execStewardSilent lane s) = some s.kept := by
  grind [execStewardSilent, keptOf_ok, State.kept, State.laneFault_kept, State.voidAnns_kept]
theorem execTimebaseXchk_kept (lane : Lane) (ppm10 : Int) (s : State) : keptOf (execTimebaseXchk lane ppm10 s) = some s.kept := by
  grind [execTimebaseXchk, keptOf_ok, State.kept, State.laneFault_kept]
theorem execXchkResume_kept (s : State) : keptOf (execXchkResume s) = some s.kept := by
  grind [execXchkResume, keptOf_ok, State.kept]
theorem execPllLockLoss_kept (lane : Lane) (s : State) : keptOf (execPllLockLoss lane s) = some s.kept := by
  grind [execPllLockLoss, keptOf_ok, State.kept, State.laneFault_kept]
theorem execLightMeterWindow_kept (lane : Lane) (laps : BitVec 10) (s : State) : keptOf (execLightMeterWindow lane laps s) = some s.kept := by
  unfold execLightMeterWindow
  grind [keptOf_ok, State.kept, State.laneFault_kept, State.postEvent_kept, State.updLane_kept]
theorem execSupplyRange_kept (lane : Lane) (mv : BitVec 16) (s : State) : keptOf (execSupplyRange lane mv s) = some s.kept := by
  grind [execSupplyRange, keptOf_ok, State.kept, State.laneFault_kept, State.updPm_kept]
theorem execHubLinkFrame_kept (lane : Lane) (f : HubFrame) (s : State) : keptOf (execHubLinkFrame lane f s) = some s.kept := by
  grind [execHubLinkFrame, keptOf_ok, State.kept, State.holdEvents_kept, State.laneFault_kept, State.loseCopy_kept, State.updEvq_kept,
      State.updLane_kept]
theorem execImgVerify_kept (o : Origin) (s : State) : keptOf (execImgVerify o s) = some s.kept :=
  keptOf_command fun t => congrArg some (t.submit_kept _)
theorem execZoneAdmit_kept (o : Origin) (zones : BitVec 256) (pair : Byte) (s : State) : keptOf (execZoneAdmit o zones pair s) = some s.kept :=
  keptOf_command fun t => congrArg some (t.submit_kept _)
theorem execZoneCommit_kept (o : Origin) (zone : BitVec 8) (accept : Word) (s : State) : keptOf (execZoneCommit o zone accept s) = some s.kept :=
  keptOf_command fun t => congrArg some (t.submit_kept _)
theorem execRollback_kept (o : Origin) (zone : BitVec 8) (accept : Word) (s : State) : keptOf (execRollback o zone accept s) = some s.kept :=
  keptOf_command fun t => congrArg some (t.submit_kept _)
theorem execZoneWithdraw_kept (o : Origin) (zone : BitVec 8) (s : State) : keptOf (execZoneWithdraw o zone s) = some s.kept :=
  keptOf_command fun t => congrArg some ((State.settle_kept _).trans (t.submit_kept _))
theorem execZoneMigrate_kept (o : Origin) (zones : BitVec 256) (src tgt : Byte) (s : State) : keptOf (execZoneMigrate o zones src tgt s) = some s.kept :=
  keptOf_command fun t => congrArg some (t.submit_kept _)
theorem execZoneRestart_kept (o : Origin) (zone : BitVec 8) (s : State) : keptOf (execZoneRestart o zone s) = some s.kept :=
  keptOf_command fun t => congrArg some (t.submit_kept _)
theorem execConnOpen_kept (o : Origin) (slot : BitVec 16) (s : State) : keptOf (execConnOpen o slot s) = some s.kept :=
  keptOf_command fun t => congrArg some (t.submit_kept _)
theorem execConnClose_kept (o : Origin) (slot : BitVec 16) (s : State) : keptOf (execConnClose o slot s) = some s.kept :=
  keptOf_command fun t => congrArg some (t.submit_kept _)
theorem execBistRun_kept (o : Origin) (item index : Byte) (s : State) : keptOf (execBistRun o item index s) = some s.kept :=
  keptOf_command fun t => congrArg some (t.submit_kept _)
theorem execChannelCal_kept (o : Origin) (index : Byte) (s : State) : keptOf (execChannelCal o index s) = some s.kept :=
  keptOf_command fun t => congrArg some (t.submit_kept _)
theorem execShutdown_kept (o : Origin) (s : State) : keptOf (execShutdown o s) = some s.kept :=
  keptOf_command fun t => congrArg some ((State.settle_kept _).trans (t.submit_kept _))
theorem execNotStopped_kept (s : State) : keptOf (execNotStopped s) = some s.kept := by
  grind [execNotStopped, keptOf_ok, State.kept, State.commitFail_kept, State.settle_kept, State.stage_kept]
theorem execWithdrawTimeout_kept (zone : BitVec 8) (s : State) : keptOf (execWithdrawTimeout zone s) = some s.kept := by
  grind [execWithdrawTimeout, keptOf_ok, State.kept, State.endWithdraw_kept, State.outputsOff_kept, State.settle_kept]
theorem execLongOperationStep_kept (work : StepWork) (s : State) : keptOf (execLongOperationStep work s) = some s.kept := by
  grind [execLongOperationStep, keptOf_ok, State.kept, State.bootNext_kept, State.countOthers_kept, State.countStep_kept, State.moveAll_kept,
      State.opCheck_kept, State.settle_kept, State.stageDone_kept]
theorem execBistSlot_kept (cond : SlotCond) (s : State) : keptOf (execBistSlot cond s) = some s.kept := by
  grind [execBistSlot, keptOf_ok, State.kept, State.runSlot_kept, State.settle_kept]
theorem execSliceEnd_kept (p : Fin 36) (cond : TestCond) (res : Found SliceResult) (s : State) : keptOf (execSliceEnd p cond res s) = some s.kept := by
  grind [execSliceEnd, keptOf_ok, State.kept, State.defer_kept, State.failSlice_kept, State.foldBoth_kept, State.keepClaim_kept,
      State.passSlice_kept, State.resultsDiffer_kept, State.seeCond_kept, State.settle_kept, State.softRepair_kept, State.startSlice_kept,
      State.updPair_kept]
theorem execBistOverdue_kept (p : Fin 36) (s : State) : keptOf (execBistOverdue p s) = some s.kept := by
  grind [execBistOverdue, keptOf_ok, State.kept, State.postEvent_kept]
theorem State.nextWait_kept (s : State) (n : Nat) : (s.nextWait n).kept = s.kept := by
  induction n generalizing s with
  | zero => rfl
  | succ n ih =>
    unfold State.nextWait
    grind [State.kept, State.startPulse_kept, State.runWindow_kept, State.putOffAll_kept, State.updFd]
theorem execTestPulseEnd_kept (ch : Fin 64) (r : PulseRead) (settled : Bool) (s : State) :
    keptOf (execTestPulseEnd ch r settled s) = some s.kept := by
  have hjudge : ∀ (t : State) (ms : List Nat) (l : Lane) (h : Nat) (b : Bool), ((List.range ms.length).foldl (fun t i =>
      t.judgePulse l b (ms.getD i h) (r.mid.getLsbD i) (r.term.getLsbD i)) t).kept = t.kept :=
    fun t ms l h b => State.foldl_kept (fun _ _ => State.judgePulse_kept _ _ _ _ _ _) _ t
  have hwin : ∀ t : State, (t.updFd fun f => { f with pulseWin := none }).kept = t.kept := fun _ => rfl
  unfold execTestPulseEnd
  dsimp only
  split
  · simp only [apply_ite keptOf, keptOf_ok, State.nextWait_kept, hwin, ite_self]
  · simp only [apply_ite keptOf, keptOf_ok, State.nextWait_kept, hwin, apply_ite State.kept, State.updChan_kept, hjudge, ite_self]
theorem execAnalogueWindow_kept (item : AnaItem) (index : BitVec 6) (w : WindowRead) (passed : Found Bool) (s : State) :
    keptOf (execAnalogueWindow item index w passed s) = some s.kept := by
  unfold execAnalogueWindow
  grind [keptOf_ok, State.kept, State.runWindow_kept, State.nextWait_kept, State.updFd]
theorem execCkCfgWrite_kept (u : Fin 8) (value : Word) (s : State) : keptOf (execCkCfgWrite u value s) = some s.kept := by
  grind [execCkCfgWrite, keptOf_ok, State.kept, State.updCrc_kept, State.wrej_kept]
theorem execCkData32_kept (u : Fin 8) (value : Word) (s : State) : keptOf (execCkData32 u value s) = some s.kept := rfl
theorem execCkData16_kept (u : Fin 8) (value : Word) (s : State) : keptOf (execCkData16 u value s) = some s.kept := rfl
theorem execCkData8_kept (u : Fin 8) (value : Word) (s : State) : keptOf (execCkData8 u value s) = some s.kept := rfl
theorem execCkSeed_kept (u : Fin 8) (value : Word) (s : State) : keptOf (execCkSeed u value s) = some s.kept := rfl
theorem execOtpRead_kept (o : Origin) (word count : Byte) (s : State) : keptOf (execOtpRead o word count s) = some s.kept :=
  keptOf_command fun t => by grind [keptOf_ok, State.kept, State.draw, State.complete_kept]
theorem execOtpShadowSet_kept (o : Origin) (word : Byte) (data : Word64) (s : State) : keptOf (execOtpShadowSet o word data s) = some s.kept :=
  keptOf_command fun t => by grind [keptOf_ok, State.kept, State.draw, State.complete_kept, State.updOtp_kept]
theorem execOtpShadowRemove_kept (o : Origin) (word : Byte) (s : State) : keptOf (execOtpShadowRemove o word s) = some s.kept :=
  keptOf_command fun t => by grind [keptOf_ok, State.kept, State.draw, State.complete_kept, State.updOtp_kept]
theorem execOtpDriftScan_kept (words : List (Fin 256 × OtpSense)) (locks : List LockRead) (s : State) : keptOf (execOtpDriftScan words locks s) = some s.kept := by
  unfold execOtpDriftScan
  grind [keptOf_ok, State.kept, State.foldl_kept, State.driftWord_kept]
theorem execPassEnd_kept (p : Fin 36) (info : PassInfo) (s : State) : keptOf (execPassEnd p info s) = some s.kept := by
  unfold execPassEnd
  grind [keptOf_ok, State.kept, State.foldl_kept, State.armDue_kept, State.badCode_kept, State.passFault_kept, State.passGood_kept,
      State.settle_kept, State.slicePass_kept, State.updPair_kept]
theorem execReleaseMark_kept (s : State) : keptOf (execReleaseMark s) = some s.kept := by
  unfold execReleaseMark
  grind [keptOf_ok, State.kept, State.foldl_kept, State.applyTrans_kept, State.buildAll_kept, State.flushRecs_kept, State.settle_kept,
      State.startPasses_kept, State.takeSheet_kept, State.triggerReaders_kept]
theorem execHeartbeatPass_kept (p : Fin 36) (s : State) : keptOf (execHeartbeatPass p s) = some s.kept := by
  grind [execHeartbeatPass, keptOf_ok, State.kept, State.trigger_kept]
theorem execTimerExpiry_kept (p : Fin 36) (zone : BitVec 8) (blk chan : Nat) (e : ExpiryRead) (s : State) :
    keptOf (execTimerExpiry p zone blk chan e s) = some s.kept := by
  unfold execTimerExpiry
  dsimp only
  split
  · rfl
  · rw [keptOf_ok, State.trigger_kept, apply_ite State.kept, State.foldl_kept (fun _ _ => State.updPair_kept _ _ _), ite_self,
      State.updCopies_kept, State.updZone_kept]
theorem execTimerXchk_kept (p : Fin 36) (zone : BitVec 8) (blk chan : Nat) (s : State) : keptOf (execTimerXchk p zone blk chan s) = some s.kept := by
  grind [execTimerXchk, keptOf_ok, State.kept, State.trigger_kept, State.updPair_kept]
theorem execPassWatch_kept (p : Fin 36) (lane : Lane) (s : State) : keptOf (execPassWatch p lane s) = some s.kept := by
  grind [execPassWatch, keptOf_ok, State.kept, State.pairFault_kept, State.settle_kept]
theorem execStartWatch_kept (p : Fin 36) (lane : Lane) (s : State) : keptOf (execStartWatch p lane s) = some s.kept := by
  grind [execStartWatch, keptOf_ok, State.kept, State.pairFault_kept, State.settle_kept]
theorem execInjectionSchedule_kept (p : Fin 36) (lane : Lane) (s : State) : keptOf (execInjectionSchedule p lane s) = some s.kept := by
  grind [execInjectionSchedule, keptOf_ok, State.kept, State.updPair_kept]
theorem execCat1DelayExpiry_kept (lane : Lane) (out : Target) (s : State) : keptOf (execCat1DelayExpiry lane out s) = some s.kept := by
  unfold execCat1DelayExpiry
  grind [keptOf_ok, State.kept, State.commandLane_kept]
theorem execDebugEnable_kept (value : Word) (s : State) : keptOf (execDebugEnable value s) = some s.kept := by
  grind [execDebugEnable, keptOf_ok, State.kept, State.dbCtrl_kept]
theorem execHalt_kept (value : Word) (s : State) : keptOf (execHalt value s) = some s.kept := by
  grind [execHalt, keptOf_ok, State.kept, State.dbCtrl_kept, State.settle_kept]
theorem execResume_kept (s : State) : keptOf (execResume s) = some s.kept := by
  grind [execResume, keptOf_ok, State.kept, State.dbCtrl_kept, State.settle_kept]
theorem execStep_kept (info : PassInfo) (s : State) : keptOf (execStep info s) = some s.kept := by
  grind [execStep, keptOf_ok, State.kept, State.dbCtrl_kept, State.settle_kept]
theorem execStewardHalt_kept (s : State) : keptOf (execStewardHalt s) = some s.kept := by
  grind [execStewardHalt, keptOf_ok, State.kept, State.dbCtrl_kept, State.settle_kept]
theorem execDebugAccess_kept (value : Word) (s : State) : keptOf (execDebugAccess value s) = some s.kept := by
  grind [execDebugAccess, keptOf_ok, State.kept, State.dbAccess_kept]
theorem execReplayFail_kept (s : State) : keptOf (execReplayFail s) = some s.kept := by
  grind [execReplayFail, keptOf_ok, State.kept, State.draw_kept, State.writeTile_kept]
theorem execJtagInstruction_kept (op : JtagOp) (s : State) : keptOf (execJtagInstruction op s) = some s.kept := by
  grind [execJtagInstruction, keptOf_ok, State.kept, State.draw_kept]
theorem execFaultClear_kept (keyA keyB : Word) (s : State) : keptOf (execFaultClear keyA keyB s) = some s.kept := by
  grind [execFaultClear, keptOf_ok, State.kept, State.clearWrite_kept]
theorem execClearComplete_kept (fdPass : List (BitVec 16 × BitVec 12)) (s : State) : keptOf (execClearComplete fdPass s) = some s.kept := by
  grind [execClearComplete, keptOf_ok, State.kept, State.ackRestart_kept, State.endClear_kept, State.settle_kept]
theorem execFaultAcknowledgement_kept (s : State) : keptOf (execFaultAcknowledgement s) = some s.kept := by
  grind [execFaultAcknowledgement, keptOf_ok, State.kept, State.startClear_kept]
theorem execSqTail_kept (offset : BitVec 12) (value : Word) (s : State) : keptOf (execSqTail offset value s) = some s.kept := by
  grind [execSqTail, keptOf_ok, State.kept, State.writeSqTail_kept]
theorem execCqHead_kept (offset : BitVec 12) (value : Word) (s : State) : keptOf (execCqHead offset value s) = some s.kept := by
  grind [execCqHead, keptOf_ok, State.kept, State.writeCqHead_kept]
theorem execEvHead_kept (offset : BitVec 12) (value : Word) (s : State) : keptOf (execEvHead offset value s) = some s.kept := by
  grind [execEvHead, keptOf_ok, State.kept, State.writeEvHead_kept]
theorem execEventRingEnable_kept (e : Fin 4) (value : Word) (s : State) : keptOf (execEventRingEnable e value s) = some s.kept := by
  grind [execEventRingEnable, keptOf_ok, State.kept, State.evCfg_kept]
theorem execHbReady_kept (s : State) : keptOf (execHbReady s) = some s.kept := by
  grind [execHbReady, keptOf_ok, State.kept]
theorem execVectorMessage_kept (v : Fin 32) (s : State) : keptOf (execVectorMessage v s) = some s.kept := by
  unfold execVectorMessage
  grind [keptOf_ok, State.kept, Hi.dueVector_selected]
theorem execDiagRead_kept (o : Origin) (zone : BitVec 8) (first count : BitVec 16) (bufLen : Word) (busOk : Bool) (s : State) : keptOf (execDiagRead o zone first count bufLen busOk s) = some s.kept :=
  keptOf_command fun t => by grind [keptOf_ok, State.kept, State.draw, State.complete_kept, State.startMove_kept]
theorem execSnapshot_kept (o : Origin) (first count bufLen : Word) (busOk : Bool) (s : State) : keptOf (execSnapshot o first count bufLen busOk s) = some s.kept :=
  keptOf_command fun t => by grind [keptOf_ok, State.kept, State.draw, State.complete_kept, State.startMove_kept]
theorem execSyncAcquired_kept (port : Fin 32) (s : State) : keptOf (execSyncAcquired port s) = some s.kept := by
  grind [execSyncAcquired, keptOf_ok, State.kept, State.setPort_kept, State.updPort_kept]
theorem execNegotiationComplete_kept (port : Fin 32) (page : BitVec 16) (s : State) : keptOf (execNegotiationComplete port page s) = some s.kept := by
  grind [execNegotiationComplete, keptOf_ok, State.kept, State.discardRx_kept, State.setPort_kept, State.updPort_kept]
theorem execSyncLost_kept (port : Fin 32) (s : State) : keptOf (execSyncLost port s) = some s.kept := by
  grind [execSyncLost, keptOf_ok, State.kept, State.discardRx_kept, State.setPort_kept]
theorem execPortEnable_kept (o : Origin) (port : Byte) (s : State) : keptOf (execPortEnable o port s) = some s.kept :=
  keptOf_command fun t => by grind [keptOf_ok, State.kept, State.draw, State.complete_kept, State.setPort_kept, State.updPort_kept]
theorem execPortDisable_kept (o : Origin) (port : Byte) (s : State) : keptOf (execPortDisable o port s) = some s.kept :=
  keptOf_command fun t => by grind [keptOf_ok, State.kept, State.draw, State.complete_kept, State.discardRx_kept, State.portStale_kept,
      State.setPort_kept, State.updPort_kept]
theorem execPortTransmit_kept (port : Fin 32) (s : State) : keptOf (execPortTransmit port s) = some s.kept := by
  grind [execPortTransmit, keptOf_ok, State.kept, State.kick_kept, State.updPort_kept]
theorem execPortFrameEnd_kept (port : Fin 32) (f : Frame) (line : LineInfo) (s : State) : keptOf (execPortFrameEnd port f line s) = some s.kept := by
  grind [execPortFrameEnd, keptOf_ok, State.kept, State.hand_kept, State.updConn_kept, State.updPort_kept]
theorem execRateWindow_kept (slot : Fin 2048) (s : State) : keptOf (execRateWindow slot s) = some s.kept := rfl
theorem execOpenRateWindow_kept (port : Fin 32) (s : State) : keptOf (execOpenRateWindow port s) = some s.kept := rfl
theorem execShadowsLoaded_kept (excs : List OtpExc) (split : List LockRead) (crcOkA crcOkB : StartCrc) (flash : FlashInfo) (s : State) : keptOf (execShadowsLoaded excs split crcOkA crcOkB flash s) = some s.kept := by
  unfold execShadowsLoaded
  grind [keptOf_ok, State.kept, State.foldl_kept, State.chooseStart_kept, State.laneFault_kept, State.loadShadows_kept, State.load_kept,
      State.readSfdp_kept, State.record_kept, State.updPair_kept, State.updPm_kept, State.updPort_kept]
theorem execTestConditionPoll_kept (cond : TestCond) (s : State) : keptOf (execTestConditionPoll cond s) = some s.kept := by
  grind [execTestConditionPoll, keptOf_ok, State.kept, State.defer_kept, State.seeCond_kept]
theorem execStartTestEnd_kept (cond : TestCond) (res : Found StartResult) (flashImg : List (BitVec 24 × Image × Image)) (s : State) : keptOf (execStartTestEnd cond res flashImg s) = some s.kept := by
  grind [execStartTestEnd, keptOf_ok, State.kept, State.applyRepairs_kept, State.bootFailOpen_kept, State.defer_kept, State.enterRun_kept,
      State.foldBoth_kept, State.resultsDiffer_kept, State.seeCond_kept, State.settle_kept, State.startAnalogue_kept, State.startRoles_kept,
      State.startVerify_kept, State.updPm_kept]
theorem execDormantEntry_kept (s : State) : keptOf (execDormantEntry s) = some s.kept := by
  grind [execDormantEntry, keptOf_ok, State.kept, State.dormantWrite_kept]
theorem execWake_kept (s : State) : keptOf (execWake s) = some s.kept := by
  grind [execWake, keptOf_ok, State.kept, State.wake_kept]
theorem execDormantInputRead_kept (raw : BitVec 64) (s : State) : keptOf (execDormantInputRead raw s) = some s.kept := by
  grind [execDormantInputRead, keptOf_ok, State.kept, State.updChans_kept, State.updPm_kept, State.wake_kept]
theorem execWakeReturnTimeout_kept (lane : Lane) (s : State) : keptOf (execWakeReturnTimeout lane s) = some s.kept := by
  grind [execWakeReturnTimeout, keptOf_ok, State.kept, State.laneFault_kept, State.sbLost_kept, State.settle_kept]
theorem execShutdownN_kept (s : State) : keptOf (execShutdownN s) = some s.kept := by
  grind [execShutdownN, keptOf_ok, State.kept, State.settle_kept, State.startShutdown_kept, State.updPm_kept, State.wake_kept]
theorem execShutdownRecordWritten_kept (cond : TestCond) (tjMax : Byte) (fails : Found (List BistEntry)) (chOk : BitVec 64) (s : State) : keptOf (execShutdownRecordWritten cond tjMax fails chOk s) = some s.kept := by
  grind [execShutdownRecordWritten, keptOf_ok, State.kept, State.completeOpt_kept, State.defer_kept, State.foldBoth_kept, State.goOff_kept,
      State.resultsDiffer_kept, State.seeCond_kept, State.writeRecord_kept]
theorem execBenchExit_kept (s : State) : keptOf (execBenchExit s) = some s.kept := by
  grind [execBenchExit, keptOf_ok, State.kept, State.leaveBench_kept, State.wrej_kept]
theorem execTimebaseLoRead_kept (which : Timebase) (s : State) : keptOf (execTimebaseLoRead which s) = some s.kept := by
  grind [execTimebaseLoRead, keptOf_ok, State.kept, State.tbLoRead_kept]
theorem execGtCapRead_kept (k : Fin 32) (s : State) : keptOf (execGtCapRead k s) = some s.kept := rfl
theorem execGtCmpWrite_kept (k : Fin 32) (value : Word) (tickAtLoad : Bool) (s : State) : keptOf (execGtCmpWrite k value tickAtLoad s) = some s.kept := by
  grind [execGtCmpWrite, keptOf_ok, State.kept, State.gtWriteCmp_kept]
theorem execGtEnable_kept (k : Fin 32) (value : Word) (s : State) : keptOf (execGtEnable k value s) = some s.kept := by
  grind [execGtEnable, keptOf_ok, State.kept, State.gtWriteCfg_kept, State.wrej_kept]
theorem execGtDisable_kept (k : Fin 32) (value : Word) (s : State) : keptOf (execGtDisable k value s) = some s.kept := by
  grind [execGtDisable, keptOf_ok, State.kept, State.gtWriteCfg_kept, State.wrej_kept]
theorem execSoftwareCapture_kept (k : Fin 32) (s : State) : keptOf (execSoftwareCapture k s) = some s.kept := by
  grind [execSoftwareCapture, keptOf_ok, State.kept, State.gtCaptureAt_kept]
theorem execGtCapture_kept (k : Fin 32) (s : State) : keptOf (execGtCapture k s) = some s.kept := by
  grind [execGtCapture, keptOf_ok, State.kept, State.gtCaptureAt_kept]
theorem execStaggerLoad_kept (s : State) : keptOf (execStaggerLoad s) = some s.kept := rfl
theorem execLfFail_kept (s : State) : keptOf (execLfFail s) = some s.kept := rfl
theorem execLfEdge_kept (s : State) : keptOf (execLfEdge s) = some s.kept := rfl
theorem execTimeSync_kept (o : Origin) (s : State) : keptOf (execTimeSync o s) = some s.kept :=
  keptOf_command fun t => by grind [keptOf_ok, State.kept, State.draw, State.complete_kept, State.draw_kept]
theorem execRegisterRead_kept (addr : BusAddr) (s : State) : keptOf (execRegisterRead addr s) = some s.kept := by
  unfold execRegisterRead
  grind [keptOf_ok, State.kept, State.readReg_kept]
theorem execAccessTimeout_kept (die : Die) (isRead : Bool) (s : State) : keptOf (execAccessTimeout die isRead s) = some s.kept := by
  grind [execAccessTimeout, keptOf_ok, State.kept]
theorem execTilePass_kept (p : Fin 36) (lane : Lane) (parity : Bool) (s : State) : keptOf (execTilePass p lane parity s) = some s.kept := by
  grind [execTilePass, keptOf_ok, State.kept, State.driveTile_kept, State.dropPts_kept, State.updTile_kept]
end Sys2Proof.Machine
end


section
/-!
# Proofs: the step, its queue and its settings

What writes a setting keeps it in its range (R33, R86, R94, R230, R365, R409), so every step does; and every step ends in a next
state whose queue is the old one without its front.
-/
namespace Sys2Proof.Machine
open Sys2Proof

/-! ### Operations that write a setting -/

/-- The queue stays, and settings within their ranges stay within them. -/
def Keeps (s t : State) : Prop := t.pending = s.pending ∧ (s.SettingsInRange → t.SettingsInRange)

section
variable {s t u : State}

theorem Keeps.refl (s : State) : Keeps s s := ⟨rfl, id⟩

theorem Keeps.trans (h : Keeps s t) (k : Keeps t u) : Keeps s u := ⟨k.1.trans h.1, k.2 ∘ h.2⟩

theorem Keeps.of_settings (h : t.settings = s.settings) : Keeps s t := by
  simp only [State.settings, Prod.mk.injEq] at h
  obtain ⟨hpending, hversion, ⟨hwarn, hwarnB⟩, ⟨htSb, htGdisc⟩, hpresc, hshadow, hperiod, -⟩ := h
  refine ⟨hpending, fun r => ⟨?_, ?_, ?_, ?_, ?_, ?_, ?_, ?_⟩⟩
  · rw [hversion]; exact r.version
  · rw [hwarn]; exact r.warn
  · rw [hwarnB]; exact r.warnB
  · rw [htSb]; exact r.tSb
  · rw [htGdisc]; exact r.tGdisc
  · rw [hpresc]; exact r.presc
  · rw [hshadow]; exact r.shadow
  · rw [hperiod]; exact r.period

theorem Keeps.of_kept (h : t.kept = s.kept) : Keeps s t := .of_settings (State.settings_of_kept h)

/-- A change of what is no setting, before or after. -/
theorem Keeps.then_kept (h : Keeps s t) (k : u.kept = t.kept) : Keeps s u := h.trans (.of_kept k)

theorem Keeps.ite {c : Prop} [Decidable c] (h : c → Keeps s t) (k : ¬ c → Keeps s u) : Keeps s (if c then t else u) := by
  split
  · exact h ‹_›
  · exact k ‹_›
end

section
variable (s : State)

/-- A write that its rule bars changes no setting. -/
theorem State.ruled_keeps {bad : Bool} {src off : Nat} {t : State} (h : bad = false → Keeps s t) : Keeps s (s.ruled bad src off t) :=
  .ite (fun _ => .of_kept (s.wrej_kept 3 src off)) fun hbad => h (by simpa using hbad)

theorem State.ruled_of_kept {bad : Bool} {src off : Nat} {t : State} (h : t.kept = s.kept) : Keeps s (s.ruled bad src off t) :=
  s.ruled_keeps fun _ => .of_kept h

theorem State.writeGc_keeps (off : Nat) (v : Word) : Keeps s (s.writeGc off v) := by
  have hset : Keeps s { s with gc := { s.gc with scratch := v } } :=
    ⟨rfl, fun r => ⟨r.version, r.warn, r.warnB, r.tSb, r.tGdisc, r.presc, r.shadow, r.period⟩⟩
  unfold State.writeGc
  exact .ite (fun _ => hset) fun _ => .refl s

/-! Resets -/

theorem State.reset_settingsInRange : State.reset.SettingsInRange := by
  constructor <;> decide

theorem State.atReset_keeps (keep : Bool) : Keeps s (s.atReset keep) := by
  obtain ⟨a, b, c, d, e, f, g, h⟩ := State.reset_settingsInRange
  exact ⟨rfl, fun _ => ⟨a, b, c, d, e, f, g, h⟩⟩

theorem State.wholeReset_keeps (cause : Nat) (keep : Bool) : Keeps s (s.wholeReset cause keep) :=
  (s.atReset_keeps keep).then_kept rfl

theorem State.powerLost_keeps (loss : PowerLoss) : Keeps s (s.powerLost loss) := by
  unfold State.powerLost
  split
  · exact s.wholeReset_keeps 0 false
  · exact s.wholeReset_keeps 3 false
  all_goals exact Keeps.trans (.of_kept s.draw_kept) (State.wholeReset_keeps _ 3 _)

/-- Rings and the host's registers back at reset: no version is selected. -/
theorem Keeps.of_hi_reset {hi : Hi} (rings : Tab Ring) (evRings : Tab EvRing) (h : hi.selected = 0#8) :
    Keeps s { s with rings := rings, evRings := evRings, hi := hi } :=
  ⟨rfl, fun r => ⟨by rw [h]; decide, r.warn, r.warnB, r.tSb, r.tGdisc, r.presc, r.shadow, r.period⟩⟩

theorem State.ringDisables_settings (rs : List Nat) : (rs.foldl State.ringDisable s).settings = s.settings := by
  induction rs generalizing s with
  | nil => rfl
  | cons r rs ih => rw [List.foldl_cons, ih, State.ringDisable_settings]

theorem State.hostReset_keeps : Keeps s s.hostReset := by
  have hrings := s.ringDisables_settings (List.range 16)
  unfold State.hostReset
  generalize (List.range 16).foldl State.ringDisable s = u at hrings
  exact Keeps.trans (.of_settings hrings) (Keeps.of_hi_reset u _ _ rfl)

theorem State.configured_keeps {effect : State → State} (h : ∀ t, Keeps t (effect t)) : Keeps s (s.configured effect) :=
  .ite (fun _ => Keeps.trans (t := { s with hi := { s.hi with retry := false } }) (.of_kept rfl) (h _)) fun _ => .of_kept rfl

/-! Registers of HB -/

theorem State.selectVersion_keeps (src : Nat) (v : Word) : Keeps s (s.selectVersion src v) := by
  unfold State.selectVersion
  dsimp only
  refine .ite (fun h => ⟨rfl, fun r => ⟨?_, r.warn, r.warnB, r.tSb, r.tGdisc, r.presc, r.shadow, r.period⟩⟩)
    fun _ => .of_kept (s.wrej_kept 3 src 0x1000)
  have hv : bits v 7 0 = 1 ∨ bits v 7 0 = 2 := by simp_all
  obtain hv | hv := hv <;> simp [hv]

theorem State.writeRing_keeps (src off : Nat) (v copyB : Word) : Keeps s (s.writeRing src off v copyB) := by
  unfold State.writeRing
  dsimp only
  split
  · exact Keeps.then_kept (.of_settings (s.ringCfg_settings src _ v)) (State.settle_kept _)
  · exact .refl s
  · exact .of_settings (s.safeSeq_settings src _ v copyB)
  · exact s.ruled_keeps fun _ => .of_settings (s.updRing_settings _ _)

set_option maxRecDepth 4000 in
theorem State.writeEvRing_keeps (src off : Nat) (v : Word) : Keeps s (s.writeEvRing src off v) := by
  unfold State.writeEvRing
  dsimp only
  split
  · exact s.ruled_of_kept rfl
  · exact s.ruled_of_kept rfl
  · exact .of_kept (s.evCfg_kept src _ v)
  · exact .refl s

theorem State.writeHi_keeps (src off : Nat) (v copyB : Word) : Keeps s (s.writeHi src off v copyB) := by
  unfold State.writeHi
  exact .ite (fun _ => s.selectVersion_keeps src v) fun _ => .ite (fun _ => .of_kept rfl) fun _ => .ite (fun _ => .of_kept rfl) fun _ =>
    .ite (fun _ => s.writeRing_keeps src off v copyB) fun _ => .ite (fun _ => s.writeEvRing_keeps src off v) fun _ =>
      .ite (fun _ => .of_kept (s.msixWrite_kept _ v)) fun _ => .refl s

/-! Timers and the stagger group -/

theorem State.stgApplyLoad_keeps : Keeps s s.stgApplyLoad :=
  .ite (fun _ => ⟨rfl, fun r => ⟨r.version, r.warn, r.warnB, r.tSb, r.tGdisc, r.presc, r.shadow, r.shadow⟩⟩) fun _ => .refl s

theorem State.stgReturnTo_keeps : Keeps s s.stgReturnTo := s.stgApplyLoad_keeps.then_kept (State.stgCountTo_kept _ _)

theorem State.stgReturn_keeps : Keeps s s.stgReturn := s.stgReturnTo_keeps.then_kept (State.fireRisen_kept _ _)

theorem State.stgTick_keeps : Keeps s s.stgTick := by
  refine .ite (fun _ => .ite (fun _ => .of_kept rfl) fun _ => ?_) fun _ => .refl s
  refine Keeps.trans (t := { s with stg := { s.stg with div := 0 } }) (.of_kept rfl) ?_
  exact .ite (fun _ => .of_kept (State.stgCountTo_kept _ _)) fun _ => State.stgReturnTo_keeps _

theorem State.tick_keeps : Keeps s s.tick := by
  refine .ite (fun _ => .refl s) fun _ => ?_
  refine Keeps.trans ?_ (.of_kept (State.flushRecs_kept _))
  refine Keeps.trans (Keeps.trans (.of_kept ?_) (State.stgTick_keeps _)) (.of_kept (State.fireRisen_kept _ _))
  exact State.foldl_kept State.gtTick_kept _ _

theorem State.stgWriteCfg_keeps {v : Word} (h : bits v 15 0 ≠ 0) : Keeps s (s.stgWriteCfg v) := by
  have hpresc : BitVec.ofNat 16 (bits v 15 0) ≠ 0#16 := fun e => h (by
    have hlt : bits v 15 0 < 2 ^ 16 := Nat.mod_lt _ (by decide)
    have hnat := congrArg BitVec.toNat e
    rwa [BitVec.toNat_ofNat, Nat.mod_eq_of_lt hlt] at hnat)
  have hcfg : Keeps s { s with stg := { s.stg with
      en := bit v 31, presc := BitVec.ofNat 16 (bits v 15 0), div := if s.stg.en then s.stg.div else 0 } } :=
    ⟨rfl, fun r => ⟨r.version, r.warn, r.warnB, r.tSb, r.tGdisc, hpresc, r.shadow, r.period⟩⟩
  exact .ite (fun _ => hcfg.trans (State.stgReturn_keeps _)) fun _ => hcfg

set_option maxRecDepth 4000 in
theorem State.writeGt_keeps (src off : Nat) (v : Word) : Keeps s (s.writeGt src off v) := by
  unfold State.writeGt
  dsimp only
  split
  · exact s.ruled_of_kept (s.gtWriteCfg_kept _ v)
  · exact s.ruled_of_kept rfl
  · exact .of_kept (s.gtWriteCmp_kept _ v _)
  · exact .of_kept rfl
  · exact .ite (fun _ => .of_kept (s.gtCaptureAt_kept _)) fun _ => .refl s
  · exact .refl s

theorem State.writeTm_keeps (src off : Nat) (v : Word) : Keeps s (s.writeTm src off v) := by
  unfold State.writeTm
  refine .ite (fun _ => s.writeGt_keeps src off v) fun _ => ?_
  split
  · exact s.ruled_keeps fun hok => s.stgWriteCfg_keeps (by simpa using hok)
  · exact s.ruled_keeps fun hok => ⟨rfl, fun r =>
      ⟨r.version, r.warn, r.warnB, r.tSb, r.tGdisc, r.presc, by simpa only [decide_eq_false_iff_not, Nat.not_lt] using hok, r.period⟩⟩
  · exact .ite (fun _ => .of_kept rfl) fun _ => .refl s
  · exact .refl s

set_option maxRecDepth 4000 in
theorem State.writeCk_keeps (src off : Nat) (v : Word) : Keeps s (s.writeCk src off v) := by
  unfold State.writeCk
  refine .ite (fun _ => .refl s) fun _ => ?_
  dsimp only
  split
  · exact s.ruled_of_kept rfl
  all_goals exact .of_kept rfl

theorem State.writePt_keeps (src off : Nat) (v : Word) : Keeps s (s.writePt src off v) := by
  unfold State.writePt
  dsimp only
  exact .ite (fun _ => .refl s) fun _ => s.ruled_of_kept rfl

/-! Registers of both lanes -/

theorem State.bothLanes_keeps {bad : Word → Bool} {src off : Nat} {v copyB : Word} {setA setB : Word → State → State}
    (hA : ∀ t, bad v = false → Keeps t (setA v t)) (hB : ∀ t, bad copyB = false → Keeps t (setB (~~~copyB) t)) :
    Keeps s (s.bothLanes bad src off v copyB setA setB) := by
  have hfst : Keeps s (if bad v then s else setA v s) := .ite (fun _ => .refl s) fun h => hA s (by simpa using h)
  have hsnd : Keeps s (if bad copyB then (if bad v then s else setA v s) else setB (~~~copyB) (if bad v then s else setA v s)) :=
    .ite (fun _ => hfst) fun h => hfst.trans (hB _ (by simpa using h))
  exact .ite (fun _ => hsnd.then_kept (State.wrej_kept _ 3 src off)) fun _ => hsnd

theorem lmBad_eq_false {v : Word} : lmBad v = false ↔ 196 ≤ bits v 19 10 ∧ bits v 19 10 ≤ 600 := by simp [lmBad]

/-- Lane B's copy of a field is the complement of the field of the complement. -/
theorem not_ofNat_bits_not (v : Word) : (~~~(BitVec.ofNat 10 (bits (~~~v) 19 10))).toNat = bits v 19 10 := by
  simp only [bits, BitVec.toNat_not, BitVec.toNat_ofNat, Nat.shiftRight_eq_div_pow]
  omega

theorem State.writeEp_keeps (src off : Nat) (v copyB : Word) : Keeps s (s.writeEp src off v copyB) := by
  unfold State.writeEp
  split
  · refine s.bothLanes_keeps (fun t hok => ⟨rfl, fun r => ?_⟩) fun t hok => ⟨rfl, fun r => ?_⟩
    · have hrange := lmBad_eq_false.mp hok
      have hwarn : (BitVec.ofNat 10 (bits v 19 10)).toNat = bits v 19 10 := Nat.mod_eq_of_lt (by omega)
      exact ⟨r.version, by rwa [hwarn], r.warnB, r.tSb, r.tGdisc, r.presc, r.shadow, r.period⟩
    · have hrange := lmBad_eq_false.mp hok
      exact ⟨r.version, r.warn, by rwa [not_ofNat_bits_not], r.tSb, r.tGdisc, r.presc, r.shadow, r.period⟩
  · exact .of_kept rfl
  · exact .of_kept rfl
  · exact .refl s

theorem State.writeFl_keeps (src off : Nat) (v copyB : Word) : Keeps s (s.writeFl src off v copyB) := by
  unfold State.writeFl
  split
  · exact .of_kept rfl
  · exact .of_kept (s.clearWrite_kept src v copyB)
  · exact s.bothLanes_keeps (fun t _ => .of_kept rfl) fun t _ => .of_kept rfl
  · exact .refl s

/-! Registers of FD -/

set_option maxRecDepth 16000 in
theorem State.writeChan_keeps (src off : Nat) (v : Word) : Keeps s (s.writeChan src off v) := by
  unfold State.writeChan
  dsimp only
  split
  · exact s.ruled_of_kept (s.setMode_kept _ _)
  · exact s.ruled_of_kept rfl
  · exact s.ruled_of_kept (s.setOut_kept _ v)
  · exact s.ruled_of_kept rfl
  · exact s.ruled_of_kept rfl
  · exact s.ruled_of_kept rfl
  · exact s.ruled_of_kept (State.hostSource_kept _ _ _)
  · exact .of_kept (s.nsCmd_kept src _ v)
  · exact .refl s

theorem State.gstopCfg_keeps {v : Word} (h : gstopCfgBad v = false) : Keeps s (s.gstopCfg v) := by
  have hrange : 10 ≤ bits v 9 0 ∧ bits v 9 0 ≤ 1000 := by simpa [gstopCfgBad] using h
  have hdisc : (BitVec.ofNat 10 (bits v 9 0)).toNat = bits v 9 0 := Nat.mod_eq_of_lt (by omega)
  have hset : ∀ f : Fd, f.tSb = s.fd.tSb → f.tGdisc = BitVec.ofNat 10 (bits v 9 0) → Keeps s { s with fd := f } :=
    fun f hsb hd => ⟨rfl, fun r => ⟨r.version, r.warn, r.warnB, hsb ▸ r.tSb, by rw [hd, hdisc]; exact hrange, r.presc, r.shadow, r.period⟩⟩
  unfold State.gstopCfg
  extract_lets en stop start u
  have hu : Keeps s u := hset _ rfl rfl
  exact .ite (fun _ => hu.then_kept (u.holdChans_kept _)) fun _ => .ite (fun _ => hu.then_kept (u.gstopWait_kept _)) fun _ => hu

theorem State.writeFd_keeps (src off : Nat) (v : Word) : Keeps s (s.writeFd src off v) := by
  unfold State.writeFd
  refine .ite (fun _ => s.writeChan_keeps src off v) fun _ => .ite (fun _ => ?_) fun _ => .ite (fun _ => ?_) fun _ => ?_
  · exact .ite (fun _ => s.ruled_of_kept rfl) fun _ => .refl s
  · exact .ite (fun _ => s.ruled_of_kept rfl) fun _ => .refl s
  · split
    · refine s.ruled_keeps fun hok => ⟨rfl, fun r => ?_⟩
      have hrange : 20 ≤ bits v 7 0 ∧ bits v 7 0 ≤ 200 := by simpa using hok
      have htSb : (BitVec.ofNat 8 (bits v 7 0)).toNat = bits v 7 0 := Nat.mod_eq_of_lt (by omega)
      exact ⟨r.version, r.warn, r.warnB, by simpa only [State.updFd, htSb] using hrange, r.tGdisc, r.presc, r.shadow, r.period⟩
    · exact s.ruled_keeps fun hok => s.gstopCfg_keeps hok
    · exact .refl s

theorem State.applyWrite_keeps (src off : Nat) (v copyB : Word) : Keeps s (s.applyWrite src off v copyB) := by
  unfold State.applyWrite
  split
  · exact s.writeGc_keeps off v
  · exact s.writeHi_keeps src off v copyB
  · exact .of_kept (s.writePm_kept src off v)
  · exact s.writeTm_keeps src off v
  · exact s.writeCk_keeps src off v
  · exact s.writeFd_keeps src off v
  · exact s.writeFd_keeps src off v
  · exact s.writeFl_keeps src off v copyB
  · exact .of_kept (s.writeDb_kept src off v)
  · exact .refl s
  · exact .refl s
  · exact .ite (fun _ => s.writePt_keeps src off v) fun _ => s.writeEp_keeps src off v copyB

theorem State.writeReg_keeps (src off be : Nat) (v copyB : Word) : Keeps s (s.writeReg src off be v copyB) := by
  have hjudged : (if isWl off then s.judgeWl off else s).kept = s.kept := by
    split
    · exact s.judgeWl_kept off
    · rfl
  have hwrej : ∀ c, Keeps s ((if isWl off then s.judgeWl off else s).wrej c src off) :=
    fun c => .of_kept ((State.wrej_kept _ c src off).trans hjudged)
  unfold State.writeReg
  dsimp only
  refine .ite (fun _ => .refl s) fun _ => .ite (fun _ => .of_kept (s.wrej_kept 2 src off)) fun _ => .ite (fun _ => .refl s) fun _ =>
    .ite (fun _ => .ite (fun _ => s.applyWrite_keeps src off v copyB) fun _ => .of_kept (s.wrej_kept 1 src off)) fun _ =>
    .ite (fun _ => hwrej 1) fun _ => .ite (fun _ => hwrej 4) fun _ => ?_
  exact Keeps.trans (.of_kept hjudged) (State.applyWrite_keeps _ src off v copyB)
end

/-! ### Every command -/

/-- A command answers a next state; the queue stays, and settings within their ranges stay within them. -/
def Answers (s : State) (r : Host.Outcome State Fault Refusal) : Prop := ∃ t, r = .next t ∧ Keeps s t

theorem Answers.ok {s t : State} (h : Keeps s t) : Answers s (ok t) := ⟨t, rfl, h⟩

theorem Answers.of_keptOf {s : State} {r : Host.Outcome State Fault Refusal} (h : keptOf r = some s.kept) : Answers s r := by
  cases r with
  | next t => exact ⟨t, rfl, .of_kept (Option.some.inj h)⟩
  | fault x => exact nomatch h
  | refused x => exact nomatch h

theorem Answers.of_kept {s t : State} {r : Host.Outcome State Fault Refusal} (h : Answers t r) (k : t.kept = s.kept) : Answers s r := by
  obtain ⟨u, hu, hkeeps⟩ := h
  exact ⟨u, hu, Keeps.trans (.of_kept k) hkeeps⟩

theorem Answers.ite {s : State} {c : Prop} [Decidable c] {r q : Host.Outcome State Fault Refusal} (h : c → Answers s r)
    (k : ¬ c → Answers s q) : Answers s (if c then r else q) := by
  split
  · exact h ‹_›
  · exact k ‹_›

theorem answers_command {s : State} {o : Origin} {c : Instr} {effect : State → Host.Outcome State Fault Refusal}
    (h : ∀ t, Answers t (effect t)) : Answers s (s.command o c effect) :=
  .ite (fun _ => (h _).of_kept (s.begun_kept o)) fun _ => .ok (.refl s)

section
variable (s : State)

/-! The bits of a word -/

theorem bits_testBit (v : Word) (hi lo i : Nat) : (bits v hi lo).testBit i = (decide (i < hi + 1 - lo) && v.getLsbD (lo + i)) := by
  rw [bits, Nat.testBit_mod_two_pow, Nat.testBit_shiftRight, BitVec.getLsbD]

theorem getLsbD_setBit (v : Word) {i : Nat} (x : Bool) (hi : i < 32) (j : Nat) :
    (setBit v i x).getLsbD j = if j = i then x else v.getLsbD j := by
  by_cases hj : j < 32
  · have hone : (BitVec.ofNat 32 (1 <<< i)).getLsbD j = decide (j = i) := by
      rw [BitVec.getLsbD_ofNat, Nat.one_shiftLeft, Nat.testBit_two_pow, decide_eq_true hj, Bool.true_and]
      exact decide_eq_decide.mpr eq_comm
    revert hone
    unfold setBit
    generalize BitVec.ofNat 32 (1 <<< i) = m
    intro hone
    rw [apply_ite (BitVec.getLsbD · j), BitVec.getLsbD_or, BitVec.getLsbD_and, BitVec.getLsbD_not, hone, decide_eq_true hj]
    by_cases h : j = i <;> cases x <;> simp [h]
  · have hne : j ≠ i := by omega
    simp [BitVec.getLsbD_of_ge _ _ (Nat.le_of_not_lt hj), hne]

theorem bits_setBit_31 (v : Word) (x : Bool) {hi lo : Nat} (h : hi < 31) : bits (setBit v 31 x) hi lo = bits v hi lo := by
  refine Nat.eq_of_testBit_eq fun i => ?_
  rw [bits_testBit, bits_testBit, getLsbD_setBit _ _ (by decide)]
  by_cases htop : lo + i = 31
  · have : ¬ i < hi + 1 - lo := by omega
    simp [this]
  · simp [htop]

@[simp] theorem bit_setBit_31 (v : Word) (x : Bool) : bit (setBit v 31 x) 31 = x := by
  rw [bit, getLsbD_setBit _ _ (by decide), if_pos rfl]

theorem bit_setBit_31_ne (v : Word) (x : Bool) {i : Nat} (h : i ≠ 31) : bit (setBit v 31 x) i = bit v i := by
  rw [bit, getLsbD_setBit _ _ (by decide), if_neg h, bit]

theorem gstopCfgBad_setBit_31 (v : Word) (x : Bool) : gstopCfgBad (setBit v 31 x) = gstopCfgBad v := by
  simp only [gstopCfgBad, bits_setBit_31 v x (show 9 < 31 by decide)]

theorem execGstopDisable_answers (v : Word) : Answers s (execGstopDisable v s) := by
  have hjudged := s.judgeWl_kept 0x19210
  have hwrej : ∀ c, Keeps s ((s.judgeWl 0x19210).wrej c 0 0x19210) := fun c => .of_kept ((State.wrej_kept _ _ _ _).trans hjudged)
  refine .ite (fun _ => .ok (hwrej 1)) fun _ => .ite (fun _ => .ok (hwrej 3)) fun hok => .ok ?_
  refine Keeps.trans (.of_kept hjudged) (State.gstopCfg_keeps _ ?_)
  rw [gstopCfgBad_setBit_31]
  simpa using hok

theorem execOtpProgram_answers (o : Origin) (index : Byte) (data : Word64) (tjOk : Bool) (out : ProgOutcome) :
    Answers s (execOtpProgram o index data tjOk out s) := by
  refine answers_command fun t => ?_
  have hcomplete : ∀ op st res, Answers t (ok (t.complete o op st res)) := fun op st res => .ok (.of_kept (t.complete_kept o op st res))
  have hblown : ∀ x, (t.updOtp index.toNat fun w => w.blow data x).kept = t.kept := fun _ => rfl
  dsimp only
  refine .ite (fun _ => hcomplete _ _ _) fun _ => ?_
  split
  · exact hcomplete _ _ _
  · refine .ite (fun _ => hcomplete _ _ _) fun _ => .ite (fun _ => hcomplete _ _ _) fun _ => ?_
    split
    · exact .ok (Keeps.trans (.of_kept (hblown out)) (State.powerLost_keeps _ _))
    · exact .ite (fun _ => .ok (.of_kept ((State.complete_kept _ _ _ _ _).trans rfl)))
        fun _ => .ok (.of_kept ((State.complete_kept _ _ _ _ _).trans rfl))

theorem State.programLock_keeps (o : Origin) (r : Nat) (rd : Bool) (pulses : Nat) (copies : LockOutcome) :
    Keeps s (s.programLock o r rd pulses copies) := by
  unfold State.programLock
  dsimp only
  refine .ite (fun _ => .of_kept (s.complete_kept _ _ _ _)) fun _ => ?_
  split
  · exact Keeps.trans (.of_kept (s.otp_kept _)) (State.powerLost_keeps _ _)
  · exact .of_kept ((State.complete_kept _ _ _ _ _).trans (s.otp_kept _))

theorem execWriteLock_answers (o : Origin) (index : Byte) (tjOk : Bool) (pulses : Nat) (copies : LockOutcome) :
    Answers s (execWriteLock o index tjOk pulses copies s) := by
  refine answers_command fun t => .ite (fun _ => .ok (.of_kept (t.complete_kept _ _ _ _))) fun _ => ?_
  split
  · exact .ok (.of_kept (t.complete_kept _ _ _ _))
  · exact .ok (t.programLock_keeps o _ false pulses copies)

theorem execReadLock_answers (o : Origin) (index : Byte) (tjOk : Bool) (pulses : Nat) (copies : LockOutcome) :
    Answers s (execReadLock o index tjOk pulses copies s) := by
  refine answers_command fun t => .ite (fun _ => .ok (.of_kept (t.complete_kept _ _ _ _))) fun _ => ?_
  split
  · exact .ok (.of_kept (t.complete_kept _ _ _ _))
  · exact .ok (t.programLock_keeps o _ true pulses copies)

theorem execDescriptorFetch_answers (r : Fin 16) (entry : Option Entry) : Answers s (execDescriptorFetch r entry s) := by
  have hturn : Keeps s { s with hi := { s.hi with turn := (r.val + 1) % 16 } } := .of_kept rfl
  unfold execDescriptorFetch
  refine .ite (fun _ => ?_) fun _ => .ok (.refl s)
  dsimp only
  split
  · exact .ok ((hturn.trans (.of_settings (State.ringFail_settings _ r))).then_kept (State.settle_kept _))
  · exact .ite (fun _ => .ok (hturn.trans (.of_settings (State.updRing_settings _ r _))))
      fun _ => .ok (hturn.then_kept (State.acceptEntry_kept _ r _))

theorem execSafetyDescriptorCheck_answers (r : Fin 16) (copyA copyB : Option Entry) :
    Answers s (execSafetyDescriptorCheck r copyA copyB s) := by
  have hrefused : ∀ cid op st, Answers s (ok (s.refuseEntry r cid op st)) := fun cid op st => .ok (.of_kept (s.refuseEntry_kept r cid op st))
  unfold execSafetyDescriptorCheck
  dsimp only
  split
  · exact .ok (.refl s)
  · refine .ite (fun _ => .ok (.refl s)) fun _ => .ite (fun _ => hrefused _ _ _) fun _ => .ite (fun _ => hrefused _ _ _) fun _ => ?_
    split
    · exact hrefused _ _ _
    · exact .ok (Keeps.then_kept (.of_settings (s.updRing_settings r _)) (State.acceptEntry_kept _ r _))
  · exact .ok (Keeps.then_kept (.of_settings (s.ringFail_settings r)) (State.settle_kept _))

theorem execRingEnable_answers (r : Fin 16) (v : Word) : Answers s (execRingEnable r v s) := .ok (.of_settings (s.ringCfg_settings 0 r _))

theorem execRingDisable_answers (r : Fin 16) : Answers s (execRingDisable r s) :=
  .ok (Keeps.then_kept (.of_settings (s.ringDisable_settings r)) (State.settle_kept _))

theorem execSafeSeqWrite_answers (r : Fin 16) (v : Word) : Answers s (execSafeSeqWrite r v s) := .ok (.of_settings (s.safeSeq_settings 0 r v v))

theorem execVersionSelect_answers (v : Word) : Answers s (execVersionSelect v s) := .ok (s.selectVersion_keeps 0 v)

theorem State.powered_kept (hi : Hi) (h : hi.selected = s.hi.selected) : ({ s with hi := hi } : State).kept = s.kept := by
  simp only [State.kept, h]

theorem execFunctionLevelReset_answers : Answers s (execFunctionLevelReset s) :=
  .ok (s.configured_keeps fun t => t.hostReset_keeps.then_kept (State.settle_kept _))

theorem execD3hot_answers : Answers s (execD3hot s) := by
  refine .ok (s.configured_keeps fun t => ?_)
  have hsettled : Keeps t t.hostReset.settle := t.hostReset_keeps.then_kept (State.settle_kept _)
  revert hsettled
  generalize t.hostReset.settle = u
  exact fun hsettled => hsettled.then_kept (State.powered_kept u _ rfl)

theorem execD0_answers : Answers s (execD0 s) := .ok (s.configured_keeps fun _ => .of_kept rfl)

theorem execPowerOnReset_answers (loss : PowerLoss) : Answers s (execPowerOnReset loss s) := .ok (s.powerLost_keeps loss)

theorem execResetN_answers (ns : Nat) : Answers s (execResetN ns s) := by
  have hact := s.pulseActs_kept ns
  unfold execResetN
  revert hact
  obtain ⟨act, u⟩ := s.pulseActs ns
  intro hact
  refine Answers.of_kept (.ok ?_) hact
  exact .ite (fun _ => u.wholeReset_keeps 1 true) fun _ => .refl u

theorem execPerstN_answers (ns : Nat) : Answers s (execPerstN ns s) := by
  have hact := s.pulseActs_kept ns
  unfold execPerstN
  revert hact
  obtain ⟨act, u⟩ := s.pulseActs ns
  intro hact
  refine Answers.of_kept ?_ hact
  refine .ite (fun _ => .ok (.refl u)) fun _ => .ite (fun _ => .ok (.of_kept (u.otp_kept _))) fun _ => .ite (fun _ => .ok ?_)
    fun _ => .ok (u.wholeReset_keeps 2 false)
  have hsettled : Keeps u u.dropOverrides.hostReset.settle :=
    (Keeps.trans (.of_kept u.dropOverrides_kept) (State.hostReset_keeps _)).then_kept (State.settle_kept _)
  revert hsettled
  generalize u.dropOverrides.hostReset.settle = v
  exact fun hsettled => hsettled.then_kept (State.powered_kept v _ rfl)

theorem execResetRelease_answers (b : BitVec 2) (seqErr : Bool) : Answers s (execResetRelease b seqErr s) := by
  refine .ok (.ite (fun _ => ?_) fun _ => .refl s)
  exact (s.atReset_keeps true).then_kept ((State.skewLanes_kept _).trans rfl)

theorem execGtMatch_answers (k : Fin 32) : Answers s (execGtMatch k s) := by
  unfold execGtMatch
  refine .ite (fun _ => .ok (.ite (fun _ => .of_kept (s.gtSetCount_kept _ _)) fun _ => .refl s)) fun _ => .ok ?_
  exact .ite (fun _ => .ite (fun _ => s.stgReturn_keeps) fun _ => .of_kept (s.stgSetCount_kept _)) fun _ => .refl s

theorem execStaggerPeriodEnd_answers : Answers s (execStaggerPeriodEnd s) := .ok (.ite (fun _ => s.stgReturn_keeps) fun _ => .refl s)

theorem execRegisterWrite_answers (off : BitVec 18) (be : BitVec 4) (v : Word) (src : Requester) (copyB : Option Word) :
    Answers s (execRegisterWrite off be v src copyB s) := .ok (.ite (fun _ => s.writeReg_keeps _ _ _ v _) fun _ => .refl s)
end

theorem exec_longOperationStep (w : StepWork) (s : State) : exec (.longOperationStep w) s = execLongOperationStep w s := by
  rfl

theorem execLongOperationStep_answers (s : State) (w : StepWork) : Answers s (execLongOperationStep w s) := by
  have h := execLongOperationStep_kept w s
  revert h
  generalize execLongOperationStep w s = r
  exact fun h => .of_keptOf h

theorem exec_answers (c : Instr) (s : State) : Answers s (exec c s) := by
  cases c with
  | imgLoad => exact Answers.of_keptOf (execImgLoad_kept ..)
  | imgVerify => exact Answers.of_keptOf (execImgVerify_kept ..)
  | zoneAdmit => exact Answers.of_keptOf (execZoneAdmit_kept ..)
  | zoneCommit => exact Answers.of_keptOf (execZoneCommit_kept ..)
  | rollback => exact Answers.of_keptOf (execRollback_kept ..)
  | zoneWithdraw => exact Answers.of_keptOf (execZoneWithdraw_kept ..)
  | zoneMigrate => exact Answers.of_keptOf (execZoneMigrate_kept ..)
  | zoneRestart => exact Answers.of_keptOf (execZoneRestart_kept ..)
  | connOpen => exact Answers.of_keptOf (execConnOpen_kept ..)
  | connClose => exact Answers.of_keptOf (execConnClose_kept ..)
  | portEnable => exact Answers.of_keptOf (execPortEnable_kept ..)
  | portDisable => exact Answers.of_keptOf (execPortDisable_kept ..)
  | bistRun => exact Answers.of_keptOf (execBistRun_kept ..)
  | channelCal => exact Answers.of_keptOf (execChannelCal_kept ..)
  | diagRead => exact Answers.of_keptOf (execDiagRead_kept ..)
  | snapshot => exact Answers.of_keptOf (execSnapshot_kept ..)
  | otpRead => exact Answers.of_keptOf (execOtpRead_kept ..)
  | otpProgram => exact execOtpProgram_answers s ..
  | writeLock => exact execWriteLock_answers s ..
  | readLock => exact execReadLock_answers s ..
  | otpShadowSet => exact Answers.of_keptOf (execOtpShadowSet_kept ..)
  | otpShadowRemove => exact Answers.of_keptOf (execOtpShadowRemove_kept ..)
  | timeSync => exact Answers.of_keptOf (execTimeSync_kept ..)
  | shutdown => exact Answers.of_keptOf (execShutdown_kept ..)
  | sqTail => exact Answers.of_keptOf (execSqTail_kept ..)
  | cqHead => exact Answers.of_keptOf (execCqHead_kept ..)
  | evHead => exact Answers.of_keptOf (execEvHead_kept ..)
  | descriptorFetch => exact execDescriptorFetch_answers s ..
  | safetyDescriptorCheck => exact execSafetyDescriptorCheck_answers s ..
  | ringEnable => exact execRingEnable_answers s ..
  | ringDisable => exact execRingDisable_answers s ..
  | eventRingEnable => exact Answers.of_keptOf (execEventRingEnable_kept ..)
  | versionSelect => exact execVersionSelect_answers s ..
  | safeSeqWrite => exact execSafeSeqWrite_answers s ..
  | functionLevelReset => exact execFunctionLevelReset_answers s ..
  | d3hot => exact execD3hot_answers s ..
  | registerWrite => exact execRegisterWrite_answers s ..
  | accessTimeout => exact Answers.of_keptOf (execAccessTimeout_kept ..)
  | timebaseLoRead => exact Answers.of_keptOf (execTimebaseLoRead_kept ..)
  | gtCapRead => exact Answers.of_keptOf (execGtCapRead_kept ..)
  | gtCmpWrite => exact Answers.of_keptOf (execGtCmpWrite_kept ..)
  | gtEnable => exact Answers.of_keptOf (execGtEnable_kept ..)
  | gtDisable => exact Answers.of_keptOf (execGtDisable_kept ..)
  | softwareCapture => exact Answers.of_keptOf (execSoftwareCapture_kept ..)
  | gtMatch => exact execGtMatch_answers s ..
  | gtCapture => exact Answers.of_keptOf (execGtCapture_kept ..)
  | staggerLoad => exact Answers.of_keptOf (execStaggerLoad_kept ..)
  | staggerPeriodEnd => exact execStaggerPeriodEnd_answers s ..
  | ckCfgWrite => exact Answers.of_keptOf (execCkCfgWrite_kept ..)
  | ckData32 => exact Answers.of_keptOf (execCkData32_kept ..)
  | ckData16 => exact Answers.of_keptOf (execCkData16_kept ..)
  | ckData8 => exact Answers.of_keptOf (execCkData8_kept ..)
  | ckSeed => exact Answers.of_keptOf (execCkSeed_kept ..)
  | faultClear => exact Answers.of_keptOf (execFaultClear_kept ..)
  | clearComplete => exact Answers.of_keptOf (execClearComplete_kept ..)
  | faultAcknowledgement => exact Answers.of_keptOf (execFaultAcknowledgement_kept ..)
  | debugEnable => exact Answers.of_keptOf (execDebugEnable_kept ..)
  | halt => exact Answers.of_keptOf (execHalt_kept ..)
  | resume => exact Answers.of_keptOf (execResume_kept ..)
  | step => exact Answers.of_keptOf (execStep_kept ..)
  | stewardHalt => exact Answers.of_keptOf (execStewardHalt_kept ..)
  | debugAccess => exact Answers.of_keptOf (execDebugAccess_kept ..)
  | replayFail => exact Answers.of_keptOf (execReplayFail_kept ..)
  | dormantEntry => exact Answers.of_keptOf (execDormantEntry_kept ..)
  | wake => exact Answers.of_keptOf (execWake_kept ..)
  | benchExit => exact Answers.of_keptOf (execBenchExit_kept ..)
  | nsCmd => exact Answers.of_keptOf (execNsCmd_kept ..)
  | channelModeWrite => exact Answers.of_keptOf (execChannelModeWrite_kept ..)
  | captureConfig => exact Answers.of_keptOf (execCaptureConfig_kept ..)
  | gstopDisable => exact execGstopDisable_answers s ..
  | powerOnReset => exact execPowerOnReset_answers s ..
  | resetN => exact execResetN_answers s ..
  | perstN => exact execPerstN_answers s ..
  | resetRelease => exact execResetRelease_answers s ..
  | shutdownN => exact Answers.of_keptOf (execShutdownN_kept ..)
  | shadowsLoaded => exact Answers.of_keptOf (execShadowsLoaded_kept ..)
  | testConditionPoll => exact Answers.of_keptOf (execTestConditionPoll_kept ..)
  | startTestEnd => exact Answers.of_keptOf (execStartTestEnd_kept ..)
  | longOperationStep w => rw [exec_longOperationStep]; exact execLongOperationStep_answers s w
  | shutdownRecordWritten => exact Answers.of_keptOf (execShutdownRecordWritten_kept ..)
  | gstopOpen => exact Answers.of_keptOf (execGstopOpen_kept ..)
  | gstopRelease => exact Answers.of_keptOf (execGstopRelease_kept ..)
  | gstopDisc => exact Answers.of_keptOf (execGstopDisc_kept ..)
  | inputDebounce => exact Answers.of_keptOf (execInputDebounce_kept ..)
  | inputRestore => exact Answers.of_keptOf (execInputRestore_kept ..)
  | wireBreak => exact Answers.of_keptOf (execWireBreak_kept ..)
  | inputOv => exact Answers.of_keptOf (execInputOv_kept ..)
  | sample => exact Answers.of_keptOf (execSample_kept ..)
  | periodicSample => exact Answers.of_keptOf (execPeriodicSample_kept ..)
  | captureCount => exact Answers.of_keptOf (execCaptureCount_kept ..)
  | uvWarn => exact Answers.of_keptOf (execUvWarn_kept ..)
  | uvIn => exact Answers.of_keptOf (execUvIn_kept ..)
  | uvOff => exact Answers.of_keptOf (execUvOff_kept ..)
  | groupOv => exact Answers.of_keptOf (execGroupOv_kept ..)
  | groupLatchEnd => exact Answers.of_keptOf (execGroupLatchEnd_kept ..)
  | testPulseStart => exact Answers.of_keptOf (execTestPulseStart_kept ..)
  | testPulseEnd => exact Answers.of_keptOf (execTestPulseEnd_kept ..)
  | feedbackDebounce => exact Answers.of_keptOf (execFeedbackDebounce_kept ..)
  | offCheck => exact Answers.of_keptOf (execOffCheck_kept ..)
  | onCheck => exact Answers.of_keptOf (execOnCheck_kept ..)
  | openLoadTest => exact Answers.of_keptOf (execOpenLoadTest_kept ..)
  | openLoad => exact Answers.of_keptOf (execOpenLoad_kept ..)
  | overload => exact Answers.of_keptOf (execOverload_kept ..)
  | thermal => exact Answers.of_keptOf (execThermal_kept ..)
  | shareFault => exact Answers.of_keptOf (execShareFault_kept ..)
  | crossShort => exact Answers.of_keptOf (execCrossShort_kept ..)
  | channelFaultReport => exact Answers.of_keptOf (execChannelFaultReport_kept ..)
  | nsSilent => exact Answers.of_keptOf (execNsSilent_kept ..)
  | analogueWindow => exact Answers.of_keptOf (execAnalogueWindow_kept ..)
  | fieldLinkFrame => exact Answers.of_keptOf (execFieldLinkFrame_kept ..)
  | fieldLinkSilent => exact Answers.of_keptOf (execFieldLinkSilent_kept ..)
  | ownershipCheck => exact Answers.of_keptOf (execOwnershipCheck_kept ..)
  | pendingOwnershipTimeout => exact Answers.of_keptOf (execPendingOwnershipTimeout_kept ..)
  | sbHeartbeatLost => exact Answers.of_keptOf (execSbHeartbeatLost_kept ..)
  | fdOsc => exact Answers.of_keptOf (execFdOsc_kept ..)
  | heartbeat => exact Answers.of_keptOf (execHeartbeat_kept ..)
  | heartbeatLost => exact Answers.of_keptOf (execHeartbeatLost_kept ..)
  | laneCrossLinkFrame => exact Answers.of_keptOf (execLaneCrossLinkFrame_kept ..)
  | stewardStep => exact Answers.of_keptOf (execStewardStep_kept ..)
  | stewardSilent => exact Answers.of_keptOf (execStewardSilent_kept ..)
  | timebaseXchk => exact Answers.of_keptOf (execTimebaseXchk_kept ..)
  | xchkResume => exact Answers.of_keptOf (execXchkResume_kept ..)
  | pllLockLoss => exact Answers.of_keptOf (execPllLockLoss_kept ..)
  | lightMeterWindow => exact Answers.of_keptOf (execLightMeterWindow_kept ..)
  | supplyRange => exact Answers.of_keptOf (execSupplyRange_kept ..)
  | hubLinkFrame => exact Answers.of_keptOf (execHubLinkFrame_kept ..)
  | releaseMark => exact Answers.of_keptOf (execReleaseMark_kept ..)
  | heartbeatPass => exact Answers.of_keptOf (execHeartbeatPass_kept ..)
  | timerExpiry => exact Answers.of_keptOf (execTimerExpiry_kept ..)
  | timerXchk => exact Answers.of_keptOf (execTimerXchk_kept ..)
  | passEnd => exact Answers.of_keptOf (execPassEnd_kept ..)
  | passWatch => exact Answers.of_keptOf (execPassWatch_kept ..)
  | startWatch => exact Answers.of_keptOf (execStartWatch_kept ..)
  | injectionSchedule => exact Answers.of_keptOf (execInjectionSchedule_kept ..)
  | cat1DelayExpiry => exact Answers.of_keptOf (execCat1DelayExpiry_kept ..)
  | notStopped => exact Answers.of_keptOf (execNotStopped_kept ..)
  | withdrawTimeout => exact Answers.of_keptOf (execWithdrawTimeout_kept ..)
  | tilePass => exact Answers.of_keptOf (execTilePass_kept ..)
  | txRequest => exact Answers.of_keptOf (execTxRequest_kept ..)
  | txMerge => exact Answers.of_keptOf (execTxMerge_kept ..)
  | txMergeTimeout => exact Answers.of_keptOf (execTxMergeTimeout_kept ..)
  | portTransmit => exact Answers.of_keptOf (execPortTransmit_kept ..)
  | openStagger => exact Answers.of_keptOf (execOpenStagger_kept ..)
  | openRetry => exact Answers.of_keptOf (execOpenRetry_kept ..)
  | staleReopen => exact Answers.of_keptOf (execStaleReopen_kept ..)
  | watchdogExpiry => exact Answers.of_keptOf (execWatchdogExpiry_kept ..)
  | wdXchk => exact Answers.of_keptOf (execWdXchk_kept ..)
  | dataFrame => exact Answers.of_keptOf (execDataFrame_kept ..)
  | openFrame => exact Answers.of_keptOf (execOpenFrame_kept ..)
  | openAck => exact Answers.of_keptOf (execOpenAck_kept ..)
  | openRefuse => exact Answers.of_keptOf (execOpenRefuse_kept ..)
  | close => exact Answers.of_keptOf (execClose_kept ..)
  | syncAcquired => exact Answers.of_keptOf (execSyncAcquired_kept ..)
  | negotiationComplete => exact Answers.of_keptOf (execNegotiationComplete_kept ..)
  | syncLost => exact Answers.of_keptOf (execSyncLost_kept ..)
  | portFrameEnd => exact Answers.of_keptOf (execPortFrameEnd_kept ..)
  | rateWindow => exact Answers.of_keptOf (execRateWindow_kept ..)
  | openRateWindow => exact Answers.of_keptOf (execOpenRateWindow_kept ..)
  | bistSlot => exact Answers.of_keptOf (execBistSlot_kept ..)
  | sliceEnd => exact Answers.of_keptOf (execSliceEnd_kept ..)
  | bistOverdue => exact Answers.of_keptOf (execBistOverdue_kept ..)
  | otpDriftScan => exact Answers.of_keptOf (execOtpDriftScan_kept ..)
  | lfFail => exact Answers.of_keptOf (execLfFail_kept ..)
  | dormantInputRead => exact Answers.of_keptOf (execDormantInputRead_kept ..)
  | wakeReturnTimeout => exact Answers.of_keptOf (execWakeReturnTimeout_kept ..)
  | recordGone => exact Answers.of_keptOf (execRecordGone_kept ..)
  | midNodeCheck => exact Answers.of_keptOf (execMidNodeCheck_kept ..)
  | gstopClosed => exact Answers.of_keptOf (execGstopClosed_kept ..)
  | lfEdge => exact Answers.of_keptOf (execLfEdge_kept ..)
  | hbReady => exact Answers.of_keptOf (execHbReady_kept ..)
  | d0 => exact execD0_answers s ..
  | vectorMessage => exact Answers.of_keptOf (execVectorMessage_kept ..)
  | registerRead => exact Answers.of_keptOf (execRegisterRead_kept ..)
  | jtagInstruction => exact Answers.of_keptOf (execJtagInstruction_kept ..)

theorem step_keeps (s : State) : ∃ t, step s = .next t ∧ t.pending = s.pending.tail ∧ (s.SettingsInRange → t.SettingsInRange) := by
  cases hq : s.pending with
  | nil =>
    obtain ⟨hpending, hsettings⟩ := s.tick_keeps
    exact ⟨s.tick, by simp [step, hq], by simp [hpending, hq], hsettings⟩
  | cons c rest =>
    obtain ⟨t, hnext, hpending, hsettings⟩ := exec_answers c { s with pending := rest }
    refine ⟨t, by simpa [step, hq] using hnext, hpending, fun r => hsettings ?_⟩
    exact ⟨r.version, r.warn, r.warnB, r.tSb, r.tGdisc, r.presc, r.shadow, r.period⟩
end Sys2Proof.Machine

open Sys2Proof.Machine

/-- Settles O1. -/
theorem stepRunsTheFrontCommand : Obligations.StepRunsTheFrontCommand := by
  intro c r s h
  simp [step, h]

/-- Settles O2, from what every command and the tick do to the queue. -/
theorem queueIsFirstInFirstOut : Obligations.QueueIsFirstInFirstOut := by
  intro s
  obtain ⟨t, hnext, hpending, _⟩ := step_keeps s
  exact ⟨t, hnext, hpending⟩

/-- Settles O6. -/
theorem resetSettingsAreInRange : Obligations.ResetSettingsAreInRange := State.reset_settingsInRange

/-- Settles O5: a step writes a setting only where the value passed its range check. -/
theorem everyStepKeepsTheSettingsInRange : Obligations.EveryStepKeepsTheSettingsInRange := by
  intro s t hs hstep
  obtain ⟨u, hnext, _, hsettings⟩ := step_keeps s
  obtain rfl : u = t := by simpa [hnext] using hstep
  exact hsettings hs
end


section
/-!
# Proofs: the general timers and the stagger group (R353 to R366)

What one tick, one count or one event of a timer does to each timer of the table. A capture changes the capture fields alone
(`Gt.uncaptured` leaves them out), and an event the event count, MATCH and captures of others; so most facts here are about
`Gt.uncaptured`.
-/
namespace Sys2Proof.Machine
open Sys2Proof

/-! ### Folds over the elements of a table -/

theorem mem_below {n k : Nat} {f : Nat → Bool} : k ∈ below n f ↔ k < n ∧ f k = true := by
  simp [below]

theorem below_nodup (n : Nat) (f : Nat → Bool) : (below n f).Nodup := List.nodup_range.filter _

/-- A fold of operations, each of which changes what one key shows and nothing of another, changes what each key of the list shows. -/
theorem foldl_shows {σ β : Type} {h : σ → Nat → σ} {P : σ → Nat → β} {f : Nat → β → β}
    (each : ∀ s k j, P (h s k) j = if j = k then f k (P s k) else P s j) {ks : List Nat} (hks : ks.Nodup) (s : σ) (j : Nat) :
    P (ks.foldl h s) j = if j ∈ ks then f j (P s j) else P s j := by
  induction ks generalizing s with
  | nil => simp
  | cons k ks ih =>
    obtain ⟨hk, hks⟩ := List.nodup_cons.mp hks
    rw [List.foldl_cons, ih hks, each]
    by_cases hj : j = k
    · subst hj; simp [hk]
    · simp [hj]

/-- A fold whose every operation keeps what is seen of the state keeps it. -/
theorem foldl_keeps {σ α β : Type} {h : σ → α → σ} {P : σ → β} (each : ∀ s x, P (h s x) = P s) (xs : List α) (s : σ) :
    P (xs.foldl h s) = P s := by
  induction xs generalizing s with
  | nil => rfl
  | cons x xs ih => rw [List.foldl_cons, ih, each]

/-! ### What timers touch -/

/-- The timers, the event rings and the messages of their vectors. -/
abbrev gtPart (s t : State) : State := { s with gts := t.gts, evRings := t.evRings, hi := t.hi }

theorem gtPart_part : Part gtPart := ⟨fun _ => rfl, fun _ _ _ => rfl⟩

theorem State.toRing_gtOnly (s : State) (t k p : Nat) (poison : Bool) : Only gtPart s (s.toRing t k p poison) := by
  unfold State.toRing
  simp only []
  repeat' split
  all_goals rfl

theorem State.toRing_gts (s : State) (t k p : Nat) (poison : Bool) : (s.toRing t k p poison).gts = s.gts := by
  unfold State.toRing
  simp only []
  repeat' split
  all_goals rfl

@[simp] theorem State.toRing_gt (s : State) (t k p : Nat) (poison : Bool) (j : Nat) : (s.toRing t k p poison).gt j = s.gt j := by
  simp only [State.gt, State.toRing_gts]

theorem State.updGt_gtOnly (s : State) (k : Nat) (f : Gt → Gt) : Only gtPart s (s.updGt k f) := rfl

/-- A timer but for its capture, which other timers' events change. -/
def Gt.uncaptured (g : Gt) : Gt := { g with cap := 0#32, full := false, ovr := false }

section
variable (g : Gt)
@[simp] theorem Gt.uncaptured_en : g.uncaptured.en = g.en := rfl
@[simp] theorem Gt.uncaptured_count : g.uncaptured.count = g.count := rfl
@[simp] theorem Gt.uncaptured_div : g.uncaptured.div = g.div := rfl
@[simp] theorem Gt.uncaptured_ticked : g.uncaptured.ticked = g.ticked := rfl
@[simp] theorem Gt.uncaptured_cmp : g.uncaptured.cmp = g.cmp := rfl
@[simp] theorem Gt.uncaptured_phase : g.uncaptured.phase = g.phase := rfl
@[simp] theorem Gt.uncaptured_evtCnt : g.uncaptured.evtCnt = g.evtCnt := rfl
@[simp] theorem Gt.uncaptured_lvl : g.uncaptured.lvl = g.lvl := rfl
end

/-- What an event does to the timer it is of. -/
def Gt.fired (g : Gt) : Gt := { g with evtCnt := satInc g.evtCnt 255, lvl := true }

section
variable (g : Gt)
@[simp] theorem Gt.fired_en : g.fired.en = g.en := rfl
@[simp] theorem Gt.fired_count : g.fired.count = g.count := rfl
@[simp] theorem Gt.fired_div : g.fired.div = g.div := rfl
@[simp] theorem Gt.fired_ticked : g.fired.ticked = g.ticked := rfl
@[simp] theorem Gt.fired_cmp : g.fired.cmp = g.cmp := rfl
@[simp] theorem Gt.fired_phase : g.fired.phase = g.phase := rfl
@[simp] theorem Gt.fired_evtCnt : g.fired.evtCnt = satInc g.evtCnt 255 := rfl
@[simp] theorem Gt.fired_lvl : g.fired.lvl = true := rfl
end

theorem fld_word (w : Word) (lo : Nat) : fld w.toNat 32 lo = w.toNat * 2 ^ lo := by
  rw [fld, Nat.mod_eq_of_lt w.isLt, Nat.shiftLeft_eq]

theorem State.gtCaptureAt_of_en {s : State} {k : Nat} (h : (s.gt k).en = true) : s.gtCaptureAt k =
    let u := s.updGt k fun g => { g with cap := s.gtCount k, full := true, ovr := g.ovr || g.full }
    if (s.gt k).capEvEn then u.postEvent 0x05 3 (k + 256 + (s.gtCount k).toNat * 2 ^ 32) else u := by
  have hsource : fld 1 8 8 = 256 := rfl
  simp [State.gtCaptureAt, h, fld_word, hsource]

theorem State.gtCaptureAt_of_not_en {s : State} {k : Nat} (h : (s.gt k).en = false) : s.gtCaptureAt k = s := by
  simp [State.gtCaptureAt, h]

theorem State.gtCaptureAt_only (s : State) (k : Nat) : Only gtPart s (s.gtCaptureAt k) := by
  cases h : (s.gt k).en
  · rw [State.gtCaptureAt_of_not_en h]
    exact Only.refl gtPart_part s
  · rw [State.gtCaptureAt_of_en h]
    dsimp only
    split
    · exact Only.trans gtPart_part (s.updGt_gtOnly k _) (State.toRing_gtOnly _ _ _ _ _)
    · exact s.updGt_gtOnly k _

theorem State.gtCaptureAt_gt_ne (s : State) {k j : Nat} (hj : j ≠ k) : (s.gtCaptureAt k).gt j = s.gt j := by
  cases h : (s.gt k).en
  · rw [State.gtCaptureAt_of_not_en h]
  · rw [State.gtCaptureAt_of_en h]
    dsimp only
    split <;> simp [State.postEvent, State.updGt_gt, hj]

theorem State.gtCaptureAt_uncaptured (s : State) (k j : Nat) : ((s.gtCaptureAt k).gt j).uncaptured = (s.gt j).uncaptured := by
  cases h : (s.gt k).en
  · rw [State.gtCaptureAt_of_not_en h]
  · rw [State.gtCaptureAt_of_en h]
    dsimp only
    split <;> simp only [State.postEvent, State.toRing_gt, State.updGt_gt] <;> split <;> simp_all [Gt.uncaptured]

theorem State.gtCaptureAt_gt_of_not_en (s : State) (k : Nat) {j : Nat} (h : (s.gt j).en = false) : (s.gtCaptureAt k).gt j = s.gt j := by
  by_cases hj : j = k
  · subst hj
    rw [State.gtCaptureAt_of_not_en h]
  · exact s.gtCaptureAt_gt_ne hj

/-! ### Events -/

/-- An event before the captures it triggers. -/
def State.gtCounted (s : State) (k : Nat) : State :=
  let u := s.updGt k Gt.fired
  if (s.gt k).evEn then u.postEvent 0x05 3 (k + fld (u.gtCount k).toNat 32 32) else u

theorem State.gtFire_eq (s : State) (k : Nat) : s.gtFire k = (below 32 fun j =>
    let g := (s.gtCounted k).gt j
    g.en && decide (g.capSrc = 2#3) && decide (g.capArg.toNat = k)).foldl State.gtCaptureAt (s.gtCounted k) := rfl

theorem State.gtCounted_gt (s : State) (k j : Nat) : (s.gtCounted k).gt j = if j = k then (s.gt k).fired else s.gt j := by
  unfold State.gtCounted
  dsimp only
  split <;> simp [State.postEvent, State.updGt_gt]

theorem State.gtFire_only (s : State) (k : Nat) : Only gtPart s (s.gtFire k) := by
  have hcounted : Only gtPart s (s.gtCounted k) := by
    unfold State.gtCounted
    dsimp only
    split
    · exact Only.trans gtPart_part (s.updGt_gtOnly k _) (State.toRing_gtOnly _ _ _ _ _)
    · exact s.updGt_gtOnly k _
  rw [State.gtFire_eq]
  exact Only.trans gtPart_part hcounted (Only.foldl gtPart_part State.gtCaptureAt_only _ _)

theorem State.gtFire_uncaptured (s : State) (k j : Nat) :
    ((s.gtFire k).gt j).uncaptured = if j = k then (s.gt k).uncaptured.fired else (s.gt j).uncaptured := by
  rw [State.gtFire_eq, foldl_keeps (P := fun t : State => (t.gt j).uncaptured) fun t k => t.gtCaptureAt_uncaptured k j,
    State.gtCounted_gt]
  split <;> rfl

theorem State.gtFire_gt_of_not_en (s : State) {k j : Nat} (hj : j ≠ k) (h : (s.gt j).en = false) : (s.gtFire k).gt j = s.gt j := by
  have hcounted : (s.gtCounted k).gt j = s.gt j := by rw [State.gtCounted_gt, if_neg hj]
  have hfold : ∀ (ks : List Nat) (t : State), t.gt j = s.gt j → (ks.foldl State.gtCaptureAt t).gt j = s.gt j := by
    intro ks
    induction ks with
    | nil => exact fun t ht => ht
    | cons i ks ih => exact fun t ht => ih _ ((t.gtCaptureAt_gt_of_not_en i (by rw [ht, h])).trans ht)
  rw [State.gtFire_eq]
  exact hfold _ _ hcounted

/-! ### Events of several timers -/

section
variable {ks : List Nat} (s : State) (j : Nat)

theorem State.foldl_gtFire_only : Only gtPart s (ks.foldl State.gtFire s) := Only.foldl gtPart_part State.gtFire_only ks s

theorem State.foldl_gtFire_uncaptured (hks : ks.Nodup) :
    ((ks.foldl State.gtFire s).gt j).uncaptured = if j ∈ ks then (s.gt j).uncaptured.fired else (s.gt j).uncaptured :=
  foldl_shows (P := fun t j => (t.gt j).uncaptured) (f := fun _ g => g.fired) State.gtFire_uncaptured hks s j

theorem State.foldl_gtFire_gt_of_not_en (hj : j ∉ ks) (h : (s.gt j).en = false) : (ks.foldl State.gtFire s).gt j = s.gt j := by
  induction ks generalizing s with
  | nil => rfl
  | cons k ks ih =>
    obtain ⟨hk, hks⟩ := List.ne_and_not_mem_of_not_mem_cons hj
    have hstep := s.gtFire_gt_of_not_en hk h
    rw [List.foldl_cons, ih (s.gtFire k) hks (by rw [hstep, h]), hstep]
end

theorem State.fireRisen_only (s t : State) : Only gtPart t (s.fireRisen t) := t.foldl_gtFire_only

/-- The timers that have an event from one state to the next. -/
def State.fires (s t : State) (k : Nat) : Bool := (s.risen t).contains k || (s.loadFires t).contains k

theorem State.fireRisen_uncaptured (s t : State) (j : Nat) (hj : j < 32) :
    ((s.fireRisen t).gt j).uncaptured = if s.fires t j then (t.gt j).uncaptured.fired else (t.gt j).uncaptured := by
  rw [State.fireRisen, State.foldl_gtFire_uncaptured _ _ (below_nodup _ _)]
  simp only [mem_below, hj, true_and]
  rfl

theorem State.fires_iff {s t : State} {k : Nat} : s.fires t k = true ↔
    k < 32 ∧ (t.gt k).lvl = true ∧ ((s.gt k).lvl = false ∨ 16 ≤ k ∧ s.stg.loadPend = true ∧ t.stg.loadPend = false) := by
  by_cases hload : s.stg.loadPend = true ∧ t.stg.loadPend = false
  · simp [State.fires, State.risen, State.loadFires, mem_below, hload]
    tauto
  · have hnone : s.loadFires t = [] := by simp_all [State.loadFires]
    simp [State.fires, State.risen, hnone, mem_below, hload]

theorem State.fireRisen_gt_of_not_en {s t : State} {j : Nat} (hfires : s.fires t j = false) (h : (t.gt j).en = false) :
    (s.fireRisen t).gt j = t.gt j := by
  refine State.foldl_gtFire_gt_of_not_en t j (fun hmem => ?_) h
  exact absurd (mem_below.mp hmem).2 (by simpa [State.fires] using hfires)

theorem State.fires_eq_false_of_lvl {s t : State} {k : Nat} (hk : k < 16) (h : (t.gt k).lvl = (s.gt k).lvl) : s.fires t k = false := by
  rw [Bool.eq_false_iff, Ne, State.fires_iff, h]
  rintro ⟨-, hlvl, hrose | ⟨hmember, -⟩⟩
  · simp_all
  · omega

/-! ### The group count (R360, R361) -/

/-- The timers with the stagger group, the event rings and the messages of their vectors. -/
abbrev stgPart (s t : State) : State := { s with gts := t.gts, stg := t.stg, evRings := t.evRings, hi := t.hi }

theorem stgPart_part : Part stgPart := ⟨fun _ => rfl, fun _ _ _ => rfl⟩

theorem Only.stg_of_gt {s t : State} (h : Only gtPart s t) : Only stgPart s t := h.mono fun _ _ => rfl

theorem Only.stg_eq {s t : State} (h : Only gtPart s t) : t.stg = s.stg := by rw [← h]

theorem Only.tb_eq {s t : State} (h : Only stgPart s t) : t.tb = s.tb := by rw [← h]

/-- A timer once the group count has become a value. -/
def State.countedMember (s : State) (c : Word) (k : Nat) (g : Gt) : Gt :=
  if 16 ≤ k ∧ g.en = true then { g with lvl := decide (c = g.phase) && decide (g.phase < s.stg.period) } else g

/-- MATCH of a member follows the group count. -/
def State.matched (s : State) (g : Gt) : Gt := { g with lvl := s.stgMatch g }

theorem State.stgCountTo_eq (s : State) (c : Word) :
    s.stgCountTo c = (below 32 fun k => decide (16 ≤ k) && (s.gt k).en).foldl
      (fun t k => t.updGt k ({ s with stg := { s.stg with count := c } } : State).matched) { s with stg := { s.stg with count := c } } := rfl

theorem State.stgCountTo_gt (s : State) (c : Word) {k : Nat} (hk : k < 32) : (s.stgCountTo c).gt k = s.countedMember c k (s.gt k) := by
  have hstays : ({ s with stg := { s.stg with count := c } } : State).gt k = s.gt k := rfl
  rw [State.stgCountTo_eq, foldl_shows (P := fun (t : State) j => t.gt j) (f := fun _ => State.matched _)
    (fun t i j => t.updGt_gt i _ j) (below_nodup _ _), hstays]
  simp only [mem_below, hk, true_and, Bool.and_eq_true, decide_eq_true_eq, State.countedMember]
  split
  · next h => simp [State.matched, State.stgMatch, h.2]
  · rfl

theorem State.stgCountTo_only (s : State) (c : Word) : Only stgPart s (s.stgCountTo c) := by
  rw [State.stgCountTo_eq]
  exact Only.trans stgPart_part (t := { s with stg := { s.stg with count := c } }) rfl
    (Only.foldl stgPart_part (fun t k => (t.updGt_gtOnly k _).stg_of_gt) _ _)

theorem State.stgCountTo_stg (s : State) (c : Word) : (s.stgCountTo c).stg = { s.stg with count := c } := by
  rw [State.stgCountTo_eq]
  exact foldl_keeps (P := State.stg) (fun t k => t.updGt_stg k _) _ _

theorem State.stgApplyLoad_gt (s : State) {k : Nat} (hk : k < 32) :
    s.stgApplyLoad.gt k = if 16 ≤ k ∧ s.stg.loadPend = true then { s.gt k with phase := (s.gt k).cmp } else s.gt k := by
  have hmem : k ∈ (List.range 16).map (· + 16) ↔ 16 ≤ k := by
    simp only [List.mem_map, List.mem_range]
    exact ⟨by rintro ⟨i, -, rfl⟩; omega, fun h => ⟨k - 16, by omega, by omega⟩⟩
  unfold State.stgApplyLoad
  split
  · next h =>
    have hnodup : ((List.range 16).map (· + 16)).Nodup := by decide
    simp only [State.gt, tabGet_tabUpdAll hnodup, hmem, h, and_true]
  · next h => simp [h]

theorem State.stgApplyLoad_stg (s : State) : s.stgApplyLoad.stg =
    { s.stg with loadPend := false, period := if s.stg.loadPend then s.stg.shadow else s.stg.period } := by
  cases h : s.stg.loadPend
  · rw [State.stgApplyLoad, if_neg (by simp [h]), if_neg Bool.false_ne_true, ← h]
  · simp [State.stgApplyLoad, h]

theorem State.setTimers_only (s : State) (gts : Tab Gt) (stg : Stagger) : Only stgPart s { s with gts := gts, stg := stg } := rfl

theorem State.stgApplyLoad_only (s : State) : Only stgPart s s.stgApplyLoad := by
  unfold State.stgApplyLoad
  split
  · exact s.setTimers_only _ _
  · exact Only.refl stgPart_part s

/-! The return to 0 -/

theorem State.stgReturn_only (s : State) : Only stgPart s s.stgReturn :=
  Only.trans stgPart_part (Only.trans stgPart_part s.stgApplyLoad_only (State.stgCountTo_only _ _)) (State.fireRisen_only _ _).stg_of_gt

theorem State.stgReturn_stg (s : State) : s.stgReturn.stg = { s.stg with
    count := 0#32, loadPend := false, period := if s.stg.loadPend then s.stg.shadow else s.stg.period } := by
  rw [State.stgReturn, (State.fireRisen_only _ _).stg_eq, State.stgReturnTo, State.stgCountTo_stg, State.stgApplyLoad_stg]

theorem State.stgReturnTo_gt_of_lt (s : State) {k : Nat} (hk : k < 16) : s.stgReturnTo.gt k = s.gt k := by
  rw [State.stgReturnTo, State.stgCountTo_gt _ _ (by omega), State.countedMember, if_neg (by omega), State.stgApplyLoad_gt _ (by omega),
    if_neg (by omega)]

theorem State.stgReturnTo_phase (s : State) {k : Nat} (hk : k < 32) (hmember : 16 ≤ k) :
    (s.stgReturnTo.gt k).phase = if s.stg.loadPend then (s.gt k).cmp else (s.gt k).phase := by
  rw [State.stgReturnTo, State.stgCountTo_gt _ _ hk, State.countedMember, State.stgApplyLoad_gt _ hk]
  split_ifs <;> simp_all

theorem State.fireRisen_count (s t : State) {k : Nat} (hk : k < 32) : ((s.fireRisen t).gt k).count = (t.gt k).count := by
  have h := congrArg Gt.count (s.fireRisen_uncaptured t k hk)
  simpa [apply_ite Gt.count] using h

theorem State.fireRisen_phase (s t : State) {k : Nat} (hk : k < 32) : ((s.fireRisen t).gt k).phase = (t.gt k).phase := by
  have h := congrArg Gt.phase (s.fireRisen_uncaptured t k hk)
  simpa [apply_ite Gt.phase] using h

/-- An independent timer has no event, and so no change but of its capture, as the group returns. -/
theorem State.stgReturn_uncaptured_of_lt (s : State) {k : Nat} (hk : k < 16) : (s.stgReturn.gt k).uncaptured = (s.gt k).uncaptured := by
  have hstays := s.stgReturnTo_gt_of_lt hk
  rw [State.stgReturn, State.fireRisen_uncaptured _ _ _ (by omega), State.fires_eq_false_of_lvl hk (by rw [hstays])]
  simp [hstays]

/-- Settles O16. -/
theorem staggerLoadsAtTheReturnToZero : Obligations.StaggerLoadsAtTheReturnToZero := by
  intro s
  have hend : exec .staggerPeriodEnd s = .next (if s.stg.en then s.stgReturn else s) := rfl
  refine ⟨rfl, fun h => by rw [hend, h]; rfl, fun h => ⟨s.stgReturn, by rw [hend, h]; rfl, s.stgReturn_stg, fun k hk => ?_, fun k hk => ?_,
    Only.back stgPart_part s.stgReturn_only⟩⟩
  · rw [State.stgReturn, State.fireRisen_phase _ _ k.isLt, State.stgReturnTo_phase _ k.isLt hk]
  · have h := s.stgReturn_uncaptured_of_lt hk
    exact ⟨by simpa using congrArg Gt.count h, by simpa using congrArg Gt.lvl h, by simpa using congrArg Gt.evtCnt h⟩

/-! ### One tick (R353, R354) -/

/-- What a tick does to an independent timer, before its event. -/
def Gt.tick (g : Gt) : Gt :=
  if g.en = false then g
  else if g.ticked then { g with ticked := false }
  else if g.div < g.presc.toNat then { g with div := g.div + 1 }
  else { g with div := 0, count := g.count + 1#32, lvl := decide (g.count + 1#32 = g.cmp) }

theorem State.gtTick_gt (s : State) (k j : Nat) : (s.gtTick k).gt j = if j = k then (s.gt k).tick else s.gt j := by
  by_cases hj : j = k
  · subst hj
    unfold State.gtTick Gt.tick
    dsimp only
    split_ifs <;> simp_all [State.gtCountTo]
  · unfold State.gtTick
    dsimp only
    split_ifs <;> simp [State.gtCountTo, State.updGt_gt, hj]

theorem State.gtTick_only (s : State) (k : Nat) : Only gtPart s (s.gtTick k) := by
  unfold State.gtTick
  dsimp only
  split_ifs
  · exact Only.refl gtPart_part s
  · exact s.updGt_gtOnly k _
  · exact s.updGt_gtOnly k _
  · exact Only.trans gtPart_part (s.updGt_gtOnly k _) (State.updGt_gtOnly _ k _)

/-- The timers after their tick. -/
def State.gtTicked (s : State) : State := (below 16 fun k => (s.gt k).en).foldl State.gtTick s

theorem State.gtTicked_only (s : State) : Only gtPart s s.gtTicked := Only.foldl gtPart_part State.gtTick_only _ s

theorem State.gtTicked_gt (s : State) {k : Nat} (hk : k < 16) : s.gtTicked.gt k = (s.gt k).tick := by
  rw [State.gtTicked, foldl_shows (P := fun (t : State) j => t.gt j) (f := fun _ => Gt.tick) State.gtTick_gt (below_nodup _ _)]
  cases h : (s.gt k).en <;> simp [mem_below, h, hk, Gt.tick]

theorem State.stgTick_only (s : State) : Only stgPart s s.stgTick := by
  have hdiv : ∀ n, Only stgPart s { s with stg := { s.stg with div := n } } := fun _ => rfl
  unfold State.stgTick
  dsimp only
  split_ifs
  · exact hdiv _
  · exact Only.trans stgPart_part (hdiv 0) (State.stgCountTo_only _ _)
  · exact Only.trans stgPart_part (hdiv 0) (Only.trans stgPart_part (State.stgApplyLoad_only _) (State.stgCountTo_only _ _))
  · exact Only.refl stgPart_part s

theorem State.stgTick_of_not_en {s : State} (h : s.stg.en = false) : s.stgTick = s := by
  simp [State.stgTick, h]

theorem State.stgTick_gt_of_lt (s : State) {k : Nat} (hk : k < 16) : s.stgTick.gt k = s.gt k := by
  have hdiv : ∀ n, ({ s with stg := { s.stg with div := n } } : State).gt k = s.gt k := fun _ => rfl
  have hcount : ∀ (u : State) c, (u.stgCountTo c).gt k = u.gt k := fun u c => by
    rw [State.stgCountTo_gt _ _ (by omega), State.countedMember, if_neg (by omega)]
  unfold State.stgTick
  dsimp only
  split_ifs
  · rw [hdiv]
  · rw [hcount, hdiv]
  · rw [State.stgReturnTo_gt_of_lt _ hk, hdiv]
  · rfl

theorem State.timersTick_eq (s : State) : s.timersTick = s.fireRisen s.gtTicked.stgTick := rfl

theorem State.timersTick_only (s : State) : Only stgPart s s.timersTick := by
  rw [State.timersTick_eq]
  exact Only.trans stgPart_part s.gtTicked_only.stg_of_gt
    (Only.trans stgPart_part (State.stgTick_only _) (State.fireRisen_only _ _).stg_of_gt)

theorem State.timersTick_stg {s : State} (h : s.stg.en = false) : s.timersTick.stg = s.stg := by
  have hticked : s.gtTicked.stg = s.stg := s.gtTicked_only.stg_eq
  rw [State.timersTick_eq, (State.fireRisen_only _ _).stg_eq, State.stgTick_of_not_en (by rw [hticked, h]), hticked]

section
variable {s : State} {k : Nat} (hk : k < 16)
include hk

theorem State.gtTicked_stgTick_gt : s.gtTicked.stgTick.gt k = (s.gt k).tick := by
  rw [State.stgTick_gt_of_lt _ hk, State.gtTicked_gt _ hk]

/-- The event a tick may bring changes neither the count, the prescaler nor the mark of a write met by the tick. -/
theorem State.timersTick_counts : (s.timersTick.gt k).count = (s.gt k).tick.count ∧ (s.timersTick.gt k).div = (s.gt k).tick.div ∧
    (s.timersTick.gt k).ticked = (s.gt k).tick.ticked := by
  have h := s.fireRisen_uncaptured s.gtTicked.stgTick k (by omega)
  rw [State.gtTicked_stgTick_gt hk, ← State.timersTick_eq] at h
  refine ⟨?_, ?_, ?_⟩
  · simpa [apply_ite Gt.count] using congrArg Gt.count h
  · simpa [apply_ite Gt.div] using congrArg Gt.div h
  · simpa [apply_ite Gt.ticked] using congrArg Gt.ticked h

theorem State.timersTick_gt_of_not_en (h : (s.gt k).en = false) : s.timersTick.gt k = s.gt k := by
  have hstays : s.gtTicked.stgTick.gt k = s.gt k := by rw [State.gtTicked_stgTick_gt hk, Gt.tick, if_pos h]
  rw [State.timersTick_eq, State.fireRisen_gt_of_not_en (State.fires_eq_false_of_lvl hk (by rw [hstays])) (by rw [hstays, h]), hstays]
end

theorem State.flushRecs_only (s : State) : Only recPart s s.flushRecs := by
  refine Only.foldl recPart_part (fun t e => ?_) _ _
  split
  · split
    · exact t.reportRec_only e.1
    · exact Only.refl recPart_part t
  · exact Only.refl recPart_part t

/-- What a tick may change beside the timebases. -/
abbrev tickPart (s t : State) : State :=
  { s with gts := t.gts, stg := t.stg, fl := t.fl, evRings := t.evRings, evqA := t.evqA, evqB := t.evqB, hi := t.hi }

theorem tickPart_part : Part tickPart := ⟨fun _ => rfl, fun _ _ _ => rfl⟩

theorem Only.gt_eq {s t : State} (h : Only recPart s t) (k : Nat) : t.gt k = s.gt k := by
  rw [← h]
  rfl

/-- The timebases after a tick (R348, log entry 71). -/
def Tbs.ticked (b : Tbs) : Tbs := { b with
  a := tickOf b.laLf b.skewA b.a, skewA := b.skewA - 1, b := tickOf b.lbLf b.skewB b.b, skewB := b.skewB - 1, h := b.h + 1#64 }

theorem State.tick_of_running {s : State} (h : s.pm.inReset = false) :
    s.tick = ({ s with tb := s.tb.ticked } : State).timersTick.flushRecs := by
  rw [State.tick, if_neg (by simp [h])]
  rfl

/-- Settles O3: the counts of the timebases first, then the timers, then the records that wait for their 10 ms. -/
theorem idleTickAdvancesTheCounts : Obligations.IdleTickAdvancesTheCounts := by
  intro s hq
  have hstep : step s = .next s.tick := by simp [step, hq]
  refine ⟨fun h => by rw [hstep, State.tick, if_pos h], fun h => ⟨s.tick, hstep, ?_⟩⟩
  rw [State.tick_of_running h]
  obtain ⟨u, hu⟩ : ∃ u : State, u = { s with tb := s.tb.ticked } := ⟨_, rfl⟩
  rw [← hu]
  have hgts : ∀ k, u.gt k = s.gt k := fun k => by rw [hu]; rfl
  have hflush := u.timersTick.flushRecs_only
  have hframe : Only tickPart u u.timersTick.flushRecs :=
    Only.trans tickPart_part (u.timersTick_only.mono fun _ _ => rfl) (hflush.mono fun _ _ => rfl)
  have hcounts : ∀ k : Fin 16, _ := fun k => u.timersTick_counts k.isLt
  simp only [hflush.gt_eq]
  refine ⟨?timebases, fun k hen ht => ?met, fun k hen ht => ⟨fun hdiv => ?prescaler, fun hdiv => ?count⟩, fun k hen => ?disabled, fun hen => ?group, ?_⟩
  case timebases =>
    rw [← hframe, hu]
    simp [Tbs.ticked, tickOf]
  case met =>
    obtain ⟨hcount, hdiv, hticked⟩ := hcounts k
    rw [hcount, hdiv, hticked, hgts]
    simp [Gt.tick, hen, ht]
  case prescaler =>
    obtain ⟨hcount, hdivs, -⟩ := hcounts k
    rw [hcount, hdivs, hgts]
    simp [Gt.tick, hen, ht, hdiv]
  case count =>
    obtain ⟨hcount, hdivs, -⟩ := hcounts k
    rw [hcount, hdivs, hgts]
    simp [Gt.tick, hen, ht, Nat.not_lt.mpr hdiv]
  case disabled => rw [State.timersTick_gt_of_not_en k.isLt (by rw [hgts, hen]), hgts]
  case group =>
    have hstays := State.timersTick_stg (s := u) (by rw [hu]; exact hen)
    rw [← hflush]
    exact hstays.trans (by rw [hu])
  · rw [← hframe, hu]
    exact ⟨rfl, rfl, rfl, rfl, rfl⟩

/-! ### Accesses to the registers of a timer -/

theorem State.updGt_congr {s : State} {k : Nat} {f h : Gt → Gt} (e : f (s.gt k) = h (s.gt k)) : s.updGt k f = s.updGt k h := by
  have e' : f (tabGet Gt.init s.gts k) = h (tabGet Gt.init s.gts k) := e
  simp only [State.updGt, tabUpd, e']

theorem State.gtCfgBad_iff {s : State} {k : Nat} {v : Word} : s.gtCfgBad k v = true ↔
    (k < 16 ∧ bits v 15 0 = 0) ∨ 4 < bits v 23 21 ∨ (3 ≤ bits v 23 21 ∧ s.portMax ≤ bits v 28 24) := by
  simp only [State.gtCfgBad, Bool.or_eq_true, Bool.and_eq_true, decide_eq_true_eq, beq_iff_eq]
  omega

/-- The fields of GT_CFG but EN. -/
def Gt.configured (v : Word) (g : Gt) : Gt := { g with
  evEn := bit v 30, capEvEn := bit v 29, capArg := BitVec.ofNat 5 (bits v 28 24)
  capSrc := BitVec.ofNat 3 (bits v 23 21), presc := BitVec.ofNat 16 (bits v 15 0) }

theorem State.gtWriteCfg_setBit_31 (s : State) (k : Nat) (v : Word) (en : Bool) : s.gtWriteCfg k (setBit v 31 en) = s.updGt k fun g =>
    { g.configured v with
      en := en, div := if en && !g.en then 0 else g.div, ticked := g.ticked && en && g.en
      lvl := en && (if g.en then g.lvl else
        if k < 16 then decide ((s.gt k).count = (s.gt k).cmp)
        else decide (s.stg.count = (s.gt k).phase) && decide ((s.gt k).phase < s.stg.period)) } := by
  have hbit : ∀ i, i ≠ 31 → bit (setBit v 31 en) i = bit v i := fun i => bit_setBit_31_ne v en
  have hbits : ∀ hi lo, hi < 31 → bits (setBit v 31 en) hi lo = bits v hi lo := fun hi lo => bits_setBit_31 v en
  unfold State.gtWriteCfg
  simp only [bit_setBit_31, hbit 30 (by decide), hbit 29 (by decide), hbits 28 24 (by decide), hbits 23 21 (by decide),
    hbits 15 0 (by decide), State.stgMatch, Bool.true_and]
  cases en <;> rfl

/-- Settles O13. -/
theorem timerEnableAndDisable : Obligations.TimerEnableAndDisable := by
  intro s k v bad g cfg
  refine ⟨fun h => ?_, fun h => ?_⟩
  · have hbad : s.gtCfgBad k v = true := State.gtCfgBad_iff.mpr h
    exact ⟨if_pos hbad, if_pos hbad⟩
  · have hgood : ¬ s.gtCfgBad k v = true := fun hbad => h (State.gtCfgBad_iff.mp hbad)
    have henable : exec (.gtEnable k v) s = .next (s.gtWriteCfg k (setBit v 31 true)) := if_neg hgood
    have hdisable : exec (.gtDisable k v) s = .next (s.gtWriteCfg k (setBit v 31 false)) := if_neg hgood
    rw [henable, hdisable, State.gtWriteCfg_setBit_31, State.gtWriteCfg_setBit_31]
    refine ⟨congrArg Host.Outcome.next (State.updGt_congr ?_), fun hen => congrArg Host.Outcome.next (State.updGt_congr ?_),
      fun hen => congrArg Host.Outcome.next (State.updGt_congr ?_)⟩
    · simp [cfg, Gt.configured]
    · have hen : (s.gt k).en = true := hen
      simp [cfg, Gt.configured, hen]
    · have hen : (s.gt k).en = false := hen
      simp [cfg, Gt.configured, hen]

/-- Settles O14: a capture edge is `State.gtCaptureAt`, whose equation there is for an enabled timer. -/
theorem timerCaptures : Obligations.TimerCaptures := by
  intro s k g u taken
  have hsoft : exec (.softwareCapture k) s = if g.capSrc = 1#3 then .next (s.gtCaptureAt k) else .next s := rfl
  have hedge : exec (.gtCapture k) s = if g.capSrc = 0#3 then .next s else .next (s.gtCaptureAt k) := rfl
  have htaken : g.en = true → s.gtCaptureAt k = taken := fun hen => State.gtCaptureAt_of_en hen
  have hnone : g.en = false → s.gtCaptureAt k = s := fun hen => State.gtCaptureAt_of_not_en hen
  refine ⟨fun hen hsrc => ?_, fun h => ?_, fun hen hsrc => ?_, fun h => ?_, rfl⟩
  · rw [hsoft, if_pos hsrc, htaken hen]
  · rw [hsoft]
    split
    · next hsrc => rw [hnone (h.resolve_right (not_not.mpr hsrc))]
    · rfl
  · rw [hedge, if_neg hsrc, htaken hen]
  · rw [hedge]
    split
    · rfl
    · next hsrc => rw [hnone (h.resolve_right hsrc)]

/-! ### Match events (R355, R356, R358, R360) -/

/-- What no event changes of a timer. -/
def Gt.settings (g : Gt) : Gt := { g with count := 0#32, lvl := false, evtCnt := 0, cap := 0#32, full := false, ovr := false }

theorem State.countedMember_settings (s : State) (c : Word) (k : Nat) (g : Gt) : (s.countedMember c k g).settings = g.settings := by
  unfold State.countedMember
  split <;> rfl

theorem State.gtFire_settings (s : State) (k j : Nat) : ((s.gtFire k).gt j).settings = (s.gt j).settings := by
  have h := congrArg Gt.settings (s.gtFire_uncaptured k j)
  split at h
  · next hj => subst hj; exact h
  · exact h

theorem State.fireRisen_settings (s t : State) {j : Nat} (hj : j < 32) : ((s.fireRisen t).gt j).settings = (t.gt j).settings := by
  have h := congrArg Gt.settings (s.fireRisen_uncaptured t j hj)
  split at h <;> exact h

theorem State.gtCountTo_gt_self (s : State) (k : Nat) (c : Word) :
    (s.gtCountTo k c).gt k = { s.gt k with count := c, lvl := (s.gt k).en && decide (c = (s.gt k).cmp) } := State.updGt_gt_self _ _ _

/-- A timer whose MATCH was 0 and whose count becomes its compare value has one event. -/
theorem State.gtSetCount_cmp {s : State} {k : Nat} (hen : (s.gt k).en = true) (hlvl : (s.gt k).lvl = false) :
    s.gtSetCount k (s.gt k).cmp = (s.gtCountTo k (s.gt k).cmp).gtFire k := by
  have hrose : ((s.gtCountTo k (s.gt k).cmp).gt k).lvl = true := by simp [State.gtCountTo, hen]
  simp [State.gtSetCount, hrose, hlvl]

section
variable {s : State} {k : Fin 32} (hen : (s.gt k).en = true) (hlvl : (s.gt k).lvl = false)
include hen hlvl

theorem State.gtMatch_independent (hk : k.val < 16) : exec (.gtMatch k) s = .next ((s.gtCountTo k (s.gt k).cmp).gtFire k) := by
  have h : exec (.gtMatch k) s = .next (s.gtSetCount k (s.gt k).cmp) := by
    change execGtMatch k s = _
    simp [execGtMatch, hk, hen, hlvl, ok]
  rw [h, State.gtSetCount_cmp hen hlvl]

theorem State.gtMatch_member (hk : 16 ≤ k.val) (hgroup : s.stg.en = true) (hphase : (s.gt k).phase < s.stg.period) :
    exec (.gtMatch k) s = .next (if (s.gt k).phase = 0#32 then s.stgReturn else s.stgSetCount (s.gt k).phase) := by
  change execGtMatch k s = _
  simp [execGtMatch, Nat.not_lt.mpr hk, hen, hlvl, hgroup, hphase, ok]
end

theorem State.fires_stgCountTo {s : State} {c : Word} {k : Nat} (hk : k < 32) : s.fires (s.stgCountTo c) k = true ↔
    (s.countedMember c k (s.gt k)).lvl = true ∧ (s.gt k).lvl = false := by
  rw [State.fires_iff, State.stgCountTo_gt _ _ hk, State.stgCountTo_stg]
  simp [hk]

/-- An event of each member whose phase the group count reaches. -/
theorem State.stgSetCount_gt_of_not_en (s : State) (c : Word) {j : Nat} (hj : j < 32) (h : (s.gt j).en = false) :
    (s.stgSetCount c).gt j = s.gt j := by
  have hstays : s.countedMember c j (s.gt j) = s.gt j := by simp [State.countedMember, h]
  have hfires : s.fires (s.stgCountTo c) j = false := by
    rw [Bool.eq_false_iff, Ne, State.fires_stgCountTo hj, hstays]
    simp
  rw [State.stgSetCount, State.fireRisen_gt_of_not_en hfires (by rw [State.stgCountTo_gt _ _ hj, hstays, h]), State.stgCountTo_gt _ _ hj,
    hstays]

theorem State.stgSetCount_phase {s : State} {k : Nat} (hk : k < 32) (hmember : 16 ≤ k) (hen : (s.gt k).en = true)
    (hlvl : (s.gt k).lvl = false) (hphase : (s.gt k).phase < s.stg.period) :
    ((s.stgSetCount (s.gt k).phase).gt k).uncaptured = (s.gt k).uncaptured.fired := by
  have hmatched : s.countedMember (s.gt k).phase k (s.gt k) = { s.gt k with lvl := true } := by
    simp [State.countedMember, hmember, hen, hphase]
  have hfires : s.fires (s.stgCountTo (s.gt k).phase) k = true := by
    rw [State.fires_stgCountTo hk, hmatched]
    exact ⟨rfl, hlvl⟩
  rw [State.stgSetCount, State.fireRisen_uncaptured _ _ _ hk, if_pos hfires, State.stgCountTo_gt _ _ hk, hmatched]
  rfl

theorem State.stgSetCount_only (s : State) (c : Word) : Only stgPart s (s.stgSetCount c) :=
  Only.trans stgPart_part (s.stgCountTo_only c) (State.fireRisen_only _ _).stg_of_gt

theorem State.stgSetCount_stg (s : State) (c : Word) : (s.stgSetCount c).stg = { s.stg with count := c } := by
  rw [State.stgSetCount, (State.fireRisen_only _ _).stg_eq, State.stgCountTo_stg]

/-! A write of GT_CMP -/

/-- The timer of a write of GT_CMP, before the event of the write. -/
def Gt.loaded (g : Gt) (v : Word) (met : Bool) : Gt :=
  { g with cmp := v, count := if met then g.count + 1#32 else g.count, div := if met then 0 else g.div, ticked := g.ticked || met }

/-- The tick that a write of GT_CMP meets. -/
def Gt.meets (g : Gt) (tick : Bool) : Bool := tick && g.en && decide (g.presc.toNat ≤ g.div) && !g.ticked

theorem State.gtWriteCmp_of_lt (s : State) {k : Nat} (hk : k < 16) (v : Word) (tick : Bool) : s.gtWriteCmp k v tick =
    let g := s.gt k
    let u := s.updGt k fun g' => g'.loaded v (g.meets tick)
    (if g.en && decide (v = g.count) then u.gtFire k else u).updGt k fun g' =>
      { g' with lvl := g'.en && decide ((g.loaded v (g.meets tick)).count = v) } := by
  rw [State.gtWriteCmp, if_pos hk]
  rfl

section
variable {s : State} {k : Nat} (hk : k < 16) (v : Word) (tick : Bool)
include hk

theorem State.gtWriteCmp_only : Only gtPart s (s.gtWriteCmp k v tick) := by
  rw [State.gtWriteCmp_of_lt s hk]
  dsimp only
  refine Only.trans gtPart_part ?_ (State.updGt_gtOnly _ k _)
  split
  · exact Only.trans gtPart_part (s.updGt_gtOnly k _) (State.gtFire_only _ k)
  · exact s.updGt_gtOnly k _

theorem State.gtWriteCmp_uncaptured : ((s.gtWriteCmp k v tick).gt k).uncaptured =
    let g := s.gt k
    let c := (g.loaded v (g.meets tick)).count
    let h := (g.loaded v (g.meets tick)).uncaptured
    { (if g.en && decide (v = g.count) then h.fired else h) with lvl := g.en && decide (c = v) } := by
  have hcapture : ∀ (x : Gt) (c : Word), ({ x with lvl := x.en && decide (c = v) } : Gt).uncaptured =
    { x.uncaptured with lvl := x.uncaptured.en && decide (c = v) } := fun _ _ => rfl
  rw [State.gtWriteCmp_of_lt s hk]
  simp only [State.updGt_gt_self, hcapture]
  split
  · rw [State.gtFire_uncaptured, if_pos rfl, State.updGt_gt_self]
    rfl
  · rw [State.updGt_gt_self]
    rfl

theorem State.gtWriteCmp_gt_ne (hno : ¬ ((s.gt k).en = true ∧ v = (s.gt k).count)) {j : Nat} (hj : j ≠ k) :
    (s.gtWriteCmp k v tick).gt j = s.gt j := by
  rw [State.gtWriteCmp_of_lt s hk]
  dsimp only
  rw [if_neg (by simpa using hno), State.updGt_gt_ne _ _ _ _ hj, State.updGt_gt_ne _ _ _ _ hj]
end

/-- Settles O15: events of a timer of its own, of the members of the group, and those a write of GT_CMP brings. -/
theorem timerEvents : Obligations.TimerEvents := by
  refine ⟨fun s k hen hlvl hgroup => ⟨fun hk hphase => ?returns, fun hphase => ?event⟩, fun s k v tick => ⟨fun hk => ?shadow, fun hk => ?write⟩⟩
  case returns =>
    obtain ⟨hon, hlt⟩ := hgroup hk
    rw [State.gtMatch_member hen hlvl hk hon hlt, if_pos hphase]
    change _ = execStaggerPeriodEnd s
    rw [execStaggerPeriodEnd, if_pos hon, ok]
  case event =>
    by_cases hk : k.val < 16
    · have hfire := (s.gtCountTo k (s.gt k).cmp).gtFire_uncaptured k k
      rw [if_pos rfl, State.gtCountTo_gt_self] at hfire
      have honly : Only gtPart s ((s.gtCountTo k (s.gt k).cmp).gtFire k) :=
        Only.trans gtPart_part (s.updGt_gtOnly k _) (State.gtFire_only _ k)
      refine ⟨_, State.gtMatch_independent hen hlvl hk, by simpa using congrArg Gt.evtCnt hfire, by simpa using congrArg Gt.lvl hfire,
        fun _ => ⟨by simpa using congrArg Gt.count hfire, honly.stg_eq⟩, fun h => absurd hk (Nat.not_lt.mpr h), fun j => ?_, fun j hoff => ?_,
        Only.back stgPart_part honly.stg_of_gt⟩
      · refine (State.gtFire_settings _ _ _).trans ?_
        rw [State.gtCountTo, State.updGt_gt]
        split
        · next hj => rw [hj]; rfl
        · rfl
      · have hj : j.val ≠ k.val := fun e => by rw [e, hen] at hoff; exact nomatch hoff
        have hstays : (s.gtCountTo k (s.gt k).cmp).gt j = s.gt j := State.updGt_gt_ne _ _ _ _ hj
        rw [State.gtFire_gt_of_not_en _ hj (by rw [hstays, hoff]), hstays]
    · have hmember : 16 ≤ k.val := Nat.not_lt.mp hk
      obtain ⟨hon, hlt⟩ := hgroup hmember
      have hfire := State.stgSetCount_phase k.isLt hmember hen hlvl hlt
      refine ⟨s.stgSetCount (s.gt k).phase, ?_, by simpa using congrArg Gt.evtCnt hfire, by simpa using congrArg Gt.lvl hfire,
        fun h => absurd h hk, fun _ => s.stgSetCount_stg _, fun j => ?_, fun j => s.stgSetCount_gt_of_not_en _ j.isLt,
        Only.back stgPart_part (s.stgSetCount_only _)⟩
      · rw [State.gtMatch_member hen hlvl hmember hon hlt, if_neg (hphase hmember)]
      · refine (State.fireRisen_settings _ _ j.isLt).trans ?_
        rw [State.stgCountTo_gt _ _ j.isLt]
        exact s.countedMember_settings _ _ _
  case shadow =>
    change ok (s.gtWriteCmp k v tick) = _
    rw [State.gtWriteCmp, if_neg (Nat.not_lt.mpr hk), ok]
  case write =>
    have hg := State.gtWriteCmp_uncaptured (s := s) hk v tick
    refine ⟨s.gtWriteCmp k v tick, rfl, ?_, ?_, ?_, ?_, ?_, fun hno j hj => State.gtWriteCmp_gt_ne hk v tick hno (Fin.val_ne_of_ne hj),
      Only.back gtPart_part (State.gtWriteCmp_only hk v tick)⟩
    · simpa [apply_ite Gt.cmp, Gt.loaded] using congrArg Gt.cmp hg
    · simpa [apply_ite Gt.count, Gt.loaded, Gt.meets] using congrArg Gt.count hg
    · simpa [apply_ite Gt.ticked, Gt.loaded, Gt.meets] using congrArg Gt.ticked hg
    · simpa [Gt.loaded, Gt.meets] using congrArg Gt.lvl hg
    · simpa [apply_ite Gt.evtCnt, Gt.loaded] using congrArg Gt.evtCnt hg

end Sys2Proof.Machine
end


section
/-!
# Proofs: registers (R10 to R12, R481 to R493)

An offset of the index has its row, and the row its die; a write of it goes by one of the equations of `State.writeReg` below.
-/
namespace Sys2Proof.Machine
open Sys2Proof

/-! ### The dies of the index -/

section
variable {s : State} {off : Nat}

theorem State.portMax_le (s : State) : s.portMax ≤ 32 := by
  unfold State.portMax
  split <;> decide

theorem RegRow.has_bounds {r : RegRow} (hpos : 0 < r.stride2) (h : r.has off = true) :
    r.base ≤ off ∧ off < r.base + (r.n - 1) * r.stride + r.n2 * r.stride2 := by
  simp only [RegRow.has, Bool.and_eq_true, decide_eq_true_eq, Nat.div_lt_iff_lt_mul hpos] at h
  obtain ⟨hlo, ⟨hn, hn2⟩, -⟩ := h
  have hsplit := Nat.div_add_mod' (off - r.base) r.stride
  have helem : (off - r.base) / r.stride * r.stride ≤ (r.n - 1) * r.stride := Nat.mul_le_mul_right _ (Nat.le_sub_one_of_lt hn)
  omega

/-- What `State.onHb` and `State.onFd` look for. -/
theorem State.exists_row_of_die {d : Die} (h : (match regRow s.portMax off with | some r => r.die == d | none => false) = true) :
    ∃ r ∈ regIndex s.portMax ++ indexMsix, r.has off = true ∧ r.die = d := by
  split at h
  · next r hr =>
    rw [regRow] at hr
    exact ⟨r, List.mem_of_find?_eq_some hr, by simpa using List.find?_some hr, by simpa using h⟩
  · exact nomatch h

/-- The registers of HB lie below those of the pairs and above those of the faults, those of FD between 0x18000 and 0x1A000 but for two. -/
theorem regIndex_dies {ports : Nat} (hports : ports ≤ 32) : ∀ r ∈ regIndex ports ++ indexMsix, 0 < r.stride2 ∧
    (r.die = .hb → r.base + (r.n - 1) * r.stride + r.n2 * r.stride2 ≤ 0x10000 ∨ 0x1B000 ≤ r.base) ∧
    (r.die = .fd → (0x5108 ≤ r.base ∧ r.base + (r.n - 1) * r.stride + r.n2 * r.stride2 ≤ 0x5110) ∨ 0x18000 ≤ r.base) := by
  simp only [regIndex, indexGlobal, indexHost, indexPower, indexOtp, indexTimers, indexChecks, indexBist, indexPorts, indexPairs, indexField,
    indexFaults, indexDebug, indexMsix, regs, regArray, List.cons_append, List.nil_append, List.forall_mem_cons]
  simp
  omega

theorem State.onHb_eq_false (hlo : 0x10000 ≤ off) (hhi : off < 0x1B000) : s.onHb off = false := by
  rw [Bool.eq_false_iff]
  intro h
  obtain ⟨r, hmem, hhas, hdie⟩ := State.exists_row_of_die h
  obtain ⟨hpos, hhb, -⟩ := regIndex_dies s.portMax_le r hmem
  have hbounds := RegRow.has_bounds hpos hhas
  have := hhb hdie
  omega

theorem State.onHb_eq_false_of_onFd (h : s.onFd off = true) : s.onHb off = false := by
  unfold State.onFd at h
  unfold State.onHb
  split at h
  · next r hr =>
    have hdie : r.die = .fd := by simpa using h
    simp [hdie]
  · exact nomatch h

theorem State.onFd_eq_false (h : off < 0x5108 ∨ 0x5110 ≤ off ∧ off < 0x18000) : s.onFd off = false := by
  rw [Bool.eq_false_iff]
  intro hfd
  obtain ⟨r, hmem, hhas, hdie⟩ := State.exists_row_of_die hfd
  obtain ⟨hpos, -, hfd⟩ := regIndex_dies s.portMax_le r hmem
  have hbounds := RegRow.has_bounds hpos hhas
  have := hfd hdie
  omega
end

/-! ### Writes of a register -/

section
variable {s : State} {src : Requester}

/-- A discarded write as GC_WREJ records it (R490). -/
theorem State.wrej_eq (s : State) (cause src : Nat) (off : BitVec 18) : s.wrej cause src off.toNat = { s with gc := { s.gc with
    wrejCnt := if s.gc.wrejCnt < 255 then s.gc.wrejCnt + 1 else s.gc.wrejCnt, wrejCause := cause, wrejSrc := src, wrejOff := off } } := by
  simp [State.wrej, satInc]

theorem State.wrej_withGc {s u : State} (h : u.gc = s.gc) (cause src off : Nat) : { u.wrej cause src off with gc := s.gc } = u := by
  rw [← h]
  rfl

theorem exec_registerWrite (hreach : s.reaches src = true) (hrun : s.pm.inReset = false) (off : BitVec 18) (be : BitVec 4) (v : Word)
    (other : Option Word) :
    exec (.registerWrite off be v src other) s = .next (s.writeReg (srcCode src) off.toNat be.toNat v (other.getD v)) := by
  change execRegisterWrite off be v src other s = _
  simp [execRegisterWrite, hreach, hrun, ok]

theorem exec_registerWrite_inReset (hreset : s.pm.inReset = true) (off : BitVec 18) (be : BitVec 4) (v : Word) (other : Option Word) :
    exec (.registerWrite off be v src other) s = .next s := by
  change execRegisterWrite off be v src other s = _
  simp [execRegisterWrite, hreset, ok]
end

section
variable {s : State} {off : Nat} (src : Nat) (v copyB : Word) (hreg : s.hasReg off = true)
include hreg

theorem State.writeReg_of_partial {be : Nat} (hbe : be ≠ 15) : s.writeReg src off be v copyB = s.wrej 2 src off := by
  simp [State.writeReg, hreg, hbe]

section
variable (hw : writable off = true)
include hw

/-- A register with no WL field. -/
theorem State.writeReg_of_not_wl (hwl : isWl off = false) : s.writeReg src off 15 v copyB =
    if copyB ≠ v ∧ s.onFd off = true then s.wrej 4 src off else s.applyWrite src off v copyB := by
  simp [State.writeReg, hreg, hw, hwl]

/-- A WL register of HB. -/
theorem State.writeReg_of_hb (hwl : isWl off = true) (hdie : s.onHb off = true) : s.writeReg src off 15 v copyB =
    if s.allWithdrawn then s.applyWrite src off v copyB else s.wrej 1 src off := by
  simp [State.writeReg, hreg, hw, hwl, hdie]

/-- A WL register of a lane or of FD. -/
theorem State.writeReg_of_wl (hwl : isWl off = true) (hdie : s.onHb off = false) : s.writeReg src off 15 v copyB =
    if s.wlLocked then (s.judgeWl off).wrej 1 src off
    else if copyB ≠ v ∧ s.onFd off = true then (s.judgeWl off).wrej 4 src off else (s.judgeWl off).applyWrite src off v copyB := by
  have hfd : (s.judgeWl off).onFd off = s.onFd off := rfl
  simp [State.writeReg, hreg, hw, hwl, hdie]
end
end

/-- Settles O11. -/
theorem discardedWritesAreRecorded : Obligations.DiscardedWritesAreRecorded := by
  intro s off be v src other hreach hrun hreg rec?
  have hrej : ∀ (u : State) (cause : Nat), u.wrej cause (srcCode src) off.toNat = rec? u cause := fun u cause => by
    rw [State.wrej_eq]
    cases src <;> rfl
  have hwhole : (0xF#4).toNat = 15 := rfl
  refine ⟨fun hbe => ?_, fun hw hwl hdie hlocked => ?_, fun hw hwl hdie hup => ?_, fun hw hfd hwl w hne => ?_,
    fun u hu => exec_registerWrite_inReset hu off be v other⟩
  · have hpartial : be.toNat ≠ 15 := fun e => hbe (BitVec.eq_of_toNat_eq e)
    rw [exec_registerWrite hreach hrun, State.writeReg_of_partial _ _ _ hreg hpartial, hrej]
  · rw [exec_registerWrite hreach hrun, hwhole, State.writeReg_of_wl _ _ _ hreg hw hwl hdie, if_pos hlocked, hrej]
  · rw [exec_registerWrite hreach hrun, hwhole, State.writeReg_of_hb _ _ _ hreg hw hwl hdie, hup, if_neg Bool.false_ne_true, hrej]
  · rw [exec_registerWrite hreach hrun, hwhole, Option.getD_some]
    by_cases h : isWl off.toNat = true
    · have hdie := State.onHb_eq_false_of_onFd hfd
      have hopen : ¬ s.wlLocked = true := by simpa [h] using hwl
      rw [State.writeReg_of_wl _ _ _ hreg hw h hdie, if_neg hopen, if_pos ⟨hne, hfd⟩, hrej, if_pos h]
    · rw [State.writeReg_of_not_wl _ _ _ hreg hw (by simpa using h), if_pos ⟨hne, hfd⟩, hrej, if_neg h]

/-! ### HI_VERSION (R409) -/

theorem State.ringsOff_iff (s : State) :
    s.ringsOff = true ↔ (∀ r : Fin 16, (s.ring r).st = .disabled) ∧ ∀ e : Fin 4, (s.evRing e).en = false := by
  simp only [State.ringsOff, below, Bool.and_eq_true, List.isEmpty_iff, List.filter_eq_nil_iff, List.mem_range, decide_eq_true_eq, ne_eq,
    not_not, Bool.not_eq_true]
  exact and_congr ⟨fun h r => h r r.isLt, fun h r hr => h ⟨r, hr⟩⟩ ⟨fun h e => h e e.isLt, fun h e he => h ⟨e, he⟩⟩

theorem State.hasReg_hiVersion (s : State) : s.hasReg 0x1000 = true :=
  hasReg_of_row (r := regs 0x01000 3 .hb) (by simp [regIndex, indexHost]) (by decide)

theorem State.regValue_hiVersion (s : State) : s.regValue 0x1000 = BitVec.ofNat 32 (0x300 + s.hi.selected.toNat) := by
  simp [State.regValue, State.hasReg_hiVersion, State.readHi, word]

/-- Settles O22. -/
theorem versionIsSelectedWhileRingsAreDisabled : Obligations.VersionIsSelectedWhileRingsAreDisabled := by
  refine ⟨fun s v => ?_, State.regValue_hiVersion State.reset⟩
  intro off
  have hselect : exec (.versionSelect v) s = .next (s.selectVersion 0 v) := rfl
  have hoff : off ↔ s.ringsOff = true := s.ringsOff_iff.symm
  refine ⟨fun ho hv => ?_, fun hno => ⟨_, hselect, ?_⟩, s.regValue_hiVersion⟩
  · rw [hselect, State.selectVersion, if_pos (by simp [hv, hoff.mp ho])]
  · have hbar : ¬ ((decide (bits v 7 0 = 1) || decide (bits v 7 0 = 2)) && s.ringsOff) = true := by
      rw [hoff] at hno
      simpa [and_comm] using hno
    rw [State.selectVersion, if_neg hbar]
    rfl

/-! ### The value of a register by its block -/

section
variable {s : State} {off : Nat} (hreg : s.hasReg off = true)
include hreg

theorem State.regValue_ep (hlo : 0x10000 ≤ off) (hhi : off < 0x18000) : s.regValue off = s.readEp off := by
  have hblock : off / 0x1000 = 0x10 ∨ off / 0x1000 = 0x11 ∨ off / 0x1000 = 0x12 ∨ off / 0x1000 = 0x13 ∨ off / 0x1000 = 0x14 ∨
      off / 0x1000 = 0x15 ∨ off / 0x1000 = 0x16 ∨ off / 0x1000 = 0x17 := by omega
  have hhigh : ¬ off < 0x10000 := by omega
  obtain h | h | h | h | h | h | h | h := hblock <;> simp [State.regValue, hreg, h, hhigh]

theorem State.regValue_fd (hlo : 0x18000 ≤ off) (hhi : off < 0x1A000) : s.regValue off = s.readFd off := by
  obtain h | h : off / 0x1000 = 0x18 ∨ off / 0x1000 = 0x19 := by omega
  · simp [State.regValue, hreg, h]
  · simp [State.regValue, hreg, h]

theorem State.regValue_gc (h : off < 0x1000) : s.regValue off = s.readGc off := by
  have hblock : off / 0x1000 = 0 := by omega
  simp [State.regValue, hreg, hblock]
end

/-! ### Reads that only return a value and clear -/

/-- A read outside of the timers, of the supplies and of the channels. -/
theorem State.readReg_eq (s : State) {off : Nat} (h : off < 0x2000 ∨ 0x5000 ≤ off ∧ off < 0x18000 ∨ 0x19000 ≤ off) :
    s.readReg off = { s.clearRead off with readData := s.regValue off } := by
  obtain ⟨hA, hB, hH⟩ : off ≠ 0x4000 ∧ off ≠ 0x4010 ∧ off ≠ 0x4020 := by omega
  have htimer : ¬ ((0x4100 ≤ off ∧ off < 0x4500) ∧ (elem off 0x4100 0x20).2 = 0xC) := by omega
  have hmeasure : s.measure off = s := by
    have hlanes : ¬ off = 0x2010 := by omega
    have hsupplies : ¬ off = 0x2014 := by omega
    have hchan : ¬ (0x18000 ≤ off ∧ off < 0x19000) := by omega
    simp [State.measure, hlanes, hsupplies, hchan]
  simp [State.readReg, hmeasure, htimer]

/-! ### The pass registers of a pair (R88 to R91) -/

section
variable (s : State) (p : Fin 36) {reg : Nat} (hreg : reg = 4 ∨ reg = 8 ∨ reg = 0xC ∨ reg = 0x10 ∨ reg = 0x14)
include hreg

theorem State.hasReg_pass : s.hasReg (0x10000 + reg + 0x200 * p) = true := by
  obtain rfl | rfl | rfl | rfl | rfl := hreg
  · exact hasReg_of_row (r := regArray 0x10000 0x200 36 3 .la) (by simp [regIndex, indexPairs])
      (RegRow.has_regArray (by omega) (by omega) (by omega) (by omega))
  · exact hasReg_of_row (r := regArray 0x10000 0x200 36 3 .la) (by simp [regIndex, indexPairs])
      (RegRow.has_regArray (by omega) (by omega) (by omega) (by omega))
  · exact hasReg_of_row (r := regArray 0x1000C 0x200 36 1 .lb) (by simp [regIndex, indexPairs])
      (RegRow.has_regArray (by omega) (by omega) (by omega) (by omega))
  · exact hasReg_of_row (r := regArray 0x10010 0x200 36 2 .la) (by simp [regIndex, indexPairs])
      (RegRow.has_regArray (by omega) (by omega) (by omega) (by omega))
  · exact hasReg_of_row (r := regArray 0x10010 0x200 36 2 .la) (by simp [regIndex, indexPairs])
      (RegRow.has_regArray (by omega) (by omega) (by omega) (by omega))

theorem State.regValue_pass : s.regValue (0x10000 + reg + 0x200 * p) = s.readPair p reg := by
  have helem : elem (0x10000 + reg + 0x200 * p) 0x10000 0x200 = (p.val, reg) := by
    simp only [elem, Prod.mk.injEq]
    omega
  have hpair : 0x10000 + reg + 0x200 * p.val < 0x14800 := by omega
  rw [State.regValue_ep (State.hasReg_pass s p hreg) (by omega) (by omega), State.readEp, if_pos hpair, helem]
end

theorem State.readReg_passTime (s : State) (p : Fin 36) : s.readReg (0x10010 + 0x200 * p) =
    { s.updPair p (fun q => { q with maxTime := 0 }) with readData := s.regValue (0x10010 + 0x200 * p) } := by
  have helem : elem (0x10010 + 0x200 * p) 0x10000 0x200 = (p.val, 0x10) := by
    simp only [elem, Prod.mk.injEq]
    omega
  have hreg : s.hasReg (0x10010 + 0x200 * p) = true := s.hasReg_pass p (reg := 0x10) (by simp)
  have hep : 0x10000 ≤ 0x10010 + 0x200 * p.val ∧ 0x10010 + 0x200 * p.val < 0x14800 := by omega
  have hclear : s.clearRead (0x10010 + 0x200 * p) = s.updPair p fun q => { q with maxTime := 0 } := by
    have hpt : ¬ 0x10010 + 0x200 * p.val < 0x10000 := by omega
    have hfl : 0x10010 + 0x200 * p.val < 0x18000 := by omega
    simp [State.clearRead, State.clearEp, hreg, hep, hpt, hfl, helem]
  rw [State.readReg_eq _ (by omega), hclear]

theorem exec_read_passTime (s : State) (p : Fin 36) : exec (.registerRead (.bar0 (BitVec.ofNat 18 (0x10010 + 0x200 * p)))) s =
    .next { s.updPair p (fun q => { q with maxTime := 0 }) with readData := s.regValue (0x10010 + 0x200 * p) } := by
  have hoff : (BitVec.ofNat 18 (0x10010 + 0x200 * p.val)).toNat = 0x10010 + 0x200 * p.val := Nat.mod_eq_of_lt (by omega)
  rw [← State.readReg_passTime]
  exact congrArg (fun off => Host.Outcome.next (s.readReg off)) hoff

theorem State.regValue_passTime (s : State) (p : Fin 36) : s.regValue (0x10010 + 0x200 * p) =
    BitVec.ofNat 32 ((s.pair p).maxTime % 65536 * 65536 + (s.pair p).lastTime % 65536) := by
  refine (s.regValue_pass p (reg := 0x10) (by simp)).trans ?_
  simp only [State.readPair, fld, word, Nat.shiftLeft_eq, Nat.reducePow, Nat.mul_one]

theorem State.regValue_bound (s : State) (p : Fin 36) : s.regValue (0x10014 + 0x200 * p) = BitVec.ofNat 32 ((s.pair p).bound % 65536) := by
  refine (s.regValue_pass p (reg := 0x14) (by simp)).trans ?_
  simp only [State.readPair, fld, word, Nat.shiftLeft_eq, Nat.reducePow, Nat.mul_one]

theorem State.regValue_lastPass (s : State) (p : Fin 36) : s.regValue (0x10004 + 0x200 * p) = (s.pair p).lastPass :=
  s.regValue_pass p (reg := 4) (by simp)

theorem State.regValue_sigA (s : State) (p : Fin 36) : s.regValue (0x10008 + 0x200 * p) = (s.pair p).sigA :=
  s.regValue_pass p (reg := 8) (by simp)

theorem State.regValue_sigB (s : State) (p : Fin 36) : s.regValue (0x1000C + 0x200 * p) = (s.pair p).sigB :=
  s.regValue_pass p (reg := 0xC) (by simp)

/-- Settles O8. -/
theorem passRegistersOfAPair : Obligations.PassRegistersOfAPair := by
  intro p s
  have hreset : State.reset.pair p = {} := rfl
  refine ⟨s.regValue_lastPass p, s.regValue_sigA p, s.regValue_sigB p, s.regValue_passTime p, s.regValue_bound p, exec_read_passTime s p,
    ?_, ?_, ?_, ?_, ?_⟩
  · rw [State.regValue_lastPass, hreset]
  · rw [State.regValue_sigA, hreset]
  · rw [State.regValue_sigB, hreset]
  · rw [State.regValue_passTime, hreset]
    simp
  · rw [State.regValue_bound, hreset]
    simp

/-! ### Settings with a range (R33, R86, R94, R243, R365) -/

/-- What a write of WARN_LIMIT does once the stewards let it pass (R94, R481). -/
def State.setWarn (s : State) (src : Nat) (v copyB : Word) : State :=
  s.bothLanes lmBad src 0x14800 v copyB (fun w t => { t with lmWarn := BitVec.ofNat 10 (bits w 19 10) })
    fun w t => { t with lmWarnB := BitVec.ofNat 10 (bits w 19 10) }

theorem State.setWarn_of_good (s : State) (src : Nat) {v w : Word} (hv : lmBad v = false) (hw : lmBad w = false) : s.setWarn src v w =
    { s with lmWarn := BitVec.ofNat 10 (bits v 19 10), lmWarnB := ~~~(BitVec.ofNat 10 (bits w 19 10)) } := by
  have hnot : BitVec.ofNat 10 (bits (~~~w) 19 10) = ~~~(BitVec.ofNat 10 (bits w 19 10)) := by
    refine BitVec.eq_of_toNat_eq ?_
    simp only [bits, BitVec.toNat_not, BitVec.toNat_ofNat, Nat.shiftRight_eq_div_pow]
    omega
  simp only [State.setWarn, State.bothLanes, hv, hw, ← hnot]
  rfl

theorem State.setWarn_of_bad (s : State) (src : Nat) {v : Word} (w : Word) (hv : lmBad v = true) :
    (s.setWarn src v w).lmWarn = s.lmWarn ∧ { s.setWarn src v w with gc := s.gc, lmWarnB := s.lmWarnB } = s := by
  cases hw : lmBad w <;> simp only [State.setWarn, State.bothLanes, hv, hw] <;> exact ⟨rfl, rfl⟩

/-- A WL register of FD that the lanes carry alike. -/
theorem exec_registerWrite_wlFd {s : State} {src : Requester} (hreach : s.reaches src = true) (hrun : s.pm.inReset = false)
    (off : BitVec 18) (v : Word) (hreg : s.hasReg off.toNat = true) (hw : writable off.toNat = true) (hwl : isWl off.toNat = true)
    (hlo : 0x10000 ≤ off.toNat) (hhi : off.toNat < 0x1B000) : exec (.registerWrite off 0xF#4 v src none) s =
      .next (if s.wlLocked then (s.judgeWl off.toNat).wrej 1 (srcCode src) off.toNat
        else (s.judgeWl off.toNat).applyWrite (srcCode src) off.toNat v v) := by
  have hwhole : (0xF#4).toNat = 15 := rfl
  rw [exec_registerWrite hreach hrun, hwhole, Option.getD_none, State.writeReg_of_wl _ _ _ hreg hw hwl (State.onHb_eq_false hlo hhi)]
  simp

section
variable (s : State) (src : Nat) (v copyB : Word)

theorem State.applyWrite_tSb : s.applyWrite src 0x19200 v copyB =
    s.ruled (decide (bits v 7 0 < 20) || decide (200 < bits v 7 0)) src 0x19200 { s with fd := { s.fd with tSb := BitVec.ofNat 8 (bits v 7 0) } } := rfl

theorem State.applyWrite_lmCfg : s.applyWrite src 0x14800 v copyB = s.setWarn src v copyB := rfl

theorem State.applyWrite_stgPeriod : s.applyWrite src 0x4044 v copyB =
    s.ruled (decide (v.toNat < 2)) src 0x4044 { s with stg := { s.stg with shadow := v } } := rfl

theorem State.applyWrite_grpCfg (g : Fin 4) : s.applyWrite src (0x19000 + 0x40 * g) v copyB =
    s.ruled (grpCfgBad v) src (0x19000 + 0x40 * g) (s.updGrp g fun q => { q with
      uvWarn := BitVec.ofNat 9 (bits v 26 18), uvOff := BitVec.ofNat 9 (bits v 17 9), uvIn := BitVec.ofNat 9 (bits v 8 0) }) := by
  have hblock : (0x19000 + 0x40 * g.val) / 0x1000 = 0x19 := by omega
  have helem : elem (0x19000 + 0x40 * g) 0x19000 0x40 = (g.val, 0) := by
    simp only [elem, Prod.mk.injEq]
    omega
  have hlo : ¬ 0x19000 + 0x40 * g.val < 0x19000 := by omega
  have hhi : 0x19000 + 0x40 * g.val < 0x19200 := by omega
  simp [State.applyWrite, hblock, State.writeFd, hlo, hhi, helem]
end

theorem State.hasReg_tSb (s : State) : s.hasReg 0x19200 = true :=
  hasReg_of_row (r := regs 0x19200 2 .fd) (by simp [regIndex, indexField]) (by decide)

theorem State.hasReg_lmCfg (s : State) : s.hasReg 0x14800 = true :=
  hasReg_of_row (r := regs 0x14800 2 .la) (by simp [regIndex, indexPairs]) (by decide)

theorem State.hasReg_stgPeriod (s : State) : s.hasReg 0x4044 = true :=
  hasReg_of_row (r := regs 0x04040 4 .hb) (by simp [regIndex, indexTimers]) (by decide)

theorem State.hasReg_grpCfg (s : State) (g : Fin 4) : s.hasReg (0x19000 + 0x40 * g) = true :=
  hasReg_of_row (r := regArray 0x19000 0x40 4 3 .fd) (by simp [regIndex, indexField])
    (RegRow.has_regArray (by omega) (by omega) (by omega) (by omega))

section
variable {s : State} {src : Requester} (hreach : s.reaches src = true) (hrun : s.pm.inReset = false) (v : Word)
include hreach hrun

theorem exec_tSb_write : exec (.registerWrite 0x19200#18 0xF#4 v src none) s =
    .next (if s.wlLocked then (s.judgeWl 0x19200).wrej 1 (srcCode src) 0x19200
      else (s.judgeWl 0x19200).ruled (decide (bits v 7 0 < 20) || decide (200 < bits v 7 0)) (srcCode src) 0x19200
        { s.judgeWl 0x19200 with fd := { s.fd with tSb := BitVec.ofNat 8 (bits v 7 0) } }) :=
  exec_registerWrite_wlFd hreach hrun 0x19200#18 v s.hasReg_tSb (by decide) (by decide) (by decide) (by decide)

theorem exec_lmCfg_write (other : Option Word) : exec (.registerWrite 0x14800#18 0xF#4 v src other) s =
    .next (if s.wlLocked then (s.judgeWl 0x14800).wrej 1 (srcCode src) 0x14800
      else (s.judgeWl 0x14800).setWarn (srcCode src) v (other.getD v)) := by
  have hwhole : (0xF#4).toNat = 15 := rfl
  have hoff : (0x14800#18).toNat = 0x14800 := rfl
  rw [exec_registerWrite hreach hrun, hwhole, hoff, State.writeReg_of_wl _ _ _ s.hasReg_lmCfg (by decide) (by decide)
    (State.onHb_eq_false (by decide) (by decide)), State.onFd_eq_false (by decide), State.applyWrite_lmCfg]
  simp

theorem exec_grpCfg_write (g : Fin 4) : exec (.registerWrite (BitVec.ofNat 18 (0x19000 + 0x40 * g)) 0xF#4 v src none) s =
    .next (if s.wlLocked then (s.judgeWl (0x19000 + 0x40 * g)).wrej 1 (srcCode src) (0x19000 + 0x40 * g)
      else (s.judgeWl (0x19000 + 0x40 * g)).ruled (grpCfgBad v) (srcCode src) (0x19000 + 0x40 * g)
        ((s.judgeWl (0x19000 + 0x40 * g)).updGrp g fun q => { q with
          uvWarn := BitVec.ofNat 9 (bits v 26 18), uvOff := BitVec.ofNat 9 (bits v 17 9), uvIn := BitVec.ofNat 9 (bits v 8 0) })) := by
  have hoff : (BitVec.ofNat 18 (0x19000 + 0x40 * g.val)).toNat = 0x19000 + 0x40 * g.val := Nat.mod_eq_of_lt (by omega)
  have hwl : isWl (0x19000 + 0x40 * g) = true := by
    revert g
    decide
  have hw : writable (0x19000 + 0x40 * g) = true := by
    revert g
    decide
  rw [exec_registerWrite_wlFd hreach hrun _ v (by rw [hoff]; exact s.hasReg_grpCfg g) (by rw [hoff, hw]) (by rw [hoff, hwl])
    (by omega) (by omega), hoff, State.applyWrite_grpCfg]

theorem exec_stgPeriod_write (other : Option Word) : exec (.registerWrite 0x4044#18 0xF#4 v src other) s =
    .next (s.ruled (decide (v.toNat < 2)) (srcCode src) 0x4044 { s with stg := { s.stg with shadow := v } }) := by
  have hwhole : (0xF#4).toNat = 15 := rfl
  have hoff : (0x4044#18).toNat = 0x4044 := rfl
  rw [exec_registerWrite hreach hrun, hwhole, hoff, State.writeReg_of_not_wl _ _ _ s.hasReg_stgPeriod (by decide) (by decide),
    State.onFd_eq_false (by decide), if_neg (by simp), State.applyWrite_stgPeriod]
end

theorem State.regValue_tSb (s : State) : s.regValue 0x19200 = BitVec.ofNat 32 s.fd.tSb.toNat :=
  State.regValue_fd s.hasReg_tSb (by decide) (by decide)

theorem State.regValue_lmCfg (s : State) : s.regValue 0x14800 = BitVec.ofNat 32 (600 * 2 ^ 20 + s.lmWarn.toNat * 2 ^ 10 + 196) := by
  have hwarn : s.lmWarn.toNat % 2 ^ 10 = s.lmWarn.toNat := Nat.mod_eq_of_lt s.lmWarn.isLt
  rw [State.regValue_ep s.hasReg_lmCfg (by decide) (by decide)]
  simp only [State.readEp, fld, hwarn, word, Nat.shiftLeft_eq]
  rfl

theorem State.regValue_grpCfg (s : State) (g : Fin 4) : s.regValue (0x19000 + 0x40 * g) =
    BitVec.ofNat 32 ((s.grp g).uvWarn.toNat * 2 ^ 18 + (s.grp g).uvOff.toNat * 2 ^ 9 + (s.grp g).uvIn.toNat) := by
  have helem : elem (0x19000 + 0x40 * g) 0x19000 0x40 = (g.val, 0) := by
    simp only [elem, Prod.mk.injEq]
    omega
  have hlo : ¬ 0x19000 + 0x40 * g.val < 0x19000 := by omega
  have hhi : 0x19000 + 0x40 * g.val < 0x19200 := by omega
  have hwarn : (s.grp g).uvWarn.toNat % 2 ^ 9 = (s.grp g).uvWarn.toNat := Nat.mod_eq_of_lt (s.grp g).uvWarn.isLt
  have hoff : (s.grp g).uvOff.toNat % 2 ^ 9 = (s.grp g).uvOff.toNat := Nat.mod_eq_of_lt (s.grp g).uvOff.isLt
  rw [State.regValue_fd (s.hasReg_grpCfg g) (by omega) (by omega)]
  unfold State.readFd
  dsimp only
  rw [if_neg hlo, if_pos hhi, helem]
  simp only [Grp.read, fld, hwarn, hoff, word, Nat.shiftLeft_eq]

theorem State.regValue_stgPeriod (s : State) : s.regValue 0x4044 = s.stg.shadow := by
  simp [State.regValue, State.hasReg_stgPeriod, State.readTm]

theorem lmBad_eq_true {v : Word} : lmBad v = true ↔ bits v 19 10 < 196 ∨ 600 < bits v 19 10 := by
  simp [lmBad]

theorem grpCfgBad_eq_false {v : Word} : grpCfgBad v = false ↔
    100 ≤ bits v 26 18 ∧ bits v 26 18 ≤ 300 ∧ 60 ≤ bits v 17 9 ∧ bits v 17 9 ≤ 200 ∧ 80 ≤ bits v 8 0 ∧ bits v 8 0 ≤ 300 := by
  simp [grpCfgBad]
  tauto

/-! What a barred write leaves -/

section
variable {s : State} {src : Requester} (hreach : s.reaches src = true) (hrun : s.pm.inReset = false) {v : Word}
include hreach hrun

theorem exec_tSb_write_barred (h : s.wlLocked = true ∨ bits v 7 0 < 20 ∨ 200 < bits v 7 0) :
    ∃ t, exec (.registerWrite 0x19200#18 0xF#4 v src none) s = .next t ∧ { t with gc := s.gc } = s.judgeWl 0x19200 := by
  by_cases hlocked : s.wlLocked = true
  · exact ⟨(s.judgeWl 0x19200).wrej 1 (srcCode src) 0x19200, by rw [exec_tSb_write hreach hrun, if_pos hlocked], State.wrej_withGc rfl _ _ _⟩
  · refine ⟨(s.judgeWl 0x19200).wrej 3 (srcCode src) 0x19200, ?_, State.wrej_withGc rfl _ _ _⟩
    rw [exec_tSb_write hreach hrun, if_neg hlocked, State.ruled, if_pos (by simpa [hlocked] using h)]

theorem exec_lmCfg_write_barred (other : Option Word) (h : s.wlLocked = true ∨ bits v 19 10 < 196 ∨ 600 < bits v 19 10) :
    ∃ t, exec (.registerWrite 0x14800#18 0xF#4 v src other) s = .next t ∧ t.lmWarn = s.lmWarn ∧
      (s.wlLocked = true → t.lmWarnB = s.lmWarnB) ∧ { t with gc := s.gc, lmWarnB := s.lmWarnB } = s.judgeWl 0x14800 := by
  by_cases hlocked : s.wlLocked = true
  · refine ⟨(s.judgeWl 0x14800).wrej 1 (srcCode src) 0x14800, ?_, rfl, fun _ => rfl, State.wrej_withGc rfl _ _ _⟩
    rw [exec_lmCfg_write hreach hrun, if_pos hlocked]
  · have hbad : lmBad v = true := lmBad_eq_true.mpr (h.resolve_left hlocked)
    obtain ⟨hwarn, hrest⟩ := (s.judgeWl 0x14800).setWarn_of_bad (srcCode src) (other.getD v) hbad
    refine ⟨(s.judgeWl 0x14800).setWarn (srcCode src) v (other.getD v), ?_, hwarn, fun h => absurd h hlocked, hrest⟩
    rw [exec_lmCfg_write hreach hrun, if_neg hlocked]

theorem exec_grpCfg_write_barred (g : Fin 4) (h : s.wlLocked = true ∨ grpCfgBad v = true) :
    ∃ t, exec (.registerWrite (BitVec.ofNat 18 (0x19000 + 0x40 * g)) 0xF#4 v src none) s = .next t ∧
      { t with gc := s.gc } = s.judgeWl (0x19000 + 0x40 * g) := by
  by_cases hlocked : s.wlLocked = true
  · refine ⟨(s.judgeWl (0x19000 + 0x40 * g)).wrej 1 (srcCode src) (0x19000 + 0x40 * g), ?_, State.wrej_withGc rfl _ _ _⟩
    rw [exec_grpCfg_write hreach hrun, if_pos hlocked]
  · refine ⟨(s.judgeWl (0x19000 + 0x40 * g)).wrej 3 (srcCode src) (0x19000 + 0x40 * g), ?_, State.wrej_withGc rfl _ _ _⟩
    rw [exec_grpCfg_write hreach hrun, if_neg hlocked, h.resolve_left hlocked, State.ruled, if_pos rfl]
end

/-- Settles O9: each register by the equation of its write. -/
theorem settingsWithARange : Obligations.SettingsWithARange := by
  refine ⟨⟨fun s v src hreach hrun => ?tSb, State.reset.regValue_tSb⟩, ⟨fun s v src hreach hrun => ?warnLimit, State.reset.regValue_lmCfg⟩,
    ⟨fun s g v src hreach hrun => ?thresholds, State.reset.regValue_grpCfg⟩,
    ⟨fun s v src other hreach hrun => ?period, State.reset.regValue_stgPeriod⟩⟩
  case tSb =>
    refine ⟨fun hopen hlo hhi => ?_, exec_tSb_write_barred hreach hrun, s.regValue_tSb⟩
    rw [exec_tSb_write hreach hrun, hopen, if_neg Bool.false_ne_true, State.ruled, if_neg (by simp; omega)]
  case warnLimit =>
    refine ⟨fun w hopen hv hv' hw hw' => ?_, fun other => ⟨?_, exec_lmCfg_write_barred hreach hrun other⟩, s.regValue_lmCfg⟩
    · have hgood : lmBad v = false := by simp [lmBad]; omega
      have hgoodB : lmBad w = false := by simp [lmBad]; omega
      rw [exec_lmCfg_write hreach hrun, hopen, if_neg Bool.false_ne_true, Option.getD_some, State.setWarn_of_good _ _ hgood hgoodB]
    · rw [exec_lmCfg_write hreach hrun, exec_lmCfg_write hreach hrun, Option.getD_none, Option.getD_some]
  case thresholds =>
    intro good
    refine ⟨fun hopen hgood => ?_, fun hbar => exec_grpCfg_write_barred hreach hrun g (hbar.imp_right fun h => ?_), s.regValue_grpCfg g⟩
    · rw [exec_grpCfg_write hreach hrun, hopen, if_neg Bool.false_ne_true, grpCfgBad_eq_false.mpr hgood, State.ruled, if_neg Bool.false_ne_true]
    · rwa [← Bool.not_eq_false, grpCfgBad_eq_false]
  case period =>
    refine ⟨fun hgood => ?_, fun hbad => ⟨_, exec_stgPeriod_write hreach hrun v other, ?_⟩, s.regValue_stgPeriod⟩
    · rw [exec_stgPeriod_write hreach hrun, State.ruled, if_neg (by simp; omega)]
    · rw [State.ruled, if_pos (by simpa using hbad)]
      rfl

/-! ### The general registers (R486 to R493) -/

section
variable (s : State)

theorem State.hasReg_gc {off : Nat} (h : off = 0x00 ∨ off = 0x08 ∨ off = 0x0C ∨ off = 0x18 ∨ off = 0x1C) : s.hasReg off = true :=
  hasReg_of_row (r := regs 0x00000 8 .hb) (by simp [regIndex, indexGlobal]) (RegRow.has_regs (by omega) (by omega) (by omega))

theorem State.hasReg_imgId : s.hasReg 0x20 = true :=
  hasReg_of_row (r := regs 0x00020 4 .la) (by simp [regIndex, indexGlobal]) (by decide)

theorem State.regValue_scratch : s.regValue 0x1C = s.gc.scratch := State.regValue_gc (s.hasReg_gc (by decide)) (by decide)

theorem State.regValue_accStat : s.regValue 0x18 = BitVec.ofNat 32 (s.gc.toCnt % 65536 * 65536 + s.gc.lastDie.toNat) := by
  rw [State.regValue_gc (s.hasReg_gc (by decide)) (by decide)]
  simp [State.readGc, fld, word, Nat.shiftLeft_eq]

theorem State.regValue_gcId : s.regValue 0x00 =
    if s.otp.applied = 2#2 then 0x49563264#32 else if s.otp.applied = 1#2 then 0x49561664#32 else 0x49560864#32 := by
  have hvariant : ∀ d : BitVec 2, word (0x49560000 + match d.toNat with | 2 => 0x3264 | 1 => 0x1664 | _ => 0x0864) =
      if d = 2#2 then 0x49563264#32 else if d = 1#2 then 0x49561664#32 else 0x49560864#32 := by decide
  rw [State.regValue_gc (s.hasReg_gc (by decide)) (by decide)]
  exact hvariant s.otp.applied

theorem State.regValue_deviceId : s.regValue 0x08 = (if s.rlOn 0 then 0#32 else (s.otpWord 0).shadow.setWidth 32) ∧
    s.regValue 0x0C = if s.rlOn 0 then 0#32 else ((s.otpWord 0).shadow >>> (32 : Nat)).setWidth 32 := by
  rw [State.regValue_gc (s.hasReg_gc (by decide)) (by decide), State.regValue_gc (s.hasReg_gc (by decide)) (by decide)]
  have hword : s.shadowWord 0 = if s.rlOn 0 then 0 else (s.otpWord 0).shadow.toNat := rfl
  have hlow : s.readGc 0x08 = word (s.shadowWord 0) := rfl
  have hhigh : s.readGc 0x0C = word (s.shadowWord 0 / 2 ^ 32) := rfl
  rw [hlow, hhigh, hword]
  split
  · exact ⟨rfl, rfl⟩
  · refine ⟨BitVec.eq_of_toNat_eq ?_, BitVec.eq_of_toNat_eq ?_⟩
    · simp [word]
    · simp [word, Nat.shiftRight_eq_div_pow]

/-- A read of GC_ACC_STAT clears its count (R493). -/
theorem State.readReg_accStat : s.readReg 0x18 = { s with gc := { s.gc with toCnt := 0 }, readData := s.regValue 0x18 } := by
  have hclear : s.clearRead 0x18 = { s with gc := { s.gc with toCnt := 0 } } := by
    rw [State.clearRead, s.hasReg_gc (by decide)]
    rfl
  rw [State.readReg_eq _ (by decide), hclear]

theorem State.scratch_of_settings {s t : State} (h : t.settings = s.settings) : t.gc.scratch = s.gc.scratch := by
  simp only [State.settings, Prod.mk.injEq] at h
  obtain ⟨-, -, -, -, -, -, -, hscratch⟩ := h
  exact hscratch

theorem State.hostReset_scratch : s.hostReset.gc.scratch = s.gc.scratch := by
  unfold State.hostReset
  dsimp only
  exact State.scratch_of_settings (s.ringDisables_settings _)

theorem State.functionLevelReset_scratch : ∃ t, exec .functionLevelReset s = .next t ∧ t.gc.scratch = s.gc.scratch := by
  refine ⟨_, rfl, ?_⟩
  unfold State.configured
  split
  · rw [State.scratch_of_settings (State.settings_of_kept (State.settle_kept _)), State.hostReset_scratch]
  · rfl
end

theorem exec_scratch_write {s : State} {src : Requester} (hreach : s.reaches src = true) (hrun : s.pm.inReset = false) (v : Word)
    (other : Option Word) : exec (.registerWrite 0x1C#18 0xF#4 v src other) s = .next { s with gc := { s.gc with scratch := v } } := by
  have hwhole : (0xF#4).toNat = 15 := rfl
  have hoff : (0x1C#18).toNat = 0x1C := rfl
  rw [exec_registerWrite hreach hrun, hwhole, hoff, State.writeReg_of_not_wl _ _ _ (s.hasReg_gc (by decide)) (by decide) (by decide),
    State.onFd_eq_false (by decide), if_neg (by simp)]
  rfl

/-- Settles O10. -/
theorem generalRegisters : Obligations.GeneralRegisters := by
  refine ⟨⟨fun s v src other hreach hrun => exec_scratch_write hreach hrun v other, State.regValue_scratch, State.reset.regValue_scratch,
    fun _ _ _ => rfl, State.functionLevelReset_scratch⟩, ⟨fun s d rd => ?_, fun s => ⟨s.regValue_accStat, congrArg _ s.readReg_accStat⟩,
    State.reset.regValue_accStat⟩, fun s => ⟨s.regValue_gcId, s.regValue_deviceId.1, s.regValue_deviceId.2,
    State.regValue_gc s.hasReg_imgId (by decide)⟩⟩
  cases d <;> cases rd <;> rfl

/-! ### Timebases (R20, R347 to R352) -/

/-- n edges of LF bring 3,051 + 97 / 128 ticks each. -/
theorem lfAdvance_repeat (n : Nat) (c : Word64) (f : BitVec 7) : Nat.repeat (fun x : Word64 × BitVec 7 => lfAdvance x.1 x.2) n (c, f) =
    (c + BitVec.ofNat 64 (3051 * n + (f.toNat + 97 * n) / 128), BitVec.ofNat 7 (f.toNat + 97 * n)) := by
  induction n with
  | zero =>
    have hf : f.toNat / 128 = 0 := by omega
    simp [Nat.repeat, hf]
  | succ n ih =>
    rw [Nat.repeat, ih]
    simp only [lfAdvance, BitVec.toNat_ofNat]
    split
    · refine Prod.ext (BitVec.eq_of_toNat_eq ?_) (BitVec.eq_of_toNat_eq ?_)
      · simp; omega
      · simp; omega
    · refine Prod.ext (BitVec.eq_of_toNat_eq ?_) (BitVec.eq_of_toNat_eq ?_)
      · simp; omega
      · simp; omega

theorem lfAdvance_128 (c : Word64) (f : BitVec 7) :
    Nat.repeat (fun x : Word64 × BitVec 7 => lfAdvance x.1 x.2) 128 (c, f) = (c + 390625#64, f) := by
  have hticks : 3051 * 128 + (f.toNat + 97 * 128) / 128 = 390625 := by omega
  have hfrac : BitVec.ofNat 7 (f.toNat + 97 * 128) = f := by
    refine BitVec.eq_of_toNat_eq ?_
    simp
    omega
  rw [lfAdvance_repeat, hticks, hfrac]

theorem lfAdvance_eq (c : Word64) (f : BitVec 7) :
    lfAdvance c f = (c + (if 128 ≤ f.toNat + 97 then 3052#64 else 3051#64), f + 97#7) := by
  have hfrac : ∀ n, n = f.toNat + 97 ∨ n + 128 = f.toNat + 97 → BitVec.ofNat 7 n = f + 97#7 := fun n hn => by
    refine BitVec.eq_of_toNat_eq ?_
    simp
    omega
  unfold lfAdvance
  dsimp only
  split
  · rw [if_neg (by omega), hfrac _ (by omega)]
  · rw [if_pos (by omega), hfrac _ (by omega)]

/-- Settles O12. -/
theorem timebases : Obligations.Timebases := by
  refine ⟨fun s => ?reads, ⟨fun s => rfl, fun s => ⟨_, rfl, rfl, ?edge⟩, lfAdvance_128⟩, fun s l x hon hA hB => ?measured,
    fun s l x hoff => ?suspended, fun s => ?resume, fun s l => rfl⟩
  case reads =>
    have hlow : ∀ c : Word64, word c.toNat = c.setWidth 32 := fun c => BitVec.eq_of_toNat_eq (by simp [word])
    have hhigh : ∀ c : Word64, word (c.toNat / 2 ^ 32) = (c >>> (32 : Nat)).setWidth 32 := fun c =>
      BitVec.eq_of_toNat_eq (by simp [word, Nat.shiftRight_eq_div_pow])
    have hexec : ∀ which, exec (.timebaseLoRead which) s = .next (s.tbLoRead which) := fun _ => rfl
    simp only [hexec, State.tbLoRead, hlow, hhigh, and_self]
  case edge =>
    refine ⟨fun h => ?_, fun h => ?_, fun h => ?_, fun h => ?_, rfl⟩
    · simp [h]
    · simp [h, lfAdvance_eq]
    · simp [h]
    · simp [h, lfAdvance_eq]
  case measured =>
    change execTimebaseXchk l x s = _
    simp [execTimebaseXchk, hon, hA, hB, ok]
  case suspended =>
    change execTimebaseXchk l x s = _
    simp only [execTimebaseXchk, ok]
    rw [if_pos (by simpa [or_assoc] using hoff)]
  case resume =>
    change execXchkResume s = _
    simp [execXchkResume, ok]

end Sys2Proof.Machine
end


section
/-!
# Proofs: what is due after an event (R29, R160, R331, R336, R453, R471)
-/
namespace Sys2Proof.Machine
open Sys2Proof

/-- A fold whose every operation leaves the state it starts from. -/
theorem foldl_stays {σ α : Type} {h : σ → α → σ} {s : σ} (each : ∀ x, h s x = s) (xs : List α) : xs.foldl h s = s := by
  induction xs with
  | nil => rfl
  | cons x xs ih => rw [List.foldl_cons, each, ih]

theorem State.opCheck_idle {s : State} (h : s.op = none) : s.opCheck = s := by
  simp [State.opCheck, h]

section
variable {s : State} (hq : s.Quiet)
include hq

theorem State.Quiet.finishRestarts : s.finishRestarts = s := by
  refine foldl_stays (fun e => ?_) s.zones
  obtain ⟨hreq, hwaits⟩ := hq.noRestart e.1
  simp [State.finishRestart, hreq, hwaits]

theorem State.Quiet.endWithdraws : s.endWithdraws = s := by
  refine foldl_stays (fun e => ?_) s.zones
  have hnone : s.withdrawn? e.1 = false := by
    unfold State.withdrawn?
    simp [hq.noWithdrawal e.1]
  rw [hnone, if_neg Bool.false_ne_true]

theorem State.Quiet.slotProgress : s.slotProgress = s := by
  have hempty : s.emptiedSlice = s := by simp [State.emptiedSlice, hq.noSliceDue]
  simp [State.slotProgress, hq.noSlice, hempty, hq.noSlot]

theorem State.Quiet.shutProgress : s.shutProgress = s := by
  simp [State.shutProgress, hq.noShutdown]

theorem State.Quiet.haltProgress : s.haltProgress = s := by
  simp [State.haltProgress, hq.noHalt]

theorem State.Quiet.settle : s.settle = s := by
  have hserve : State.serve s.waiting.length s = s := by rw [hq.served]; rfl
  rw [State.settle, State.opCheck_idle hq.idle, hq.finishRestarts, hq.endWithdraws, hq.slotProgress, hq.shutProgress, hq.haltProgress, hserve]
end

/-- Settles O4: each part of `State.settle` finds nothing of its own in progress. -/
theorem nothingFollowsAQuietState : Obligations.NothingFollowsAQuietState := fun _ hq => hq.settle

end Sys2Proof.Machine
end


section
/-!
# Proofs: rings of the host interface (R386, R391 to R399, R407)
-/
namespace Sys2Proof.Machine
open Sys2Proof

/-- A table of rings whose indexes do not rise: ring 5, listed first, hides ring 3. -/
def hiddenRing : State := { State.reset with rings := [(5, { sqTail := 1#12 }), (3, { seqA := 7#32 })] }

/-- A reset of the host interface drops the entry of ring 5, now as it is after reset, and the hidden entry of ring 3 shows. -/
theorem hostReset_hiddenRing : (hiddenRing.ring 3).seqA = 0#32 ∧ (hiddenRing.hostReset.ring 3).seqA = 7#32 := by
  decide +kernel

/-- Refutes O23: it is stated for every table of rings, and `tabMap` keeps what a ring reads only in a table whose indexes rise. -/
theorem not_functionStates : ¬ Obligations.FunctionStates := by
  intro h
  obtain ⟨-, -, hreset, -⟩ := h
  obtain ⟨-, -, -, hrings, -⟩ := hreset hiddenRing
  obtain ⟨-, -, -, hseq, -⟩ := hrings 3
  obtain ⟨hbefore, hafter⟩ := hostReset_hiddenRing
  exact absurd (hafter.symm.trans (hseq.trans hbefore)) (by decide)

/-! ### Safety entries (R394) -/

/-- A SHUTDOWN entry with sequence number 0xFFFFFFFF that passes every check. -/
def lastEntry : Entry :=
  let e : Entry := { opcode := 0x51#8, flags := 1#8, cid := 0#16, dcrc := 0#32, addr := 0#64, len := 0#32, hostSeq := 0xFFFFFFFF#32, param := 0#320 }
  { e with dcrc := crcA (entryCrcBytes e) }

/-- Ring 3 checks an entry at its last index; once SQ_HEAD and HOST_SEQ have returned to 0 its registers are as after reset. An entry that
it hides follows it in the table. -/
def lastIndex : State := { State.reset with rings :=
  [(3, { sqHead := 15#12, seqA := 0xFFFFFFFF#32, seqB := 0#32, checking := some { cid := 0#16, opcode := 0x51#8 } }), (1, { sqTail := 1#12 })] }

theorem lastEntry_passes : lastEntry.flags.getLsbD 0 = true ∧ lastEntry.dcrc = crcA (entryCrcBytes lastEntry) ∧
    lastEntry.opcode.toNat ∈ safetyOpcodes ∧ entryBad lastEntry = false := by
  decide +kernel

/-- How many rings the table of the next state lists. -/
def ringsOf : Host.Outcome State Fault Refusal → Nat
  | .next t => t.rings.length
  | .fault _ => 0
  | .refused _ => 0

/-- The model stores the ring three times, the second time as after reset, which drops what follows it. -/
theorem exec_lastIndex : ringsOf (exec (.safetyDescriptorCheck 3 (some lastEntry) (some lastEntry)) lastIndex) = 1 := by
  decide +kernel

/-- Refutes O20: `taken` stores the ring once, the model three times, and the two tables differ where the indexes of the table do not
rise. -/
theorem not_descriptorsAreFetchedAndChecked : ¬ Obligations.DescriptorsAreFetchedAndChecked := by
  intro h
  obtain ⟨-, -, -, hchecks⟩ := h
  obtain ⟨hflag, hcrc, hop, hgood⟩ := lastEntry_passes
  obtain ⟨-, -, -, -, htaken⟩ := hchecks lastIndex 3 lastEntry lastEntry (by decide) (by decide) (by decide) (by decide)
  have hrings := congrArg ringsOf (htaken (by simp [hflag]) (by simp [hcrc]) (by decide +kernel) rfl hop hgood)
  rw [exec_lastIndex] at hrings
  exact absurd hrings (by decide +kernel)

/-! ### Doorbells (R391, R397, R407) -/

theorem ringIndex_of_lt {size : BitVec 4} {v : Word} (h : (v.setWidth 12 : BitVec 12).toNat < 2 ^ size.toNat) :
    ringIndex size v = some (v.setWidth 12) := by
  have hbits : bits v 11 0 = (v.setWidth 12 : BitVec 12).toNat := by simp [bits]
  simp only [ringIndex, hbits, if_pos h, BitVec.ofNat_toNat, BitVec.setWidth_eq]

theorem ringIndex_of_le {size : BitVec 4} {v : Word} (h : 2 ^ size.toNat ≤ (v.setWidth 12 : BitVec 12).toNat) : ringIndex size v = none := by
  have hbits : bits v 11 0 = (v.setWidth 12 : BitVec 12).toNat := by simp [bits]
  simp only [ringIndex, hbits, if_neg (Nat.not_lt.mpr h)]

theorem doorbellAt_sq (r : Fin 16) : doorbellAt (BitVec.ofNat 12 (8 * r)) = some (.sqTail r) := by
  revert r; decide

theorem doorbellAt_cq (r : Fin 16) : doorbellAt (BitVec.ofNat 12 (8 * r + 4)) = some (.cqHead r) := by
  revert r; decide

theorem doorbellAt_ev (e : Fin 4) : doorbellAt (BitVec.ofNat 12 (0x100 + 4 * e)) = some (.evHead e) := by
  revert e; decide

theorem doorbellAt_none {x : BitVec 12} (h : x.toNat % 4 ≠ 0 ∨ (0x80 ≤ x.toNat ∧ x.toNat < 0x100) ∨ 0x110 ≤ x.toNat) : doorbellAt x = none := by
  have hev : ¬ (0x100 ≤ x.toNat ∧ x.toNat < 0x110 ∧ x.toNat % 4 = 0) := by omega
  by_cases hlo : x.toNat < 0x80
  · have hsq : x.toNat % 8 ≠ 0 := by omega
    have hcq : x.toNat % 8 ≠ 4 := by omega
    simp [doorbellAt, hlo, hsq, hcq]
  · simp [doorbellAt, hlo, ← and_assoc] at hev ⊢
    omega

theorem State.updRing_congr {s : State} {r : Nat} {f h : Ring → Ring} (e : f (s.ring r) = h (s.ring r)) : s.updRing r f = s.updRing r h := by
  have e' : f (tabGet Ring.init s.rings r) = h (tabGet Ring.init s.rings r) := e
  simp only [State.updRing, tabUpd, e']

section
variable {s : State} {i : BitVec 12} {v : Word}

theorem State.writeCqHead_eq {r : Nat} (hindex : ringIndex (s.ring r).size v = some i) (hst : (s.ring r).st ≠ .disabled) : s.writeCqHead r v =
    let q := ({ s.ring r with cqHead := i } : Ring).flush s.stamp (s.ring r).held
    let t := s.updRing r fun _ => q.drained
    if q.cqTail = (s.ring r).cqTail then t else t.dueVector (s.ring r).vector := by
  simp [State.writeCqHead, hindex, hst]

theorem State.postLost_of_none {e : Nat} (h : (s.evRing e).lostCnt = 0) : s.postLost e = s := by
  simp [State.postLost, h]

theorem State.writeEvHead_eq {e : Nat} (hindex : ringIndex (s.evRing e).size v = some i) (hen : (s.evRing e).en = true) :
    s.writeEvHead e v = (s.updEvRing e fun q => { q with head := i }).postLost e := by
  simp [State.writeEvHead, hindex, hen]
end

@[simp] theorem State.dueVector_ring (s : State) (v : BitVec 5) (r : Nat) : (s.dueVector v).ring r = s.ring r := rfl

@[simp] theorem State.dueVector_evRing (s : State) (v : BitVec 5) (e : Nat) : (s.dueVector v).evRing e = s.evRing e := rfl

/-- Event rings and the messages of their vectors. -/
abbrev evRingPart (s t : State) : State := { s with evRings := t.evRings, hi := t.hi }

theorem evRingPart_part : Part evRingPart := ⟨fun _ => rfl, fun _ _ _ => rfl⟩

theorem State.updEvRing_only (s : State) (e : Nat) (f : EvRing → EvRing) : Only evRingPart s (s.updEvRing e f) := rfl

theorem State.writeEvent_only (s : State) (e type src payload : Nat) (poison : Bool) :
    Only evRingPart s (s.writeEvent e type src payload poison) := rfl

theorem State.postLost_only (s : State) (e : Nat) : Only evRingPart s (s.postLost e) := by
  unfold State.postLost
  dsimp only
  split
  · exact Only.trans evRingPart_part (s.writeEvent_only _ _ _ _ _) (State.updEvRing_only _ _ _)
  · exact Only.refl evRingPart_part s

theorem State.writeEvent_evRing (s : State) (e type src payload : Nat) (poison : Bool) : (s.writeEvent e type src payload poison).evRing e =
    let q := s.evRing e
    { q with
      tail := ringNext q.size q.tail, eseq := q.eseq + 1#16
      phase := if ringNext q.size q.tail = 0#12 then !q.phase else q.phase
      ev := tabSet none q.ev q.tail.toNat (some {
        type := BitVec.ofNat 8 type, phase := q.phase, poison := poison, src := BitVec.ofNat 2 src, eseq := q.eseq, ts := s.stamp
        payload := BitVec.ofNat 384 payload }) } := by
  unfold State.writeEvent
  dsimp only
  rw [State.dueVector_evRing, State.updEvRing_evRing_self]

/-- An event ring with space posts what it lost (R407). -/
theorem State.postLost_of_space {s : State} {e : Nat} (hen : (s.evRing e).en = true) (hlost : 0 < (s.evRing e).lostCnt)
    (hspace : (s.evRing e).full = false) : s.postLost e =
      (s.writeEvent e 0x0D 3 (2 + fld (s.evRing e).lostCnt 32 32) false).updEvRing e fun r => { r with lostCnt := 0 } := by
  simp [State.postLost, hen, hlost, hspace]

/-- Settles O18. -/
theorem doorbellsTakeAnIndexInsideTheRing : Obligations.DoorbellsTakeAnIndexInsideTheRing := by
  intro s v r e i sq cq ev refused q x
  have hsq : exec (.sqTail sq v) s = .next (s.writeSqTail r v) := by
    change execSqTail sq v s = _
    simp [execSqTail, sq, doorbellAt_sq, ok]
  have hcq : exec (.cqHead cq v) s = .next (s.writeCqHead r v) := by
    change execCqHead cq v s = _
    simp [execCqHead, cq, doorbellAt_cq, ok]
  have hev : exec (.evHead ev v) s = .next (s.writeEvHead e v) := by
    change execEvHead ev v s = _
    simp [execEvHead, ev, doorbellAt_ev, ok]
  rw [hsq, hcq, hev]
  refine ⟨fun h => ?outside, fun hst hi => ?inside, fun h => ?evOutside, fun hen hi => ?evInside, fun y hy => ?elsewhere⟩
  case outside =>
    have herr : s.writeSqTail r v = refused ∧ s.writeCqHead r v = refused := by
      by_cases hst : (s.ring r).st = .disabled
      · cases hindex : ringIndex (s.ring r).size v <;> simp [State.writeSqTail, State.writeCqHead, hindex, hst, State.dbErr, refused]
      · have hindex := ringIndex_of_le (h.resolve_left hst)
        simp [State.writeSqTail, State.writeCqHead, q, hindex, State.dbErr, refused]
    exact ⟨by rw [herr.1], by rw [herr.2]⟩
  case inside =>
    have hindex : ringIndex (s.ring r).size v = some i := ringIndex_of_lt hi
    have htail : s.writeSqTail r v = s.updRing r fun q => { q with sqTail := i } := by
      have hst' : (s.ring r).st ≠ .disabled := hst
      simp [State.writeSqTail, hindex, hst']
    have hhead := State.writeCqHead_eq hindex hst
    refine ⟨by rw [htail], fun hen hheld => ?_, _, rfl, ?_, fun j hj => ?_, ?_⟩
    · have hheld' : (s.ring r).held = [] := hheld
      have hen' : (s.ring r).st = .enabled := hen
      rw [hhead, hheld']
      simp only [Ring.flush, if_true]
      refine congrArg Host.Outcome.next (State.updRing_congr ?_)
      simp [Ring.drained, hen', hheld']
    · rw [hhead]
      dsimp only
      split
      · rw [State.updRing_ring_self]
      · rw [State.dueVector_ring, State.updRing_ring_self]
    · rw [hhead]
      dsimp only
      split
      · rw [State.updRing_ring_ne _ _ _ _ (Fin.val_ne_of_ne hj)]
      · rw [State.dueVector_ring, State.updRing_ring_ne _ _ _ _ (Fin.val_ne_of_ne hj)]
    · rw [hhead]
      dsimp only
      split <;> rfl
  case evOutside =>
    by_cases hen : (s.evRing e).en = true
    · have hindex := ringIndex_of_le (h.resolve_left (by simpa using hen))
      simp [State.writeEvHead, x, hindex, State.dbErr, refused]
    · cases hindex : ringIndex (s.evRing e).size v <;> simp [State.writeEvHead, hindex, hen, State.dbErr, refused]
  case evInside =>
    have hindex : ringIndex (s.evRing e).size v = some i := ringIndex_of_lt hi
    have hwrite := State.writeEvHead_eq hindex hen
    obtain ⟨u, hu⟩ : ∃ u, u = s.updEvRing e fun q => { q with head := i } := ⟨_, rfl⟩
    have hring : u.evRing e = { x with head := i } := by rw [hu, State.updEvRing_evRing_self]
    rw [hwrite, ← hu]
    refine ⟨fun hlost => ?_, fun hlost hspace => ⟨_, rfl, ?_⟩⟩
    · rw [State.postLost_of_none (by rw [hring]; exact hlost)]
    · have hfull : (u.evRing e).full = false := by simpa [EvRing.full, hring] using hspace
      have honly : Only evRingPart s (u.postLost e) :=
        Only.trans evRingPart_part (hu ▸ s.updEvRing_only e _) (u.postLost_only e)
      have hposted := State.postLost_of_space (by rw [hring]; exact hen) (by rw [hring]; exact hlost) hfull
      have hentry : (u.postLost e).evRing e = { (u.writeEvent e 0x0D 3 (2 + fld (u.evRing e).lostCnt 32 32) false).evRing e with lostCnt := 0 } := by
        rw [hposted, State.updEvRing_evRing_self]
      rw [State.writeEvent_evRing, hring] at hentry
      refine ⟨by rw [hentry], by rw [hentry], by rw [hentry], ?_, Only.back evRingPart_part honly⟩
      rw [hentry]
      simp
  case elsewhere =>
    have hnone := doorbellAt_none hy
    refine ⟨?_, ?_, ?_⟩
    · change execSqTail y v s = _
      simp [execSqTail, hnone, ok]
    · change execCqHead y v s = _
      simp [execCqHead, hnone, ok]
    · change execEvHead y v s = _
      simp [execEvHead, hnone, ok]

/-! ### Enabling and disabling (R389, R399, R412, R413) -/

theorem State.enableBad_setBit_31 (s : State) (v : Word) (x : Bool) : s.enableBad (setBit v 31 x) = s.enableBad v := by
  simp only [State.enableBad, bits_setBit_31 v x (show 3 < 31 by decide)]

theorem State.enableBad_eq_false {s : State} {v : Word} :
    s.enableBad v = false ↔ 4 ≤ bits v 3 0 ∧ bits v 3 0 ≤ 12 ∧ s.hi.selected ≠ 0#8 := by
  simp [State.enableBad, and_assoc]

/-- Stored twice at one index, the first time not as an index that is not listed, a table holds what was stored last. -/
theorem tabSet_tabSet {α : Type} [DecidableEq α] {d : α} (t : Tab α) (k : Nat) {v : α} (w : α) (h : v ≠ d) :
    tabSet d (tabSet d t k v) k w = tabSet d t k w := by
  induction t with
  | nil => simp [tabSet, h, tabDropTo]
  | cons e t ih =>
    obtain ⟨i, u⟩ := e
    by_cases hlt : i < k
    · simp [tabSet, hlt, ih]
    · by_cases heq : i = k
      · simp [tabSet, heq, h]
      · have hgt : ¬ i ≤ k := by omega
        simp [tabSet, hlt, heq, h, tabDropTo, hgt]

theorem State.updRing_updRing {s : State} {r : Nat} {f g : Ring → Ring} (h : f (s.ring r) ≠ Ring.init) :
    (s.updRing r f).updRing r g = s.updRing r fun q => g (f q) := by
  have h' : f (tabGet Ring.init s.rings r) ≠ Ring.init := h
  simp [State.updRing, tabUpd, tabSet_tabSet _ _ _ h']

/-- Nothing runs or waits that a ring disable would end. -/
structure State.NothingToAbort (s : State) : Prop where
  op : s.op = none
  waiting : s.waiting = []
  asked : s.bist.asked = []
  snapshots : s.snap.waiting = []
  shutdown : s.pm.shutO = none
  zones : s.zones = []

theorem State.NothingToAbort.abortRing {s : State} (h : s.NothingToAbort) (r : Nat) : s.abortRing r = s := by
  have hs : s = { s with
      op := none, waiting := [], bist := { s.bist with asked := [] }, snap := { s.snap with waiting := [] }, zones := [] } := by
    rw [← h.op, ← h.waiting, ← h.asked, ← h.snapshots, ← h.zones]
  conv_rhs => rw [hs]
  unfold State.abortRing
  simp only [h.op, h.waiting, List.filter_nil, List.foldl_nil, h.asked, h.snapshots, h.shutdown, h.zones]

theorem State.NothingToAbort.keeps {s : State} (h : s.NothingToAbort) (r : Nat) (t : Taken) : s.keeps r t = false := by
  simp [State.keeps, h.op]

/-- A ring disable with at most the commands of the ring's own list to end (R399). -/
theorem State.NothingToAbort.ringDisable {s : State} (h : s.NothingToAbort) {r : Nat} (hen : (s.ring r).st = .enabled)
    (hchecking : (s.ring r).checking = none) : s.ringDisable r =
      ((s.ring r).outs.foldl (fun t x => t.completion r x.cid.toNat x.opcode.toNat stAborted false 0)
        (s.updRing r fun q => { q with st := .draining, lostA := false, lostB := false })).updRing r Ring.drained := by
  have hdraining : (s.updRing r fun q => { q with st := .draining }).NothingToAbort :=
    ⟨h.op, h.waiting, h.asked, h.snapshots, h.shutdown, h.zones⟩
  have hne : ({ s.ring r with st := .draining } : Ring) ≠ Ring.init := fun e => nomatch congrArg Ring.st e
  have hunchecked : (s.updRing r fun q => { q with st := .draining }).updRing r Ring.unchecked =
      s.updRing r fun q => { q with st := .draining, lostA := false, lostB := false } := by
    rw [State.updRing_updRing hne]
    refine State.updRing_congr ?_
    simp [Ring.unchecked, ← hchecking]
  rw [State.ringDisable, if_pos hen, hdraining.abortRing, State.abortTaken, State.updRing_ring_self, hunchecked]
  simp [hdraining.keeps, hchecking]

/-! The configuration of a ring -/

section
variable {s : State} {r : Nat} {v : Word}

theorem State.ringCfg_enable (hst : (s.ring r).st = .disabled) (hgood : s.enableBad v = false) :
    s.ringCfg 0 r (setBit v 31 true) = s.updRing r fun q => { q with
      st := .enabled, size := BitVec.ofNat 4 (bits v 3 0), vector := BitVec.ofNat 5 (bits v 12 8)
      sqHead := 0#12, sqTail := 0#12, cqTail := 0#12, cqHead := 0#12, phase := true, cq := [] } := by
  simp only [State.ringCfg, hst, State.enableBad_setBit_31, hgood, bit_setBit_31, bits_setBit_31 v true (show 3 < 31 by decide),
    bits_setBit_31 v true (show 12 < 31 by decide)]
  rfl

theorem State.ringCfg_of_bad (hst : (s.ring r).st = .disabled) (hbad : s.enableBad v = true) :
    s.ringCfg 0 r (setBit v 31 true) = s.wrej 3 0 (0x1110 + 0x40 * r) := by
  simp [State.ringCfg, hst, State.enableBad_setBit_31, hbad]

/-- Enabling a ring that is not DISABLED changes nothing of it. -/
theorem State.ringCfg_of_not_disabled (hst : (s.ring r).st ≠ .disabled) : { s.ringCfg 0 r (setBit v 31 true) with gc := s.gc } = s := by
  have hrej : { s.wrej 3 0 (0x1110 + 0x40 * r) with gc := s.gc } = s := State.wrej_withGc rfl _ _ _
  unfold State.ringCfg
  simp only [bit_setBit_31, if_true, Bool.true_or]
  split
  · next h => exact absurd h hst
  · split
    · exact hrej
    · rfl
  · exact hrej
end

/-! The configuration of an event ring -/

section
variable {s : State} {e : Nat} {v : Word}

theorem State.evCfg_enable (hoff : (s.evRing e).en = false) (hbit : bit v 31 = true) (hgood : s.enableBad v = false) : s.evCfg 0 e v =
    (s.updEvRing e fun q => { q with
      en := true, size := BitVec.ofNat 4 (bits v 3 0), vector := BitVec.ofNat 5 (bits v 12 8), tail := 0#12, head := 0#12
      eseq := 0#16, phase := true, ev := [] }).postLost e := by
  simp only [State.evCfg, hoff, hbit, hgood]
  rfl

theorem State.evCfg_of_bad (hoff : (s.evRing e).en = false) (hbit : bit v 31 = true) (hbad : s.enableBad v = true) :
    s.evCfg 0 e v = s.wrej 3 0 (0x1508 + 0x20 * e) := by
  simp [State.evCfg, hoff, hbit, hbad]

/-- The configuration of an enabled event ring keeps its values; only EN may fall. -/
theorem State.evCfg_of_en (hon : (s.evRing e).en = true) :
    { s.evCfg 0 e v with gc := s.gc } = if bit v 31 then s else s.updEvRing e fun q => { q with en := false } := by
  have hgc : ∀ (c : Prop) [Decidable c] (t : State), t.gc = s.gc →
      { (if c then t.wrej 3 0 (0x1508 + 0x20 * e) else t) with gc := s.gc } = t := fun c _ t ht => by
    split
    · exact State.wrej_withGc ht _ _ _
    · rw [← ht]
  simp only [State.evCfg, hon, if_true]
  refine hgc _ _ ?_
  split <;> rfl
end

/-- Settles O21. -/
theorem ringsAreEnabledAndDisabled : Obligations.RingsAreEnabledAndDisabled := by
  intro s r e v ok q
  have hcfg : exec (.ringEnable r v) s = .next (s.ringCfg 0 r (setBit v 31 true)) := rfl
  have hseq : exec (.safeSeqWrite r v) s = .next (s.safeSeq 0 r v v) := rfl
  have hdis : exec (.ringDisable r) s = .next (s.ringDisable r).settle := rfl
  have hev : exec (.eventRingEnable e v) s = .next (s.evCfg 0 e v) := rfl
  have hok : ok ↔ s.enableBad v = false := State.enableBad_eq_false.symm
  have hno : ¬ ok ↔ s.enableBad v = true := by rw [hok, Bool.not_eq_false]
  rw [hcfg, hseq, hdis, hev]
  refine ⟨fun hst => ⟨fun hgood => ?enable, fun hbad => ?enableBad, ?seq⟩, fun hst => ⟨?enabled, ?seqBad⟩, fun hst => ?notEnabled,
    fun hen hop hwaiting hasked hsnap hshut hzones hd3 hheld hchecking hreset => ?disable, fun hoff hbit => ⟨fun hgood => ?ev, fun hbad => ?evBad⟩,
    fun hon hbit => ?evOn, fun hon hbit => ?evOff⟩
  case enable =>
    rw [State.ringCfg_enable hst (hok.mp hgood)]
  case enableBad => rw [State.ringCfg_of_bad hst (hno.mp hbad)]
  case seq => rw [State.safeSeq, if_pos hst]
  case enabled => exact ⟨_, rfl, State.ringCfg_of_not_disabled hst⟩
  case seqBad => rw [State.safeSeq, if_neg hst]
  case notEnabled => rw [State.ringDisable, if_neg hst]
  case disable =>
    have hidle : s.NothingToAbort := ⟨hop, hwaiting, hasked, hsnap, hshut, hzones⟩
    have hdisable := hidle.ringDisable hen hchecking
    refine ⟨fun houts => ?_, fun x houts => ?_⟩
    · have houts' : (s.ring r).outs = [] := houts
      have hne : ({ s.ring r with st := .draining, lostA := false, lostB := false } : Ring) ≠ Ring.init := fun e => nomatch congrArg Ring.st e
      rw [hdisable, houts', List.foldl_nil, State.updRing_updRing hne]
      refine congrArg (fun u : State => Host.Outcome.next u.settle) (State.updRing_congr ?_)
      have hheld' : (s.ring r).held = [] := hheld
      have hreset' : (s.ring r).resetDue = false := hreset
      simp [Ring.drained, houts', hheld', hreset']
    · have houts' : (s.ring r).outs = [x] := houts
      rw [hdisable, houts']
      rfl
  case ev => rw [State.evCfg_enable hoff hbit (hok.mp hgood)]
  case evBad => rw [State.evCfg_of_bad hoff hbit (hno.mp hbad)]
  case evOn => exact ⟨_, rfl, by rw [State.evCfg_of_en hon, if_pos hbit]⟩
  case evOff => exact ⟨_, rfl, by rw [State.evCfg_of_en hon, hbit, if_neg Bool.false_ne_true]⟩

end Sys2Proof.Machine
end


section
/-!
# Proofs: completions and events (R376 to R380, R397, R407)
-/
namespace Sys2Proof.Machine
open Sys2Proof

/-! ### Held completions (R397) -/

/-- An index that has advanced n times in its ring. -/
def advanced (size : BitVec 4) (n : Nat) (i : BitVec 12) : BitVec 12 := (List.replicate n ()).foldl (fun i _ => ringNext size i) i

theorem Ring.flush_held (ts : Word64) (r : Ring) (xs : List CqEntry) : ∃ n, n ≤ xs.length ∧
    (r.flush ts xs).held = xs.drop n ∧ (xs.drop n ≠ [] → (r.flush ts xs).cqFull = true) ∧
    (r.flush ts xs).cqTail = advanced r.size n r.cqTail := by
  induction xs generalizing r with
  | nil => exact ⟨0, Nat.le_refl 0, rfl, fun h => absurd rfl h, rfl⟩
  | cons x xs ih =>
    rw [Ring.flush]
    split
    · next hfull => exact ⟨0, Nat.zero_le _, rfl, fun _ => hfull, rfl⟩
    · obtain ⟨n, hn, hheld, hfull, htail⟩ := ih (r.write { x with ts := ts })
      exact ⟨n + 1, Nat.succ_le_succ hn, hheld, hfull, htail⟩

theorem Ring.flush_frame (ts : Word64) (r : Ring) (xs : List CqEntry) :
    (r.flush ts xs).st = r.st ∧ (r.flush ts xs).outs = r.outs ∧ (r.flush ts xs).cqHead = r.cqHead := by
  induction xs generalizing r with
  | nil => exact ⟨rfl, rfl, rfl⟩
  | cons x xs ih =>
    rw [Ring.flush]
    split
    · exact ⟨rfl, rfl, rfl⟩
    · exact ih _

/-! ### A final completion (R397, R399) -/

/-- The entry of a final completion. -/
def State.cqEntry (s : State) (o : Origin) (op st res : Nat) : CqEntry := {
  cid := o.cid, status := BitVec.ofNat 8 st, phase := false, interm := false, sqHead := (s.ring o.ring).sqHead, opcode := BitVec.ofNat 8 op
  ts := s.stamp, res := BitVec.ofNat 384 res }

/-- The command is outstanding no more. -/
def Ring.without (o : Origin) (op : Nat) (q : Ring) : Ring := { q with outs := dropTaken o.cid (BitVec.ofNat 8 op) q.outs }

section
variable {s : State} {o : Origin} (op st res : Nat)

theorem State.complete_of_disabled (h : (s.ring o.ring).st = .disabled) : s.complete o op st res = s := by
  rw [State.complete, State.completion, if_pos h]

theorem State.complete_eq (hon : (s.ring o.ring).st ≠ .disabled) (hd3 : s.hi.d3 = false) : s.complete o op st res =
    let t := (s.updRing o.ring (Ring.without o op)).updRing o.ring fun q => (q.post (s.cqEntry o op st res)).drained
    if (s.ring o.ring).holds then t else t.dueVector (s.ring o.ring).vector := by
  have hcid : BitVec.ofNat 16 o.cid.toNat = o.cid := by simp
  have hring : (s.updRing o.ring (Ring.without o op)).ring o.ring = (s.ring o.ring).without o op := State.updRing_ring_self _ _ _
  have hpost : s.complete o op st res = (s.updRing o.ring (Ring.without o op)).postCq o.ring o.cid.toNat op st false res := by
    rw [State.complete, State.completion, if_neg hon, hcid]
    rfl
  have hst : ¬ ((s.ring o.ring).without o op).st = .disabled := hon
  have hd3' : ¬ (s.updRing o.ring (Ring.without o op)).hi.d3 = true := by simpa using hd3
  rw [hpost]
  unfold State.postCq
  dsimp only
  rw [hring, if_neg hst, if_neg hd3', hcid]
  rfl
end

section
variable {s : State} {o : Origin} (op st res : Nat) (hd3 : s.hi.d3 = false)
include hd3

theorem State.complete_ring_ne {j : Nat} (hj : j ≠ o.ring) : (s.complete o op st res).ring j = s.ring j := by
  by_cases hst : (s.ring o.ring).st = .disabled
  · rw [State.complete_of_disabled _ _ _ hst]
  · rw [State.complete_eq _ _ _ hst hd3]
    dsimp only
    split
    · rw [State.updRing_ring_ne _ _ _ _ hj, State.updRing_ring_ne _ _ _ _ hj]
    · rw [State.dueVector_ring, State.updRing_ring_ne _ _ _ _ hj, State.updRing_ring_ne _ _ _ _ hj]

theorem State.complete_ring_self (hst : (s.ring o.ring).st ≠ .disabled) : (s.complete o op st res).ring o.ring =
    (((s.ring o.ring).without o op).post (s.cqEntry o op st res)).drained := by
  rw [State.complete_eq _ _ _ hst hd3]
  dsimp only
  split
  · rw [State.updRing_ring_self, State.updRing_ring_self]
  · rw [State.dueVector_ring, State.updRing_ring_self, State.updRing_ring_self]

theorem State.complete_hi (hst : (s.ring o.ring).st ≠ .disabled) (hholds : (s.ring o.ring).holds = true) :
    (s.complete o op st res).hi = s.hi := by
  rw [State.complete_eq _ _ _ hst hd3]
  dsimp only
  rw [if_pos hholds]
  rfl
end

theorem Ring.drained_of_enabled {r : Ring} (h : r.st = .enabled) : r.drained = r := by
  simp [Ring.drained, h]

theorem Ring.holds_iff {r : Ring} : r.holds = true ↔ r.held ≠ [] ∨ ringNext r.size r.cqTail = r.cqHead := by
  simp [Ring.holds, Ring.cqFull, or_comm]

/-! ### Events (R376 to R380, R407) -/

section
variable {s : State} (type src payload : Nat) (poison : Bool)

theorem State.toRing_of_off (h : (s.evRing (s.route type)).en = false) : s.toRing type src payload poison = s := by
  simp [State.toRing, h]

section
variable (hen : (s.evRing (s.route type)).en = true) (hd3 : s.hi.d3 = false)
include hen hd3

theorem State.toRing_of_full (hfull : (s.evRing (s.route type)).full = true) : s.toRing type src payload poison =
    s.updEvRing (s.route type) fun q => { q with drop := satInc q.drop 65535, lostCnt := q.lostCnt + 1 } := by
  simp [State.toRing, hen, hd3, hfull]

theorem State.toRing_of_space (hspace : (s.evRing (s.route type)).full = false) :
    s.toRing type src payload poison = s.writeEvent (s.route type) type src payload poison := by
  simp [State.toRing, hen, hd3, hspace]
end

theorem State.toRing_evRing_ne {j : Nat} (hj : j ≠ s.route type) : (s.toRing type src payload poison).evRing j = s.evRing j := by
  unfold State.toRing
  dsimp only
  split_ifs
  · rfl
  · rw [State.updEvRing_evRing_ne _ _ _ _ hj]
  · unfold State.writeEvent
    dsimp only
    rw [State.dueVector_evRing, State.updEvRing_evRing_ne _ _ _ _ hj]
end

/-- What the queue of a lane is once HB has taken an event from it at once (R376, R380). -/
theorem Evq.pass_evWord (q : Evq) (type payload ord : Nat) : q.pass (evWord type payload ord) = { q with
    bad := q.bad >>> 1, fillMax := max q.fillMax 1
    poisonCnt := if q.bad.getLsbD 0 = true ∧ q.poisonCnt < 255 then q.poisonCnt + 1 else q.poisonCnt } := by
  simp only [Evq.pass, Evq.take, evWord_fails, satInc]
  cases q.bad.getLsbD 0 <;> simp

/-- What the queue of a lane is once an event waits in it (R379, R380). -/
theorem Evq.put_eq (q : Evq) (w : EvWord) : q.put w =
    if q.words.length < 64 then { q with words := q.words ++ [w], fillMax := max q.fillMax (q.words.length + 1) }
    else { q with dropCnt := if q.dropCnt < 255 then q.dropCnt + 1 else q.dropCnt, lost := q.lost + 1 } := by
  by_cases h : 64 ≤ q.words.length
  · rw [Evq.put, if_pos h, if_neg (Nat.not_lt.mpr h)]
    rfl
  · rw [Evq.put, if_neg h, if_pos (Nat.not_le.mp h)]

/-- An event that does not wait goes to its ring from a state that differs in the queues alone. -/
structure State.Passes (s u : State) : Prop where
  evRings : u.evRings = s.evRings
  hi : u.hi = s.hi
  tb : u.tb = s.tb

section
variable {s u : State} (hp : s.Passes u) (type src payload : Nat) (poison : Bool)
include hp

theorem State.Passes.evRing (e : Nat) : u.evRing e = s.evRing e := by
  simp only [State.evRing, hp.evRings]

theorem State.Passes.route : u.route type = s.route type := by
  simp only [State.route, hp.hi]

theorem State.Passes.discarded (hoff : (s.evRing (s.route type)).en = false) :
    (u.toRing type src payload poison).evRings = s.evRings ∧ (u.toRing type src payload poison).hi = s.hi := by
  rw [State.toRing_of_off _ _ _ _ (by rw [hp.evRing, hp.route, hoff])]
  exact ⟨hp.evRings, hp.hi⟩

theorem State.Passes.dropped (hd3 : s.hi.d3 = false) (hen : (s.evRing (s.route type)).en = true)
    (hfull : (s.evRing (s.route type)).full = true) :
    (u.toRing type src payload poison).evRings = (s.updEvRing (s.route type) fun q => { q with
      drop := if q.drop < 65535 then q.drop + 1 else q.drop, lostCnt := q.lostCnt + 1 }).evRings ∧
    (u.toRing type src payload poison).hi = s.hi := by
  rw [State.toRing_of_full _ _ _ _ (by rw [hp.evRing, hp.route, hen]) (by rw [hp.hi, hd3]) (by rw [hp.evRing, hp.route, hfull])]
  refine ⟨?_, hp.hi⟩
  simp only [State.updEvRing, hp.evRings, hp.route]
  rfl

theorem State.Passes.posted (hd3 : s.hi.d3 = false) (hen : (s.evRing (s.route type)).en = true)
    (hspace : (s.evRing (s.route type)).full = false) : (u.toRing type src payload poison).evRing (s.route type) =
      let q := s.evRing (s.route type)
      { q with
        tail := ringNext q.size q.tail, eseq := q.eseq + 1#16
        phase := if ringNext q.size q.tail = 0#12 then !q.phase else q.phase
        ev := tabSet none q.ev q.tail.toNat (some {
          type := BitVec.ofNat 8 type, phase := q.phase, poison := poison, src := BitVec.ofNat 2 src, eseq := q.eseq
          ts := if s.hi.selected = 2#8 then s.tb.a else 0#64, payload := BitVec.ofNat 384 payload }) } := by
  have hstamp : u.stamp = if s.hi.selected = 2#8 then s.tb.a else 0#64 := by rw [State.stamp, hp.hi, hp.tb]
  rw [State.toRing_of_space _ _ _ _ (by rw [hp.evRing, hp.route, hen]) (by rw [hp.hi, hd3]) (by rw [hp.evRing, hp.route, hspace]),
    hp.route, State.writeEvent_evRing, hp.evRing, hstamp]

theorem State.Passes.others {j : Nat} (hj : j ≠ s.route type) : (u.toRing type src payload poison).evRing j = s.evRing j := by
  rw [State.toRing_evRing_ne _ _ _ _ (by rwa [hp.route]), hp.evRing]
end

theorem State.postEvent_a (s : State) (type payload : Nat) (h : s.hi.evHold = false) : s.postEvent type 1 payload =
    ({ s with evqA := s.evqA.pass (evWord type payload s.hi.evNext) } : State).toRing type 1 payload (s.evqA.bad.getLsbD 0) := by
  rw [State.postEvent, State.laneEvent, h]
  simp only [evWord_fails]
  rfl

theorem State.postEvent_b (s : State) (type payload : Nat) (h : s.hi.evHold = false) : s.postEvent type 2 payload =
    ({ s with evqB := s.evqB.pass (evWord type payload s.hi.evNext) } : State).toRing type 2 payload (s.evqB.bad.getLsbD 0) := by
  rw [State.postEvent, State.laneEvent, h]
  simp only [evWord_fails]
  rfl

theorem State.postEvent_hub (s : State) {type src : Nat} (payload : Nat) (h1 : src ≠ 1) (h2 : src ≠ 2) :
    s.postEvent type src payload = s.toRing type src payload false := by
  unfold State.postEvent
  split <;> simp_all

/-- Settles O19. -/
theorem completionsAndEvents : Obligations.CompletionsAndEvents := by
  refine ⟨fun r ts xs => ?held, fun s o op st res hd3 => ?complete, fun s type src payload hd3 => ?event⟩
  case held =>
    obtain ⟨n, hn, hheld, hfull, htail⟩ := r.flush_held ts xs
    exact ⟨n, hn, hheld, hfull, htail, r.flush_frame ts xs⟩
  case complete =>
    intro q outs x t
    have hother : ∀ j : Fin 16, j ≠ o.ring → t.ring j = s.ring j := fun j hj => State.complete_ring_ne _ _ _ hd3 (Fin.val_ne_of_ne hj)
    refine ⟨State.complete_of_disabled _ _ _, fun hen hheld hspace => ?_, fun hen hfull => ?_, hother, Only.back ringPart_part (s.completion_only _ _ _ _ _ _)⟩
    · have hholds : ¬ ((s.ring o.ring).without o op).holds = true := by
        rw [Ring.holds_iff]
        exact fun h => h.elim (fun h => h hheld) hspace
      have hst : (s.ring o.ring).st ≠ .disabled := fun e => nomatch hen.symm.trans e
      rw [State.complete_ring_self _ _ _ hd3 hst, Ring.post, if_neg hholds]
      exact Ring.drained_of_enabled hen
    · have hholds : ((s.ring o.ring).without o op).holds = true := Ring.holds_iff.mpr hfull
      have hst : (s.ring o.ring).st ≠ .disabled := fun e => nomatch hen.symm.trans e
      refine ⟨?_, State.complete_hi _ _ _ hd3 hst hholds⟩
      rw [State.complete_ring_self _ _ _ hd3 hst, Ring.post, if_pos hholds]
      exact Ring.drained_of_enabled hen
  case event =>
    intro e q t bad waits through stored
    have hthrough : ∀ k x, through k x = if src = k then x.pass (evWord type payload s.hi.evNext) else x := fun k x => by
      rw [Evq.pass_evWord]
    have hstored : ∀ k x, stored k x = if src = k then x.put (evWord type payload s.hi.evNext) else x := fun k x => by
      rw [Evq.put_eq]
      simp only [stored, ite_not]
    have hpassed : ¬ waits → ∃ u poison, t = u.toRing type src payload poison ∧ s.Passes u ∧ u.evqA = through 1 s.evqA ∧
        u.evqB = through 2 s.evqB ∧ (poison = true ↔ bad) := fun hw => by
      simp only [hthrough]
      by_cases h1 : src = 1
      · have hhold : s.hi.evHold = false := by simpa [waits, h1] using hw
        subst h1
        exact ⟨_, _, s.postEvent_a type payload hhold, ⟨rfl, rfl, rfl⟩, rfl, rfl, by simp [bad]⟩
      · by_cases h2 : src = 2
        · have hhold : s.hi.evHold = false := by simpa [waits, h2] using hw
          subst h2
          exact ⟨_, _, s.postEvent_b type payload hhold, ⟨rfl, rfl, rfl⟩, rfl, rfl, by simp [bad]⟩
        · exact ⟨s, false, s.postEvent_hub payload h1 h2, ⟨rfl, rfl, rfl⟩, by rw [if_neg h1], by rw [if_neg h2], by simp [bad, h1, h2]⟩
    refine ⟨fun hw => ?waiting, fun hw => ?queues, fun hw hoff => ?off, fun hw hen hfull => ?full, fun hw hen hspace => ?space, fun j hj => ?others,
      Only.back evPart_part (s.postEvent_only _ _ _)⟩
    case waiting =>
      obtain ⟨hhold, h1 | h2⟩ := hw
      · subst h1
        simp only [hstored]
        change s.laneEvent .a type payload = _
        rw [State.laneEvent, if_pos hhold]
        rfl
      · subst h2
        simp only [hstored]
        change s.laneEvent .b type payload = _
        rw [State.laneEvent, if_pos hhold]
        rfl
    case queues =>
      obtain ⟨u, poison, ht, -, hA, hB, -⟩ := hpassed hw
      rw [ht, ← u.toRing_gtOnly type src payload poison]
      exact ⟨hA, hB⟩
    case off =>
      obtain ⟨u, poison, ht, hp, -⟩ := hpassed hw
      rw [ht]
      exact hp.discarded type src payload poison hoff
    case full =>
      obtain ⟨u, poison, ht, hp, -⟩ := hpassed hw
      rw [ht]
      exact hp.dropped type src payload poison hd3 hen (by simpa [EvRing.full] using hfull)
    case space =>
      obtain ⟨u, poison, ht, hp, -, -, hbad⟩ := hpassed hw
      refine ⟨poison, hbad, ?_⟩
      rw [ht]
      exact hp.posted type src payload poison hd3 hen (by simpa [EvRing.full] using hspace)
    case others =>
      by_cases hw : waits
      · obtain ⟨hhold, h1 | h2⟩ := hw
        · subst h1
          change (s.laneEvent .a type payload).evRing j = _
          rw [State.laneEvent, if_pos hhold]
          rfl
        · subst h2
          change (s.laneEvent .b type payload).evRing j = _
          rw [State.laneEvent, if_pos hhold]
          rfl
      · obtain ⟨u, poison, ht, hp, -⟩ := hpassed hw
        rw [ht]
        exact hp.others type src payload poison hj

end Sys2Proof.Machine
end


section
/-!
# Proofs: commands of the host (R160, R392, R394, R400, R449, R453, R471)

A command of the host goes by `State.command`; one that needs the stewards is submitted to them (`State.submit`), and what the stewards
then do where they are ready is `State.takeUp`.
-/
namespace Sys2Proof.Machine
open Sys2Proof

/-! ### Commands of the host -/

section
variable {s : State} {o : Origin} {c : Instr} {effect : State → Host.Outcome State Fault Refusal}

theorem State.command_of_takes (h : s.takes o c = true) : s.command o c effect = effect (s.begun o) := if_pos h

theorem State.command_of_not_takes (h : s.takes o c = false) : s.command o c effect = .next s := if_neg (by simp [h])
end

/-- A command of the host has no effect where no accepted entry stands behind it. -/
theorem exec_host_of_not_takes {c : Instr} {o : Origin} {s : State} (h : hostOrigin c = some o) (htakes : s.takes o c = false) :
    exec c s = .next s := by
  have hnot : ¬ s.takes o c = true := by simp [htakes]
  cases c with
  | imgLoad | imgVerify | zoneAdmit | zoneCommit | rollback | zoneWithdraw | zoneMigrate | zoneRestart | connOpen | connClose | portEnable
  | portDisable | bistRun | channelCal | diagRead | snapshot | otpRead | otpProgram | writeLock | readLock | otpShadowSet | otpShadowRemove
  | timeSync | shutdown => cases h; exact if_neg hnot
  | _ => exact nomatch h

theorem State.takes_of_off {s : State} (h : s.pm.dstate = .off) (o : Origin) (c : Instr) : s.takes o c = false := by
  simp [State.takes, h]

/-! ### Commands that need the stewards -/

/-- After ZONE_WITHDRAW and SHUTDOWN what is due is settled. -/
def settledAfter (c : Instr) (s : State) : State :=
  match c with
  | .shutdown _ => s.settle
  | .zoneWithdraw _ _ => s.settle
  | _ => s

theorem exec_steward {c : Instr} {o : Origin} {op : Nat} {s : State} (h : waitOrigin c = some (o, op)) (htakes : s.takes o c = true) :
    exec c s = .next (settledAfter c ((s.begun o).submit c)) := by
  have hgate : exec c s = s.command o c fun u => .next (settledAfter c (u.submit c)) := by
    cases c with
    | imgVerify | zoneAdmit | zoneCommit | rollback | zoneWithdraw | zoneMigrate | zoneRestart | connOpen | connClose | bistRun | channelCal
    | shutdown => cases h; rfl
    | _ => exact nomatch h
  rw [hgate, State.command_of_takes htakes]

section
variable {s : State} {c : Instr} {o : Origin} {op : Nat} (h : waitOrigin c = some (o, op))
include h

theorem State.submit_of_refuse (hrefuse : s.stewardsRefuse = true) : s.submit c = s.complete o op stBadState 0 := by
  simp [State.submit, hrefuse, State.refuseWaiting, h]

theorem State.submit_of_wait (hopen : s.stewardsRefuse = false) (hwait : s.stewardsWait = true) :
    s.submit c = ({ s with waiting := s.waiting ++ [c] } : State).parked o op := by
  simp [State.submit, hopen, hwait, State.await, h]
end

/-- Settles O24. -/
theorem stewardCommandsWaitOrAreRefused : Obligations.StewardCommandsWaitOrAreRefused := by
  intro s0 c o op h htakes s done
  have hdone : done = settledAfter c := by
    funext u
    cases c <;> rfl
  have hexec := exec_steward h htakes
  rw [hdone, hexec]
  refine ⟨fun hbroken => ?_, fun hlock hstate => ?_, fun hstate => ?_, fun u x d hoff hx => exec_host_of_not_takes hx (u.takes_of_off hoff x d)⟩
  · have hrefuse : (s0.begun o).stewardsRefuse = true := by
      have hbroken' : (s0.begun o).db.broken = true := hbroken
      simp [State.stewardsRefuse, hbroken']
    exact congrArg (fun u => Host.Outcome.next (settledAfter c u)) (State.submit_of_refuse h hrefuse)
  · have hwait : (s0.begun o).stewardsWait = true ∧ (s0.begun o).stewardsRefuse = false := by
      have hlock' : (s0.begun o).db.broken = false := hlock
      have hstate' : (s0.begun o).pm.dstate ∈ [DState.load, .startTest, .config, .dormant] := hstate
      simp only [List.mem_cons, List.not_mem_nil, or_false] at hstate'
      obtain h | h | h | h := hstate' <;> simp [State.stewardsWait, State.stewardsRefuse, hlock', h]
    rw [State.submit_of_wait h hwait.2 hwait.1]
  · have hrefuse : (s0.begun o).stewardsRefuse = true := by
      have hstate' : (s0.begun o).pm.dstate = .shutdown := hstate
      simp [State.stewardsRefuse, hstate']
    exact congrArg (fun u => Host.Outcome.next (settledAfter c u)) (State.submit_of_refuse h hrefuse)

end Sys2Proof.Machine
end


section
/-!
# Proofs: the reading commands and what starts a zone, a shutdown (R51, R160, R392, R472)
-/
namespace Sys2Proof.Machine
open Sys2Proof

section
variable {s : State} {o : Origin}

/-- DIAG_READ with its figures in range moves as many records as the ACTIVE version has from the first one asked for. -/
theorem exec_diagRead {z : BitVec 8} {f n : BitVec 16} {len : Word} {bus : Bool} (hmin : 1 ≤ n.toNat) (hmax : n.toNat ≤ 1024)
    (hbuf : 8 * n.toNat ≤ len.toNat) (htakes : s.takes o (.diagRead o z f n len bus) = true) :
    exec (.diagRead o z f n len bus) s =
      let u := s.begun o
      let k := match (u.zone z.toNat).active with
        | some v => min n.toNat (v.sec.blocks.length - f.toNat)
        | none => 0
      if k = 0 then .next (({ u with diagBuf := {} } : State).complete o 0x31 0x00 0)
      else .next (u.startMove o 0x31 { kind := .diag z.toNat f.toNat, bytes := 8 * k, busOk := bus }) := by
  have hgood : ¬ (n.toNat = 0 || 1024 < n.toNat || len.toNat < 8 * n.toNat) = true := by
    simp only [Bool.or_eq_true, decide_eq_true_eq, not_or]
    omega
  change execDiagRead o z f n len bus s = _
  rw [execDiagRead, State.command_of_takes htakes]
  exact if_neg hgood
end

/-- Settles O30. -/
theorem readingCommands : Obligations.ReadingCommands := by
  intro s0 o s
  refine ⟨fun z f n len bus => ⟨fun hbad htakes => ?_, fun hmin hmax hbuf hnone htakes => ?_, fun v hmin hmax hbuf hv => ⟨?_, ?_⟩⟩, ?_, ?_⟩
  · change execDiagRead o z f n len bus s0 = _
    rw [execDiagRead, State.command_of_takes htakes]
    exact if_pos (by simpa [or_assoc] using hbad)
  · rw [exec_diagRead hmin hmax hbuf htakes]
    dsimp only
    rw [hnone]
    rfl
  · intro hpast htakes
    have hnone : min n.toNat (v.sec.blocks.length - f.toNat) = 0 := by omega
    rw [exec_diagRead hmin hmax hbuf htakes]
    dsimp only
    rw [hv]
    exact if_pos hnone
  · intro hpast htakes
    have hsome : ¬ min n.toNat (v.sec.blocks.length - f.toNat) = 0 := by omega
    rw [exec_diagRead hmin hmax hbuf htakes]
    dsimp only
    rw [hv]
    exact if_neg hsome
  · intro f n len bus good
    have hif : (f.toNat % 16 ≠ 0 || n.toNat % 16 ≠ 0 || n.toNat < 16 || 137216 < n.toNat || 0x21800 < f.toNat + n.toNat ||
        len.toNat < 16 + n.toNat / 4) = true ↔ ¬ good := by
      simp only [good, Bool.or_eq_true, decide_eq_true_eq]
      omega
    refine ⟨fun hbad htakes => ?_, fun hgood htakes => ?_⟩
    all_goals
      change execSnapshot o f n len bus s0 = _
      rw [execSnapshot, State.command_of_takes htakes]
    · exact if_pos (hif.2 hbad)
    · exact if_neg fun h => hif.1 h hgood
  · refine ⟨⟨(Config.freeMeasure s.freeCtr).toNat % 4, by omega⟩, ⟨(Config.freeMeasure (s.freeCtr + 1)).toNat % 4, by omega⟩, fun htakes => ?_⟩
    change execTimeSync o s0 = _
    rw [execTimeSync, State.command_of_takes htakes]
    have hfld (x : Word64) (k : Nat) : fld x.toNat 64 k = x.toNat * 2 ^ k := by
      rw [fld, Nat.mod_eq_of_lt x.isLt, Nat.shiftLeft_eq]
    simp only [State.draw, hfld]
    rfl

/-! ### Commands of the stewards that are taken up at once -/

/-- Stewards that are ready take a command up as it comes. -/
theorem State.Ready.submit {s : State} (h : s.Ready) (c : Instr) : s.submit c = s.takeUp c := by
  obtain ⟨hrun, hlock, hidle, hserved⟩ := h
  have hopen : s.stewardsRefuse = false := by simp [State.stewardsRefuse, hlock, hrun]
  have hnow : s.stewardsWait = false := by simp [State.stewardsWait, hrun]
  have hmay : s.mustWait c = false := by cases c <;> simp [State.mustWait, State.inTransfer, hidle]
  simp [State.submit, hopen, hnow, hmay, hidle, hserved]

theorem State.Ready.exec {s : State} {c : Instr} {o : Origin} {op : Nat} (hready : (s.begun o).Ready) (h : waitOrigin c = some (o, op))
    (htakes : s.takes o c = true) : exec c s = .next (settledAfter c ((s.begun o).takeUp c)) := by
  rw [exec_steward h htakes, hready.submit]

theorem State.updZone_congr {s : State} {z : Nat} {f h : Zone → Zone} (e : f (s.zone z) = h (s.zone z)) : s.updZone z f = s.updZone z h := by
  have e' : f (tabGet Zone.init s.zones z) = h (tabGet Zone.init s.zones z) := e
  simp only [State.updZone, tabUpd, e']

theorem State.startWithdraw_fresh {s : State} {z : Nat} {v : ZoneVer} {o : Origin} (hv : (s.zone z).active = some v) (hwd : (s.zone z).wd = none) :
    s.startWithdraw z [o] false = (s.updZone z fun y => { y with
      wd := some { os := [o], sample0 := s.fd.sampleNum, confirmed := [], dropped := false }, restartReq := false }).trigger v.pair := by
  have hfresh : s.startWithdraw z [o] false = (s.updZone z fun y => { y with
      wd := match y.wd with
        | some w => some { w with os := w.os ++ [o], dropped := w.dropped || false }
        | none => some { os := [o], sample0 := s.fd.sampleNum, confirmed := [], dropped := false }
      restartReq := false }).trigger v.pair := by
    rw [State.startWithdraw]
    dsimp only
    rw [hv]
    rfl
  rw [hfresh]
  exact congrArg (State.trigger · v.pair) (State.updZone_congr (by rw [hwd]))

theorem State.discardStaged_of_withdrawn {s : State} {z : Nat} {v : ZoneVer} (hv : (s.zone z).staged = some v) (hadm : v.admitted = false)
    (hst : (s.zone z).st = .withdrawn) : s.discardStaged z = s.updZone z fun y => { y with staged := none, accFails := 0 } := by
  simp [State.discardStaged, State.setZoneSt, hv, hadm, hst]

/-- Settles O27. -/
theorem withdrawAndRestartAreTakenUp : Obligations.WithdrawAndRestartAreTakenUp := by
  intro s0 o z s hready y
  have hexec {c : Instr} {op : Nat} (h : waitOrigin c = some (o, op)) (htakes : s0.takes o c = true) :
      exec c s0 = .next (settledAfter c (s.takeUp c)) := hready.exec h htakes
  have hwithdraw (htakes : s0.takes o (.zoneWithdraw o z) = true) : exec (.zoneWithdraw o z) s0 = .next (s.beginWithdraw o z.toNat).settle :=
    hexec rfl htakes
  have hrestart (htakes : s0.takes o (.zoneRestart o z) = true) : exec (.zoneRestart o z) s0 = .next (s.startRestart o z.toNat) :=
    hexec rfl htakes
  refine ⟨fun v hv hwd htakes => ?_, fun v hnone hv hadm hst htakes => ?_, fun hnone hstaged htakes => ?_, fun hst htakes => ?_,
    fun hst hblocked htakes => ?_, fun hst hblocked hhealthy htakes => ?_, s.startShutdown (some o) false, fun htakes => hexec rfl htakes, rfl, rfl, rfl⟩
  · rw [hwithdraw htakes]
    have hbegin : s.beginWithdraw o z.toNat = s.startWithdraw z.toNat [o] false := if_pos (by simp [show (s.zone z.toNat).active = some v from hv])
    rw [hbegin, State.startWithdraw_fresh hv hwd]
    rfl
  · rw [hwithdraw htakes]
    have hactive : (s.zone z.toNat).active = none := hnone
    have hst' : (s.zone z.toNat).staged = some v := hv
    have hbegin : s.beginWithdraw o z.toNat = (s.discardStaged z.toNat).complete o 0x12 stSuccess 0 := by
      simp [State.beginWithdraw, hactive, hst']
    rw [hbegin, State.discardStaged_of_withdrawn hv hadm hst]
    rfl
  · rw [hwithdraw htakes]
    have hactive : (s.zone z.toNat).active = none := hnone
    have hst' : (s.zone z.toNat).staged = none := hstaged
    have hbegin : s.beginWithdraw o z.toNat = s.complete o 0x12 stBadState (s.zone z.toNat).st.code := by
      simp [State.beginWithdraw, hactive, hst']
    rw [hbegin]
    rfl
  · rw [hrestart htakes]
    exact congrArg Host.Outcome.next (if_pos hst)
  · have hst' : (s.zone z.toNat).st = .faulted := hst
    have hstart : s.startRestart o z.toNat = s.complete o 0x14 0x27 ZoneSt.faulted.code := by
      simp [State.startRestart, hst', hblocked]
    rw [hrestart htakes, hstart]
    rfl
  · have hst' : (s.zone z.toNat).st = .faulted := hst
    have hhealthy' : s.pairHealthy (s.zone z.toNat).pairOf = true := hhealthy
    have hstart : s.startRestart o z.toNat = s.askRestart z.toNat [o] := by
      simp [State.startRestart, hst', hblocked, hhealthy']
    rw [hrestart htakes, hstart]
    rfl

end Sys2Proof.Machine
end


section
/-!
# Proofs: admissions, commits and rollbacks are taken up (R159, R160, R165, R178, R190)
-/
namespace Sys2Proof.Machine
open Sys2Proof

/-! ### How an admission begins -/

theorem maskBits_zero {w : Nat} : maskBits (0#w) = [] := by simp [maskBits, below]

theorem mem_maskBits_twoPow {w : Nat} (i : Fin w) : i.val ∈ maskBits (BitVec.twoPow w i) := by
  simp [maskBits, mem_below]

theorem length_maskBits_twoPow {w : Nat} (i : Fin w) : (maskBits (BitVec.twoPow w i)).length ≤ 1 := by
  have hone : ∀ j ∈ maskBits (BitVec.twoPow w i), j = i.val := by
    intro j hj
    rw [maskBits, mem_below, BitVec.getLsbD_twoPow] at hj
    simp at hj
    omega
  have hnodup : (maskBits (BitVec.twoPow w i)).Nodup := below_nodup _ _
  rw [List.eq_replicate_of_mem hone, List.nodup_replicate] at hnodup
  exact hnodup

/-- An admission onto the free pair `p` has begun. -/
def State.admitting (s : State) (k : OpKind) (o : Option Origin) (p : Nat) : State :=
  (({ s with
      op := some { kind := k, o := o, start := s.now, tgt := p, loaded := true, reused := s.reuses k true, req0 := s.commonFault }
      mig := if k.moves then { s.mig with src := k.src, tgt := p, agree := 0 } else s.mig } : State).setStage 1).load p

/-- An admission onto a free pair that is named loads it. -/
theorem State.beginAdmission_free {s : State} {k : OpKind} {o : Option Origin} {p : Nat} (hp : p < 36) (hrole : (s.pair p).role = .free)
    (hhalt : (s.pair p).haltBit = false) : s.beginAdmission k o p = s.admitting k o p := by
  have hnamed : ¬ p = 0x3F := by omega
  have hpair (m : Mig) : ({ s with mig := m } : State).pair p = s.pair p := rfl
  unfold State.beginAdmission State.admitting
  cases hk : k.moves
  · simp only [Bool.false_eq_true, if_false, if_neg hnamed]
    rw [hhalt, hrole]
    rfl
  · simp only [if_true, if_neg hnamed]
    rw [hpair, hhalt, hrole]
    rfl

/-- What EP_MIG_STAT shows as the migration of the zones `cs` begins. -/
theorem State.admitting_migrate (s : State) (cs : List Nat) (src : Nat) (whole readmit slice : Bool) (o : Option Origin) (p : Nat) :
    s.admitting (.migrate cs src whole readmit slice) o p =
      ({ s with
        op := some { kind := .migrate cs src whole readmit slice, o := o, stage := 1, start := s.tb.a, tgt := p, loaded := true
                     reused := s.reuses (.migrate cs src whole readmit slice) true, req0 := s.commonFault }
        mig := { s.mig with src := src, tgt := p, agree := 0, stage := 1 } } : State).load p := rfl

/-- A rollback begins its admission on the pair that carries its version. -/
theorem State.beginAdmission_rollback {s : State} {z p : Nat} {o : Option Origin} (hp : p < 36) (hrole : (s.pair p).role = .carrying)
    (hhalt : (s.pair p).haltBit = false) :
    s.beginAdmission (.commit z true false) o p =
      ({ s with op := some { kind := .commit z true false, o := o, start := s.now, tgt := p, req0 := s.commonFault } } : State).setStage 1 := by
  have hnamed : ¬ p = 0x3F := by omega
  unfold State.beginAdmission
  simp only [OpKind.moves, Bool.false_eq_true, if_false, if_neg hnamed]
  rw [hhalt, hrole]
  rfl

theorem distinct_nil_of_none {α : Type} {zs : List α} {f : α → Option Nat} (h : ∀ z ∈ zs, f z = none) : distinct (zs.filterMap f) = [] := by
  rw [List.filterMap_eq_nil_iff.2 h, distinct]

section
variable {s : State} {o : Origin} {zones : BitVec 256} {pair : Byte}

theorem State.startAdmit_fresh (hpair : pair.toNat < 36) (hsome : maskBits zones ≠ []) (hmax : (maskBits zones).length ≤ 64)
    (hready : ∀ z ∈ maskBits zones, (s.zone z).active = none ∧ (s.zone z).wd = none ∧ ∃ v, (s.zone z).staged = some v ∧ v.admitted = false) :
    s.startAdmit o zones pair = s.beginAdmission (.admission (maskBits zones) false) (some o) pair.toNat := by
  have hsrcs : distinct ((maskBits zones).filterMap fun z => (s.zone z).active.map fun v => v.pair) = [] :=
    distinct_nil_of_none fun z hz => by rw [(hready z hz).1]; rfl
  have hform : ¬ ((maskBits zones).isEmpty || decide (64 < (maskBits zones).length) ||
      (decide (35 < pair.toNat) && decide (pair.toNat ≠ 0x3F))) = true := by
    simp [hsome]
    omega
  have hall : ¬ (!(maskBits zones).all fun z => (s.zone z).wd.isNone && match (s.zone z).staged with
      | some v => !v.admitted
      | none => false) = true := by
    simp only [Bool.not_eq_true', List.all_eq_false, not_exists, not_and, Decidable.not_not]
    intro z hz
    obtain ⟨-, hwd, v, hv, hadm⟩ := hready z hz
    simp [hwd, hv, hadm]
  unfold State.startAdmit
  dsimp only
  rw [if_neg hform]
  refine (if_neg hall).trans ?_
  rw [hsrcs]

theorem State.startAdmit_none : s.startAdmit o 0#256 pair = s.complete o 0x10 0x03 0 := by
  simp [State.startAdmit, maskBits_zero, stBadParam]

theorem State.startAdmit_of_not_staged {z : Fin 256} (hpair : pair.toNat < 36) (hnone : (s.zone z).staged = none) :
    s.startAdmit o (BitVec.twoPow 256 z) pair = s.complete o 0x10 0x04 0 := by
  have hmem := mem_maskBits_twoPow z
  have hlen := length_maskBits_twoPow z
  have hform : ¬ ((maskBits (BitVec.twoPow 256 z)).isEmpty || decide (64 < (maskBits (BitVec.twoPow 256 z)).length) ||
      (decide (35 < pair.toNat) && decide (pair.toNat ≠ 0x3F))) = true := by
    simp [List.ne_nil_of_mem hmem]
    omega
  unfold State.startAdmit
  dsimp only
  rw [if_neg hform]
  refine if_pos ?_
  simp only [Bool.not_eq_true', List.all_eq_false]
  exact ⟨z, hmem, by simp [hnone]⟩
end

theorem State.startMigrate_whole {s : State} {o : Origin} {src tgt : Byte} (hsrc : src.toNat < 36) (htgt : tgt.toNat < 36) (hne : src ≠ tgt)
    (hcarrying : (s.pair src.toNat).role = .carrying) (hfree : (s.pair tgt.toNat).role = .free) (hzones : s.zonesOn src.toNat ≠ []) :
    s.startMigrate o 0#256 src tgt =
      s.beginAdmission (.migrate (s.zonesOn src.toNat) src.toNat true false false) (some o) tgt.toNat := by
  have hslice : s.abortSlice tgt.toNat = s := by simp [State.abortSlice, State.inSlice, hfree]
  have hform : ¬ (35 < src.toNat || (decide (35 < tgt.toNat) && decide (tgt.toNat ≠ 0x3F)) ||
      (maskBits 0#256).any fun z => !(s.zonesOn src.toNat).contains z) = true := by
    simp [maskBits_zero]
    omega
  have hne' : tgt.toNat ≠ src.toNat := fun h => hne (BitVec.eq_of_toNat_eq h.symm)
  unfold State.startMigrate
  dsimp only
  have hkeep : (Role.carrying == Role.stopped) = false := rfl
  rw [if_neg hform, hslice]
  simp [maskBits_zero, hcarrying, hne', hzones, hkeep]

/-! ### How a commit waits -/

/-- The long operation of a commit that waits for its outputs. -/
def State.commitOp (s : State) (z : Nat) (o : Origin) (v : ZoneVer) : LongOp := {
  kind := .commit z false false, o := some o, tgt := v.pair, stage := 6, start := s.tb.a, sample0 := s.fd.sampleNum
  req0 := s.commonFault }

/-- A commit begun, before its conditions are looked at. -/
def State.commitBegun (s : State) (z : Nat) (op : LongOp) : State :=
  { s.updZone z fun y => { y with accFails := 0, holdRestart := y.active.isSome } with op := some op, mig := { s.mig with stage := 6 } }

section
variable {s : State} {o : Origin} {z : Nat} {accept : Word} {v : ZoneVer}

theorem State.commitVer_eq (hv : (s.zone z).staged = some v) (hadm : v.admitted = true) : s.commitVer z false = some v := by
  simp [State.commitVer, hv, hadm]

theorem State.updZone_updZone {f g : Zone → Zone} (h : f (s.zone z) ≠ Zone.init) :
    (s.updZone z f).updZone z g = s.updZone z fun y => g (f y) := by
  have h' : f (tabGet Zone.init s.zones z) ≠ Zone.init := h
  simp [State.updZone, tabUpd, tabSet_tabSet _ _ _ h']

theorem State.startCommit_begun (hv : (s.zone z).staged = some v) (hadm : v.admitted = true) (hwd : (s.zone z).wd = none) :
    s.startCommit (some o) z v.accept false = (s.commitBegun z (s.commitOp z o v)).opCheck := by
  have hne : ({ s.zone z with accFails := 0 } : Zone) ≠ Zone.init := by
    intro h
    have : (s.zone z).staged = none := congrArg Zone.staged h
    rw [hv] at this
    cases this
  unfold State.startCommit
  rw [State.commitVer_eq hv hadm]
  dsimp only
  rw [hwd, if_neg (by simp), if_neg (by simp)]
  have hzones := State.updZone_updZone (f := fun y => { y with accFails := 0 }) (g := fun y => { y with holdRestart := y.active.isSome }) hne
  have hwait : (({ s.updZone z fun y => { y with accFails := 0 } with
      op := some { kind := .commit z false false, o := some o, start := s.now, tgt := v.pair, req0 := s.commonFault } } : State).commitWait z v.pair) =
      { (s.updZone z fun y => { y with accFails := 0 }).updZone z fun y => { y with holdRestart := y.active.isSome } with
        op := some (s.commitOp z o v), mig := { s.mig with stage := 6 } } := rfl
  exact congrArg State.opCheck (hwait.trans (by rw [hzones]; rfl))

theorem State.startCommit_mismatch (hv : (s.zone z).staged = some v) (hadm : v.admitted = true) (hwd : (s.zone z).wd = none)
    (hacc : accept ≠ v.accept) (hfew : (s.zone z).accFails < 3) :
    s.startCommit (some o) z accept false = (s.updZone z fun y => { y with accFails := y.accFails + 1 }).complete o 0x11 0x22 0 := by
  have hmore : ¬ 4 ≤ (s.zone z).accFails + 1 := by omega
  have hcount : s.updZone z (fun y => { y with accFails := (s.zone z).accFails + 1 }) = s.updZone z fun y => { y with accFails := y.accFails + 1 } :=
    State.updZone_congr rfl
  unfold State.startCommit
  rw [State.commitVer_eq hv hadm]
  dsimp only
  rw [hwd, if_neg (by simp), if_pos hacc, if_neg (by simp), if_neg hmore, hcount]
  rfl

theorem State.startCommit_none (h : (s.zone z).staged = none ∨ ∃ v, (s.zone z).staged = some v ∧ v.admitted = false) :
    s.startCommit (some o) z accept false = s.complete o 0x11 0x04 0 := by
  have hver : s.commitVer z false = none := by
    obtain hnone | ⟨v, hv, hadm⟩ := h
    · simp [State.commitVer, hnone]
    · simp [State.commitVer, hv, hadm]
  unfold State.startCommit
  rw [hver]
  rfl
end

section
variable {s : State} {z : Nat} {op : LongOp} {v : ZoneVer} (hop : s.op = some op) (hkind : op.kind = .commit z false false) (hstage : op.stage = 6)
  (harmed : op.armed = false) (hv : (s.zone z).staged = some v) (hadm : v.admitted = true) (hwd : (s.zone z).wd = none)
  (hdown : s.down op.tgt = false)
include hop hkind hstage harmed hv hadm hwd hdown

theorem State.opCheck_commit : s.opCheck =
    if s.commitReady op z v = true then ({ s with op := some { op with armed := true } } : State).trigger op.tgt else s := by
  have hcheck : s.opCheck = s.checkCommit op z false := by
    unfold State.opCheck
    rw [hop]
    dsimp only
    rw [hkind, hstage]
    rfl
  rw [hcheck]
  simp [State.checkCommit, State.commitVer_eq hv hadm, hv, hwd, hdown, harmed]
end

/-- Settles O26. -/
theorem admissionsAndCommitsAreTakenUp : Obligations.AdmissionsAndCommitsAreTakenUp := by
  refine ⟨?_, ?_⟩
  · intro s0 o s hready
    have hexec {c : Instr} {op : Nat} (h : waitOrigin c = some (o, op)) (htakes : s0.takes o c = true) :
        exec c s0 = .next (settledAfter c (s.takeUp c)) := hready.exec h htakes
    refine ⟨fun zones pair hpair hfree hhalt hsome hmax hver htakes => ?_, fun pair htakes => ?_, fun z pair hpair hnone htakes => ?_,
      fun src tgt hsrc htgt hne hcarrying hfree hhalt hzones =>
        ⟨s.admitting (.migrate (s.zonesOn src.toNat) src.toNat true false false) (some o) tgt.toNat, fun htakes => ?_, ?_⟩⟩
    · have hadmit : s.startAdmit o zones pair = s.admitting (.admission (maskBits zones) false) (some o) pair.toNat :=
        (State.startAdmit_fresh hpair hsome hmax hver).trans (State.beginAdmission_free hpair hfree hhalt)
      rw [hexec rfl htakes]
      exact congrArg Host.Outcome.next hadmit
    · rw [hexec rfl htakes]
      exact congrArg Host.Outcome.next (State.startAdmit_none (pair := pair))
    · rw [hexec rfl htakes]
      exact congrArg Host.Outcome.next (State.startAdmit_of_not_staged hpair hnone)
    · rw [hexec rfl htakes]
      exact congrArg Host.Outcome.next
        ((State.startMigrate_whole hsrc htgt hne hcarrying hfree hzones).trans (State.beginAdmission_free htgt hfree hhalt))
    · rw [State.admitting_migrate]
      exact ⟨rfl, rfl, rfl, rfl⟩
  · intro s0 o z accept s hready y
    have hexec {c : Instr} {op : Nat} (h : waitOrigin c = some (o, op)) (htakes : s0.takes o c = true) :
        exec c s0 = .next (settledAfter c (s.takeUp c)) := hready.exec h htakes
    have hcommit (htakes : s0.takes o (.zoneCommit o z accept) = true) :
        exec (.zoneCommit o z accept) s0 = .next (s.startCommit (some o) z.toNat accept false) := hexec rfl htakes
    have hrollback (htakes : s0.takes o (.rollback o z accept) = true) :
        exec (.rollback o z accept) s0 = .next (s.startRollback o z.toNat accept) := hexec rfl htakes
    refine ⟨fun v hv hadm hwd => ⟨?_, fun hacc hfew htakes => ?_⟩, fun hnone htakes => ?_, fun hnone htakes => ?_, fun v hv hacc htakes => ?_,
      fun v hv hacc hwd hpair hcarrying hhalt htakes => ?_⟩
    · rintro rfl hdown op u
      have hbegun : s.startCommit (some o) z.toNat v.accept false = u.opCheck := State.startCommit_begun hv hadm hwd
      have hzone : u.zone z.toNat = { y with accFails := 0, holdRestart := y.active.isSome } :=
        State.updZone_zone_self (s := s) z.toNat fun y => { y with accFails := 0, holdRestart := y.active.isSome }
      have hcheck := State.opCheck_commit (s := u) (z := z.toNat) (op := op) (v := v) rfl rfl rfl rfl (by rw [hzone]; exact hv) hadm
        (by rw [hzone]; exact hwd) hdown
      refine ⟨fun hready htakes => ?_, fun hready htakes => ?_⟩
      · rw [hcommit htakes, hbegun, hcheck, hready]
        rfl
      · rw [hcommit htakes, hbegun, hcheck, hready]
        rfl
    · rw [hcommit htakes, State.startCommit_mismatch hv hadm hwd hacc hfew]
      rfl
    · rw [hcommit htakes, State.startCommit_none hnone]
      rfl
    · rw [hrollback htakes]
      have hver : (s.zone z.toNat).retained = none := hnone
      simp [State.startRollback, hver]
      rfl
    · rw [hrollback htakes]
      have hver : (s.zone z.toNat).retained = some v := hv
      simp [State.startRollback, hver, hacc]
      rfl
    · subst hacc
      have hver : (s.zone z.toNat).retained = some v := hv
      have hwd' : (s.zone z.toNat).wd = none := hwd
      have hstart : s.startRollback o z.toNat v.accept =
          (s.updZone z.toNat fun y => { y with holdRestart := true }).beginAdmission (.commit z.toNat true false) (some o) v.pair := by
        simp [State.startRollback, hver, hwd']
      rw [hrollback htakes, hstart, State.beginAdmission_rollback (s := s.updZone z.toNat fun y => { y with holdRestart := true }) hpair hcarrying hhalt]
      rfl

end Sys2Proof.Machine
end


section
/-!
# Proofs: connections and ports (R258, R275, R276, R282, R289)

What changes the state of a connection or of a port changes nothing else but the points of the connection, what is under way of it and the
events.
-/
namespace Sys2Proof.Machine
open Sys2Proof

/-! ### Parts of the state -/

/-- Event rings, the queue of lane A to them and the messages of their vectors. -/
abbrev evAPart (s t : State) : State := { s with evRings := t.evRings, evqA := t.evqA, hi := t.hi }

/-- Connections with their frames and points under way, and the events. -/
abbrev connPart (s t : State) : State := { s with
  ptsA := t.ptsA, ptsB := t.ptsB, conns := t.conns, trans := t.trans, evRings := t.evRings, evqA := t.evqA, evqB := t.evqB, hi := t.hi
  freeCtr := t.freeCtr }

/-- A connection that opens: what `connPart` names but the points and the queue of lane B. -/
abbrev openPart (s t : State) : State := { s with
  conns := t.conns, trans := t.trans, evRings := t.evRings, evqA := t.evqA, hi := t.hi, freeCtr := t.freeCtr }

/-- Ports and the events of the hub. -/
abbrev portPart (s t : State) : State := { s with ports := t.ports, evRings := t.evRings, hi := t.hi }

theorem evAPart_part : Part evAPart := ⟨fun _ => rfl, fun _ _ _ => rfl⟩
theorem connPart_part : Part connPart := ⟨fun _ => rfl, fun _ _ _ => rfl⟩
theorem openPart_part : Part openPart := ⟨fun _ => rfl, fun _ _ _ => rfl⟩
theorem portPart_part : Part portPart := ⟨fun _ => rfl, fun _ _ _ => rfl⟩

/-! ### Events -/

theorem State.toRing_evRingPart (s : State) (type src payload : Nat) (poison : Bool) : Only evRingPart s (s.toRing type src payload poison) := by
  unfold State.toRing
  dsimp only
  split
  · exact Only.refl evRingPart_part s
  · split
    · exact State.updEvRing_only s _ _
    · exact State.writeEvent_only s _ _ _ _ _

theorem State.postEvent_hubPart (s : State) (type payload : Nat) : Only evRingPart s (s.postEvent type 3 payload) :=
  State.toRing_evRingPart s type 3 payload false

theorem State.postEvent_laneA (s : State) (type payload : Nat) : Only evAPart s (s.postEvent type 1 payload) := by
  change Only evAPart s (s.laneEvent .a type payload)
  unfold State.laneEvent
  dsimp only
  split
  · rfl
  · exact Only.trans evAPart_part (t := s.updEvq .a _) rfl ((State.toRing_evRingPart _ _ _ _ _).mono fun _ _ => rfl)

/-! ### States of a connection -/

/-- A connection as it enters a state, before what it had under way ends. -/
def Conn.entered (c : Conn) (st : ConnSt) (cause : Option Nat) : Conn :=
  { c with st := st, cause := cause.getD c.cause, ver := if st.versioned then c.ver else 0, wakeOpen := false }

/-- A connection keeps its session as it enters a state. -/
def Conn.stays (c : Conn) (st : ConnSt) : Bool := c.st.session && st.session && decide (st ≠ .negotiating)

/-- A connection ends what it had under way as it enters a state. -/
def Conn.ends (c : Conn) (st : ConnSt) : Bool := decide (c.st ≠ st) && !c.stays st

theorem State.postEvent_conns (s : State) (type src payload : Nat) : (s.postEvent type src payload).conns = s.conns :=
  (congrArg State.conns (State.postEvent_only s type src payload)).symm

theorem State.postEvent_ports (s : State) (type src payload : Nat) : (s.postEvent type src payload).ports = s.ports :=
  (congrArg State.ports (State.postEvent_only s type src payload)).symm

theorem State.dropPts_conns (s : State) (as : List Nat) : (s.dropPts as).conns = s.conns :=
  (congrArg State.conns (State.dropPts_only s as)).symm

section
variable (s : State) (k : Nat) (st : ConnSt) (cause : Option Nat)

/-- The session that a connection leaves ends: its points are dropped, and what it had under way. -/
def State.leaveSession (s : State) (c : Conn) : State :=
  match c.decl with
  | some d => if c.st = .running then s.dropPts (rxAddrs d) else s
  | none => s

theorem State.leaveSession_only (c : Conn) : Only ptPart s (s.leaveSession c) := by
  unfold State.leaveSession
  split
  · split
    · exact s.dropPts_only _
    · exact Only.refl ptPart_part s
  · exact Only.refl ptPart_part s

theorem State.leaveSession_conns (c : Conn) : (s.leaveSession c).conns = s.conns :=
  (congrArg State.conns (s.leaveSession_only c)).symm

/-- What a connection does as it enters another state. -/
theorem State.setConn_eq : s.setConn k st cause =
    let t := s.updConn k fun c => c.entered st cause
    let u := t.leaveSession (s.conn k)
    let v := if (s.conn k).stays st then u else (u.dropFrames k).updConn k Conn.endTx
    if (s.conn k).st = st then t else v.postEvent 0x0F 1 (k + fld st.code 8 16 + fld (v.conn k).cause 8 24) := rfl

theorem State.setConn_conns : (s.setConn k st cause).conns =
    let t := s.updConn k fun c => c.entered st cause
    if (s.conn k).ends st then (t.updConn k Conn.endTx).conns else t.conns := by
  rw [State.setConn_eq]
  dsimp only
  by_cases hst : (s.conn k).st = st
  · simp [Conn.ends, hst]
  · rw [if_neg hst, State.postEvent_conns]
    by_cases hin : (s.conn k).stays st = true
    · simp [Conn.ends, hin, State.leaveSession_conns]
    · have hends : (s.conn k).ends st = true := by simp [Conn.ends, hst, hin]
      rw [if_neg hin, if_pos hends]
      change tabUpd _ ((State.leaveSession _ _).conns) k _ = _
      rw [State.leaveSession_conns]
      rfl

theorem State.setConn_conn_self : (s.setConn k st cause).conn k =
    let c := (s.conn k).entered st cause
    if (s.conn k).ends st then c.endTx else c := by
  rw [State.conn, State.setConn_conns]
  dsimp only
  split
  · exact (State.updConn_conn_self _ k Conn.endTx).trans (congrArg Conn.endTx (State.updConn_conn_self _ k _))
  · exact State.updConn_conn_self _ k _

theorem State.setConn_conn_ne {j : Nat} (h : j ≠ k) : (s.setConn k st cause).conn j = s.conn j := by
  rw [State.conn, State.setConn_conns]
  dsimp only
  split
  · exact (State.updConn_conn_ne _ k Conn.endTx j h).trans (State.updConn_conn_ne _ k _ j h)
  · exact State.updConn_conn_ne _ k _ j h

theorem State.setConn_only : Only connPart s (s.setConn k st cause) := by
  rw [State.setConn_eq]
  dsimp only
  split
  · rfl
  · refine Only.trans connPart_part ?_ ((State.postEvent_only _ _ _ _).mono fun _ _ => rfl)
    have hleave : Only connPart s ((s.updConn k fun c => c.entered st cause).leaveSession (s.conn k)) :=
      Only.trans connPart_part (t := s.updConn k _) rfl ((State.leaveSession_only _ _).mono fun _ _ => rfl)
    split
    · exact hleave
    · exact Only.trans connPart_part hleave rfl

theorem State.setConn_open_only (h : (s.conn k).st ≠ .running) : Only openPart s (s.setConn k st cause) := by
  have hleave (t : State) : t.leaveSession (s.conn k) = t := by
    unfold State.leaveSession
    split
    · exact if_neg h
    · rfl
  rw [State.setConn_eq]
  dsimp only
  rw [hleave]
  split
  · rfl
  · refine Only.trans openPart_part ?_ ((State.postEvent_laneA _ _ _).mono fun _ _ => rfl)
    split
    · rfl
    · rfl

theorem State.setConn_st : ((s.setConn k st cause).conn k).st = st := by
  rw [State.setConn_conn_self]
  dsimp only
  split <;> rfl

theorem State.setConn_decl : ((s.setConn k st cause).conn k).decl = (s.conn k).decl := by
  rw [State.setConn_conn_self]
  dsimp only
  split <;> rfl

theorem State.setConn_nonces :
    let c := (s.setConn k st cause).conn k
    c.nonce = (s.conn k).nonce ∧ c.usedNonce = (s.conn k).usedNonce ∧ c.backoff = (s.conn k).backoff := by
  rw [State.setConn_conn_self]
  dsimp only
  split <;> exact ⟨rfl, rfl, rfl⟩
end

/-! ### What an opener sends -/

theorem freshNonce_ne (v x y : Word) : freshNonce v x y ≠ x ∧ freshNonce v x y ≠ y := by
  unfold freshNonce
  dsimp only
  split
  · rename_i h
    simp only [Bool.not_eq_true', Bool.or_eq_false_iff, decide_eq_false_iff_not] at h
    exact h
  · rename_i h
    simp only [Bool.not_eq_true', Bool.or_eq_false_iff, decide_eq_false_iff_not] at h
    split
    · rename_i h'
      simp only [Bool.not_eq_true', Bool.or_eq_false_iff, decide_eq_false_iff_not] at h'
      exact h'
    · rename_i h'
      simp only [Bool.not_eq_true', Bool.or_eq_false_iff, decide_eq_false_iff_not] at h'
      constructor <;> bv_omega

/-- A frame is handed to be merged, or none is. -/
theorem State.sendFrame_cases (s : State) (k : Nat) (ft : BitVec 4) (ver : Nat) (seq : Word) (payload : List Byte) :
    s.sendFrame k ft ver seq payload = s ∨
    ∃ b, s.sendFrame k ft ver seq payload = s.updConn k fun c => { c with txBuilt := c.txBuilt ++ [b] } := by
  unfold State.sendFrame
  split
  · exact .inl rfl
  · exact .inl rfl
  · exact .inr ⟨_, rfl⟩

/-- Connections alone. -/
abbrev connsPart (s t : State) : State := { s with conns := t.conns }

theorem connsPart_part : Part connsPart := ⟨fun _ => rfl, fun _ _ _ => rfl⟩

/-- A connection but for what it has built to send, its next sequence number and the nonce it has sent. -/
def Conn.unsent (c : Conn) : Conn := { c with txBuilt := [], txSeq := 0#32, usedNonce := 0#32 }

/-- `t` is `s` but for what connection `k` sends. -/
structure State.Sends (s t : State) (k : Nat) : Prop where
  only : Only connsPart s t
  other : ∀ j, j ≠ k → t.conn j = s.conn j
  same : (t.conn k).unsent = (s.conn k).unsent

theorem State.Sends.refl (s : State) (k : Nat) : s.Sends s k := ⟨Only.refl connsPart_part s, fun _ _ => rfl, rfl⟩

theorem State.Sends.trans {s t u : State} {k : Nat} (h : s.Sends t k) (h' : t.Sends u k) : s.Sends u k :=
  ⟨Only.trans connsPart_part h.only h'.only, fun j hj => (h'.other j hj).trans (h.other j hj), h'.same.trans h.same⟩

theorem State.Sends.updConn (s : State) {k : Nat} {f : Conn → Conn} (hf : ∀ c, (f c).unsent = c.unsent) : s.Sends (s.updConn k f) k :=
  ⟨rfl, fun j hj => State.updConn_conn_ne _ k f j hj, by rw [State.updConn_conn_self, hf]⟩

theorem State.sendFrame_sends (s : State) (k : Nat) (ft : BitVec 4) (ver : Nat) (seq : Word) (payload : List Byte) :
    s.Sends (s.sendFrame k ft ver seq payload) k := by
  obtain h | ⟨b, h⟩ := s.sendFrame_cases k ft ver seq payload
  · rw [h]
    exact .refl s k
  · rw [h]
    exact .updConn s fun _ => rfl

theorem State.sendOpen_sends (s : State) (k : Nat) : s.Sends (s.sendOpen k) k := by
  unfold State.sendOpen
  split
  · exact (s.sendFrame_sends ..).trans (.updConn _ fun _ => rfl)
  · exact .refl s k

theorem State.firstOpen_sends (s : State) (k : Nat) : s.Sends (s.firstOpen k) k := by
  unfold State.firstOpen
  dsimp only
  split
  · split
    · exact s.sendOpen_sends k
    · exact .refl s k
  · exact .refl s k

theorem State.closeIfOn_sends (s : State) (k reason : Nat) : s.Sends (s.closeIfOn k reason) k := by
  unfold State.closeIfOn
  split
  · exact (s.sendFrame_sends ..).trans (.updConn _ fun _ => rfl)
  · exact .refl s k

/-! ### CONN_OPEN, CONN_CLOSE -/

section
variable {s : State} {k : Nat} {d : ConnDecl} (hdecl : (s.conn k).decl = some d) (hcmac : d.cmac = false)
include hdecl hcmac

/-- A connection declared without a CMAC enters OPENING. -/
theorem State.enterOpening_eq (cause backoff : Option Nat) : s.enterOpening k cause backoff =
    ((s.setConn k .opening cause).newNonce k).updConn k fun c => { c with backoff := backoff.getD c.backoff, stagger := false, peerNonce := none } := by
  unfold State.enterOpening
  dsimp only
  rw [State.setConn_decl, hdecl]
  simp [hcmac]
end

/-- The first step of CONN_OPEN and of an opener that opens again: the connection is OPENING, with a new nonce. -/
theorem State.enterOpening_conn {s : State} {k : Nat} {d : ConnDecl} (hdecl : (s.conn k).decl = some d) (hcmac : d.cmac = false)
    (backoff : Option Nat) :
    let c := (s.enterOpening k none backoff).conn k
    c.st = .opening ∧ c.backoff = backoff.getD (s.conn k).backoff ∧ c.nonce ≠ (s.conn k).nonce ∧ c.nonce ≠ (s.conn k).usedNonce ∧ c.decl = some d := by
  have hself : (s.enterOpening k none backoff).conn k =
      let c := (s.setConn k .opening none).conn k
      { c with
        nonce := freshNonce (Config.freeNonce (s.setConn k .opening none).freeCtr) c.nonce c.usedNonce
        backoff := backoff.getD c.backoff, stagger := false, peerNonce := none } := by
    rw [State.enterOpening_eq hdecl hcmac, State.updConn_conn_self]
    exact congrArg (fun c : Conn => { c with backoff := backoff.getD c.backoff, stagger := false, peerNonce := none })
      (State.updConn_conn_self _ k _)
  obtain ⟨hnonce, hused, hback⟩ := s.setConn_nonces k .opening none
  intro c
  have hc : c = _ := hself
  rw [hc]
  refine ⟨s.setConn_st k .opening none, by rw [← hback], ?_, ?_, (s.setConn_decl k .opening none).trans hdecl⟩
  · rw [← hnonce]
    exact (freshNonce_ne _ _ _).1
  · rw [← hused]
    exact (freshNonce_ne _ _ _).2

theorem State.enterOpening_conn_ne {s : State} {k j : Nat} {d : ConnDecl} (hdecl : (s.conn k).decl = some d) (hcmac : d.cmac = false)
    (backoff : Option Nat) (h : j ≠ k) : (s.enterOpening k none backoff).conn j = s.conn j := by
  rw [State.enterOpening_eq hdecl hcmac, State.updConn_conn_ne _ _ _ _ h]
  exact (State.updConn_conn_ne _ _ _ _ h).trans (s.setConn_conn_ne k .opening none h)

theorem State.enterOpening_only {s : State} {k : Nat} {d : ConnDecl} (hdecl : (s.conn k).decl = some d) (hcmac : d.cmac = false)
    (backoff : Option Nat) (hst : (s.conn k).st ≠ .running) : Only openPart s (s.enterOpening k none backoff) := by
  rw [State.enterOpening_eq hdecl hcmac]
  exact Only.trans openPart_part (s.setConn_open_only k .opening none hst) rfl

theorem Conn.unsent_eq {c c' : Conn} (h : c.unsent = c'.unsent) :
    c.st = c'.st ∧ c.decl = c'.decl ∧ c.backoff = c'.backoff ∧ c.nonce = c'.nonce := by
  have hst : c.unsent.st = c'.unsent.st := by rw [h]
  have hdecl : c.unsent.decl = c'.unsent.decl := by rw [h]
  have hback : c.unsent.backoff = c'.unsent.backoff := by rw [h]
  have hnonce : c.unsent.nonce = c'.unsent.nonce := by rw [h]
  exact ⟨hst, hdecl, hback, hnonce⟩

/-- CONN_OPEN of a CLOSED declared slot. -/
theorem State.startConnOpen_closed {s : State} {o : Origin} {k : BitVec 16} {d : ConnDecl} (hk : k.toNat < 2048)
    (hdecl : (s.conn k.toNat).decl = some d) (hport : d.port < s.portMax) (hst : (s.conn k.toNat).st = .closed) (hcmac : d.cmac = false) :
    s.startConnOpen o k = ((s.enterOpening k.toNat none (some 0)).firstOpen k.toNat).complete o 0x20 0x00 2 := by
  have hopening : (((s.enterOpening k.toNat none (some 0)).firstOpen k.toNat).conn k.toNat).st = .opening :=
    (Conn.unsent_eq (State.firstOpen_sends _ _).same).1.trans (State.enterOpening_conn hdecl hcmac (some 0)).1
  unfold State.startConnOpen
  dsimp only
  rw [if_neg (by omega), hdecl]
  dsimp only
  rw [if_neg (by omega), if_neg (by simp [hst]), hopening]
  rfl

theorem State.startConnClose_eq {s : State} {o : Origin} {k : BitVec 16} {d : ConnDecl} (hk : k.toNat < 2048)
    (hdecl : (s.conn k.toNat).decl = some d) (hdeclared : (s.conn k.toNat).st ≠ .withdrawn) (hopen : (s.conn k.toNat).st ≠ .closed) :
    s.startConnClose o k =
      if s.usersOf d = true then s.complete o 0x21 0x30 (s.conn k.toNat).st.code
      else ((s.closeIfOn k.toNat rsHostClose).setConn k.toNat .closed none).complete o 0x21 0x00 1 := by
  unfold State.startConnClose
  dsimp only
  rw [if_neg (by omega), hdecl]
  dsimp only
  rw [if_neg (by simp [hdeclared, hopen])]
  rfl

/-! ### PORT_ENABLE, PORT_DISABLE -/

theorem State.kick_of_not_up {s : State} {p : Nat} (h : (s.port p).st ≠ .up) : s.kick p = s := by
  unfold State.kick
  dsimp only
  split
  · exact if_neg (by simp [h])
  · rfl

/-- A port that enters a state other than UP sends nothing. -/
theorem State.setPort_eq {s : State} {p : Nat} {st : PortSt} (hne : (s.port p).st ≠ st) (hup : st ≠ .up) :
    s.setPort p st = (s.updPort p fun q => { q with st := st }).postEvent 0x10 3 (p + fld st.code 8 8) := by
  have hports : ((s.updPort p fun q => { q with st := st }).postEvent 0x10 3 (p + fld st.code 8 8)).port p = { s.port p with st := st } := by
    rw [State.port, State.postEvent_ports]
    exact State.updPort_port_self _ p _
  unfold State.setPort
  rw [if_neg hne]
  exact State.kick_of_not_up (by rw [hports]; exact hup)

theorem State.setPort_port {s : State} {p : Nat} {st : PortSt} (hne : (s.port p).st ≠ st) (hup : st ≠ .up) :
    (s.setPort p st).port p = { s.port p with st := st } ∧ (∀ j, j ≠ p → (s.setPort p st).port j = s.port j) ∧
      Only portPart s (s.setPort p st) := by
  have hports : (s.setPort p st).ports = (s.updPort p fun q => { q with st := st }).ports := by
    rw [State.setPort_eq hne hup, State.postEvent_ports]
  refine ⟨?_, fun j hj => ?_, ?_⟩
  · rw [State.port, hports]
    exact State.updPort_port_self _ p _
  · rw [State.port, hports]
    exact State.updPort_port_ne _ p _ j hj
  · rw [State.setPort_eq hne hup]
    exact Only.trans portPart_part (t := s.updPort p _) rfl ((State.postEvent_hubPart _ _ _).mono fun _ _ => rfl)

/-- The session of a connection that is on the port `p` goes STALE. -/
def State.staleOn (p : Nat) (t : State) (k : Nat) : State :=
  match (t.conn k).decl with
  | some d => if d.port = p && ((t.conn k).st.session || decide ((t.conn k).st = .opening)) then t.stale k caPortDisabled else t
  | none => t

theorem State.portStale_eq (s : State) (p : Nat) : s.portStale p = (s.conns.map Prod.fst).foldl (State.staleOn p) s := by
  rw [List.foldl_map]
  rfl

section
variable (s : State) (p k : Nat)

theorem State.staleOn_only : Only connPart s (s.staleOn p k) := by
  unfold State.staleOn
  split
  · split
    · exact s.setConn_only k .stale _
    · exact Only.refl connPart_part s
  · exact Only.refl connPart_part s

theorem State.staleOn_conn_ne {j : Nat} (h : j ≠ k) : (s.staleOn p k).conn j = s.conn j := by
  unfold State.staleOn
  split
  · split
    · exact s.setConn_conn_ne k .stale _ h
    · rfl
  · rfl

/-- A connection that a port's end is to leave STALE: STALE already, or on the port with a session on or one that opens. -/
def Conn.goesStale (c : Conn) (p : Nat) : Prop :=
  c.st = .stale ∨ ∃ d, c.decl = some d ∧ d.port = p ∧ (c.st = .opening ∨ c.st = .negotiating ∨ c.st = .running)

theorem State.staleOn_conn_self (h : (s.conn k).goesStale p) : ((s.staleOn p k).conn k).st = .stale := by
  obtain hst | ⟨d, hdecl, hport, hst⟩ := h
  · unfold State.staleOn
    split
    · rw [if_neg (by simp [hst, ConnSt.session])]
      exact hst
    · exact hst
  · have hon : ((s.conn k).st.session || decide ((s.conn k).st = .opening)) = true := by
      obtain h | h | h := hst <;> simp [h, ConnSt.session]
    unfold State.staleOn
    rw [hdecl]
    dsimp only
    rw [if_pos (by simp only [hport, hon, decide_true, Bool.and_self])]
    exact s.setConn_st k .stale _
end

theorem State.portStale_only (s : State) (p : Nat) : Only connPart s (s.portStale p) := by
  rw [State.portStale_eq]
  exact Only.foldl connPart_part (fun t k => t.staleOn_only p k) _ s

/-- What goes STALE stays to go so, or is STALE, and is STALE once its turn has come. -/
theorem State.foldl_staleOn (p k : Nat) (ks : List Nat) (s : State) (h : (s.conn k).goesStale p) :
    ((ks.foldl (State.staleOn p) s).conn k).goesStale p ∧ (k ∈ ks → ((ks.foldl (State.staleOn p) s).conn k).st = .stale) := by
  have hstays (ks : List Nat) (s : State) (h : (s.conn k).st = .stale) : ((ks.foldl (State.staleOn p) s).conn k).st = .stale := by
    induction ks generalizing s with
    | nil => exact h
    | cons j ks ih =>
      refine ih _ ?_
      by_cases hj : k = j
      · subst hj
        exact s.staleOn_conn_self p k (.inl h)
      · rw [s.staleOn_conn_ne p j hj]
        exact h
  induction ks generalizing s with
  | nil => exact ⟨h, fun hk => nomatch hk⟩
  | cons j ks ih =>
    by_cases hj : k = j
    · subst hj
      have hst := hstays ks _ (s.staleOn_conn_self p k h)
      exact ⟨.inl hst, fun _ => hst⟩
    · have hnext : ((s.staleOn p j).conn k).goesStale p := by
        rw [s.staleOn_conn_ne p j hj]
        exact h
      obtain ⟨hgoes, hmem⟩ := ih _ hnext
      exact ⟨hgoes, fun hk => hmem (by simpa [hj] using hk)⟩

/-- An index that a table shows otherwise than by its default is listed. -/
theorem mem_of_tabGet_ne {α : Type} {d : α} {t : Tab α} {k : Nat} (h : tabGet d t k ≠ d) : k ∈ t.map Prod.fst := by
  induction t with
  | nil => exact absurd rfl h
  | cons e t ih =>
    obtain ⟨i, v⟩ := e
    rw [tabGet] at h
    split at h
    · exact List.mem_cons_of_mem _ (ih h)
    · split at h
      · next heq => simp [heq]
      · exact absurd rfl h

/-- A port that goes down leaves every session on it STALE (R258). -/
theorem State.portStale_st {s : State} {p k : Nat} {d : ConnDecl} (hdecl : (s.conn k).decl = some d) (hport : d.port = p)
    (hst : (s.conn k).st = .opening ∨ (s.conn k).st = .negotiating ∨ (s.conn k).st = .running) : ((s.portStale p).conn k).st = .stale := by
  have hne : tabGet Conn.init s.conns k ≠ Conn.init := by
    intro h
    have hnone : (s.conn k).decl = none := congrArg Conn.decl h
    rw [hdecl] at hnone
    cases hnone
  rw [State.portStale_eq]
  exact (State.foldl_staleOn p k _ s (.inr ⟨d, hdecl, hport, hst⟩)).2 (mem_of_tabGet_ne hne)

/-- Ports, the free values drawn and the events. -/
abbrev portDrawPart (s t : State) : State := { s with ports := t.ports, freeCtr := t.freeCtr, evRings := t.evRings, hi := t.hi }

theorem portDrawPart_part : Part portDrawPart := ⟨fun _ => rfl, fun _ _ _ => rfl⟩

theorem State.discardRx_only (s : State) (p reason : Nat) : Only portDrawPart s (s.discardRx p reason).2 := by
  unfold State.discardRx
  split
  · dsimp only [State.draw]
    split <;> rfl
  · rfl

/-- A port emptied and then disabled. -/
def State.portOff (s : State) (p : Nat) : State := (s.updPort p fun q => { q with queue := [], inFlight := none }).setPort p .disabled

theorem State.portOff_port (s : State) (p : Nat) :
    ((s.portOff p).port p).st = .disabled ∧ ((s.portOff p).port p).queue = [] ∧ ((s.portOff p).port p).inFlight = none := by
  have hself := State.updPort_port_self s p fun q => { q with queue := [], inFlight := none }
  unfold State.portOff
  by_cases hst : ((s.updPort p fun q => { q with queue := [], inFlight := none }).port p).st = .disabled
  · rw [State.setPort, if_pos hst]
    exact ⟨hst, by rw [hself], by rw [hself]⟩
  · rw [(State.setPort_port hst (by decide)).1, hself]
    exact ⟨rfl, rfl, rfl⟩

theorem State.portOff_only (s : State) (p : Nat) : Only portPart s (s.portOff p) := by
  unfold State.portOff
  by_cases hst : ((s.updPort p fun q => { q with queue := [], inFlight := none }).port p).st = .disabled
  · rw [State.setPort, if_pos hst]
    rfl
  · exact Only.trans portPart_part (t := s.updPort p _) rfl (State.setPort_port hst (by decide)).2.2

/-- What PORT_DISABLE answers: the frames discarded, and whether one was being received. -/
def State.portDiscarded (s : State) (p : Nat) : Nat :=
  fld ((s.port p).queue.length + (if (s.port p).inFlight.isSome then 1 else 0)) 32 0 + (if (s.discardRx p 8).1 then 2 ^ 32 else 0)

/-- PORT_DISABLE of a port that is not DISABLED. -/
theorem exec_portDisable {s : State} {o : Origin} {p : Byte} (hp : p.toNat < 32) (hst : ((s.begun o).port p.toNat).st ≠ .disabled)
    (htakes : s.takes o (.portDisable o p) = true) :
    exec (.portDisable o p) s =
      .next (((((s.begun o).discardRx p.toNat 8).2.portOff p.toNat).portStale p.toNat).complete o 0x23 0x00
        ((s.begun o).portDiscarded p.toNat)) := by
  change execPortDisable o p s = _
  rw [execPortDisable, State.command_of_takes htakes]
  dsimp only
  rw [if_neg (by omega), if_neg hst]
  rfl

/-- PORT_ENABLE of a DISABLED port of the variant that needs no tunnel. -/
theorem exec_portEnable {s : State} {o : Origin} {p : Byte} (hp : p.toNat < (s.begun o).portMax)
    (hst : ((s.begun o).port p.toNat).st = .disabled) (hfail : ((s.begun o).port p.toNat).serdesFail = false)
    (htunnel : ((s.begun o).port p.toNat).cfg.tunnel = false) (htakes : s.takes o (.portEnable o p) = true) :
    exec (.portEnable o p) s = .next ((((s.begun o).updPort p.toNat fun q => { q with
      live := ((s.begun o).port p.toNat).cfg, lpPage := 0#16
      sentPage := (s.begun o).onLine (((s.begun o).port p.toNat).cfg.page false), anFault := false, openCnt := 0 }).setPort
        p.toNat .noSync).complete o 0x22 0x00 0) := by
  have hmax := (s.begun o).portMax_le
  change execPortEnable o p s = _
  rw [execPortEnable, State.command_of_takes htakes]
  dsimp only
  rw [if_neg (by omega), if_neg (by omega), if_neg (by simp [hst]), if_neg (by simp [hfail]), if_neg (by simp [htunnel])]
  rfl

/-- Settles O28. -/
theorem connectionAndPortCommands : Obligations.ConnectionAndPortCommands := by
  intro s0 o s
  refine ⟨fun k d hready hk hdecl hport hst hcmac => ?_, fun k d hready hk hdecl hdeclared hopen => ?_, fun p hp hst hfail htunnel => ?_,
    fun p hmax hp htakes => ?_, fun p hp hst => ?_⟩
  · have hsends := State.firstOpen_sends (s.enterOpening k.toNat none (some 0)) k.toNat
    obtain ⟨hsame, hdecl', hback, hnonce⟩ := Conn.unsent_eq hsends.same
    obtain ⟨hopening, hzero, hnew, hunused, hkept⟩ := State.enterOpening_conn hdecl hcmac (some 0)
    have honly : Only openPart s ((s.enterOpening k.toNat none (some 0)).firstOpen k.toNat) :=
      Only.trans openPart_part (State.enterOpening_only hdecl hcmac (some 0) (by simp [hst])) (hsends.only.mono fun _ _ => rfl)
    refine ⟨(s.enterOpening k.toNat none (some 0)).firstOpen k.toNat, fun htakes => ?_, hsame.trans hopening, hback.trans hzero,
      by rw [hnonce]; exact hnew, by rw [hnonce]; exact hunused, hdecl'.trans hkept,
      fun j hj => (hsends.other j hj).trans (State.enterOpening_conn_ne hdecl hcmac (some 0) hj), Only.back openPart_part honly⟩
    rw [hready.exec rfl htakes]
    exact congrArg Host.Outcome.next (State.startConnOpen_closed hk hdecl hport hst hcmac)
  · have hclose := State.startConnClose_eq (o := o) hk hdecl hdeclared hopen
    refine ⟨fun hused htakes => ?_, fun hunused => ⟨(s.closeIfOn k.toNat rsHostClose).setConn k.toNat .closed none, fun htakes => ?_,
      State.setConn_st _ k.toNat .closed none, ?_⟩⟩
    · rw [hready.exec rfl htakes]
      exact congrArg Host.Outcome.next (hclose.trans (if_pos hused))
    · rw [hready.exec rfl htakes]
      exact congrArg Host.Outcome.next (hclose.trans (if_neg (by simp [hunused])))
    · have honly : Only connPart s ((s.closeIfOn k.toNat rsHostClose).setConn k.toNat .closed none) :=
        Only.trans connPart_part ((State.closeIfOn_sends s k.toNat _).only.mono fun _ _ => rfl) (State.setConn_only _ k.toNat .closed none)
      rw [← honly]
      exact ⟨rfl, rfl, rfl⟩
  · obtain ⟨u, hu⟩ : ∃ u, u = s.updPort p.toNat fun q => { q with
      live := (s.port p.toNat).cfg, lpPage := 0#16, sentPage := s.onLine ((s.port p.toNat).cfg.page false), anFault := false, openCnt := 0 } :=
      ⟨_, rfl⟩
    have hself : u.port p.toNat = { s.port p.toNat with
        live := (s.port p.toNat).cfg, lpPage := 0#16, sentPage := s.onLine ((s.port p.toNat).cfg.page false), anFault := false, openCnt := 0 } := by
      rw [hu]
      exact State.updPort_port_self s p.toNat _
    have hne : (u.port p.toNat).st ≠ .noSync := by
      rw [hself]
      exact fun h => nomatch hst.symm.trans h
    obtain ⟨hport, hother, honly⟩ := State.setPort_port (st := .noSync) hne (by decide)
    refine ⟨u.setPort p.toNat .noSync, fun htakes => ?_, by rw [hport, hself], fun j hj => ?_,
      Only.back portPart_part (Only.trans portPart_part (t := u) (by rw [hu]; rfl) honly)⟩
    · rw [hu]
      exact exec_portEnable hp hst hfail htunnel htakes
    · rw [hother j hj, hu]
      exact State.updPort_port_ne s p.toNat _ j hj
  · change execPortEnable o p s0 = _
    rw [execPortEnable, State.command_of_takes htakes]
    dsimp only
    rw [if_neg (by omega), if_pos hmax]
    rfl
  · obtain ⟨u, hu⟩ : ∃ u, u = (s.discardRx p.toNat 8).2.portOff p.toNat := ⟨_, rfl⟩
    have honly : Only portDrawPart s u := by
      rw [hu]
      exact Only.trans portDrawPart_part (s.discardRx_only p.toNat 8) ((State.portOff_only _ _).mono fun _ _ => rfl)
    obtain ⟨hoff, hqueue, hflight⟩ := (s.discardRx p.toNat 8).2.portOff_port p.toNat
    have hstale := u.portStale_only p.toNat
    have hports : (u.portStale p.toNat).ports = u.ports := (congrArg State.ports hstale).symm
    have hport : (u.portStale p.toNat).port p.toNat = u.port p.toNat := by rw [State.port, hports]; rfl
    have hconns : u.conns = s.conns := (congrArg State.conns honly).symm
    have hzones : u.zones = s.zones ∧ u.pairs = s.pairs := by rw [← honly]; exact ⟨rfl, rfl⟩
    have hstaleZones : (u.portStale p.toNat).zones = u.zones ∧ (u.portStale p.toNat).pairs = u.pairs := by rw [← hstale]; exact ⟨rfl, rfl⟩
    refine ⟨u.portStale p.toNat, s.portDiscarded p.toNat, fun htakes => ?_, by rw [hport, hu]; exact hoff, by rw [hport, hu]; exact hqueue,
      by rw [hport, hu]; exact hflight, hstaleZones.1.trans hzones.1, hstaleZones.2.trans hzones.2, fun k d hdecl hon hopen => ?_⟩
    · rw [hu]
      exact exec_portDisable hp hst htakes
    · have hconn : u.conn k = s.conn k := by rw [State.conn, hconns]; rfl
      exact State.portStale_st (by rw [hconn]; exact hdecl) hon (by rw [hconn]; exact hopen)

end Sys2Proof.Machine
end


section
/-!
# Proofs: BIST_RUN and CHANNEL_CAL (R321, R324, R340)
-/
namespace Sys2Proof.Machine
open Sys2Proof

theorem State.setOf_nodup (s : State) (n : Nat) : (s.setOf n).Nodup := by
  unfold State.setOf
  split
  · simp
  · split <;> simp

theorem State.unit_nodup (s : State) (n : Nat) : (s.unit n).Nodup := s.setOf_nodup _

/-- A set held open: each member goes back on only with a command anew, and a test pulse on it ends. -/
theorem State.holdChans_chan (s : State) {ns : List Nat} (h : ns.Nodup) (n : Nat) : (s.holdChans ns).chan n =
    if n ∈ ns then { s.chan n with ret := (s.chan n).ret || (s.chan n).isOutput, pulse := none } else s.chan n :=
  s.updChans_chan ns _ n h

theorem State.lowestFree_eq_none {s : State} (h : ∀ p : Fin 36, (s.pair p).role ≠ .free) : s.lowestFree = none := by
  unfold State.lowestFree
  rw [List.head?_eq_none_iff, List.eq_nil_iff_forall_not_mem]
  intro p hp
  obtain ⟨hlt, hfree⟩ := mem_below.1 hp
  simp at hfree
  exact h ⟨p, hlt⟩ hfree.1

/-- A pair asked to be tested stands in the queue of the slots, with this urgency or a greater one. -/
theorem State.bistAsk_mem (s : State) (p prec : Nat) : ∃ n ≤ prec, (p, n) ∈ (s.bistAsk p prec).bist.queue := by
  unfold State.bistAsk
  split
  · next h =>
    obtain ⟨⟨q, n⟩, hmem, h⟩ := List.any_eq_true.1 h
    simp at h
    obtain ⟨rfl, hle⟩ := h
    exact ⟨n, hle, hmem⟩
  · exact ⟨prec, le_rfl, List.mem_append_right _ (List.mem_singleton.2 rfl)⟩

/-- The queue of the slots alone. -/
abbrev queuePart (s t : State) : State := { s with bist := { s.bist with queue := t.bist.queue } }

theorem State.bistAsk_only (s : State) (p prec : Nat) : Only queuePart s (s.bistAsk p prec) := by
  unfold State.bistAsk
  split <;> rfl

/-- A channel under calibration, which holds its point invalid, with its set held open. -/
def State.calHeld (s : State) (n : Nat) : State :=
  (s.updChan n fun c => { c with restoring := c.restoring || decide (c.mode = 1#2) || decide (c.mode = 2#2) }).holdChans (s.unit n)

theorem State.calHeld_chan (s : State) (n m : Nat) :
    let c := s.chan m
    let r := if m = n then c.restoring || decide (c.mode = 1#2) || decide (c.mode = 2#2) else c.restoring
    (s.calHeld n).chan m =
      if m ∈ s.unit n then { c with restoring := r, ret := c.ret || c.isOutput, pulse := none } else { c with restoring := r } := by
  dsimp only
  rw [State.calHeld, State.holdChans_chan _ (s.unit_nodup n), State.updChan_chan]
  by_cases h : m = n
  · subst h
    simp [Chan.isOutput]
  · simp [h]

/-- Channels alone. -/
abbrev chansPart (s t : State) : State := { s with chans := t.chans }

theorem chansPart_part : Part chansPart := ⟨fun _ => rfl, fun _ _ _ => rfl⟩

theorem State.calHeld_only (s : State) (n : Nat) : Only chansPart s (s.calHeld n) := rfl

theorem State.askBist_only (s : State) (p prec : Nat) (o : Origin) (item index : Byte) :
    let t := (s.bistAsk p prec).askBist o item index
    { t with bist := { t.bist with asked := s.bist.asked, queue := s.bist.queue } } = s.parked o 0x30 := by
  have honly := s.bistAsk_only p prec
  intro t
  change ({ (s.bistAsk p prec).askBist o item index with
    bist := { (s.bistAsk p prec).bist with asked := s.bist.asked, queue := s.bist.queue } } : State) = s.parked o 0x30
  rw [← honly]
  rfl

/-- Settles O29. -/
theorem selfTestCommands : Obligations.SelfTestCommands := by
  intro s0 o item index s hready asked
  have hrun (htakes : s0.takes o (.bistRun o item index) = true) : exec (.bistRun o item index) s0 = .next (s.startBist o item index) :=
    hready.exec rfl htakes
  have hcal (htakes : s0.takes o (.channelCal o index) = true) : exec (.channelCal o index) s0 = .next (s.startCal o index.toNat) :=
    hready.exec rfl htakes
  refine ⟨fun hitem hlt hfree => ⟨(s.bistAsk index.toNat 3).askBist o item index, fun htakes => ?_, ?_, s.bistAsk_mem index.toNat 3, ?_⟩,
    fun hitem hlt hcarrying hnone hret htakes => ?_, fun hitem hmax htakes => ?_, fun hitem hlt htakes => ?_, fun hmax htakes => ?_,
    fun hlt hblocked htakes => ?_, fun hlt hblocked => ⟨s.calHeld index.toNat, fun htakes => ?_, fun hmode => ?_, fun n => ?_, fun n hn hmode => ?_, Only.back chansPart_part (s.calHeld_only _)⟩⟩
  · rw [hrun htakes]
    unfold State.startBist
    dsimp only
    rw [if_pos hitem, if_neg (by omega), hfree]
  · have honly := s.bistAsk_only index.toNat 3
    change (s.bistAsk index.toNat 3).bist.asked ++ _ = _
    rw [← honly]
  · exact s.askBist_only index.toNat 3 o item index
  · rw [hrun htakes]
    unfold State.startBist
    dsimp only
    rw [if_pos hitem, if_neg (by omega), hcarrying, State.lowestFree_eq_none hnone, hret]
    rfl
  · rw [hrun htakes]
    unfold State.startBist
    dsimp only
    rw [if_pos hitem, if_pos (by omega)]
    rfl
  · rw [hrun htakes]
    simp only [List.mem_cons, List.not_mem_nil, or_false] at hitem
    have h0 : item ≠ 0#8 := by rintro rfl; simp at hitem
    have h7 : item ≠ 7#8 := by rintro rfl; simp at hitem
    have h8 : item ≠ 8#8 := by rintro rfl; simp at hitem
    have hcount : itemCount item.toNat = 64 := by
      obtain h | h | h := hitem <;> simp [h, itemCount]
    unfold State.startBist
    dsimp only
    rw [if_neg h0, if_neg h8, hcount, if_neg (by omega), if_neg (by simp [h7])]
    rfl
  · rw [hcal htakes]
    exact congrArg Host.Outcome.next (if_pos (by omega))
  · rw [hcal htakes]
    unfold State.startCal
    rw [if_neg (by omega), if_pos hblocked]
    rfl
  · rw [hcal htakes]
    unfold State.startCal
    rw [if_neg (by omega), if_neg (by simp [hblocked])]
    rfl
  · rw [State.calHeld_chan]
    obtain h | h := hmode <;> split <;> simp [h]
  · rw [State.calHeld_chan]
    split <;> exact ⟨rfl, rfl, rfl⟩
  · rw [State.calHeld_chan]
    rw [if_pos hn]
    simp [Chan.isOutput, hmode]

end Sys2Proof.Machine
end


section
/-!
# Proofs: when an output conducts; inputs and samples (R197, R199, R222, R229)
-/
namespace Sys2Proof.Machine
open Sys2Proof

/-! ### Switches -/

section
variable {s : State} {n : Nat}

theorem State.swClosed_safety (l : Lane) (hpowered : s.powered = true) (hmode : (s.chan (s.setHead n)).mode = 2#2) :
    s.swClosed l n = ((s.chan (s.setHead n)).cmd l && s.ownerRuns l (s.setHead n) && !s.held (s.setHead n) && !s.waits (s.setHead n) &&
      decide ((s.chan (s.setHead n)).pulse ≠ some l)) := by
  simp [State.swClosed, hpowered, hmode]

theorem State.swClosed_nonsafe (l : Lane) (hpowered : s.powered = true) (hmode : (s.chan (s.setHead n)).mode = 3#2) :
    s.swClosed l n = ((s.chan (s.setHead n)).nsLevel l && !s.held (s.setHead n) && !s.waits (s.setHead n)) := by
  simp [State.swClosed, hpowered, hmode]

theorem State.swClosed_of_not_powered (l : Lane) (h : s.powered = false) : s.swClosed l n = false := by
  simp [State.swClosed, h]

theorem State.swClosed_of_held (l : Lane) (h : s.held (s.setHead n) = true) : s.swClosed l n = false := by
  simp [State.swClosed, h]

theorem State.swClosed_of_not_output (l : Lane) (h2 : (s.chan (s.setHead n)).mode ≠ 2#2) (h3 : (s.chan (s.setHead n)).mode ≠ 3#2) :
    s.swClosed l n = false := by
  simp [State.swClosed, h2, h3]

theorem State.waits_eq_false : s.waits n = false ↔ ∀ m ∈ s.unit n, (s.chan m).ret = false := by
  simp [State.waits]
end

/-- Settles O42. -/
theorem whenAnOutputConducts : Obligations.WhenAnOutputConducts := by
  intro s n h c
  refine ⟨fun hoff => ?_, ?_, fun hpowered hmode => ?_, fun hpowered hmode => ?_, fun hheld => ?_, fun h2 h3 => ?_, fun l hpend => ?_⟩
  · simp [State.conducts, State.swClosed_of_not_powered _ hoff]
  · simp [State.powered, and_assoc]
  · rw [State.conducts, State.swClosed_safety .a hpowered hmode, State.swClosed_safety .b hpowered hmode, ← State.waits_eq_false]
    have hpulse : c.pulse = none ↔ c.pulse ≠ some .a ∧ c.pulse ≠ some .b := by
      obtain hp | ⟨l, hp⟩ := Option.eq_none_or_eq_some c.pulse
      · simp [hp]
      · cases l <;> simp [hp]
    simp only [Bool.and_eq_true, Bool.not_eq_true', decide_eq_true_eq, Chan.cmd, hpulse, h, c]
    tauto
  · rw [State.conducts, State.swClosed_nonsafe .a hpowered hmode, State.swClosed_nonsafe .b hpowered hmode, ← State.waits_eq_false]
    simp only [Bool.and_eq_true, Bool.not_eq_true', h, c]
    tauto
  · simp [State.conducts, State.swClosed_of_held _ hheld]
  · simp [State.conducts, State.swClosed_of_not_output _ h2 h3]
  · have hpend' : (s.chan h).pend l = none := hpend
    simp [State.ownerRuns, hpend', c]

/-! ### Raw levels -/

section
variable (c : Chan) (n mv vfs : Nat)

theorem thresholds_false : 13000 ≤ (thresholds n false).1 ∧ (thresholds n false).1 ≤ 15000 ∧ 8000 ≤ (thresholds n false).2 ∧
    (thresholds n false).2 ≤ 12000 := by
  have hon := Nat.mod_lt (Config.freeThreshold n) (show 2001 > 0 by decide)
  have hoff := Nat.mod_lt (Config.freeThreshold (n + 256)) (show 4001 > 0 by decide)
  simp only [thresholds, Bool.false_eq_true, if_false]
  omega

theorem thresholds_true : 9000 ≤ (thresholds n true).1 ∧ (thresholds n true).1 ≤ 11000 ∧ 5000 ≤ (thresholds n true).2 ∧
    (thresholds n true).2 ≤ 8500 := by
  have hon := Nat.mod_lt (Config.freeThreshold n) (show 2001 > 0 by decide)
  have hoff := Nat.mod_lt (Config.freeThreshold (n + 256)) (show 3501 > 0 by decide)
  simp only [thresholds, if_true]
  omega

variable {c n mv vfs}

theorem Chan.rawLevel_of_on (hwb : c.wbEn = false) (h : (thresholds n c.type3).1 ≤ mv) : c.rawLevel n mv vfs = true := by
  simp [Chan.rawLevel, hwb, hyst, h]

theorem Chan.rawLevel_of_off (hwb : c.wbEn = false) (hon : mv < (thresholds n c.type3).1) (h : mv ≤ (thresholds n c.type3).2) :
    c.rawLevel n mv vfs = false := by
  simp [Chan.rawLevel, hwb, hyst, Nat.not_le.2 hon, h]

theorem Chan.rawLevel_between (hwb : c.wbEn = false) (hon : mv < (thresholds n c.type3).1) (h : (thresholds n c.type3).2 < mv) :
    c.rawLevel n mv vfs = c.raw := by
  simp [Chan.rawLevel, hwb, hyst, Nat.not_le.2 hon, Nat.not_le.2 h]

/-- In wire-break mode the level is on from 78.0 % of the supply, wherever the threshold stands in its range. -/
theorem Chan.rawLevel_wb_on (hwb : c.wbEn = true) (h : vfs * 780 / 1000 ≤ mv) : c.rawLevel n mv vfs = true := by
  have hmod := Nat.mod_lt (Config.freeThreshold (n + 512)) (show 61 > 0 by decide)
  have hle : vfs * (720 + Config.freeThreshold (n + 512) % 61) / 1000 ≤ mv :=
    (Nat.div_le_div_right (Nat.mul_le_mul_left vfs (by omega))).trans h
  simp [Chan.rawLevel, hwb, hle]

theorem Chan.rawLevel_wb_off (hwb : c.wbEn = true) (h : mv < vfs * 720 / 1000 - vfs * 5 / 100) : c.rawLevel n mv vfs = false := by
  have hle : vfs * 720 / 1000 ≤ vfs * (720 + Config.freeThreshold (n + 512) % 61) / 1000 :=
    Nat.div_le_div_right (Nat.mul_le_mul_left vfs (Nat.le_add_right _ _))
  have hon : ¬ vfs * (720 + Config.freeThreshold (n + 512) % 61) / 1000 ≤ mv := by omega
  have hoff : mv < vfs * (720 + Config.freeThreshold (n + 512) % 61) / 1000 - vfs * 5 / 100 := by omega
  simp [Chan.rawLevel, hwb, hon, hoff]
end

/-! ### Updates of a channel -/

theorem State.updChan_congr {s : State} {n : Nat} {f h : Chan → Chan} (e : f (s.chan n) = h (s.chan n)) : s.updChan n f = s.updChan n h := by
  have e' : f (tabGet Chan.init s.chans n) = h (tabGet Chan.init s.chans n) := e
  simp only [State.updChan, tabUpd, e']

theorem State.updChan_updChan {s : State} {n : Nat} {f g : Chan → Chan} (h : f (s.chan n) ≠ Chan.init) :
    (s.updChan n f).updChan n g = s.updChan n fun c => g (f c) := by
  have h' : f (tabGet Chan.init s.chans n) ≠ Chan.init := h
  simp [State.updChan, tabUpd, tabSet_tabSet _ _ _ h']

theorem Chan.ne_init_of_mode {c : Chan} (h : c.mode ≠ 0#2) : c ≠ Chan.init := by
  rintro rfl
  exact h rfl

/-! ### Field inputs -/

section
variable {s : State} {n : Fin 64}

theorem State.inputPt_of_bad (h : s.inputBad n = true) : s.inputPt n = 0#2 := by simp [State.inputPt, h]

theorem State.inputPt_of_restoring (h : (s.chan n).restoring = true) : s.inputPt n = 0#2 := by simp [State.inputPt, h]

theorem State.inputPt_of_good (h : s.inputBad n = false) (hrest : (s.chan n).restoring = false) :
    s.inputPt n = if (s.chan n).level then 3#2 else 2#2 := by
  simp [State.inputPt, h, hrest, ptVal]

theorem State.inputBad_of_wireBreak (h : (s.chan n).wireBreak = true) : s.inputBad n = true := by simp [State.inputBad, h]

theorem State.inputBad_restored : (s.updChan n fun c => { c with restoring := false }).inputBad n = s.inputBad n := by
  simp only [State.inputBad, State.updChan_chan_self]
  rfl

theorem breakUa_range (k : Nat) : 280 ≤ breakUa k ∧ breakUa k ≤ 350 := by
  have hmod := Nat.mod_lt (Config.freeThreshold (k + 768)) (show 71 > 0 by decide)
  unfold breakUa
  omega

theorem exec_inputDebounce (mv vfs : Nat) (stood : Bool) (hmode : (s.chan n).mode = 1#2) :
    exec (.inputDebounce n ⟨mv, vfs, stood⟩) s =
      .next (s.updChan n fun c => { c with
        raw := (s.chan n).rawLevel n mv vfs, wireBreak := c.wireBreak && !(s.chan n).rawLevel n mv vfs
        level := if stood then (s.chan n).rawLevel n mv vfs else c.level }) := by
  change execInputDebounce n ⟨mv, vfs, stood⟩ s = _
  rw [execInputDebounce, if_pos hmode]
  exact congrArg Host.Outcome.next (State.updChan_congr rfl)

theorem exec_inputOv (mv : Nat) (hmode : (s.chan n).mode = 1#2) :
    exec (.inputOv n mv) s =
      let above := if 41000 + Config.freeThreshold (n + 1024) % 1001 < mv then true else if mv < 40000 then false else (s.chan n).ov
      .next (s.updChan n fun c => { c with ov := above, restoring := c.restoring || above }) :=
  congrArg Host.Outcome.next (if_pos hmode)

/-- A channel as a read of a wire break leaves it while nothing new has broken. -/
theorem exec_wireBreak {mv vfs ua : Nat} (hmode : (s.chan n).mode = 1#2) (hwb : (s.chan n).wbEn = true) :
    let v := (s.chan n).rawLevel n mv vfs
    let broken := !v && decide (ua < breakUa n)
    let post := s.mayPost (s.chan n).wbEvAt
    let cnt := satInc (s.chan n).wbCnt 255
    let t := s.updChan n fun c => { c with
      raw := v, wireBreak := true, wbCnt := cnt, restoring := true, wbEvAt := if post then some s.now else c.wbEvAt }
    exec (.wireBreak n ⟨mv, vfs, ua⟩) s =
      if broken && !(s.chan n).wireBreak then .next (if post then t.postEvent 0x06 3 (n + fld cnt 8 8) else t)
      else .next (s.updChan n fun c => { c with raw := v, wireBreak := broken }) := by
  intro v broken post cnt t
  have hne : (s.chan n).readRaw n mv vfs ≠ Chan.init := Chan.ne_init_of_mode (by simp [Chan.readRaw, hmode])
  have hraw : ((s.updChan n fun c => c.readRaw n mv vfs).chan n).raw = v := by
    rw [State.updChan_chan_self]
    rfl
  have htwo (g : Chan → Chan) : (s.updChan n fun c => c.readRaw n mv vfs).updChan n g = s.updChan n fun c => g (c.readRaw n mv vfs) :=
    State.updChan_updChan hne
  change execWireBreak n ⟨mv, vfs, ua⟩ s = _
  unfold execWireBreak
  dsimp only
  rw [if_pos (by simp [hmode, hwb]), hraw, htwo, htwo]
  by_cases hnew : (broken && !(s.chan n).wireBreak) = true
  · rw [if_pos hnew, if_pos hnew]
    exact congrArg (fun u : State => Host.Outcome.next (if post = true then u.postEvent 0x06 3 (n + fld cnt 8 8) else u))
      (State.updChan_congr rfl)
  · rw [if_neg hnew, if_neg hnew]
    exact congrArg Host.Outcome.next (State.updChan_congr rfl)
end

/-- A wire break that is new is counted and reported, and the point of the channel is invalid. -/
theorem exec_wireBreak_new {s : State} {n : Fin 64} {mv vfs ua : Nat} (hmode : (s.chan n).mode = 1#2) (hwb : (s.chan n).wbEn = true)
    (hoff : (s.chan n).rawLevel n mv vfs = false) (hua : ua < breakUa n) (hnew : (s.chan n).wireBreak = false) :
    ∃ t, exec (.wireBreak n ⟨mv, vfs, ua⟩) s = .next t ∧ (t.chan n).wireBreak = true ∧ (t.chan n).raw = false ∧
      (t.chan n).restoring = true ∧ (t.chan n).wbCnt = satInc (s.chan n).wbCnt 255 ∧ t.inputPt n = 0#2 ∧
      (∀ j, j ≠ n.val → t.chan j = s.chan j) ∧ { t with chans := s.chans, evRings := s.evRings, hi := s.hi } = s := by
  have hexec := exec_wireBreak (mv := mv) (vfs := vfs) (ua := ua) hmode hwb
  dsimp only at hexec
  rw [if_pos (by simp [hoff, hua, hnew]), hoff] at hexec
  obtain ⟨f, hf⟩ : ∃ f : Chan → Chan, f = fun c => { c with
      raw := false, wireBreak := true, wbCnt := satInc (s.chan n).wbCnt 255, restoring := true
      wbEvAt := if s.mayPost (s.chan n).wbEvAt then some s.now else c.wbEvAt } := ⟨_, rfl⟩
  rw [← hf] at hexec
  refine ⟨_, hexec, ?_⟩
  obtain ⟨t, ht⟩ : ∃ t, t = if s.mayPost (s.chan n).wbEvAt = true then
    (s.updChan n f).postEvent 0x06 3 (n + fld (satInc (s.chan n).wbCnt 255) 8 8) else s.updChan n f := ⟨_, rfl⟩
  rw [← ht]
  have honly : Only evRingPart (s.updChan n f) t := by
    rw [ht]
    split
    · exact State.postEvent_hubPart _ _ _
    · exact Only.refl evRingPart_part _
  have hchans : t.chans = (s.updChan n f).chans := by rw [← honly]
  have hself : t.chan n = f (s.chan n) := by
    rw [State.chan, hchans]
    exact State.updChan_chan_self s n f
  rw [hself, hf]
  refine ⟨rfl, rfl, rfl, rfl, State.inputPt_of_restoring (by rw [hself, hf]), fun j hj => ?_, ?_⟩
  · rw [State.chan, hchans]
    exact State.updChan_chan_ne s n f j hj
  · rw [← honly]
    rfl

/-! ### Samples -/

/-- What a sample carries. -/
def State.sample (s : State) : Trans := {
  body := .sample (s.fd.sampleNum + 1#32)
    ((allChans.map fun n => (0x20000 + n, s.inputPt n)) ++ (allChans.map fun n => (0x20100 + n, s.feedbackPt n)) ++ s.gstopPts)
    (negPts ((allChans.map fun n => (0x20000 + n, s.inputPt n)) ++ (allChans.map fun n => (0x20100 + n, s.feedbackPt n)) ++ s.gstopPts))
    ((List.range 16).map s.capWord) s.offChans
  repA := true, repB := true, okA := true, okB := true, since := s.now }

theorem State.sendSample_chan (s : State) (n : Fin 64) : s.sendSample.chan n = { s.chan n with
    inPoint := s.inputPt n, outPoint := s.feedbackPt n
    ret := (s.chan n).ret && (s.held n || !s.off n), retG := (s.chan n).retG && !s.off n } := by
  have hmem : n.val ∈ allChans := List.mem_range.2 n.isLt
  exact (State.updChans_chan _ _ _ _ List.nodup_range).trans (if_pos hmem)

theorem State.sendSample_rest (s : State) : s.sendSample.fd = { s.fd with sampleNum := s.fd.sampleNum + 1#32 } ∧
    s.sendSample.trans = s.trans ++ [s.sample] ∧ { s.sendSample with fd := s.fd, trans := s.trans, chans := s.chans } = s := ⟨rfl, rfl, rfl⟩

/-- Settles O43. -/
theorem fieldInputsAndSamples : Obligations.FieldInputsAndSamples := by
  refine ⟨?_, fun s => ⟨fun h => ⟨congrArg Host.Outcome.next (if_pos h), congrArg Host.Outcome.next (if_pos h)⟩, fun h => ?_⟩⟩
  · intro s n mv vfs ua c v
    have hf := thresholds_false n.val
    have ht := thresholds_true n.val
    refine ⟨fun hwb htype => ?_, fun hwb htype => ?_, fun hwb => ⟨Chan.rawLevel_wb_on hwb, Chan.rawLevel_wb_off hwb⟩,
      fun stood => ⟨fun hmode => congrArg Host.Outcome.next (if_neg hmode), exec_inputDebounce mv vfs stood⟩, fun hstart => ?_, fun hbad => ?_,
      fun hgood => ?_, (breakUa_range n).1, (breakUa_range n).2, fun hnot => ?_, fun hmode hwb => ⟨fun hfree => ?_, fun hoff hua => ⟨fun hwas => ?_, ?_⟩⟩,
      fun hmode => congrArg Host.Outcome.next (if_neg hmode), fun hmode => ⟨fun hmv => ?_, fun hmv => ?_, fun hlo hhi => ?_⟩⟩
    · have hth := congrArg (thresholds n.val) htype
      exact ⟨fun hmv => Chan.rawLevel_of_on hwb (by rw [hth]; omega), fun hmv => Chan.rawLevel_of_off hwb (by rw [hth]; omega) (by rw [hth]; omega),
        fun hlo hhi => Chan.rawLevel_between hwb (by rw [hth]; omega) (by rw [hth]; omega)⟩
    · have hth := congrArg (thresholds n.val) htype
      exact ⟨fun hmv => Chan.rawLevel_of_on hwb (by rw [hth]; omega), fun hmv => Chan.rawLevel_of_off hwb (by rw [hth]; omega) (by rw [hth]; omega),
        fun hlo hhi => Chan.rawLevel_between hwb (by rw [hth]; omega) (by rw [hth]; omega)⟩
    · simp [State.inputBad, hstart]
    · exact ⟨congrArg Host.Outcome.next (if_pos hbad), State.inputPt_of_bad hbad⟩
    · have hself := State.updChan_chan_self s n.val fun c => { c with restoring := false }
      refine ⟨congrArg Host.Outcome.next (if_neg (by simp [hgood])), ?_, fun hrest => State.inputPt_of_good hgood hrest⟩
      rw [State.inputPt_of_good (State.inputBad_restored.trans hgood) (by rw [hself]), hself]
    · exact if_neg (by simpa [imp_iff_not_or] using hnot)
    · have hbroken : (!(s.chan n).rawLevel n mv vfs && decide (ua < breakUa n)) = false := by
        obtain h | h := hfree
        · simp [show (s.chan n).rawLevel n mv vfs = true from h]
        · simp [Nat.not_lt.2 h]
      refine (exec_wireBreak hmode hwb).trans ?_
      rw [hbroken, if_neg (by simp)]
    · have hraw : (s.chan n).rawLevel n mv vfs = false := hoff
      have hwas' : (s.chan n).wireBreak = true := hwas
      refine (exec_wireBreak hmode hwb).trans ?_
      rw [hraw, if_neg (by simp [hwas'])]
      simp [hua]
    · exact exec_wireBreak_new hmode hwb hoff hua
    · have hfree := Nat.mod_lt (Config.freeThreshold (n + 1024)) (show 1001 > 0 by decide)
      refine ⟨(exec_inputOv mv hmode).trans ?_, State.inputPt_of_restoring (by rw [State.updChan_chan_self])⟩
      dsimp only
      rw [if_pos (by omega)]
      simp
    · refine (exec_inputOv mv hmode).trans ?_
      dsimp only
      rw [if_neg (by omega), if_pos hmv]
      simp
    · refine (exec_inputOv mv hmode).trans ?_
      dsimp only
      rw [if_neg (by omega), if_neg (by omega)]
      exact congrArg Host.Outcome.next (State.updChan_congr rfl)
  · obtain ⟨hfd, htrans, hrest⟩ := s.sendSample_rest
    refine ⟨s.sendSample, s.sample, _, _, _, congrArg Host.Outcome.next (if_neg h), congrArg Host.Outcome.next (if_neg h), hfd, htrans, rfl, rfl, rfl,
      rfl, rfl, ?_, ?_, fun n => ?_, fun g hg => ?_, fun c => ?_, fun n => ?_, hrest⟩
    · simp [allChans, State.gstopPts]
    · simp
    · have hmem : n.val ∈ allChans := List.mem_range.2 n.isLt
      exact ⟨List.mem_append_left _ (List.mem_append_left _ (List.mem_map.2 ⟨n, hmem, rfl⟩)),
        List.mem_append_left _ (List.mem_append_right _ (List.mem_map.2 ⟨n, hmem, rfl⟩))⟩
    · exact List.mem_append_right _ hg
    · simp
    · rw [State.sendSample_chan]
      refine ⟨rfl, rfl, ?_⟩
      simp

end Sys2Proof.Machine
end


section
/-!
# Proofs: capture units and the modes of the channels (R182, R212, R213)
-/
namespace Sys2Proof.Machine
open Sys2Proof

/-! ### Capture units -/

section
variable (u : Cap) (raw : Bool)

/-- The filter of a capture unit sees an edge of a kind that is selected. -/
def Cap.edges (u : Cap) (raw : Bool) : Bool :=
  let f := decide (u.window < 2 * (((raw :: u.hist).take u.window).filter id).length)
  (u.edge.getLsbD 0 && !u.filt1 && f) || (u.edge.getLsbD 1 && u.filt1 && !f)

theorem Cap.take_eq : u.take raw =
    let h := (raw :: u.hist).take u.window
    let w : Cap := { u with hist := h, filt1 := decide (u.window < 2 * (h.filter id).length) }
    if u.edges raw = true then
      if u.residue = u.presc.toNat then { w with count := u.count + 1#16, residue := 0 } else { w with residue := u.residue + 1 }
    else w := rfl

theorem Cap.take_filter : (u.take raw).hist = (raw :: u.hist).take u.window ∧
    (u.take raw).filt1 = decide (u.window < 2 * (((raw :: u.hist).take u.window).filter id).length) := by
  rw [Cap.take_eq]
  dsimp only
  split
  · split <;> exact ⟨rfl, rfl⟩
  · exact ⟨rfl, rfl⟩

theorem Cap.take_settings : (u.take raw).en = u.en ∧ (u.take raw).src = u.src := by
  rw [Cap.take_eq]
  dsimp only
  split
  · split <;> exact ⟨rfl, rfl⟩
  · exact ⟨rfl, rfl⟩
end

section
variable (s : State) (c : Fin 16)

/-- One read of a capture unit, at channel `n`. -/
def State.captureRead (s : State) (c : Fin 16) (n vfs mv : Nat) : State :=
  let t := s.updChan n fun c => c.readRaw n mv vfs
  t.updCap c fun u => u.take (t.chan n).raw

theorem exec_captureCount (vfs : Nat) (mvs : List Nat) : exec (.captureCount c ⟨vfs, mvs⟩) s =
    if ((s.capUnit c).en && (s.chan (s.capUnit c).src.toNat).mode == 1#2) = true then
      .next (mvs.foldl (fun t mv => t.captureRead c (s.capUnit c).src.toNat vfs mv) s)
    else .next s := rfl

theorem State.captureRead_eq (n vfs mv : Nat) : s.captureRead c n vfs mv =
    (s.updChan n fun c => { c with
      raw := (s.chan n).rawLevel n mv vfs, wireBreak := c.wireBreak && !(s.chan n).rawLevel n mv vfs }).updCap c
        fun u => u.take ((s.chan n).rawLevel n mv vfs) := by
  have hread : s.updChan n (fun c => c.readRaw n mv vfs) = s.updChan n fun c => { c with
      raw := (s.chan n).rawLevel n mv vfs, wireBreak := c.wireBreak && !(s.chan n).rawLevel n mv vfs } := State.updChan_congr rfl
  unfold State.captureRead
  rw [hread]
  dsimp only
  rw [State.updChan_chan_self]

theorem State.captureRead_capUnit (n vfs mv : Nat) : ((s.captureRead c n vfs mv).capUnit c).en = (s.capUnit c).en ∧
    ((s.captureRead c n vfs mv).capUnit c).src = (s.capUnit c).src := by
  have hself : (s.captureRead c n vfs mv).capUnit c = (s.capUnit c).take _ := State.updCap_capUnit_self _ c _
  rw [hself]
  exact Cap.take_settings _ _

theorem State.captureRead_mode (n vfs mv : Nat) : ((s.captureRead c n vfs mv).chan n).mode = (s.chan n).mode := by
  have hself : (s.captureRead c n vfs mv).chan n = (s.chan n).readRaw n mv vfs :=
    State.updChan_chan_self s n fun c => c.readRaw n mv vfs
  rw [hself]
  rfl

/-- Reads of a capture unit are taken one after the other. -/
theorem exec_captureCount_cons (vfs mv : Nat) (mvs : List Nat) {t : State} (h : exec (.captureCount c ⟨vfs, [mv]⟩) s = .next t) :
    exec (.captureCount c ⟨vfs, mv :: mvs⟩) s = exec (.captureCount c ⟨vfs, mvs⟩) t := by
  rw [exec_captureCount] at h ⊢
  by_cases hon : ((s.capUnit c).en && (s.chan (s.capUnit c).src.toNat).mode == 1#2) = true
  · rw [if_pos hon] at h ⊢
    obtain rfl : s.captureRead c (s.capUnit c).src.toNat vfs mv = t := Host.Outcome.next.inj h
    obtain ⟨hen, hsrc⟩ := s.captureRead_capUnit c (s.capUnit c).src.toNat vfs mv
    rw [exec_captureCount, hen, hsrc, State.captureRead_mode, if_pos hon]
    rfl
  · rw [if_neg hon] at h ⊢
    obtain rfl : s = t := Host.Outcome.next.inj h
    rw [exec_captureCount, if_neg hon]
end

theorem Cap.setCfg_settings (u : Cap) (raw : Bool) (v : Word) :
    let w := u.setCfg raw v
    w.en = bit v 31 ∧ w.src = BitVec.ofNat 6 (bits v 21 16) ∧ w.edge = BitVec.ofNat 2 (bits v 13 12) ∧ w.filt = BitVec.ofNat 3 (bits v 10 8) ∧
      w.presc = BitVec.ofNat 8 (bits v 7 0) ∧ (bit v 31 = true → w.count = 0#16 ∧ w.residue = 0 ∧ w.filt1 = raw) ∧
      (bit v 31 = false → w.count = u.count) := by
  unfold Cap.setCfg
  cases h : bit v 31 <;> simp [Cap.restart]

/-! ### What the lanes send FD -/

/-- Both lanes have more for FD to take. -/
def State.pushBoth (s : State) (as bs : List FdCmd) : State :=
  { s with laneA := { s.laneA with toFd := s.laneA.toFd ++ as }, laneB := { s.laneB with toFd := s.laneB.toFd ++ bs } }

theorem State.pushBoth_nil (s : State) : s.pushBoth [] [] = s := by simp [State.pushBoth]

theorem State.pushBoth_pushBoth (s : State) (as bs as' bs' : List FdCmd) :
    (s.pushBoth as bs).pushBoth as' bs' = s.pushBoth (as ++ as') (bs ++ bs') := by simp [State.pushBoth]

/-- A channel whose source becomes the host, while the device is not OFF: its stored command goes out. -/
def State.sendsHost (s : State) (n : Nat) (was : Bool) : Bool := decide (s.pm.dstate ≠ .off) && (s.chan n).byHost && !was

theorem State.hostSource_eq (s : State) (n : Nat) (was : Bool) : s.hostSource n was =
    if s.sendsHost n was = true then s.pushBoth [.nonsafe n (s.chan n).nsOn] [.nonsafe n (!(s.chan n).nsOn)] else s := by
  unfold State.hostSource State.sendsHost
  dsimp only
  by_cases hoff : s.pm.dstate = .off
  · have hpush (t : State) (ht : t.pm = s.pm) (l : Lane) (c : FdCmd) : t.pushFd l c = t := if_pos (by rw [ht]; exact hoff)
    rw [if_neg (c := (decide _ && _ && _) = true) (by simp [hoff])]
    split
    · rw [hpush s rfl, hpush s rfl]
    · rfl
  · have hpush (t : State) (ht : t.pm = s.pm) (l : Lane) (c : FdCmd) :
        t.pushFd l c = t.updLane l fun d => { d with toFd := d.toFd ++ [c.inLane l] } := if_neg (by rw [ht]; exact hoff)
    simp only [ne_eq, hoff, not_false_eq_true, decide_true, Bool.true_and]
    split
    · rw [hpush s rfl, hpush (s.updLane .a _) rfl]
      rfl
    · rfl

theorem State.foldl_hostSource (s : State) (ns : List Nat) (was : Nat → Bool) : ns.foldl (fun t k => t.hostSource k (was k)) s =
    let sent := ns.filter fun k => s.sendsHost k (was k)
    s.pushBoth (sent.map fun k => .nonsafe k (s.chan k).nsOn) (sent.map fun k => .nonsafe k (!(s.chan k).nsOn)) := by
  induction ns generalizing s with
  | nil => exact s.pushBoth_nil.symm
  | cons k ns ih =>
    rw [List.foldl_cons, ih, State.hostSource_eq]
    by_cases h : s.sendsHost k (was k) = true
    · rw [if_pos h]
      dsimp only
      rw [List.filter_cons_of_pos (p := fun k => s.sendsHost k (was k)) h, State.pushBoth_pushBoth]
      rfl
    · rw [if_neg h]
      dsimp only
      rw [List.filter_cons_of_neg (p := fun k => s.sendsHost k (was k)) h]

/-! ### Modes of the channels -/

section
variable (s : State) (n : Nat) (m : BitVec 2)

/-- A set entered in a mode. -/
def State.entered (s : State) (ns : List Nat) (m : BitVec 2) : State := (s.updChans ns fun _ c => c.enter m).holdEntered ns

theorem State.setMode_eq : s.setMode n m =
    (s.setOf n).foldl (fun t k => t.hostSource k (s.chan k).byHost) (s.entered (s.setOf n) m) := rfl

theorem Chan.enter_kept (c : Chan) : (c.enter m).mode = m ∧ (c.enter m).nsSrc = c.nsSrc ∧ (c.enter m).nsOn = c.nsOn := by
  unfold Chan.enter
  split
  · next h => exact ⟨h, rfl, rfl⟩
  · exact ⟨rfl, rfl, rfl⟩

theorem Chan.enter_of_ne {c : Chan} (h : c.mode ≠ m) : c.enter m =
    { c.cmdsOff with
      mode := m, level := false, restoring := decide (m = 1#2), wireBreak := false, ov := false, pulse := none, aPassed := none
      fbLevel := false, ret := false, retG := false, nsSilent := false } := if_neg h

theorem State.entered_chan (ns : List Nat) (hns : ns.Nodup) (j : Nat) : (s.entered ns m).chan j =
    if j ∈ ns then
      let c := (s.chan j).enter m
      { c with ret := c.ret || (c.isOutput && (s.updChans ns fun _ c => c.enter m).held j) }
    else s.chan j := by
  unfold State.entered State.holdEntered
  rw [State.updChans_chan _ _ _ _ hns, State.updChans_chan _ _ _ _ hns]
  by_cases h : j ∈ ns <;> simp only [h, if_true, if_false]

/-- What holds a channel does not look at whether its output waits to return. -/
theorem State.held_congr {s t : State} (hfd : t.fd = s.fd) (hgrp : ∀ g, t.grp g = s.grp g) (hpm : t.pm = s.pm)
    (hchan : ∀ j, ∃ r, t.chan j = { s.chan j with ret := r }) (j : Nat) : t.held j = s.held j := by
  have hpar (j : Nat) : (t.chan j).par = (s.chan j).par := by obtain ⟨r, h⟩ := hchan j; rw [h]
  have hmode (j : Nat) : (t.chan j).mode = (s.chan j).mode := by obtain ⟨r, h⟩ := hchan j; rw [h]
  have hlatched (j : Nat) : (t.chan j).latched = (s.chan j).latched := by obtain ⟨r, h⟩ := hchan j; rw [h]; rfl
  have hhead : t.setHead j = s.setHead j := by simp only [State.setHead, hpar]
  have hunit : t.unit j = s.unit j := by simp only [State.unit, State.setOf, hhead, hpar]
  unfold State.held
  dsimp only
  rw [hfd, hgrp, hpm, hunit, hmode, show (fun m => (t.chan m).latched) = fun m => (s.chan m).latched from funext hlatched]

theorem State.entered_held (ns : List Nat) (hns : ns.Nodup) (j : Nat) :
    (s.entered ns m).held j = (s.updChans ns fun _ c => c.enter m).held j := by
  refine State.held_congr (s := s.updChans ns fun _ c => c.enter m) (t := s.entered ns m) rfl (fun _ => rfl) rfl (fun i => ?_) j
  rw [State.entered_chan s m ns hns i, State.updChans_chan _ _ _ _ hns]
  by_cases h : i ∈ ns
  · rw [if_pos h, if_pos h]
    exact ⟨_, rfl⟩
  · rw [if_neg h, if_neg h]
    exact ⟨(s.chan i).ret, rfl⟩
end

section
variable {s : State} {n : Nat} {m : BitVec 2}

theorem State.setMode_chan (j : Nat) : (s.setMode n m).chan j = (s.entered (s.setOf n) m).chan j := by
  rw [State.setMode_eq, State.foldl_hostSource]
  rfl

theorem State.setMode_held (j : Nat) : (s.setMode n m).held j = (s.updChans (s.setOf n) fun _ c => c.enter m).held j := by
  rw [State.setMode_eq, State.foldl_hostSource, ← State.entered_held s m _ (s.setOf_nodup n)]
  rfl

/-- The members of a set that enter NONSAFE_OUTPUT mode with the source HOST while the device is not OFF. -/
theorem State.entered_sendsHost : ((s.setOf n).filter fun k => (s.entered (s.setOf n) m).sendsHost k (s.chan k).byHost) =
    if m = 3#2 ∧ s.pm.dstate ≠ .off then (s.setOf n).filter fun j => decide ((s.chan j).mode ≠ 3#2 ∧ (s.chan j).nsSrc = 1#2) else [] := by
  have hsends (k : Nat) (hk : k ∈ s.setOf n) : (s.entered (s.setOf n) m).sendsHost k (s.chan k).byHost = true ↔
      (m = 3#2 ∧ s.pm.dstate ≠ .off) ∧ (s.chan k).mode ≠ 3#2 ∧ (s.chan k).nsSrc = 1#2 := by
    have hchan := State.entered_chan s m _ (s.setOf_nodup n) k
    rw [if_pos hk] at hchan
    obtain ⟨hmode, hsrc, -⟩ := (s.chan k).enter_kept m
    have hpm : (s.entered (s.setOf n) m).pm = s.pm := rfl
    have hhost : ((s.entered (s.setOf n) m).chan k).byHost = (m == 3#2 && (s.chan k).nsSrc == 1#2) := by
      rw [hchan]
      change (((s.chan k).enter m).mode == 3#2 && ((s.chan k).enter m).nsSrc == 1#2) = _
      rw [hmode, hsrc]
    unfold State.sendsHost
    rw [hhost, hpm]
    simp only [Chan.byHost, Bool.and_eq_true, Bool.not_eq_true', Bool.and_eq_false_iff, beq_iff_eq, decide_eq_true_eq, beq_eq_false_iff_ne]
    tauto
  split
  · next h =>
    refine List.filter_congr fun k hk => ?_
    rw [Bool.eq_iff_iff, hsends k hk, decide_eq_true_eq]
    exact and_iff_right h
  · next h =>
    refine List.filter_eq_nil_iff.2 fun k hk hs => h ((hsends k hk).1 hs).1

theorem State.entered_nsOn {k : Nat} : ((s.entered (s.setOf n) m).chan k).nsOn = (s.chan k).nsOn := by
  rw [State.entered_chan s m _ (s.setOf_nodup n)]
  split
  · exact ((s.chan k).enter_kept m).2.2
  · rfl

/-- The members that a change of mode makes follow the host's stored commands. -/
def State.hostMembers (s : State) (n : Nat) (m : BitVec 2) : List Nat :=
  if m = 3#2 ∧ s.pm.dstate ≠ .off then (s.setOf n).filter fun j => decide ((s.chan j).mode ≠ 3#2 ∧ (s.chan j).nsSrc = 1#2) else []

theorem State.setMode_pushes : s.setMode n m = (s.entered (s.setOf n) m).pushBoth
    ((s.hostMembers n m).map fun k => .nonsafe k (s.chan k).nsOn) ((s.hostMembers n m).map fun k => .nonsafe k (!(s.chan k).nsOn)) := by
  rw [State.setMode_eq, State.foldl_hostSource]
  simp only [State.entered_sendsHost, State.entered_nsOn]
  rfl

theorem State.setMode_rest : { s.setMode n m with
    chans := s.chans, laneA := { (s.setMode n m).laneA with toFd := s.laneA.toFd }
    laneB := { (s.setMode n m).laneB with toFd := s.laneB.toFd } } = s := by
  rw [State.setMode_pushes]
  rfl

theorem State.setMode_member {j : Nat} (hj : j ∈ s.setOf n) : ((s.setMode n m).chan j).mode = m ∧
    ((s.chan j).mode ≠ m → (∀ l, ((s.setMode n m).chan j).cmd l = false) ∧ ((s.setMode n m).chan j).pulse = none ∧
      ((s.setMode n m).chan j).level = false ∧ (((s.setMode n m).chan j).restoring = true ↔ m = 1#2) ∧
      (((s.setMode n m).chan j).ret = true ↔ m.toNat ≥ 2 ∧ (s.setMode n m).held j = true)) := by
  have hchan := State.entered_chan s m _ (s.setOf_nodup n) j
  rw [if_pos hj] at hchan
  rw [State.setMode_chan, State.setMode_held, hchan]
  refine ⟨((s.chan j).enter_kept m).1, fun hne => ?_⟩
  have houtput : ∀ m : BitVec 2, m == 2#2 || m == 3#2 ↔ m.toNat ≥ 2 := by decide
  dsimp only
  rw [Chan.enter_of_ne m hne]
  refine ⟨fun l => ?_, rfl, rfl, by simp, ?_⟩
  · cases l <;> rfl
  · change (false || (m == 2#2 || m == 3#2) && _) = true ↔ _
    rw [Bool.false_or, Bool.and_eq_true, houtput]

theorem State.setMode_other {j : Nat} (hj : j ∉ s.setOf n) : (s.setMode n m).chan j = s.chan j := by
  rw [State.setMode_chan, State.entered_chan s m _ (s.setOf_nodup n), if_neg hj]
end

/-- The verdicts of the stewards are all that a write of a WL register folds. -/
theorem State.judgeWl_rest (s : State) (off : Nat) : (s.judgeWl off).capUnits = s.capUnits ∧ (s.judgeWl off).chans = s.chans ∧
    (s.judgeWl off).pm = s.pm ∧ (s.judgeWl off).laneA.toFd = s.laneA.toFd ∧ (s.judgeWl off).laneB.toFd = s.laneB.toFd := ⟨rfl, rfl, rfl, rfl, rfl⟩

/-- Settles O44. -/
theorem captureUnitsAndChannelModes : Obligations.CaptureUnitsAndChannelModes := by
  refine ⟨?_, fun s => ⟨?_, ?_, ?_⟩⟩
  · intro u raw h f edge
    have hedge : u.edges raw = true ↔ edge := by
      simp only [Cap.edges, Bool.or_eq_true, Bool.and_eq_true, Bool.not_eq_true', edge, and_assoc]
      rfl
    obtain ⟨hhist, hfilt⟩ := u.take_filter raw
    refine ⟨hhist, hfilt, fun hno => ?_, fun hyes hfull => ?_, fun hyes hmore => ?_⟩
    · rw [Cap.take_eq]
      dsimp only
      rw [if_neg fun hon => hno (hedge.1 hon)]
      exact ⟨rfl, rfl⟩
    · rw [Cap.take_eq]
      dsimp only
      rw [if_pos (hedge.2 hyes), if_pos hfull]
      exact ⟨rfl, rfl⟩
    · rw [Cap.take_eq]
      dsimp only
      rw [if_pos (hedge.2 hyes), if_neg hmore]
      exact ⟨rfl, rfl⟩
  · refine fun c vfs => ⟨fun mvs hoff => ?_, ?_, fun mv mvs t => exec_captureCount_cons s c vfs mv mvs⟩
    · rw [exec_captureCount, if_neg]
      obtain h | h := hoff <;> simp [h]
    · intro hen hmode n
      have hon : ((s.capUnit c).en && (s.chan (s.capUnit c).src.toNat).mode == 1#2) = true := by simp [hen, hmode]
      refine ⟨?_, fun mv => ?_⟩
      · rw [exec_captureCount, if_pos hon]
        rfl
      · rw [exec_captureCount, if_pos hon]
        exact congrArg Host.Outcome.next (s.captureRead_eq c n vfs mv)
  · intro c v u
    refine ⟨fun hup => if_pos hup, fun hdown hbad => (if_neg (by simp [hdown])).trans (if_pos (by simpa using hbad)), fun hdown hedge hfilt =>
      ⟨u.updCap c fun w => w.setCfg (s.chan (bits v 21 16)).raw v,
        (if_neg (by simp [hdown])).trans (if_neg (by simp [hedge, hfilt])), ?_⟩⟩
    have hself : (u.updCap c fun w => w.setCfg (s.chan (bits v 21 16)).raw v).capUnit c = (s.capUnit c).setCfg (s.chan (bits v 21 16)).raw v :=
      State.updCap_capUnit_self u c _
    obtain ⟨hen, hsrc, hedge', hfilt', hpresc, hrestart, hcount⟩ := (s.capUnit c).setCfg_settings (s.chan (bits v 21 16)).raw v
    rw [hself]
    exact ⟨hen, hsrc, hedge', hfilt', hpresc, hrestart, hcount, fun j hj => State.updCap_capUnit_ne u c _ j hj, rfl⟩
  · intro n v m bad u
    have hbad : s.modeBad n m = true ↔ bad := by simp [State.modeBad, bad]
    refine ⟨fun hup => if_pos hup, fun hdown h => (if_neg (by simp [hdown])).trans (if_pos (hbad.2 h)), fun hdown h =>
      ⟨u.setMode n m, (if_neg (by simp [hdown])).trans (if_neg fun h' => h (hbad.1 h')), fun j hj => State.setMode_member (s := u) hj,
        fun j hj => State.setMode_other (s := u) hj, ?_, ?_⟩⟩
    · rw [State.setMode_pushes]
      exact ⟨rfl, rfl⟩
    · exact State.setMode_rest (s := u)

end Sys2Proof.Machine
end


section
/-!
# Proofs: fault records, and what a fault stops (R45, R46, R76, R292, R299, R300)
-/
namespace Sys2Proof.Machine
open Sys2Proof

/-! ### Records -/

section
variable (s : State) (k : Nat)

@[simp] theorem State.setRec_frec_self (r : Option FaultRec) : (s.setRec k r).frec k = r := tabGet_tabSet_self

theorem State.setRec_frec_ne (r : Option FaultRec) {j : Nat} (h : j ≠ k) : (s.setRec k r).frec j = s.frec j := tabGet_tabSet_ne h

theorem State.postEvent_frec (t c p j : Nat) : (s.postEvent t c p).frec j = s.frec j := by
  rw [State.frec, ← congrArg State.fl (s.postEvent_only t c p)]
  rfl

/-- A record with what tells whether its event has been posted. -/
def FaultRec.reported (r : FaultRec) (post : Bool) (now : Word64) : FaultRec :=
  { r with evAt := if post then some now else r.evAt, evPend := !post }

theorem State.reportRec_frec_self : (s.reportRec k).frec k = (s.frec k).map fun r => r.reported (s.mayPost r.evAt) s.now := by
  unfold State.reportRec
  split
  · next h => rw [h]; rfl
  · next r h =>
    rw [h]
    split
    · next hpost => rw [State.postEvent_frec, State.setRec_frec_self, Option.map_some, FaultRec.reported, hpost]; rfl
    · next hpost => rw [State.setRec_frec_self, Option.map_some, FaultRec.reported, Bool.eq_false_of_not_eq_true hpost]; rfl

theorem State.reportRec_frec_ne {j : Nat} (h : j ≠ k) : (s.reportRec k).frec j = s.frec j := by
  unfold State.reportRec
  split
  · rfl
  · split
    · rw [State.postEvent_frec, State.setRec_frec_ne _ _ _ h]
    · rw [State.setRec_frec_ne _ _ _ h]
end

/-- What a record says of its fault. -/
def FaultRec.shown (r : FaultRec) : BitVec 16 × BitVec 12 × Bool × Bool × RecSt × Nat × BitVec 16 :=
  (r.code, r.loc, r.laneA, r.laneB, r.st, r.count, r.detail)

section
variable {s : State} {code : BitVec 16} {loc : BitVec 12} {la lb : Bool} {detail pass k : Nat} {zs : List Nat}

theorem State.reportRec_shown {s : State} {k : Nat} {r : FaultRec} (h : s.frec k = some r) :
    ((s.reportRec k).frec k).map FaultRec.shown = some r.shown := by
  rw [State.reportRec_frec_self, h]
  rfl

/-- A record of the code and location is merged with. -/
theorem State.record_found {r : FaultRec} (hfind : s.findRec code loc = some k) (hrec : s.frec k = some r) :
    ((s.record code loc la lb detail pass zs).frec k).map FaultRec.shown =
      some (r.code, r.loc, r.laneA || la, r.laneB || lb, .latched, satInc r.count 65535, BitVec.ofNat 16 detail) := by
  unfold State.record
  rw [hfind]
  dsimp only
  rw [hrec]
  exact State.reportRec_shown (State.setRec_frec_self _ k _)

/-- A new fault is written into the lowest empty record. -/
theorem State.record_new (hfind : s.findRec code loc = none) (hempty : s.emptyRec = some k) :
    ((s.record code loc la lb detail pass zs).frec k).map FaultRec.shown =
      some (code, loc, la, lb, .latched, 1, BitVec.ofNat 16 detail) := by
  unfold State.record
  rw [hfind]
  dsimp only
  rw [hempty]
  exact State.reportRec_shown (State.setRec_frec_self _ k _)

theorem State.record_overflow (hfind : s.findRec code loc = none) (hempty : s.emptyRec = none) :
    (s.record code loc la lb detail pass zs).fl.overflow = true := by
  unfold State.record
  rw [hfind]
  dsimp only
  rw [hempty]
end

/-! ### Zones of a fault -/

section
variable (s : State) (z : Nat)

theorem State.postEvent_zones (t c p : Nat) : (s.postEvent t c p).zones = s.zones := (congrArg State.zones (s.postEvent_only t c p)).symm

theorem State.setZoneSt_zone_self (st : ZoneSt) : (s.setZoneSt z st).zone z = { s.zone z with st := st } := by
  unfold State.setZoneSt
  dsimp only
  split
  · next h => rw [← h]
  · rw [State.zone, State.postEvent_zones]
    exact State.updZone_zone_self s z _

theorem State.setZoneSt_zone_ne (st : ZoneSt) {j : Nat} (h : j ≠ z) : (s.setZoneSt z st).zone j = s.zone j := by
  unfold State.setZoneSt
  dsimp only
  split
  · rfl
  · rw [State.zone, State.postEvent_zones]
    exact State.updZone_zone_ne s z _ j h

/-- A zone that goes FAULTED, but for its state: the outputs and points it lets go of. -/
def State.dropZone (s : State) (z : Nat) : State :=
  let y := s.zone z
  match y.active with
    | some v =>
      let q := s.pair v.pair
      let s := (s.outputsOff (safeouts v.sec.blocks)).dropPts (couples v.sec.blocks)
      let s := if q.stopA then s.dropLane .a v.writes else s
      if q.stopB then s.dropLane .b v.writes else s
    | none => s

theorem State.dropZone_only : Only outPart s (s.dropZone z) := by
  have hdrop (t : State) (l : Lane) (as : List Nat) : Only outPart t (t.dropLane l as) := (State.dropLane_only t l as).mono fun _ _ => rfl
  unfold State.dropZone
  dsimp only
  split
  · next v hv =>
    have hoff : Only outPart s ((s.outputsOff (safeouts v.sec.blocks)).dropPts (couples v.sec.blocks)) :=
      Only.trans outPart_part (s.outputsOff_only _) ((State.dropPts_only _ _).mono fun _ _ => rfl)
    have ha : Only outPart s (if (s.pair v.pair).stopA then
        ((s.outputsOff (safeouts v.sec.blocks)).dropPts (couples v.sec.blocks)).dropLane .a v.writes
        else (s.outputsOff (safeouts v.sec.blocks)).dropPts (couples v.sec.blocks)) := by
      split
      · exact Only.trans outPart_part hoff (hdrop _ _ _)
      · exact hoff
    split
    · exact Only.trans outPart_part ha (hdrop _ _ _)
    · exact ha
  · exact Only.refl outPart_part s

/-- A zone that a fault has stopped. -/
def Zone.faulted (y : Zone) : Zone := { y with
  active := y.active.map fun v => v.setRt (v.rt.map fun r => { r with c := false }), faultPair := y.pairOf, restartReq := false, demand := false
  st := .faulted }

theorem State.faultZone_eq : s.faultZone z = (((s.dropZone z).updZone z fun y => { y with
    active := y.active.map fun v => v.setRt (v.rt.map fun r => { r with c := false })
    faultPair := y.pairOf, restartReq := false, demand := false }).setZoneSt z .faulted) := rfl

theorem State.dropZone_zone (j : Nat) : (s.dropZone z).zone j = s.zone j := by
  rw [State.zone, ← congrArg State.zones (s.dropZone_only z)]
  rfl

theorem State.faultZone_zone_self : (s.faultZone z).zone z = (s.zone z).faulted := by
  rw [State.faultZone_eq, State.setZoneSt_zone_self, State.updZone_zone_self, State.dropZone_zone]
  rfl

theorem State.faultZone_zone_ne {j : Nat} (h : j ≠ z) : (s.faultZone z).zone j = s.zone j := by
  rw [State.faultZone_eq, State.setZoneSt_zone_ne _ _ _ h, State.updZone_zone_ne _ _ _ _ h, State.dropZone_zone]
end

theorem State.foldl_faultZone_st (zs : List Nat) (s : State) (z : Nat) :
    ((zs.foldl State.faultZone s).zone z).st = if z ∈ zs then .faulted else (s.zone z).st := by
  induction zs generalizing s with
  | nil => rfl
  | cons x zs ih =>
    rw [List.foldl_cons, ih]
    by_cases hx : z = x
    · subst hx
      simp [State.faultZone_zone_self, Zone.faulted]
    · simp [State.faultZone_zone_ne s x hx, hx]

section
variable (s : State) (code : BitVec 16) (loc : BitVec 12) (la lb : Bool) (detail pass : Nat) (scope : List Nat)

theorem State.raise_zone (z : Nat) : (s.raise code loc la lb detail pass scope).zone z = (((s.toFault scope).foldl State.faultZone s).zone z) := by
  unfold State.raise
  dsimp only
  rw [State.zone, ← congrArg State.zones (State.record_only _ _ _ _ _ _ _ _)]
  rfl

/-- A fault stops the zones of its scope that are up, and no other. -/
theorem State.raise_zone_st (z : Nat) : ((s.raise code loc la lb detail pass scope).zone z).st =
    if z ∈ scope ∧ (s.zone z).st ≠ .withdrawn then .faulted else (s.zone z).st := by
  rw [State.raise_zone, State.foldl_faultZone_st]
  have hmem : z ∈ s.toFault scope ↔ z ∈ scope ∧ (s.zone z).st ≠ .faulted ∧ (s.zone z).st ≠ .withdrawn := by simp [State.toFault]
  by_cases hin : z ∈ scope ∧ (s.zone z).st ≠ .withdrawn
  · rw [if_pos hin]
    by_cases hf : (s.zone z).st = .faulted
    · rw [if_neg fun h => (hmem.1 h).2.1 hf, hf]
    · rw [if_pos (hmem.2 ⟨hin.1, hf, hin.2⟩)]
  · rw [if_neg hin, if_neg fun h => hin ⟨(hmem.1 h).1, (hmem.1 h).2.2⟩]

theorem State.raise_pair (p : Nat) : (s.raise code loc la lb detail pass scope).pair p = s.pair p := by
  rw [State.pair, ← congrArg State.pairs (s.raise_only code loc la lb detail pass scope)]
  rfl

theorem State.foldl_faultZone_fl (zs : List Nat) : (zs.foldl State.faultZone s).fl = s.fl :=
  (congrArg State.fl (Only.foldl fzPart_part (fun t x => t.faultZone_only x) zs s)).symm
end

/-! ### Pair-stop bits -/

/-- A pair whose stop bit of one lane latches, as one steward sees it. -/
def Pair.latch (l : Lane) (q : Pair) : Pair :=
  let q := match l with
    | .a => { q with stopA := true }
    | .b => { q with stopB := true }
  { q with role := q.role.onStop, run := none, trig := false, haltBit := q.haltBit && q.role == .halted }

/-- A pair whose stop bit of one lane latches. -/
def Pair.latched (l : Lane) (q : Pair) : Pair := if q.stop l then q else Pair.both (Pair.latch l) q

theorem Pair.latched_stop (l : Lane) (q : Pair) : (q.latched l).stop l = true ∧ (q.latched l).stop (otherLane l) = q.stop (otherLane l) := by
  unfold Pair.latched
  split
  · next h => exact ⟨h, rfl⟩
  · cases l <;> exact ⟨rfl, rfl⟩

theorem Pair.latched_new {l : Lane} {q : Pair} (h : q.stop l = false) : (q.latched l).role = q.role.onStop ∧ (q.latched l).run = none := by
  unfold Pair.latched
  rw [h]
  cases l <;> exact ⟨rfl, rfl⟩

section
variable (s : State) (l : Lane) (p : Nat)

theorem State.unload_zone_st (z : Nat) : ((s.unload p).zone z).st = (s.zone z).st := by
  refine foldl_keeps (P := fun (t : State) z => (t.zone z).st) (fun t e => funext fun z => ?_) s.zones s |> congrFun (a := z)
  split
  · split
    · rw [State.updZone_zone]
      split
      · next h => rw [h]
      · rfl
    · rfl
  · rfl

theorem State.latchBit_pair (j : Nat) : (s.latchBit l p).pair j = if j = p then (s.pair p).latched l else s.pair j := by
  unfold State.latchBit Pair.latched
  by_cases h : (s.pair p).stop l = true
  · rw [if_pos h, if_pos h]
    split
    · next hj => rw [hj]
    · rfl
  · rw [if_neg h, if_neg h, State.pair, ← congrArg State.pairs (State.dropPairPts_only _ l p)]
    have hpairs : (s.unload p).pairs = s.pairs := (congrArg State.pairs (s.unload_only p)).symm
    refine (State.updPair_pair _ p _ j).trans ?_
    have hpair (i : Nat) : (s.unload p).pair i = s.pair i := by rw [State.pair, hpairs]; rfl
    rw [hpair, hpair]
    rfl

theorem State.latchBit_zone_st (z : Nat) : ((s.latchBit l p).zone z).st = (s.zone z).st := by
  unfold State.latchBit
  split
  · rfl
  · rw [State.zone, ← congrArg State.zones (State.dropPairPts_only _ l p)]
    exact s.unload_zone_st p z

theorem State.latchAll_pair {j : Nat} (h : j < 36) : (s.latchAll l).pair j = (s.pair j).latched l := by
  have hfold := foldl_shows (P := fun (t : State) p => t.pair p) (f := fun _ q => q.latched l) (fun t p j => t.latchBit_pair l p j)
    (ks := List.range 36) List.nodup_range s j
  exact hfold.trans (if_pos (List.mem_range.2 h))

theorem State.latchAll_zone_st (z : Nat) : ((s.latchAll l).zone z).st = (s.zone z).st :=
  congrFun (foldl_keeps (P := fun (t : State) z => (t.zone z).st) (fun t p => funext fun z => t.latchBit_zone_st l p z) (List.range 36) s) z
end

/-- A zone that is up is listed. -/
theorem State.mem_zonesUp {s : State} {z : Nat} (h : (s.zone z).st ≠ .withdrawn) : z ∈ s.zonesUp := by
  have hmem : ∀ t : Tab Zone, (tabGet Zone.init t z).st ≠ .withdrawn →
      z ∈ t.filterMap fun e => if decide (e.2.st ≠ .withdrawn) then some e.1 else none := by
    intro t ht
    induction t with
    | nil => exact absurd rfl ht
    | cons e t ih =>
      obtain ⟨i, v⟩ := e
      rw [tabGet] at ht
      rw [List.filterMap_cons]
      split at ht
      · split
        · exact ih ht
        · exact List.mem_cons_of_mem _ (ih ht)
      · split at ht
        · next heq => simp [heq, ht]
        · exact absurd rfl ht
  exact hmem s.zones h

theorem State.raise_stopped {s : State} {code : BitVec 16} {loc : BitVec 12} {la lb : Bool} {detail pass : Nat} {scope : List Nat} {z : Nat}
    (h : z ∈ scope ∨ (s.zone z).st = .withdrawn) : ((s.raise code loc la lb detail pass scope).zone z).stopped := by
  unfold Zone.stopped
  rw [State.raise_zone_st]
  by_cases hw : (s.zone z).st = .withdrawn
  · exact .inl (by rw [if_neg fun h => h.2 hw, hw])
  · exact .inr (if_pos ⟨h.resolve_right hw, hw⟩)

/-! ### Faults of a lane -/

section
variable (s : State) (l : Lane) (code : BitVec 16) (detail : Nat)

/-- A lane that has latched a fault of its own: what it tells the others. -/
def State.laneLatched (s : State) (l : Lane) (code : BitVec 16) : State :=
  (s.latchAll l).updLane l fun d =>
    { d with withhold := true, global := d.global || decide (faultClass code = 5),
             slow := d.slow || decide (code = 0x2001#16), fast := d.fast || decide (code = 0x2002#16) }

theorem State.laneFault_eq : s.laneFault l code detail = (s.laneLatched l code).raise code noLoc (l = .a) (l = .b) detail 0 s.zonesUp := rfl

theorem State.laneLatched_rest : (s.laneLatched l code).pairs = (s.latchAll l).pairs ∧ (s.laneLatched l code).zones = (s.latchAll l).zones ∧
    (s.laneLatched l code).lane (otherLane l) = s.lane (otherLane l) ∧ ((s.laneLatched l code).lane l).withhold = true ∧
    ((s.laneLatched l code).lane l).global = ((s.lane l).global || decide (faultClass code = 5)) := by
  have ha : (s.latchAll l).laneA = s.laneA := (congrArg State.laneA (s.latchAll_only l)).symm
  have hb : (s.latchAll l).laneB = s.laneB := (congrArg State.laneB (s.latchAll_only l)).symm
  unfold State.laneLatched
  generalize s.latchAll l = u at ha hb ⊢
  cases l with
  | a => exact ⟨rfl, rfl, hb, rfl, by rw [State.lane, State.lane, ← ha]; rfl⟩
  | b => exact ⟨rfl, rfl, ha, rfl, by rw [State.lane, State.lane, ← hb]; rfl⟩

/-- A fault leaves of a lane all but what it sends FD. -/
theorem State.raise_lane (loc : BitVec 12) (la lb : Bool) (pass : Nat) (scope : List Nat) (m : Lane) :
    { (s.raise code loc la lb detail pass scope).lane m with toFd := [] } = { s.lane m with toFd := [] } := by
  rw [← s.raise_only code loc la lb detail pass scope]
  cases m <;> rfl
end

/-- Settles O33. -/
theorem faultsAreRecordedAndStopZones : Obligations.FaultsAreRecordedAndStopZones := by
  refine ⟨fun s code loc la lb detail pass scope => ?_, fun s l code detail => ?_⟩
  · intro t show'
    obtain ⟨u, hu⟩ : ∃ u, u = (s.toFault scope).foldl State.faultZone s := ⟨_, rfl⟩
    have hfl : u.fl = s.fl := by rw [hu]; exact s.foldl_faultZone_fl _
    have hfind : u.findRec code loc = s.findRec code loc := by rw [State.findRec, hfl]; rfl
    have hrec (k : Nat) : u.frec k = s.frec k := by rw [State.frec, hfl]; rfl
    have hempty : u.emptyRec = s.emptyRec := by simp only [State.emptyRec, hrec]
    have ht : t = u.record code loc la lb detail pass (s.toFault scope) := by rw [hu]; rfl
    refine ⟨s.raise_zone_st code loc la lb detail pass scope, fun k r hk hr => ?_, fun k hnone hk => ?_, fun hnone hfull => ?_,
      fun p => s.raise_pair code loc la lb detail pass scope p⟩
    · rw [ht]
      exact State.record_found (hfind.trans hk) ((hrec k).trans hr)
    · rw [ht]
      exact State.record_new (hfind.trans hnone) (hempty.trans hk)
    · rw [ht]
      exact State.record_overflow (hfind.trans hnone) (hempty.trans hfull)
  · intro t
    obtain ⟨hpairs, hzones, hother, hwithhold, hglobal⟩ := s.laneLatched_rest l code
    have ht : t = (s.laneLatched l code).raise code noLoc (l = .a) (l = .b) detail 0 s.zonesUp := rfl
    have hpair (p : Fin 36) : t.pair p = (s.pair p).latched l := by
      rw [ht, State.raise_pair, State.pair, hpairs]
      exact s.latchAll_pair l p.isLt
    have hlane (m : Lane) : { t.lane m with toFd := [] } = { (s.laneLatched l code).lane m with toFd := [] } := by
      rw [ht]
      exact State.raise_lane _ code detail noLoc _ _ 0 _ m
    refine ⟨fun p => ?_, fun p => ?_, ?_, ?_, fun z => ?_, ?_⟩
    · rw [hpair]
      exact (Pair.latched_stop l _).1
    · rw [hpair]
      exact (Pair.latched_stop l _).2
    · exact (congrArg LaneDie.withhold (hlane l)).trans hwithhold
    · exact (congrArg LaneDie.global (hlane l)).trans hglobal
    · have hst : ((s.laneLatched l code).zone z).st = (s.zone z).st := by
        rw [State.zone, hzones]
        exact s.latchAll_zone_st l z
      rw [ht]
      refine State.raise_stopped ?_
      rw [hst]
      by_cases h : (s.zone z).st = .withdrawn
      · exact .inr h
      · exact .inl (State.mem_zonesUp h)
    · rw [hlane, hother]

end Sys2Proof.Machine
end


section
/-!
# Proofs: GSTOP (R214 to R217)
-/
namespace Sys2Proof.Machine
open Sys2Proof

/-! ### Holding the safety outputs -/

section
variable {s : State}

theorem State.mem_safetyChans {n : Nat} : n ∈ s.safetyChans ↔ n < 64 ∧ (s.chan n).mode = 2#2 := by simp [State.safetyChans, mem_below]

theorem State.safetyChans_nodup : s.safetyChans.Nodup := below_nodup _ _

/-- A safety output held open. -/
theorem State.holdChans_safety {n : Fin 64} (h : (s.chan n).mode = 2#2) :
    (s.holdChans s.safetyChans).chan n = { s.chan n with ret := true, pulse := none } := by
  rw [State.holdChans_chan _ State.safetyChans_nodup, if_pos (State.mem_safetyChans.2 ⟨n.isLt, h⟩)]
  simp [Chan.isOutput, h]

/-- While a forced stop is on, no safety output conducts. -/
theorem State.conducts_of_stop {n : Nat} (hstop : s.fd.gsStop = true) (hmode : (s.chan (s.setHead n)).mode = 2#2) : s.conducts n = false := by
  have hheld : s.held (s.setHead n) = true := by simp [State.held, hmode, hstop]
  simp [State.conducts, State.swClosed_of_held _ hheld]

theorem State.recGone_only (code : BitVec 16) (loc : BitVec 12) : Only recPart s (s.recGone code loc) := by
  unfold State.recGone
  split
  · split
    · split
      · exact Only.trans recPart_part (State.setRec_only s _ _) (State.reportRec_only _ _)
      · exact Only.refl recPart_part s
    · exact Only.refl recPart_part s
  · exact Only.refl recPart_part s
end

/-! ### Reads of the terminals -/

/-- FD, the channels, the fault table and the events. -/
abbrev gstopPart (s t : State) : State := { s with
  fd := t.fd, chans := t.chans, fl := t.fl, evRings := t.evRings, evqA := t.evqA, evqB := t.evqB, hi := t.hi }

theorem gstopPart_part : Part gstopPart := ⟨fun _ => rfl, fun _ _ _ => rfl⟩

section
variable (s : State) (pin : GstopPin) (mv : Nat) (stood : Bool)

/-- FD with a terminal read, and whether its inputs have agreed. -/
def Fd.gstopRead (f : Fd) (pin : GstopPin) (mv : Nat) (stood : Bool) : Fd :=
  let f := f.readGstop pin mv stood
  { f with gsAgreed := f.gsAgreed || f.gsA == f.gsB }

/-- A forced stop starts where an input is open. -/
def State.gstopStart (s : State) : State :=
  if s.fd.gstopEn && !s.fd.gsStop && (!s.fd.gsA || !s.fd.gsB) then
    (s.updFd fun f => { f with gsStop := true, gsStopCnt := satInc f.gsStopCnt 65535 }).holdChans s.safetyChans
  else s

/-- Both inputs found open after a discrepancy: its record is GONE. -/
def State.gstopAgree (s : State) : State :=
  if s.fd.gsDisc && !s.fd.gsA && !s.fd.gsB && !s.fd.gsBothOpen then
    (s.updFd fun f => { f with gsBothOpen := true }).recGone 0x3012#16 allGroups
  else s

theorem State.readGstop_eq : s.readGstop pin mv stood = ((s.updFd fun f => f.gstopRead pin mv stood).gstopStart).gstopAgree := rfl

theorem State.gstopStart_only : Only gstopPart s s.gstopStart := by
  unfold State.gstopStart
  split <;> rfl

theorem State.gstopAgree_only : Only gstopPart s s.gstopAgree := by
  unfold State.gstopAgree
  split
  · exact Only.trans gstopPart_part (t := s.updFd _) rfl ((State.recGone_only (s := s.updFd _) _ _).mono fun _ _ => rfl)
  · rfl

/-- What the record of a discrepancy leaves of FD. -/
theorem State.gstopAgree_rest : s.gstopAgree.chans = s.chans ∧ ∃ b, s.gstopAgree.fd = { s.fd with gsBothOpen := b } := by
  unfold State.gstopAgree
  split
  · rw [← State.recGone_only (s := s.updFd _)]
    exact ⟨rfl, true, rfl⟩
  · exact ⟨rfl, s.fd.gsBothOpen, rfl⟩

theorem State.gstopStart_on (h : s.fd.gstopEn = true) (hstop : s.fd.gsStop = false) (hopen : s.fd.gsA = false ∨ s.fd.gsB = false) :
    s.gstopStart = (s.updFd fun f => { f with gsStop := true, gsStopCnt := satInc f.gsStopCnt 65535 }).holdChans s.safetyChans := by
  refine if_pos ?_
  obtain ho | ho := hopen <;> simp [h, hstop, ho]

theorem State.gstopStart_off (h : s.fd.gstopEn = false ∨ s.fd.gsStop = true) : s.gstopStart = s := by
  refine if_neg ?_
  obtain h | h := h <;> simp [h]
end

theorem Fd.readGstop_low {f : Fd} {mv : Nat} (h : mv ≤ 5000) :
    f.readGstop .a mv true = { f with gsARaw := false, gsA := false } ∧ f.readGstop .b mv true = { f with gsBRaw := false, gsB := false } := by
  have ha := thresholds_true 64
  have hb := thresholds_true 65
  have hona : ¬ (thresholds 64 true).1 ≤ mv := by omega
  have honb : ¬ (thresholds 65 true).1 ≤ mv := by omega
  have hoffa : mv ≤ (thresholds 64 true).2 := by omega
  have hoffb : mv ≤ (thresholds 65 true).2 := by omega
  exact ⟨by simp [Fd.readGstop, hyst, hona, hoffa], by simp [Fd.readGstop, hyst, honb, hoffb]⟩

theorem Fd.readGstop_high {f : Fd} {mv : Nat} (h : 11000 ≤ mv) (stood : Bool) :
    f.readGstop .a mv stood = { f with gsARaw := true, gsA := stood || f.gsA } ∧
    f.readGstop .b mv stood = { f with gsBRaw := true, gsB := stood || f.gsB } := by
  have ha := thresholds_true 64
  have hb := thresholds_true 65
  have hona : (thresholds 64 true).1 ≤ mv := by omega
  have honb : (thresholds 65 true).1 ≤ mv := by omega
  cases stood <;> exact ⟨by simp [Fd.readGstop, hyst, hona], by simp [Fd.readGstop, hyst, honb]⟩

/-- An input is open in `g`, and the other as in `f`. -/
def Fd.opens (f : Fd) (pin : GstopPin) (g : Fd) : Prop :=
  match pin with
  | .a => g.gsA = false ∧ g.gsARaw = false ∧ g.gsB = f.gsB
  | .b => g.gsB = false ∧ g.gsBRaw = false ∧ g.gsA = f.gsA

theorem Fd.gstopRead_open (f : Fd) (pin : GstopPin) {mv : Nat} (h : mv ≤ 5000) : f.opens pin (f.gstopRead pin mv true) := by
  obtain ⟨hlowA, hlowB⟩ := Fd.readGstop_low (f := f) h
  cases pin with
  | a =>
    rw [Fd.gstopRead, hlowA]
    exact ⟨rfl, rfl, rfl⟩
  | b =>
    rw [Fd.gstopRead, hlowB]
    exact ⟨rfl, rfl, rfl⟩

theorem Fd.opens_congr {pin : GstopPin} {f g g' : Fd} (ha : g'.gsA = g.gsA) (har : g'.gsARaw = g.gsARaw) (hb : g'.gsB = g.gsB)
    (hbr : g'.gsBRaw = g.gsBRaw) (h : f.opens pin g) : f.opens pin g' := by
  cases pin with
  | a => exact ⟨ha.trans h.1, har.trans h.2.1, hb.trans h.2.2⟩
  | b => exact ⟨hb.trans h.1, hbr.trans h.2.1, ha.trans h.2.2⟩

section
variable {s : State}

/-- An open input, read where the device is out of reset. -/
theorem exec_gstopOpen (hreset : s.pm.inReset = false) {pin : GstopPin} {mv : Nat} (h : mv ≤ 5000) :
    ∃ t, exec (.gstopOpen ⟨pin, mv, true⟩) s = .next t ∧
      s.fd.opens pin t.fd ∧ (s.fd.gstopEn = true → t.fd.gsStop = true ∧ (∀ n, (t.chan (t.setHead n)).mode = 2#2 → t.conducts n = false)) ∧
      (s.fd.gstopEn = true → s.fd.gsStop = false → t.fd.gsStopCnt = satInc s.fd.gsStopCnt 65535 ∧
        ∀ n : Fin 64, (s.chan n).mode = 2#2 → (t.chan n).ret = true ∧ (t.chan n).pulse = none) ∧
      (s.fd.gstopEn = false ∨ s.fd.gsStop = true → t.fd.gsStop = s.fd.gsStop ∧ t.chans = s.chans) ∧
      Only gstopPart s t := by
  obtain ⟨u, hu⟩ : ∃ u, u = s.updFd fun f => f.gstopRead pin mv true := ⟨_, rfl⟩
  have hpin : s.fd.opens pin u.fd := by
    rw [hu]
    exact s.fd.gstopRead_open pin h
  have hopen : u.fd.gsA = false ∨ u.fd.gsB = false := by
    cases pin with
    | a => exact .inl hpin.1
    | b => exact .inr hpin.1
  have hkept : u.fd.gstopEn = s.fd.gstopEn ∧ u.fd.gsStop = s.fd.gsStop ∧ u.fd.gsStopCnt = s.fd.gsStopCnt := by
    rw [hu]
    cases pin <;> exact ⟨rfl, rfl, rfl⟩
  obtain ⟨hen, hstop, hcnt⟩ := hkept
  obtain ⟨w, hw⟩ : ∃ w, w = u.gstopStart := ⟨_, rfl⟩
  obtain ⟨hchans, b, hfd⟩ := w.gstopAgree_rest
  have hexec : exec (.gstopOpen ⟨pin, mv, true⟩) s = .next w.gstopAgree := by
    rw [hw, hu]
    exact congrArg Host.Outcome.next (if_neg (by simp [hreset]))
  have honly : Only gstopPart s w.gstopAgree := by
    refine Only.trans gstopPart_part (t := u) ?_ (Only.trans gstopPart_part (hw ▸ u.gstopStart_only) w.gstopAgree_only)
    rw [hu]
    rfl
  refine ⟨w.gstopAgree, hexec, ?_, fun hon => ?_, fun hon hno => ?_, fun hoff => ?_, honly⟩
  · refine Fd.opens_congr ?_ ?_ ?_ ?_ hpin
    all_goals
      rw [hfd, hw]
      unfold State.gstopStart
      split <;> rfl
  · have hstopped : w.gstopAgree.fd.gsStop = true := by
      rw [hfd, hw]
      cases hs : u.fd.gsStop with
      | true => rw [State.gstopStart_off _ (.inr hs)]; exact hs
      | false => rw [State.gstopStart_on _ (hen.trans hon) hs hopen]; rfl
    exact ⟨hstopped, fun n hmode => State.conducts_of_stop hstopped hmode⟩
  · have hstart := u.gstopStart_on (hen.trans hon) (hstop.trans hno) hopen
    rw [hstart] at hw
    refine ⟨by rw [hfd, hw, ← hcnt]; rfl, fun n hmode => ?_⟩
    have hchan : w.gstopAgree.chan n = { s.chan n with ret := true, pulse := none } := by
      rw [State.chan, hchans, hw, hu]
      exact State.holdChans_safety hmode
    rw [hchan]
    exact ⟨rfl, rfl⟩
  · have hstart := u.gstopStart_off (hoff.imp hen.trans hstop.trans)
    rw [hstart] at hw
    rw [hfd, hchans, hw]
    exact ⟨hstop, by rw [hu]; rfl⟩

/-- A closed input, read while nothing can start a forced stop. -/
theorem exec_gstopClosed (hreset : s.pm.inReset = false) (hoff : s.fd.gstopEn = false ∨ s.fd.gsStop = true) {pin : GstopPin} {mv : Nat}
    {stood : Bool} {f : Fd} (hread : s.fd.readGstop pin mv stood = f) (hkept : f.gstopEn = s.fd.gstopEn ∧ f.gsStop = s.fd.gsStop)
    (hagree : f.gsDisc = false ∨ f.gsA = true ∨ f.gsB = true) :
    exec (.gstopClosed ⟨pin, mv, stood⟩) s = .next { s with fd := { f with gsAgreed := f.gsAgreed || f.gsA == f.gsB } } := by
  obtain ⟨u, hu⟩ : ∃ u, u = s.updFd fun f => f.gstopRead pin mv stood := ⟨_, rfl⟩
  have hfd : u = { s with fd := { f with gsAgreed := f.gsAgreed || f.gsA == f.gsB } } := by
    rw [hu, ← hread]
    rfl
  have hstart : u.gstopStart = u := by
    refine u.gstopStart_off ?_
    rw [hfd]
    exact hoff.imp hkept.1.trans hkept.2.trans
  have hend : u.gstopAgree = u := by
    refine if_neg ?_
    rw [hfd]
    obtain h | h | h := hagree <;> simp [h]
  have hexec : exec (.gstopClosed ⟨pin, mv, stood⟩) s = .next u.gstopStart.gstopAgree := by
    rw [hu]
    exact congrArg Host.Outcome.next (if_neg (by simp [hreset]))
  rw [hexec, hstart, hend, hfd]

/-- A safety output waits to return, and is not checked meanwhile. -/
theorem State.gstopWait_safety {n : Fin 64} (h : (s.chan n).mode = 2#2) :
    ((s.gstopWait s.safetyChans).chan n).ret = true ∧ ((s.gstopWait s.safetyChans).chan n).retG = true := by
  have hmem := State.mem_safetyChans.2 ⟨n.isLt, h⟩
  have hchan : (s.gstopWait s.safetyChans).chan n = { (s.holdChans s.safetyChans).chan n with retG := true } :=
    ((s.holdChans s.safetyChans).updChans_chan _ _ n State.safetyChans_nodup).trans (if_pos hmem)
  rw [hchan, State.holdChans_safety h]
  exact ⟨rfl, rfl⟩
end

theorem State.mem_unit_self (s : State) (n : Nat) : n ∈ s.unit n := by
  unfold State.unit State.setOf State.setHead
  by_cases hpar : (s.chan n).par ≠ 0#2
  · rw [if_pos hpar]
    split
    · simp
    · split <;> simp
  · rw [if_neg hpar]
    by_cases h2 : (s.chan (n / 2 * 2)).par = 1#2
    · rw [if_pos h2, if_pos h2]
      simp
      omega
    · rw [if_neg h2]
      by_cases h4 : (s.chan (n / 4 * 4)).par = 2#2
      · rw [if_pos h4, if_neg (by simp [h4]), if_pos h4]
        simp
        omega
      · rw [if_neg h4]
        split
        · simp
        · split <;> simp

/-- A channel of which a member waits to return from a forced stop is not checked. -/
theorem State.checked_of_retG {s : State} {n : Nat} (h : (s.chan n).retG = true) : s.checked n = false := by
  have hany : (s.unit n).any (fun m => (s.chan m).retG) = true := List.any_eq_true.2 ⟨n, s.mem_unit_self n, h⟩
  simp [State.checked, hany]

section
variable (s : State)

/-- FD and the channels. -/
abbrev fdChansPart (s t : State) : State := { s with fd := t.fd, chans := t.chans }

theorem fdChansPart_part : Part fdChansPart := ⟨fun _ => rfl, fun _ _ _ => rfl⟩

theorem exec_gstopRelease (h : (!s.pm.inReset && s.fd.gsStop && s.fd.gsA && s.fd.gsB && !s.fd.gsDisc && s.fd.gstopEn) = true) :
    ∃ t, exec .gstopRelease s = .next t ∧ t.fd = { s.fd with gsStop := false } ∧
      (∀ n : Fin 64, (s.chan n).mode = 2#2 → (t.chan n).ret = true ∧ t.checked n = false) ∧ Only fdChansPart s t := by
  refine ⟨(s.updFd fun f => { f with gsStop := false }).gstopWait s.safetyChans, if_pos h, rfl, fun n hmode => ?_, rfl⟩
  obtain ⟨hret, hretG⟩ := State.gstopWait_safety (s := s.updFd fun f => { f with gsStop := false }) (n := n) hmode
  exact ⟨hret, State.checked_of_retG hretG⟩

/-- A discrepancy is recorded. -/
theorem State.raise_recorded {code : BitVec 16} {loc : BitVec 12} {la lb : Bool} {detail pass : Nat}
    (h : (∃ k r, s.findRec code loc = some k ∧ s.frec k = some r ∧ r.code = code ∧ r.loc = loc) ∨
      (s.findRec code loc = none ∧ s.emptyRec.isSome)) :
    ∃ k r, (s.raise code loc la lb detail pass []).frec k = some r ∧ r.code = code ∧ r.loc = loc ∧ r.st = .latched := by
  have hshown {k : Nat} {x : BitVec 16 × BitVec 12 × Bool × Bool × RecSt × Nat × BitVec 16}
      (h : ((s.record code loc la lb detail pass []).frec k).map FaultRec.shown = some x)
      (hx : x.1 = code ∧ x.2.1 = loc ∧ x.2.2.2.2.1 = .latched) :
      ∃ k r, (s.record code loc la lb detail pass []).frec k = some r ∧ r.code = code ∧ r.loc = loc ∧ r.st = .latched := by
    obtain ⟨r, hr, rfl⟩ := Option.map_eq_some_iff.1 h
    exact ⟨k, r, hr, hx.1, hx.2.1, hx.2.2⟩
  obtain ⟨k, r, hk, hr, hcode, hloc⟩ | ⟨hnone, hempty⟩ := h
  · exact hshown (State.record_found hk hr) ⟨hcode, hloc, rfl⟩
  · obtain ⟨k, hk⟩ := Option.isSome_iff_exists.1 hempty
    exact hshown (State.record_new hnone hk) ⟨rfl, rfl, rfl⟩

/-- A discrepancy starts a forced stop and is recorded. -/
theorem exec_gstopDisc (hen : s.fd.gstopEn = true) (hne : s.fd.gsA ≠ s.fd.gsB) (hnew : s.fd.gsDisc = false ∨ s.fd.gsAgreed = true) :
    exec .gstopDisc s = .next ((({ s with fd := { s.fd with
      gsDisc := true, gsStop := true, gsBothOpen := false, gsAgreed := false } } : State).holdChans s.safetyChans).raise
        0x3012#16 allGroups true true 0 0 []) := by
  refine if_pos ?_
  obtain h | h := hnew <;> simp [hen, hne, h]

/-- FD after GSTOP has been disabled: no forced stop is in effect. -/
theorem State.gstopCfg_disabled (v : Word) : (s.gstopCfg (setBit v 31 false)).fd =
      { s.fd with gstopEn := false, tGdisc := BitVec.ofNat 10 (bits v 9 0), gsStop := false } ∧
    Only fdChansPart s (s.gstopCfg (setBit v 31 false)) := by
  have hen : bit (setBit v 31 false) 31 = false := bit_setBit_31 ..
  have hbits : bits (setBit v 31 false) 9 0 = bits v 9 0 := bits_setBit_31 v false (by decide)
  unfold State.gstopCfg
  rw [hen, hbits]
  simp only [Bool.not_false, if_true, Bool.false_and, Bool.false_eq_true, if_false]
  split <;> exact ⟨rfl, rfl⟩
end

/-- Settles O45. -/
theorem gstopForcesAStop : Obligations.GstopForcesAStop := by
  intro s
  refine ⟨fun hreset pin mv stood => ⟨congrArg Host.Outcome.next (if_pos hreset), congrArg Host.Outcome.next (if_pos hreset)⟩,
    fun hreset pin mv hmv => ?_, fun hreset hoff mv hmv => ⟨?_, ?_, fun hdisc => ⟨?_, ?_⟩⟩, ?_, fun hoff => ?_, fun hen hne hnew => ?_, fun v => ?_⟩
  · obtain ⟨t, hexec, hpin, hstop, hcnt, hkeep, honly⟩ := exec_gstopOpen hreset (pin := pin) hmv
    refine ⟨t, hexec, ?_, hstop, hcnt, hkeep, Only.back gstopPart_part honly⟩
    cases pin <;> exact hpin
  · rw [exec_gstopClosed hreset hoff (Fd.readGstop_high (f := s.fd) hmv true).1 ⟨rfl, rfl⟩ (.inr (.inl rfl))]
    simp
  · rw [exec_gstopClosed hreset hoff (Fd.readGstop_high (f := s.fd) hmv true).2 ⟨rfl, rfl⟩ (.inr (.inr rfl))]
    simp
  · rw [exec_gstopClosed hreset hoff (Fd.readGstop_high (f := s.fd) hmv false).1 ⟨rfl, rfl⟩ (.inl hdisc)]
    simp
  · rw [exec_gstopClosed hreset hoff (Fd.readGstop_high (f := s.fd) hmv false).2 ⟨rfl, rfl⟩ (.inl hdisc)]
    simp
  · intro may
    have hmay : (!s.pm.inReset && s.fd.gsStop && s.fd.gsA && s.fd.gsB && !s.fd.gsDisc && s.fd.gstopEn) = true ↔ may := by
      simp [may, and_assoc]
    refine ⟨fun h => if_neg fun h' => h (hmay.1 h'), fun h => ?_⟩
    obtain ⟨t, hexec, hfd, hchans, honly⟩ := exec_gstopRelease s (hmay.2 h)
    exact ⟨t, hexec, hfd, hchans, Only.back fdChansPart_part honly⟩
  · refine if_neg ?_
    obtain h | h | ⟨h, h'⟩ := hoff
    · simp [h]
    · simp [h]
    · simp [h, h']
  · refine ⟨_, exec_gstopDisc s hen hne hnew, ?_⟩
    obtain ⟨u, hu⟩ : ∃ u, u = ({ s with fd := { s.fd with
      gsDisc := true, gsStop := true, gsBothOpen := false, gsAgreed := false } } : State).holdChans s.safetyChans := ⟨_, rfl⟩
    rw [← hu]
    have hfl : u.fl = s.fl := by rw [hu]; rfl
    have hrec : u.findRec = s.findRec ∧ u.frec = s.frec ∧ u.emptyRec = s.emptyRec := by
      rw [hu]
      exact ⟨rfl, rfl, rfl⟩
    have honly := u.record_only 0x3012#16 allGroups true true 0 0 []
    have hraise : u.raise 0x3012#16 allGroups true true 0 0 [] = u.record 0x3012#16 allGroups true true 0 0 [] := rfl
    have hfd : (u.raise 0x3012#16 allGroups true true 0 0 []).fd = u.fd := by rw [hraise, ← honly]
    refine ⟨by rw [hfd, hu]; rfl, fun h => ?_, fun n hmode => State.conducts_of_stop (by rw [hfd, hu]; rfl) hmode, ?_, ?_⟩
    · rw [← hrec.1, ← hrec.2.1, ← hrec.2.2] at h
      exact State.raise_recorded u h
    · rw [hraise, ← honly, hu]
      rfl
    · rw [hraise, ← honly, hu]
      rfl
  · intro u
    have hbad : gstopCfgBad v = true ↔ bits v 9 0 < 10 ∨ 1000 < bits v 9 0 := by simp [gstopCfgBad]
    refine ⟨fun hup => if_pos hup, fun hdown h => (if_neg (by simp [hdown])).trans (if_pos (hbad.2 h)), fun hdown hlo hhi =>
      ⟨u.gstopCfg (setBit v 31 false), (if_neg (by simp [hdown])).trans (if_neg fun h => ?_), (u.gstopCfg_disabled v).1,
        Only.back fdChansPart_part (u.gstopCfg_disabled v).2⟩⟩
    obtain h | h := hbad.1 h <;> omega

end Sys2Proof.Machine
end


section
/-!
# Proofs: test pulses, reports of channel faults, group supplies and non-safety outputs (R218, R226 to R240, R245 to R249)
-/
namespace Sys2Proof.Machine
open Sys2Proof

/-! ### Test pulses -/

/-- An A pulse is on the output of channel 0, whose registers are otherwise as after reset. An entry that it hides follows it in the
table. -/
def hiddenChan : State := { State.reset with chans := [(0, { pulse := some .a }), (0, { mode := 2#2 })] }

/-- As the pulse ends the channel is for a moment as after reset: its entry and the hidden one leave the table. -/
theorem testPulseEnd_hiddenChan : ∃ t, exec (.testPulseEnd 0 ⟨0#4, 0#4⟩ false) hiddenChan = .next t ∧ t.chans.length = 1 := ⟨_, rfl, by decide +kernel⟩

theorem updChan_hiddenChan : (hiddenChan.updChan 0 fun c => { c with pulse := none, aPassed := some c.pulsePer }).chans.length = 2 := by decide +kernel

theorem hiddenChan_head : hiddenChan.setHead 0 = 0 ∧ (hiddenChan.chan 0).pulse = some .a := by decide +kernel

/-- Refutes O46: it is stated for every table of channels, and in one with a hidden entry the two updates at the end of a pulse differ from
the one of the statement. -/
theorem not_outputTestsAndFaults : ¬ Obligations.OutputTestsAndFaults := by
  intro h
  obtain ⟨hhead, hpulse⟩ := hiddenChan_head
  have hpulses := h.1 hiddenChan 0
  obtain ⟨-, -, hend⟩ := hpulses
  rw [show ((0 : Fin 64) : Nat) = 0 from rfl, hhead] at hend
  obtain ⟨t, hexec, -, -, -, hclean⟩ := hend .a hpulse 0#4 0#4
  obtain ⟨u, hexec', hlen⟩ := testPulseEnd_hiddenChan
  obtain rfl : u = t := Host.Outcome.next.inj (hexec'.symm.trans hexec)
  rw [hclean rfl rfl] at hlen
  exact absurd (updChan_hiddenChan.symm.trans hlen) (by decide)

/-! ### The zones that own an output -/

/-- An entry that a table shows is replaced in its place. -/
theorem map_tabSet_of_shown {α β : Type} [DecidableEq α] {d v : α} {g : Nat × α → β} {t : Tab α} {k : Nat} (hshown : tabGet d t k ≠ d) (hv : v ≠ d)
    (hg : g (k, v) = g (k, tabGet d t k)) : (tabSet d t k v).map g = t.map g := by
  induction t with
  | nil => exact absurd rfl hshown
  | cons e t ih =>
    obtain ⟨i, w⟩ := e
    rw [tabGet] at hshown hg
    rw [tabSet]
    by_cases hlt : i < k
    · rw [if_pos hlt] at hshown hg ⊢
      rw [List.map_cons, List.map_cons, ih hshown hg]
    · rw [if_neg hlt] at hshown hg ⊢
      by_cases heq : i = k
      · rw [if_pos heq] at hshown hg ⊢
        rw [if_neg hv, List.map_cons, List.map_cons, hg, heq]
      · rw [if_neg heq] at hshown
        exact absurd rfl hshown

/-- What the owner of an output depends on: the sections of the ACTIVE versions. -/
def ownerKey (e : Nat × Zone) : Nat × Option ZoneSection := (e.1, e.2.active.map ZoneVer.sec)

theorem State.ownerOfChan_congr {s t : State} (h : t.zones.map ownerKey = s.zones.map ownerKey) (n : Nat) : t.ownerOfChan n = s.ownerOfChan n := by
  have howner (u : State) : u.ownerOfChan n =
      ((u.zones.map ownerKey).filterMap fun e => e.2.bind fun sec => if (safeouts sec.blocks).contains (.chan n) then some e.1 else none).head? := by
    rw [List.filterMap_map]
    refine congrArg List.head? (List.filterMap_congr fun e _ => ?_)
    obtain ⟨i, y⟩ := e
    dsimp only [ownerKey, Function.comp]
    cases hact : y.active with
    | none => rfl
    | some v => rfl
  rw [howner, howner, h]

section
variable {s : State}

theorem State.updZone_ownerKey {z : Nat} {f : Zone → Zone} (hshown : s.zone z ≠ Zone.init) (hf : f (s.zone z) ≠ Zone.init)
    (hact : (f (s.zone z)).active.map ZoneVer.sec = (s.zone z).active.map ZoneVer.sec) :
    (s.updZone z f).zones.map ownerKey = s.zones.map ownerKey :=
  map_tabSet_of_shown hshown hf (Prod.ext rfl hact)

theorem Zone.ne_init_of_up {y : Zone} (h : y.st ≠ .withdrawn) : y ≠ Zone.init := by
  rintro rfl
  exact h rfl

theorem State.faultZone_ownerKey {z : Nat} (h : (s.zone z).st ≠ .withdrawn) : (s.faultZone z).zones.map ownerKey = s.zones.map ownerKey := by
  have hdrop : (s.dropZone z).zones = s.zones := (congrArg State.zones (s.dropZone_only z)).symm
  have hzone : (s.dropZone z).zone z = s.zone z := s.dropZone_zone z z
  rw [State.faultZone_eq]
  obtain ⟨u, hu⟩ : ∃ u, u = (s.dropZone z).updZone z fun y => { y with
    active := y.active.map fun v => v.setRt (v.rt.map fun r => { r with c := false })
    faultPair := y.pairOf, restartReq := false, demand := false } := ⟨_, rfl⟩
  have hself : (u.zone z).st = (s.zone z).st := by rw [hu, State.updZone_zone_self, hzone]
  have hsame : u.zones.map ownerKey = s.zones.map ownerKey := by
    rw [hu, State.updZone_ownerKey (Zone.ne_init_of_up (by rw [hzone]; exact h)) (Zone.ne_init_of_up (by rw [hzone]; exact h)), hdrop]
    rw [Option.map_map]
    rfl
  rw [← hu]
  unfold State.setZoneSt
  dsimp only
  split
  · exact hsame
  · rw [State.postEvent_zones, State.updZone_ownerKey (Zone.ne_init_of_up (hself ▸ h)) (Zone.ne_init_of_up (by simp)) rfl, hsame]

theorem State.foldl_faultZone_ownerKey (zs : List Nat) (s : State) (h : ∀ z ∈ zs, (s.zone z).st ≠ .withdrawn) :
    (zs.foldl State.faultZone s).zones.map ownerKey = s.zones.map ownerKey := by
  induction zs generalizing s with
  | nil => rfl
  | cons z zs ih =>
    rw [List.foldl_cons, ih, State.faultZone_ownerKey (h z List.mem_cons_self)]
    intro x hx
    have hst := State.foldl_faultZone_st [z] s x
    rw [List.foldl_cons, List.foldl_nil] at hst
    rw [hst]
    split
    · exact fun h => nomatch h
    · exact h x (List.mem_cons_of_mem _ hx)

/-- A fault moves no output to another owner. -/
theorem State.raise_ownerKey (code : BitVec 16) (loc : BitVec 12) (la lb : Bool) (detail pass : Nat) (scope : List Nat) :
    (s.raise code loc la lb detail pass scope).zones.map ownerKey = s.zones.map ownerKey := by
  have hzones : (s.raise code loc la lb detail pass scope).zones = ((s.toFault scope).foldl State.faultZone s).zones :=
    (congrArg State.zones (State.record_only _ _ _ _ _ _ _ _)).symm
  rw [hzones]
  refine State.foldl_faultZone_ownerKey _ s fun z hz => ?_
  simp only [State.toFault, List.mem_filter, Bool.and_eq_true, decide_eq_true_eq] at hz
  exact hz.2.2

theorem State.zonesOfChan_congr {t : State} (hunit : t.unit = s.unit) (h : t.zones.map ownerKey = s.zones.map ownerKey) (n : Nat) :
    t.zonesOfChan n = s.zonesOfChan n := by
  unfold State.zonesOfChan
  rw [hunit]
  exact List.filterMap_congr fun m _ => State.ownerOfChan_congr h m
end

/-! ### Reports of channel faults -/

section
variable (s : State) (code : BitVec 16) (loc : BitVec 12) (la lb : Bool) (detail pass : Nat) (scope : List Nat)

/-- What a fault leaves. -/
theorem State.raise_rest : (s.raise code loc la lb detail pass scope).fd = s.fd ∧ (s.raise code loc la lb detail pass scope).chans = s.chans ∧
    (s.raise code loc la lb detail pass scope).pairs = s.pairs ∧ (s.raise code loc la lb detail pass scope).grps = s.grps := by
  rw [← s.raise_only code loc la lb detail pass scope]
  exact ⟨rfl, rfl, rfl, rfl⟩

theorem State.raise_zones_nil : (s.raise code loc la lb detail pass []).zones = s.zones :=
  (congrArg State.zones (s.record_only code loc la lb detail pass [])).symm

/-- The record of a fault that is found is LATCHED anew. -/
theorem State.raise_found {k : Nat} {r : FaultRec} (hfind : s.findRec code loc = some k) (hrec : s.frec k = some r) (hcode : r.code = code)
    (hloc : r.loc = loc) :
    ∃ x, (s.raise code loc la lb detail pass scope).frec k = some x ∧ x.code = code ∧ x.loc = loc ∧ x.st = .latched := by
  obtain ⟨-, hfound, -⟩ := faultsAreRecordedAndStopZones.1 s code loc la lb detail pass scope
  obtain ⟨x, hx, hshow⟩ := Option.map_eq_some_iff.1 (hfound k r hfind hrec)
  simp only [Prod.mk.injEq] at hshow
  obtain ⟨hc, hl, -, -, hst, -⟩ := hshow
  exact ⟨x, hx, hc.trans hcode, hl.trans hloc, hst⟩

/-- A new fault takes the lowest empty record. -/
theorem State.raise_new {k : Nat} (hfind : s.findRec code loc = none) (hempty : s.emptyRec = some k) :
    ∃ x, (s.raise code loc la lb detail pass scope).frec k = some x ∧ x.code = code ∧ x.loc = loc ∧ x.st = .latched := by
  obtain ⟨-, -, hnew, -⟩ := faultsAreRecordedAndStopZones.1 s code loc la lb detail pass scope
  obtain ⟨x, hx, hshow⟩ := Option.map_eq_some_iff.1 (hnew k hfind hempty)
  simp only [Prod.mk.injEq] at hshow
  obtain ⟨hc, hl, -, -, hst, -⟩ := hshow
  exact ⟨x, hx, hc, hl, hst⟩
end

theorem dropReport_length {n : Nat} {code : BitVec 16} {rs : List (Nat × BitVec 16)} (h : (n, code) ∈ rs) :
    (dropReport n code rs).length + 1 = rs.length := by
  induction rs with
  | nil => cases h
  | cons r rs ih =>
    rw [dropReport]
    by_cases hr : r.1 = n ∧ r.2 = code
    · rw [if_pos (by simp [hr])]
      rfl
    · rw [if_neg (by simpa using hr), List.length_cons, List.length_cons, ih]
      obtain h | h := List.mem_cons.1 h
      · exact absurd ⟨congrArg Prod.fst h.symm, congrArg Prod.snd h.symm⟩ hr
      · exact h

theorem faultsZone_iff {code : BitVec 16} : faultsZone code = true ↔ code ≠ 0x3008#16 ∧ code ≠ 0x3009#16 := by simp [faultsZone]

/-- A report of FD taken by the lanes. -/
def State.reportTaken (s : State) (n : Nat) (code : BitVec 16) : State := s.updFd fun f => { f with reports := dropReport n code f.reports }

theorem exec_channelFaultReport {s : State} {n : Fin 64} {code : BitVec 16} (h : (n.val, code) ∈ s.fd.reports) :
    exec (.channelFaultReport n code) s =
      .next ((s.reportTaken n code).laneReport n code (if code = 0x3004#16 then (s.chan n).partner else 0)) :=
  if_pos (by simpa using h)

/-! ### Cross-shorts -/

section
variable {s : State} {x y : Fin 64}

/-- The channels of a cross-short, each with the other as its partner. -/
def State.crossed (s : State) (x y : Fin 64) : State :=
  let s := s.updChans (s.unit x) fun _ c => { c with fltExt := false, fltCross := true, partner := y }
  (s.updChans (s.unit y) fun _ c => { c with fltCross := true, partner := x }).holdChans (s.unit y)

theorem State.unit_congr {t : State} (h : ∀ j, (t.chan j).par = (s.chan j).par) : t.unit = s.unit := by
  funext n
  have hhead : t.setHead n = s.setHead n := by simp only [State.setHead, h]
  simp only [State.unit, State.setOf, hhead, h]

theorem exec_crossShort (hext : (s.chan x).fltExt = true) (hmode : (s.chan y).mode = 2#2) (hother : y.val ∉ s.unit x) :
    exec (.crossShort x y) s =
      .next ((((s.crossed x y).reportTaken x 0x3003#16).reclassify x y).laneReport y 0x3004#16 x) :=
  if_pos (by simp [hext, hmode, hother])

theorem State.crossed_unit_first (j : Nat) :
    ((s.updChans (s.unit x) fun _ c => { c with fltExt := false, fltCross := true, partner := y }).chan j) =
      if j ∈ s.unit x then { s.chan j with fltExt := false, fltCross := true, partner := y } else s.chan j :=
  s.updChans_chan _ _ j (s.unit_nodup x)

theorem State.crossed_chan (j : Nat) :
    let c := s.chan j
    let d : Chan := if j ∈ s.unit x then { c with fltExt := false, fltCross := true, partner := y } else c
    (s.crossed x y).chan j = if j ∈ s.unit y then { d with fltCross := true, partner := x, ret := d.ret || d.isOutput, pulse := none } else d := by
  have hunit : (s.updChans (s.unit x) fun _ c => { c with fltExt := false, fltCross := true, partner := y }).unit = s.unit := by
    refine State.unit_congr fun j => ?_
    rw [State.crossed_unit_first]
    split <;> rfl
  have hnodup := s.unit_nodup y
  dsimp only
  unfold State.crossed
  dsimp only
  rw [hunit, State.holdChans_chan _ hnodup, State.updChans_chan _ _ _ _ hnodup, State.crossed_unit_first]
  by_cases h : j ∈ s.unit y
  · simp only [h, if_true]
    rfl
  · simp only [h, if_false]

theorem State.crossed_unit : (s.crossed x y).unit = s.unit := by
  refine State.unit_congr fun j => ?_
  rw [State.crossed_chan]
  split <;> split <;> rfl

/-- What a cross-short leaves. -/
theorem State.crossed_rest (n : Nat) (code : BitVec 16) :
    ((s.crossed x y).reportTaken n code).chans = (s.crossed x y).chans ∧ ((s.crossed x y).reportTaken n code).pairs = s.pairs ∧
      ((s.crossed x y).reportTaken n code).zones = s.zones := by
  have honly : Only chansPart s (s.crossed x y) := by
    unfold State.crossed
    exact Only.trans chansPart_part (t := s.updChans (s.unit x) _) rfl (Only.trans chansPart_part (t := State.updChans _ _ _) rfl rfl)
  generalize s.crossed x y = u at honly ⊢
  rw [← honly]
  exact ⟨rfl, rfl, rfl⟩

theorem State.reclassify_rest (n m : Nat) : (s.reclassify n m).chans = s.chans ∧ (s.reclassify n m).pairs = s.pairs ∧
    (s.reclassify n m).zones.map ownerKey = s.zones.map ownerKey := by
  unfold State.reclassify
  dsimp only
  split
  · split
    · rw [← State.reportRec_only]
      exact ⟨rfl, rfl, rfl⟩
    · exact ⟨rfl, rfl, rfl⟩
  · obtain ⟨-, hchans, hpairs, -⟩ := s.raise_rest 0x3004#16 (BitVec.ofNat 12 n) true true m 0
      (if faultsZone 0x3004#16 then s.zonesOfChan n else [])
    exact ⟨hchans, hpairs, s.raise_ownerKey _ _ _ _ _ _ _⟩
end

/-- Settles O47. -/
theorem channelFaultReports : Obligations.ChannelFaultReports := by
  intro s
  refine ⟨fun n code => ⟨fun hno => if_neg (by simpa using hno), fun hdue => ⟨_, exec_channelFaultReport hdue, ?_⟩⟩, fun x y => ⟨fun hno => ?_, ?_⟩⟩
  · obtain ⟨u, hu⟩ : ∃ u, u = s.reportTaken n code := ⟨_, rfl⟩
    rw [← hu]
    obtain ⟨hfd, hchans, hpairs, -⟩ := u.raise_rest code (BitVec.ofNat 12 n) true true (if code = 0x3004#16 then (s.chan n).partner else 0) 0
      (if faultsZone code then u.zonesOfChan n else [])
    have hzones : u.zonesOfChan = s.zonesOfChan := by rw [hu]; rfl
    have hrecs : u.findRec = s.findRec ∧ u.frec = s.frec ∧ u.emptyRec = s.emptyRec := by rw [hu]; exact ⟨rfl, rfl, rfl⟩
    obtain ⟨hfind, hfrec, hempty⟩ := hrecs
    unfold State.laneReport
    refine ⟨?_, ?_, fun h8 h9 z hz => ?_, fun hquiet => ?_, fun r y hr hy hcode hloc => ?_, fun r hr hr' => ?_, ?_, ?_⟩
    · rw [hfd, hu]
      exact dropReport_length hdue
    · rw [hfd, hu]
      rfl
    · rw [if_pos (faultsZone_iff.2 ⟨h8, h9⟩), hzones]
      exact State.raise_stopped (.inl hz)
    · have hno : ¬ faultsZone code = true := fun h => hquiet.elim (faultsZone_iff.1 h).1 (faultsZone_iff.1 h).2
      rw [if_neg (c := faultsZone code = true) hno, State.raise_zones_nil, hu]
      rfl
    · exact u.raise_found _ _ _ _ _ _ _ (hfind ▸ hr) (hfrec ▸ hy) hcode hloc
    · exact u.raise_new _ _ _ _ _ _ _ (hfind ▸ hr) (hempty ▸ hr')
    · rw [hpairs, hu]
      rfl
    · rw [hchans, hu]
      rfl
  · refine if_neg ?_
    obtain h | h | h := hno <;> simp [h]
  · intro hext hmode hother hapart
    refine ⟨_, exec_crossShort hext hmode hother, ?_⟩
    obtain ⟨u, hu⟩ : ∃ u, u = (s.crossed x y).reportTaken x 0x3003#16 := ⟨_, rfl⟩
    obtain ⟨v, hv⟩ : ∃ v, v = u.reclassify x y := ⟨_, rfl⟩
    rw [← hu, ← hv]
    obtain ⟨hvchans, hvpairs, hvzones⟩ := u.reclassify_rest x y
    rw [← hv] at hvchans hvpairs hvzones
    obtain ⟨-, hchans, hpairs, -⟩ := v.raise_rest 0x3004#16 (BitVec.ofNat 12 y) true true x 0 (v.zonesOfChan y)
    obtain ⟨huchans, hupairs, huzones⟩ := s.crossed_rest (x := x) (y := y) x 0x3003#16
    rw [← hu] at huchans hupairs huzones
    have hchan (j : Nat) : (v.laneReport y 0x3004#16 x).chan j = (s.crossed x y).chan j := by
      have hall : (v.laneReport y 0x3004#16 x).chans = (s.crossed x y).chans := hchans.trans (hvchans.trans huchans)
      rw [State.chan, hall]
      rfl
    have hunit : v.unit = s.unit := by
      refine Eq.trans ?_ (s.crossed_unit (x := x) (y := y))
      refine State.unit_congr fun j => ?_
      have hall : v.chans = (s.crossed x y).chans := hvchans.trans huchans
      rw [State.chan, hall]
      rfl
    have hzones : v.zonesOfChan y = s.zonesOfChan y := State.zonesOfChan_congr hunit (hvzones.trans (by rw [huzones])) y
    refine ⟨fun j hj => ?_, fun j hj => ?_, fun z hz => ?_, hpairs.trans (hvpairs.trans hupairs)⟩
    · rw [hchan, State.crossed_chan]
      rw [if_pos hj, if_neg fun h => hapart j h hj]
      exact ⟨rfl, rfl, rfl⟩
    · rw [hchan, State.crossed_chan]
      rw [if_pos hj]
      exact ⟨rfl, rfl⟩
    · exact State.raise_stopped (.inl (hzones ▸ hz))

end Sys2Proof.Machine
end


section
/-!
# Proofs: group supplies and non-safety outputs (R202, R203, R230, R235 to R238, R244 to R249)
-/
namespace Sys2Proof.Machine
open Sys2Proof

/-! ### Group supplies -/

theorem belowThr_iff {was : Bool} {thr : Nat} {v : BitVec 16} : belowThr was thr v = true ↔ v.toNat < thr * 10 + (if was then 50 else 0) := by
  cases was <;> simp [belowThr]

theorem Grp.inBand_iff {q : Grp} : q.inBand = true ↔ q.uvOff.toNat * 10 + 50 < q.vfs.toNat ∧ q.vfs.toNat < 4100 := by
  simp [Grp.inBand, Grp.aboveEnd]

theorem mem_grpChans {g n : Nat} : n ∈ grpChans g ↔ n / 16 = g := by
  simp only [grpChans, List.mem_map, List.mem_range]
  constructor
  · rintro ⟨i, hi, rfl⟩
    omega
  · rintro rfl
    exact ⟨n % 16, Nat.mod_lt _ (by decide), by omega⟩

theorem grpChans_nodup (g : Nat) : (grpChans g).Nodup := List.nodup_range.map fun a b h => by simpa using h

section
variable {s : State} {g : Nat}

theorem State.held_of_latched {n : Nat} (hn : n / 16 = g) (h : (s.grp g).latched = true) : s.held n = true := by
  subst hn
  simp [State.held, h]

theorem State.updGrp_congr {f h : Grp → Grp} (e : f (s.grp g) = h (s.grp g)) : s.updGrp g f = s.updGrp g h := by
  have e' : f (tabGet Grp.init s.grps g) = h (tabGet Grp.init s.grps g) := e
  simp only [State.updGrp, tabUpd, e']

/-- Groups and channels. -/
abbrev grpPart (s t : State) : State := { s with grps := t.grps, chans := t.chans }

theorem grpPart_part : Part grpPart := ⟨fun _ => rfl, fun _ _ _ => rfl⟩

/-- A group as a latch leaves it. -/
def Grp.latch (q : Grp) (f : Grp → Grp) : Grp :=
  { f q with stood := false, latchCnt := if q.latched then q.latchCnt else satInc q.latchCnt 65535 }

theorem State.grpLatch_eq (f : Grp → Grp) :
    s.grpLatch g f = (s.updGrp g fun q => q.latch f).holdChans (grpChans g) := by
  have hupd : (s.updGrp g fun q => { f q with
      stood := false, latchCnt := if (!(s.grp g).latched) = true then satInc q.latchCnt 65535 else q.latchCnt }) = s.updGrp g fun q => q.latch f := by
    refine State.updGrp_congr ?_
    unfold Grp.latch
    cases (s.grp g).latched <;> rfl
  unfold State.grpLatch
  dsimp only
  rw [hupd]

@[simp] theorem State.holdChans_grp (s : State) (ns : List Nat) (j : Nat) : (s.holdChans ns).grp j = s.grp j := rfl

theorem State.updChans_only (s : State) (ns : List Nat) (f : Nat → Chan → Chan) : Only chansPart s (s.updChans ns f) := rfl

theorem State.holdChans_only (s : State) (ns : List Nat) : Only chansPart s (s.holdChans ns) := rfl

theorem State.holdGrp_chan {n : Nat} (hn : n / 16 = g) (hout : (s.chan n).isOutput = true) : ((s.holdChans (grpChans g)).chan n).ret = true := by
  rw [State.holdChans_chan _ (grpChans_nodup g), if_pos (mem_grpChans.2 hn)]
  simp [hout]
end

section
variable (s : State) (g : Fin 4) (v : BitVec 16)

/-- A group with its supply read. -/
theorem exec_uvWarn : ∃ t, exec (.uvWarn g v) s = .next t ∧
    t.grp g = { (s.grp g).reads v with
      belowWarn := belowThr (s.grp g).belowWarn (s.grp g).uvWarn.toNat v
      warnCnt := if belowThr (s.grp g).belowWarn (s.grp g).uvWarn.toNat v = true ∧ (s.grp g).belowWarn = false then
        satInc (s.grp g).warnCnt 65535 else (s.grp g).warnCnt } ∧
    (∀ j, j ≠ g.val → t.grp j = s.grp j) ∧ { t with grps := s.grps, evRings := s.evRings, evqA := s.evqA, evqB := s.evqB, hi := s.hi } = s := by
  obtain ⟨u, hu⟩ : ∃ u, u = s.updGrp g fun q => { q.reads v with
    belowWarn := belowThr (s.grp g).belowWarn (s.grp g).uvWarn.toNat v
    warnCnt := if belowThr (s.grp g).belowWarn (s.grp g).uvWarn.toNat v && !(s.grp g).belowWarn then satInc q.warnCnt 65535 else q.warnCnt } := ⟨_, rfl⟩
  obtain ⟨t, ht⟩ : ∃ t, t = if (belowThr (s.grp g).belowWarn (s.grp g).uvWarn.toNat v && !(s.grp g).belowWarn) = true then
    u.postEvent 0x07 3 (g + fld v.toNat 16 16) else u := ⟨_, rfl⟩
  have honly : Only evPart u t := by
    rw [ht]
    split
    · exact u.postEvent_only _ _ _
    · exact Only.refl evPart_part u
  have hgrps : t.grps = u.grps := by rw [← honly]
  refine ⟨t, by rw [ht, hu]; rfl, ?_, fun j hj => ?_, ?_⟩
  · rw [State.grp, hgrps, hu]
    refine (State.updGrp_grp_self s g _).trans ?_
    simp only [Bool.and_eq_true, Bool.not_eq_true']
  · rw [State.grp, hgrps, hu]
    exact State.updGrp_grp_ne s g _ j hj
  · rw [← honly, hu]
    rfl

theorem exec_uvIn : exec (.uvIn g v) s =
    let b := belowThr (s.grp g).belowIn (s.grp g).uvIn.toNat v
    let u := s.updGrp g fun q => { q.reads v with belowIn := b }
    .next (if b = true then u.updChans (grpChans g) fun _ c => { c with restoring := c.restoring || decide (c.mode = 1#2) } else u) := rfl

theorem exec_uvOff : exec (.uvOff g v) s =
    let b := belowThr (s.grp g).belowOff (s.grp g).uvOff.toNat v
    let u := s.updGrp g fun q => { q.reads v with belowOff := b }
    .next (if (b && !(s.grp g).belowOff && s.started) = true then u.grpFault g 0x3010#16 v fun q => { q with uvoffLatch := true } else u) := rfl

theorem exec_groupOv : exec (.groupOv g v) s =
    let b := decide ((if (s.grp g).aboveOv then 4100 else 4200) < v.toNat)
    let u := s.updGrp g fun q => { q.reads v with aboveOv := b }
    .next (if (b && !(s.grp g).aboveOv) = true then
      (if s.started then u.grpFault g 0x3011#16 v fun q => { q with ovLatch := true } else u.grpLatch g fun q => { q with ovLatch := true })
      else u) := by
  have hb : (if (s.grp g).aboveOv = true then decide (4100 < v.toNat) else decide (4200 < v.toNat)) =
      decide ((if (s.grp g).aboveOv = true then 4100 else 4200) < v.toNat) := by split <;> rfl
  change execGroupOv g v s = _
  unfold execGroupOv
  dsimp only
  rw [hb]
  rfl

/-- A group latched: its outputs are held open. -/
theorem State.grpLatch_rest {s : State} {g : Nat} (f : Grp → Grp) :
    (s.grpLatch g f).grp g = (s.grp g).latch f ∧ (∀ j, j ≠ g → (s.grpLatch g f).grp j = s.grp j) ∧
    (∀ n, n / 16 = g → (s.chan n).isOutput = true → ((s.grpLatch g f).chan n).ret = true) ∧ Only grpPart s (s.grpLatch g f) := by
  rw [State.grpLatch_eq f]
  refine ⟨(State.holdChans_grp _ _ _).trans (State.updGrp_grp_self s g _),
    fun j hj => (State.holdChans_grp _ _ _).trans (State.updGrp_grp_ne s g _ j hj), fun n hn hout => ?_, ?_⟩
  · exact State.holdGrp_chan hn hout
  · exact Only.trans grpPart_part (t := s.updGrp g _) rfl ((State.holdChans_only _ _).mono fun _ _ => rfl)

/-- A latch with its record. -/
theorem State.grpFault_rest {s : State} {g : Nat} (code : BitVec 16) (v : BitVec 16) (f : Grp → Grp) :
    (s.grpFault g code v f).grps = (s.grpLatch g f).grps ∧ (s.grpFault g code v f).chans = (s.grpLatch g f).chans ∧
      (s.grpFault g code v f).zones = s.zones ∧ (s.grpFault g code v f).pairs = s.pairs := by
  obtain ⟨-, hchans, hpairs, hgrps⟩ := (s.grpLatch g f).raise_rest code (BitVec.ofNat 12 (0x40 + g)) true true (v.toNat / 10) 0 []
  have hzones := (s.grpLatch g f).raise_zones_nil code (BitVec.ofNat 12 (0x40 + g)) true true (v.toNat / 10) 0
  have hrest : (s.grpLatch g f).zones = s.zones ∧ (s.grpLatch g f).pairs = s.pairs := by
    unfold State.grpLatch
    dsimp only
    rw [← State.holdChans_only]
    exact ⟨rfl, rfl⟩
  exact ⟨hgrps, hchans, hzones.trans hrest.1, hpairs.trans hrest.2⟩

end

/-- A group whose supply falls under UV_OFF, or rises above OV, has latched: what `grpFault` and `grpLatch` have in common. -/
theorem State.latched_rest {s t u : State} {g : Fin 4} {f h : Grp → Grp} (hu : u = s.updGrp g f) (hgrps : t.grps = (u.grpLatch g h).grps)
    (hchans : t.chans = (u.grpLatch g h).chans) (hlatch : ((f (s.grp g)).latch h).latched = true) :
    t.grp g = (f (s.grp g)).latch h ∧ (∀ j, j ≠ g.val → t.grp j = s.grp j) ∧ (∀ n, n / 16 = g.val → t.held n = true) ∧
      ∀ n : Fin 64, n.val / 16 = g.val → (s.chan n).isOutput = true → (t.chan n).ret = true := by
  obtain ⟨hself, hother, hret, -⟩ := State.grpLatch_rest (s := u) (g := g) h
  have hugrp : u.grp g = f (s.grp g) := by rw [hu]; exact State.updGrp_grp_self s g f
  have htgrp : t.grp g = (f (s.grp g)).latch h := by
    rw [State.grp, hgrps, ← hugrp]
    exact hself
  refine ⟨htgrp, fun j hj => ?_, fun n hn => State.held_of_latched hn (by rw [htgrp]; exact hlatch), fun n hn hout => ?_⟩
  · rw [State.grp, hgrps]
    refine (hother j hj).trans ?_
    rw [hu]
    exact State.updGrp_grp_ne s g f j hj
  · rw [State.chan, hchans]
    exact hret n hn (by rw [hu]; exact hout)

section
variable (s : State) (g : Fin 4) (v : BitVec 16)

theorem exec_uvOff_latches (hb : belowThr (s.grp g).belowOff (s.grp g).uvOff.toNat v = true) (hwas : (s.grp g).belowOff = false)
    (hstarted : s.started = true) : ∃ t, exec (.uvOff g v) s = .next t ∧
      t.grp g = ({ (s.grp g).reads v with belowOff := true } : Grp).latch (fun q => { q with uvoffLatch := true }) ∧
      (∀ j, j ≠ g.val → t.grp j = s.grp j) ∧ (∀ n, n / 16 = g.val → t.held n = true) ∧
      (∀ n : Fin 64, n.val / 16 = g.val → (s.chan n).isOutput = true → (t.chan n).ret = true) ∧ t.zones = s.zones ∧ t.pairs = s.pairs := by
  obtain ⟨u, hu⟩ : ∃ u, u = s.updGrp g fun q => { q.reads v with belowOff := true } := ⟨_, rfl⟩
  have hexec : exec (.uvOff g v) s = .next (u.grpFault g 0x3010#16 v fun q => { q with uvoffLatch := true }) := by
    rw [exec_uvOff]
    dsimp only
    rw [hb, hwas, hstarted, hu]
    rfl
  obtain ⟨hgrps, hchans, hzones, hpairs⟩ := State.grpFault_rest (s := u) (g := g) 0x3010#16 v fun q => { q with uvoffLatch := true }
  obtain ⟨hself, hother, hheld, hret⟩ := State.latched_rest hu hgrps hchans
    (by simp [Grp.latch, Grp.latched])
  have hsame : u.zones = s.zones ∧ u.pairs = s.pairs := by rw [hu]; exact ⟨rfl, rfl⟩
  exact ⟨_, hexec, hself, hother, hheld, hret, hzones.trans hsame.1, hpairs.trans hsame.2⟩

theorem exec_groupOv_latches (hb : decide ((if (s.grp g).aboveOv then 4100 else 4200) < v.toNat) = true) (hwas : (s.grp g).aboveOv = false) :
    ∃ t, exec (.groupOv g v) s = .next t ∧
      t.grp g = ({ (s.grp g).reads v with aboveOv := true } : Grp).latch (fun q => { q with ovLatch := true }) ∧
      (∀ j, j ≠ g.val → t.grp j = s.grp j) ∧ (∀ n, n / 16 = g.val → t.held n = true) ∧ (s.started = false → t.fl = s.fl) ∧
      t.zones = s.zones ∧ t.pairs = s.pairs := by
  obtain ⟨u, hu⟩ : ∃ u, u = s.updGrp g fun q => { q.reads v with aboveOv := true } := ⟨_, rfl⟩
  have hustarted : u.started = s.started := by rw [hu]; rfl
  have hlatch : (({ (s.grp g).reads v with aboveOv := true } : Grp).latch fun q => { q with ovLatch := true }).latched = true := by
    simp [Grp.latch, Grp.latched]
  have hexec : exec (.groupOv g v) s = .next (if s.started then u.grpFault g 0x3011#16 v fun q => { q with ovLatch := true }
      else u.grpLatch g fun q => { q with ovLatch := true }) := by
    rw [exec_groupOv]
    dsimp only
    rw [hb, hwas, hu]
    rfl
  cases hs : s.started with
  | true =>
    rw [hs] at hexec
    obtain ⟨hgrps, hchans, hzones, hpairs⟩ := State.grpFault_rest (s := u) (g := g) 0x3011#16 v fun q => { q with ovLatch := true }
    obtain ⟨hself, hother, hheld, hret⟩ := State.latched_rest hu hgrps hchans hlatch
    have hsame : u.zones = s.zones ∧ u.pairs = s.pairs := by rw [hu]; exact ⟨rfl, rfl⟩
    exact ⟨_, hexec, hself, hother, hheld, fun h => (Bool.false_ne_true h.symm).elim, hzones.trans hsame.1, hpairs.trans hsame.2⟩
  | false =>
    rw [hs] at hexec
    obtain ⟨-, -, -, honly⟩ := State.grpLatch_rest (s := u) (g := g) fun q => { q with ovLatch := true }
    obtain ⟨w, hw⟩ : ∃ w, w = u.grpLatch g fun q => { q with ovLatch := true } := ⟨_, rfl⟩
    have hrest : w.fl = s.fl ∧ w.zones = s.zones ∧ w.pairs = s.pairs := by
      rw [hw, ← honly, hu]
      exact ⟨rfl, rfl, rfl⟩
    obtain ⟨hfl, hzones, hpairs⟩ := hrest
    obtain ⟨hself, hother, hheld, hret⟩ := State.latched_rest hu (congrArg State.grps hw) (congrArg State.chans hw) hlatch
    exact ⟨w, hw ▸ hexec, hself, hother, hheld, fun _ => hfl, hzones, hpairs⟩


/-! The end of a latch -/

/-- The hold of a group whose supply was below UV_OFF as RUN began has ended. -/
def State.startHoldEnd (s : State) (g : Nat) : State :=
  if (s.grp g).startHold && (s.grp g).aboveEnd then (s.updGrp g fun q => { q with startHold := false }).holdChans (grpChans g) else s

theorem exec_groupLatchEnd : exec (.groupLatchEnd g) s =
    let t := s.startHoldEnd g
    if (t.grp g).inBand = true then
      let u := t.updGrp g fun q => { q with stood := true }
      if (u.grpRec g || u.fl.overflow) = true then
        .next ((u.recGone 0x3010#16 (BitVec.ofNat 12 (0x40 + g))).recGone 0x3011#16 (BitVec.ofNat 12 (0x40 + g)))
      else if (t.grp g).latched = true then
        .next ((u.updGrp g fun q => { q with ovLatch := false, uvoffLatch := false }).holdChans (grpChans g))
      else .next u
    else .next t := rfl

theorem State.startHoldEnd_only : Only grpPart s (s.startHoldEnd g) := by
  unfold State.startHoldEnd
  split
  · exact Only.trans grpPart_part (t := s.updGrp g _) rfl ((State.holdChans_only _ _).mono fun _ _ => rfl)
  · rfl

theorem State.startHoldEnd_grp : (s.startHoldEnd g).grp g = { s.grp g with
    startHold := (s.grp g).startHold && !(s.grp g).aboveEnd } ∧ ∀ j, j ≠ g.val → (s.startHoldEnd g).grp j = s.grp j := by
  unfold State.startHoldEnd
  by_cases h : ((s.grp g).startHold && (s.grp g).aboveEnd) = true
  · rw [if_pos h]
    refine ⟨(State.holdChans_grp _ _ _).trans ((State.updGrp_grp_self s g _).trans ?_),
      fun j hj => (State.holdChans_grp _ _ _).trans (State.updGrp_grp_ne s g _ j hj)⟩
    simp only [Bool.and_eq_true] at h
    rw [h.1, h.2]
    rfl
  · rw [if_neg h]
    refine ⟨?_, fun _ _ => rfl⟩
    cases h1 : (s.grp g).startHold with
    | false => rw [Bool.false_and, ← h1]
    | true =>
      have h2 : (s.grp g).aboveEnd = false := by simpa [h1] using h
      rw [h2, Bool.not_false, Bool.true_and, ← h1]

theorem Grp.inBand_startHold (q : Grp) (b : Bool) : ({ q with startHold := b } : Grp).inBand = q.inBand := rfl

/-- A group in its band. -/
theorem exec_groupLatchEnd_inBand (hband : (s.grp g).inBand = true) : exec (.groupLatchEnd g) s =
    let t := s.startHoldEnd g
    let u := t.updGrp g fun q => { q with stood := true }
    if (s.grpRec g || s.fl.overflow) = true then
      .next ((u.recGone 0x3010#16 (BitVec.ofNat 12 (0x40 + g))).recGone 0x3011#16 (BitVec.ofNat 12 (0x40 + g)))
    else if ((s.grp g).ovLatch || (s.grp g).uvoffLatch) = true then
      .next ((u.updGrp g fun q => { q with ovLatch := false, uvoffLatch := false }).holdChans (grpChans g))
    else .next u := by
  have habove : (s.grp g).aboveEnd = true := by
    simp only [Grp.inBand, Bool.and_eq_true] at hband
    exact hband.1
  have hgrp : (s.startHoldEnd g).grp g = { s.grp g with startHold := false } := by
    rw [(s.startHoldEnd_grp g).1, habove, Bool.not_true, Bool.and_false]
  have hfl : (s.startHoldEnd g).fl = s.fl := (congrArg State.fl (s.startHoldEnd_only g)).symm
  have hrec : ((s.startHoldEnd g).updGrp g fun q => { q with stood := true }).grpRec g = s.grpRec g := by
    have hfl' : ((s.startHoldEnd g).updGrp g fun q => { q with stood := true }).fl = s.fl := hfl
    simp only [State.grpRec, State.findRec, hfl']
  have hlatched : ((s.startHoldEnd g).grp g).latched = ((s.grp g).ovLatch || (s.grp g).uvoffLatch) := by
    rw [hgrp]
    simp [Grp.latched]
  rw [exec_groupLatchEnd]
  dsimp only
  rw [if_pos (by rw [hgrp]; exact hband), hrec, hlatched, State.updGrp_fl, hfl]

theorem Grp.unlatched_eq {q : Grp} (hov : q.ovLatch = false) (huv : q.uvoffLatch = false) :
    ({ q with stood := true, startHold := false } : Grp) = { q with stood := true, ovLatch := false, uvoffLatch := false, startHold := false } := by
  cases q
  cases hov
  cases huv
  rfl

/-- A group whose latch ends. -/
theorem exec_groupLatchEnd_ends (hband : (s.grp g).inBand = true) (hrec : s.grpRec g = false) (hover : s.fl.overflow = false) :
    ∃ t, exec (.groupLatchEnd g) s = .next t ∧
      t.grp g = { s.grp g with stood := true, ovLatch := false, uvoffLatch := false, startHold := false } ∧
      (∀ j, j ≠ g.val → t.grp j = s.grp j) ∧ Only grpPart s t := by
  have habove : (s.grp g).aboveEnd = true := by
    simp only [Grp.inBand, Bool.and_eq_true] at hband
    exact hband.1
  obtain ⟨u, hu⟩ : ∃ u, u = (s.startHoldEnd g).updGrp g fun q => { q with stood := true } := ⟨_, rfl⟩
  have hself : u.grp g = { s.grp g with stood := true, startHold := false } := by
    rw [hu, State.updGrp_grp_self, (s.startHoldEnd_grp g).1, habove, Bool.not_true, Bool.and_false]
  have hother (j : Nat) (hj : j ≠ g.val) : u.grp j = s.grp j := by
    rw [hu]
    exact (State.updGrp_grp_ne _ g _ j hj).trans ((s.startHoldEnd_grp g).2 j hj)
  have honly : Only grpPart s u := by
    rw [hu]
    exact Only.trans grpPart_part (s.startHoldEnd_only g) rfl
  have hexec := exec_groupLatchEnd_inBand s g hband
  dsimp only at hexec
  rw [if_neg (by simp [hrec, hover]), ← hu] at hexec
  by_cases hlatched : ((s.grp g).ovLatch || (s.grp g).uvoffLatch) = true
  · rw [if_pos hlatched] at hexec
    refine ⟨_, hexec, (State.holdChans_grp _ _ _).trans ((State.updGrp_grp_self u g _).trans (by rw [hself])),
      fun j hj => (State.holdChans_grp _ _ _).trans ((State.updGrp_grp_ne u g _ j hj).trans (hother j hj)), ?_⟩
    exact Only.trans grpPart_part honly
      (Only.trans grpPart_part (t := u.updGrp g _) rfl ((State.holdChans_only _ _).mono fun _ _ => rfl))
  · rw [if_neg hlatched] at hexec
    simp only [Bool.or_eq_true, not_or, Bool.not_eq_true] at hlatched
    exact ⟨u, hexec, hself.trans (Grp.unlatched_eq hlatched.1 hlatched.2), hother, honly⟩

/-- Outside its band a group's start hold alone can end. -/
theorem exec_groupLatchEnd_outside (hband : (s.grp g).inBand = false) : exec (.groupLatchEnd g) s = .next (s.startHoldEnd g) := by
  rw [exec_groupLatchEnd]
  dsimp only
  rw [if_neg]
  rw [(s.startHoldEnd_grp g).1, Grp.inBand_startHold, hband]
  exact Bool.false_ne_true

theorem State.startHoldEnd_eq (hstart : (s.grp g).startHold = true) (habove : (s.grp g).aboveEnd = true) :
    s.startHoldEnd g = (s.updGrp g fun q => { q with startHold := false }).holdChans (grpChans g) := if_pos (by simp [hstart, habove])

/-- A group whose latch a record keeps. -/
theorem exec_groupLatchEnd_recorded (hband : (s.grp g).inBand = true) (hrec : s.grpRec g = true ∨ s.fl.overflow = true) :
    ∃ t, exec (.groupLatchEnd g) s = .next t ∧ t.grp g = { s.grp g with stood := true, startHold := false } ∧
      (∀ j, j ≠ g.val → t.grp j = s.grp j) ∧ ((s.grp g).startHold = false → t.chans = s.chans) ∧
      { t with grps := s.grps, chans := s.chans, fl := s.fl, evRings := s.evRings, evqA := s.evqA, evqB := s.evqB, hi := s.hi } = s := by
  have habove : (s.grp g).aboveEnd = true := by
    simp only [Grp.inBand, Bool.and_eq_true] at hband
    exact hband.1
  obtain ⟨u, hu⟩ : ∃ u, u = (s.startHoldEnd g).updGrp g fun q => { q with stood := true } := ⟨_, rfl⟩
  have hexec := exec_groupLatchEnd_inBand s g hband
  dsimp only at hexec
  rw [if_pos (by simpa using hrec), ← hu] at hexec
  obtain ⟨t, ht⟩ : ∃ t, t = (u.recGone 0x3010#16 (BitVec.ofNat 12 (0x40 + g))).recGone 0x3011#16 (BitVec.ofNat 12 (0x40 + g)) := ⟨_, rfl⟩
  rw [← ht] at hexec
  have honly : Only recPart u t := by
    rw [ht]
    exact Only.trans recPart_part (State.recGone_only _ _) (State.recGone_only _ _)
  have hrest : t.grps = u.grps ∧ t.chans = u.chans := by rw [← honly]; exact ⟨rfl, rfl⟩
  refine ⟨t, hexec, ?_, fun j hj => ?_, fun hstart => ?_, ?_⟩
  · rw [State.grp, hrest.1, hu]
    refine (State.updGrp_grp_self _ g _).trans ?_
    rw [(s.startHoldEnd_grp g).1, habove, Bool.not_true, Bool.and_false]
  · rw [State.grp, hrest.1, hu]
    exact (State.updGrp_grp_ne _ g _ j hj).trans ((s.startHoldEnd_grp g).2 j hj)
  · rw [hrest.2, hu]
    change (s.startHoldEnd g).chans = s.chans
    rw [State.startHoldEnd, if_neg (by simp [hstart])]
  · rw [← honly, hu, ← s.startHoldEnd_only g]
    rfl
end

/-! ### Non-safety outputs -/

section
variable {s : State} {n : Fin 64}

theorem exec_nsCmd (v : Word) (hmode : (s.chan n).mode = 3#2) : exec (.nsCmd n v) s =
    let t := s.updChan n fun c => { c with nsOn := bit v 0 }
    .next (if (s.chan n).nsSrc = 1#2 then (t.pushFd .a (.nonsafe n (bit v 0))).pushFd .b (.nonsafe n (bit v 0)) else t) := by
  change Host.Outcome.next (s.nsCmd 0 n v) = _
  unfold State.nsCmd
  dsimp only
  rw [if_neg (by simp [hmode])]

theorem State.pushFd_off {s : State} (h : s.pm.dstate = .off) (l : Lane) (c : FdCmd) : s.pushFd l c = s := if_pos h

theorem State.pushFd_both {s : State} (h : s.pm.dstate ≠ .off) (n : Nat) (on : Bool) :
    (s.pushFd .a (.nonsafe n on)).pushFd .b (.nonsafe n on) = s.pushBoth [.nonsafe n on] [.nonsafe n (!on)] := by
  have hpush (t : State) (ht : t.pm = s.pm) (l : Lane) (c : FdCmd) :
      t.pushFd l c = t.updLane l fun d => { d with toFd := d.toFd ++ [c.inLane l] } := if_neg (by rw [ht]; exact h)
  rw [hpush s rfl, hpush (s.updLane .a _) rfl]
  rfl

theorem State.pushBoth_chan (t : State) (as bs : List FdCmd) (j : Nat) : (t.pushBoth as bs).chan j = t.chan j := rfl

/-- A host command of a non-safety output, with whether it goes out. -/
theorem exec_nsCmd_cases (v : Word) (hmode : (s.chan n).mode = 3#2) :
    let t := s.updChan n fun c => { c with nsOn := bit v 0 }
    ((s.chan n).nsSrc = 1#2 → s.pm.dstate ≠ .off → exec (.nsCmd n v) s =
      .next (t.pushBoth [.nonsafe n (bit v 0)] [.nonsafe n (!bit v 0)])) ∧
    ((s.chan n).nsSrc ≠ 1#2 ∨ s.pm.dstate = .off → exec (.nsCmd n v) s = .next t) := by
  intro t
  rw [exec_nsCmd v hmode]
  dsimp only
  refine ⟨fun hsrc hon => ?_, fun hno => ?_⟩
  · rw [if_pos hsrc, State.pushFd_both (s := t) hon]
  · by_cases hsrc : (s.chan n).nsSrc = 1#2
    · have hoff : s.pm.dstate = .off := hno.resolve_left fun h => h hsrc
      rw [if_pos hsrc, State.pushFd_off (s := t) hoff, State.pushFd_off (s := t) hoff]
    · rw [if_neg hsrc]

theorem FdCmd.inLane_inLane (c : FdCmd) (l : Lane) : (c.inLane l).inLane l = c := by
  cases l with
  | a => rfl
  | b => cases c <;> simp [FdCmd.inLane, FdCmd.neg]

theorem State.fdTake_nonsafe (l : Lane) (on : Bool) : (s.fdTake l ((FdCmd.nonsafe n on).inLane l)).chan n =
    if (s.chan n).mode = 3#2 && !s.fd.dormHold then { (s.chan n).setCmd l on with nsSilent := false } else s.chan n := by
  unfold State.fdTake
  rw [FdCmd.inLane_inLane]
  exact State.updChan_chan_self s n _

theorem Chan.cmd_setCmd (c : Chan) (l : Lane) (on : Bool) : (c.setCmd l on).cmd l = on := by
  cases l <;> simp [Chan.setCmd, Chan.cmd]

/-- A channel made silent is off where its silent state is OFF. -/
theorem Chan.nsLevel_silent {c : Chan} {l : Lane} (h : c.nsSilent = true) (hon : c.nsLevel l = true) : c.silentState ≠ 0#2 := by
  intro hzero
  simp [Chan.nsLevel, h, hzero] at hon

theorem exec_nsSilent (hmode : (s.chan n).mode = 3#2) (hsrc : (s.chan n).nsSrc ≠ 0#2) (hsilent : (s.chan n).nsSilent = false) :
    ∃ t, exec (.nsSilent n) s = .next t ∧ (t.chan n).nsSilent = true ∧
      (∀ l, t.swClosed l n = true → (s.chan n).silentState ≠ 0#2 ∨ t.setHead n ≠ n) ∧ (∀ j, j ≠ n.val → t.chan j = s.chan j) ∧
      { t with chans := s.chans, evRings := s.evRings, hi := s.hi } = s := by
  obtain ⟨u, hu⟩ : ∃ u, u = s.updChan n fun c => { c with nsSilent := true } := ⟨_, rfl⟩
  obtain ⟨t, ht⟩ : ∃ t, t = u.postEvent 0x08 3 (n + fld (s.chan n).silentState.toNat 8 8) := ⟨_, rfl⟩
  have hexec : exec (.nsSilent n) s = .next t := by
    rw [ht, hu]
    exact if_pos (by simp [hmode, hsrc, hsilent])
  have honly : Only evRingPart u t := by
    rw [ht]
    exact State.postEvent_hubPart _ _ _
  have hchans : t.chans = u.chans := by rw [← honly]
  have hself : t.chan n = { s.chan n with nsSilent := true } := by
    rw [State.chan, hchans, hu]
    exact State.updChan_chan_self s n _
  refine ⟨t, hexec, by rw [hself], fun l hclosed => ?_, fun j hj => ?_, ?_⟩
  · by_cases hhead : t.setHead n = n
    · refine .inl ?_
      have hmode' : (t.chan (t.setHead n)).mode = 3#2 := by rw [hhead, hself]; exact hmode
      cases hpowered : t.powered with
      | false => rw [State.swClosed_of_not_powered l hpowered] at hclosed; cases hclosed
      | true =>
        rw [State.swClosed_nonsafe l hpowered hmode', hhead, hself] at hclosed
        simp only [Bool.and_eq_true] at hclosed
        exact Chan.nsLevel_silent (c := { s.chan n with nsSilent := true }) rfl hclosed.1.1
    · exact .inr hhead
  · rw [State.chan, hchans, hu]
    exact State.updChan_chan_ne s n _ j hj
  · rw [← honly, hu]
    rfl
end

section
variable (s : State) (g : Fin 4) (v : BitVec 16)

/-- A read of the inputs' supply, with what it makes of the inputs. -/
theorem exec_uvIn_cases : ∃ t, exec (.uvIn g v) s = .next t ∧
    t.grp g = { (s.grp g).reads v with belowIn := belowThr (s.grp g).belowIn (s.grp g).uvIn.toNat v } ∧
    (belowThr (s.grp g).belowIn (s.grp g).uvIn.toNat v = true → ∀ n : Fin 64, n.val / 16 = g.val →
      t.inputPt n = 0#2 ∧ ((t.chan n).mode = 1#2 → (t.chan n).restoring = true)) ∧
    (∀ j, j ≠ g.val → t.grp j = s.grp j) ∧
    (belowThr (s.grp g).belowIn (s.grp g).uvIn.toNat v = false → t.chans = s.chans) ∧ Only grpPart s t := by
  obtain ⟨b, hb⟩ : ∃ b, b = belowThr (s.grp g).belowIn (s.grp g).uvIn.toNat v := ⟨_, rfl⟩
  obtain ⟨u, hu⟩ : ∃ u, u = s.updGrp g fun q => { q.reads v with belowIn := b } := ⟨_, rfl⟩
  obtain ⟨t, ht⟩ : ∃ t, t = if b = true then
    u.updChans (grpChans g) fun _ c => { c with restoring := c.restoring || decide (c.mode = 1#2) } else u := ⟨_, rfl⟩
  have hexec : exec (.uvIn g v) s = .next t := by
    rw [exec_uvIn, ht, hu, hb]
  have honly : Only chansPart u t := by
    rw [ht]
    split
    · exact State.updChans_only u _ _
    · exact Only.refl chansPart_part u
  have hgrps : t.grps = u.grps := by rw [← honly]
  have hself : t.grp g = { (s.grp g).reads v with belowIn := b } := by
    rw [State.grp, hgrps, hu]
    exact State.updGrp_grp_self s g _
  rw [← hb]
  refine ⟨t, hexec, hself, fun hlow n hn => ⟨?_, fun hmode => ?_⟩, fun j hj => ?_, fun hhigh => ?_, ?_⟩
  · refine State.inputPt_of_bad ?_
    have hbelow : (t.grp (n / 16)).belowIn = true := by rw [hn, hself]; exact hlow
    simp [State.inputBad, hbelow]
  · have hchan : t.chan n = { u.chan n with restoring := (u.chan n).restoring || decide ((u.chan n).mode = 1#2) } := by
      rw [ht, if_pos hlow, State.updChans_chan _ _ _ _ (grpChans_nodup g), if_pos (mem_grpChans.2 hn)]
    rw [hchan] at hmode ⊢
    have hmode' : (u.chan n).mode = 1#2 := hmode
    simp [hmode']
  · rw [State.grp, hgrps, hu]
    exact State.updGrp_grp_ne s g _ j hj
  · rw [ht, if_neg (by simp [hhigh]), hu]
    rfl
  · exact Only.trans grpPart_part (t := u) (by rw [hu]; rfl) (honly.mono fun _ _ => rfl)

/-- A read of the outputs' supply that latches nothing. -/
theorem exec_uvOff_quiet {b : Bool} (hb : b = belowThr (s.grp g).belowOff (s.grp g).uvOff.toNat v)
    (hno : b = false ∨ (s.grp g).belowOff = true ∨ s.started = false) :
    exec (.uvOff g v) s = .next (s.updGrp g fun q => { q.reads v with belowOff := b }) := by
  rw [exec_uvOff, ← hb]
  refine congrArg Host.Outcome.next (if_neg ?_)
  obtain h | h | h := hno
  · simp [h]
  · simp [h]
  · simp [State.started] at h ⊢
    simp [h]

theorem exec_groupOv_quiet {b : Bool} (hb : b = decide ((if (s.grp g).aboveOv then 4100 else 4200) < v.toNat))
    (hno : b = false ∨ (s.grp g).aboveOv = true) : exec (.groupOv g v) s = .next (s.updGrp g fun q => { q.reads v with aboveOv := b }) := by
  rw [exec_groupOv, ← hb]
  refine congrArg Host.Outcome.next (if_neg ?_)
  obtain h | h := hno
  · simp [h]
  · simp [h]

end

/-- Settles O48. -/
theorem groupsAndNonSafetyOutputs : Obligations.GroupsAndNonSafetyOutputs := by
  refine ⟨⟨fun _ _ _ => belowThr_iff, fun _ => Grp.inBand_iff, ?_⟩, fun s n v => ⟨fun hmode => ⟨congrArg Host.Outcome.next (if_pos hmode), if_neg (by simp [hmode])⟩, fun hmode => ⟨?_, ?_, ?_, ?_⟩⟩⟩
  · intro s g v q
    refine ⟨exec_uvWarn s g v, ?_, ?_, ?_, fun q => by simp [Grp.aboveEnd], fun hband hno => ?_, fun hband hstart habove => ?_,
      fun hband hrec hover => ?_, exec_groupLatchEnd_recorded s g⟩
    · obtain ⟨t, hexec, hself, hlow, hother, hhigh, honly⟩ := exec_uvIn_cases s g v
      exact ⟨t, hexec, hself, hlow, hother, hhigh, Only.back grpPart_part honly⟩
    · intro b
      by_cases hlatch : b = true ∧ (s.grp g).belowOff = false ∧ s.started = true
      · obtain ⟨hb, hwas, hstarted⟩ := hlatch
        obtain ⟨t, hexec, hself, hother, hheld, hret, hzones, hpairs⟩ := exec_uvOff_latches s g v hb hwas hstarted
        have hno : ¬ (b = false ∨ (s.grp g).belowOff = true ∨ s.started = false) := by simp [hb, hwas, hstarted]
        exact ⟨t, hexec, by rw [hself, hb]; rfl, by rw [hself]; rfl, fun _ _ _ => ⟨by rw [hself]; rfl, by rw [hself]; rfl, hheld, hret⟩,
          fun h => absurd h hno, hother, hzones, hpairs⟩
      · have hno : b = false ∨ (s.grp g).belowOff = true ∨ s.started = false := by
          simpa only [not_and_or, Bool.not_eq_true, Bool.not_eq_false] using hlatch
        have hself := State.updGrp_grp_self s g.val fun q => { q.reads v with belowOff := b }
        exact ⟨_, exec_uvOff_quiet s g v rfl hno, by rw [hself], by rw [hself]; rfl, fun h1 h2 h3 => absurd ⟨h1, h2, h3⟩ hlatch,
          fun _ => ⟨hself, rfl⟩, fun j hj => State.updGrp_grp_ne s g _ j hj, rfl, rfl⟩
    · intro b
      by_cases hlatch : b = true ∧ (s.grp g).aboveOv = false
      · obtain ⟨hb, hwas⟩ := hlatch
        obtain ⟨t, hexec, hself, hother, hheld, hfl, hzones, hpairs⟩ := exec_groupOv_latches s g v hb hwas
        have hno : ¬ (b = false ∨ (s.grp g).aboveOv = true) := by simp [hb, hwas]
        exact ⟨t, hexec, by rw [hself, hb]; rfl, by rw [hself]; rfl, fun _ _ => ⟨by rw [hself]; rfl, by rw [hself]; rfl, hheld, hfl⟩,
          fun h => absurd h hno, hother, hzones, hpairs⟩
      · have hno : b = false ∨ (s.grp g).aboveOv = true := by
          simpa only [not_and_or, Bool.not_eq_true, Bool.not_eq_false] using hlatch
        have hself := State.updGrp_grp_self s g.val fun q => { q.reads v with aboveOv := b }
        exact ⟨_, exec_groupOv_quiet s g v rfl hno, by rw [hself], by rw [hself]; rfl, fun h1 h2 => absurd ⟨h1, h2⟩ hlatch,
          fun _ => ⟨hself, rfl⟩, fun j hj => State.updGrp_grp_ne s g _ j hj, rfl, rfl⟩
    · rw [exec_groupLatchEnd_outside s g hband]
      refine congrArg Host.Outcome.next (if_neg ?_)
      obtain h | h := hno <;> simp [h]
    · have hend := s.startHoldEnd_eq g hstart habove
      refine ⟨s.startHoldEnd g, exec_groupLatchEnd_outside s g hband, ?_, (s.startHoldEnd_grp g).2, fun n hn hout => ?_,
        Only.back grpPart_part (s.startHoldEnd_only g)⟩
      · rw [(s.startHoldEnd_grp g).1, habove, Bool.not_true, Bool.and_false]
      · rw [hend]
        exact State.holdGrp_chan hn hout
    · obtain ⟨t, hexec, hself, hother, honly⟩ := exec_groupLatchEnd_ends s g hband hrec hover
      exact ⟨t, hexec, hself, hother, Only.back grpPart_part honly⟩
  · obtain ⟨hsent, hkept⟩ := exec_nsCmd_cases (s := s) (n := n) v hmode
    by_cases hout : (s.chan n).nsSrc = 1#2 ∧ s.pm.dstate ≠ .off
    · exact ⟨_, hsent hout.1 hout.2, (State.pushBoth_chan _ _ _ _).trans (State.updChan_chan_self s n _), fun _ _ => ⟨rfl, rfl⟩,
        fun h => absurd hout (by tauto), fun j hj => (State.pushBoth_chan _ _ _ _).trans (State.updChan_chan_ne s n _ j hj), rfl⟩
    · have hno : (s.chan n).nsSrc ≠ 1#2 ∨ s.pm.dstate = .off := by tauto
      exact ⟨_, hkept hno, State.updChan_chan_self s n _, fun h1 h2 => absurd ⟨h1, h2⟩ hout, fun _ => ⟨rfl, rfl⟩,
        fun j hj => State.updChan_chan_ne s n _ j hj, rfl⟩
  · intro l on t
    have hchan : t.chan n = if (s.chan n).mode = 3#2 && !s.fd.dormHold then { (s.chan n).setCmd l on with nsSilent := false } else s.chan n :=
      State.fdTake_nonsafe l on
    rw [hchan]
    refine ⟨fun hfree => ?_, fun hheld => ?_⟩
    · rw [if_pos (by simp [hmode, hfree])]
      exact ⟨rfl, Chan.cmd_setCmd (s.chan n) l on⟩
    · rw [if_neg (by simp [hheld])]
      exact ⟨rfl, rfl⟩
  · intro hno
    refine if_neg ?_
    obtain h | h := hno <;> simp [h]
  · exact exec_nsSilent hmode

end Sys2Proof.Machine
end


section
/-!
# The OTP: reads, the drift scan, programming, locks and trial overrides (R424 to R433)

A loss of supply apart, each of these commands completes at once; the lemmas `exec_otp…` give the completion by the conditions the
manual orders.
-/
namespace Sys2Proof.Machine
open Sys2Proof

/-! ### Reading -/

/-- Up to four words put one above the other, a word past the count 0. -/
theorem foldr_range_four {n : Nat} (h1 : 1 ≤ n) (h4 : n ≤ 4) (f : Nat → Nat) (m : Nat) :
    (List.range n).foldr (fun i a => f i + a * m) 0 =
      (if 0 < n then f 0 else 0) + (if 1 < n then f 1 else 0) * m + (if 2 < n then f 2 else 0) * m ^ 2 + (if 3 < n then f 3 else 0) * m ^ 3 := by
  obtain rfl | rfl | rfl | rfl : n = 1 ∨ n = 2 ∨ n = 3 ∨ n = 4 := by omega
  · simp
  · norm_num [List.range_succ]
  · norm_num [List.range_succ]
    ring
  · norm_num [List.range_succ]
    ring

section
variable {s : State} {o : Origin}

theorem exec_otpRead_bad {w n : Byte} (h : n.toNat = 0 ∨ 4 < n.toNat ∨ 16 < w.toNat % 16 + n.toNat)
    (htakes : s.takes o (.otpRead o w n) = true) : exec (.otpRead o w n) s = .next ((s.begun o).complete o 0x40 0x03 0) := by
  change execOtpRead o w n s = _
  rw [execOtpRead, State.command_of_takes htakes]
  refine if_pos ?_
  simp only [Bool.or_eq_true, decide_eq_true_eq]
  omega

theorem exec_otpRead {w n : Byte} (h : ¬ (n.toNat = 0 ∨ 4 < n.toNat ∨ 16 < w.toNat % 16 + n.toNat))
    (htakes : s.takes o (.otpRead o w n) = true) :
    exec (.otpRead o w n) s = .next ((s.begun o).complete o 0x40 0x00
      ((List.range n.toNat).foldr (fun i a => ((s.begun o).otpReadWord (w.toNat + i)).1 + a * 2 ^ 64) 0 +
        (List.range n.toNat).foldr (fun i a => ((s.begun o).otpReadWord (w.toNat + i)).2 + a * 256) 0 * 2 ^ 256)) := by
  change execOtpRead o w n s = _
  rw [execOtpRead, State.command_of_takes htakes]
  refine (if_neg ?_).trans ?_
  · simp only [Bool.or_eq_true, decide_eq_true_eq]
    omega
  · simp only [List.foldr_map]
    rfl

/-- A word of the region of another has that one's lock. -/
theorem State.otpReadWord_add {w n i : Nat} (hi : i < n) (hin : w % 16 + n ≤ 16) :
    s.otpReadWord (w + i) =
      (if s.rlOn (w / 16) then 0 else (s.otpWord (w + i)).shadow.toNat,
        flag (s.otpWord (w + i)).corr 0 + flag (s.otpWord (w + i)).uncorr 1 + flag (s.otpWord (w + i)).margin 2 + flag (s.rlOn (w / 16)) 3 +
          flag (s.otpWord (w + i)).ovr 4) := by
  have hregion : (w + i) / 16 = w / 16 := by omega
  rw [State.otpReadWord, State.shadowWord, hregion]
end

/-! ### The drift scan (R433) -/

theorem below_eq_nil {n : Nat} {f : Nat → Bool} (h : ∀ k < n, f k = false) : below n f = [] :=
  List.filter_eq_nil_iff.mpr fun k hk => by simp [h k (List.mem_range.mp hk)]

theorem below_eq_singleton {n k : Nat} {f : Nat → Bool} (hk : k < n) (h : ∀ j < n, f j = true ↔ j = k) : below n f = [k] := by
  refine List.perm_singleton.mp ((List.perm_ext_iff_of_nodup (below_nodup n f) (List.nodup_singleton k)).mpr fun j => ?_)
  rw [mem_below, List.mem_singleton]
  exact ⟨fun ⟨hj, hf⟩ => (h j hj).mp hf, fun hj => ⟨hj ▸ hk, (h j (hj ▸ hk)).mpr hj⟩⟩

section
variable (s : State)

/-- The part of the state a word reported as drifted changes. -/
def driftPart (s t : State) : State := { s with otp := t.otp, evRings := t.evRings, hi := t.hi }

theorem driftPart_part : Part driftPart := ⟨fun _ => rfl, fun _ _ _ => rfl⟩

theorem State.driftWord_of_drifted {w : Nat} (h : (s.otpWord w).drifted = true) : s.driftWord w = s := if_pos h

theorem State.driftWord_new {w : Nat} (h : (s.otpWord w).drifted = false) :
    s.driftWord w = (({ s with otp := { s.otp with lastWord := BitVec.ofNat 8 w } }).updOtp w fun o => { o with drifted := true }).postEvent
      0x0E 3 w := if_neg (by simp [h])

/-- A word reported as drifted: itself marked, no other word touched, and nothing outside the controller and the event rings. -/
theorem State.driftWord_cases (w : Nat) :
    (s.driftWord w).otpWord w = { s.otpWord w with drifted := true } ∧ (∀ j, j ≠ w → (s.driftWord w).otpWord j = s.otpWord j) ∧
    (s.driftWord w).otp.drift = s.otp.drift ∧ (s.driftWord w).otp.scanCnt = s.otp.scanCnt ∧
    ((s.otpWord w).drifted = false → (s.driftWord w).otp.lastWord = BitVec.ofNat 8 w) ∧ Only driftPart s (s.driftWord w) := by
  by_cases h : (s.otpWord w).drifted = true
  · rw [s.driftWord_of_drifted h]
    exact ⟨by rw [← h], fun _ _ => rfl, rfl, rfl, fun hno => absurd h (by simp [hno]), rfl⟩
  · obtain ⟨u, hu⟩ : ∃ u, u = ({ s with otp := { s.otp with lastWord := BitVec.ofNat 8 w } } : State).updOtp w fun o => { o with drifted := true } :=
      ⟨_, rfl⟩
    have hpost : (s.driftWord w).otp = u.otp := by
      rw [s.driftWord_new (by simpa using h), ← hu]
      exact (congrArg State.otp (State.postEvent_hubPart u 0x0E w)).symm
    have honly : Only driftPart s (s.driftWord w) := by
      rw [s.driftWord_new (by simpa using h), ← hu]
      exact Only.trans driftPart_part (t := u) (by rw [hu]; rfl) ((State.postEvent_hubPart u 0x0E w).mono fun _ _ => rfl)
    have hword (j : Nat) : (s.driftWord w).otpWord j = u.otpWord j := congrArg (fun q : Otp => tabGet OtpWord.init q.words j) hpost
    refine ⟨?_, fun j hj => ?_, ?_, ?_, fun _ => ?_, honly⟩
    · rw [hword, hu, State.updOtp_otpWord_self]
      rfl
    · rw [hword, hu, State.updOtp_otpWord_ne _ _ _ _ hj]
      rfl
    all_goals
      rw [hpost, hu]
      rfl

/-- The scan as its two lists of differences leave the state. -/
theorem exec_otpDriftScan {ws : List (Fin 256 × OtpSense)} {ls : List LockRead} (hloaded : s.otp.loaded = true)
    (hlocks : ∀ r : Fin 16, s.lockDrifts ls r = false) :
    exec (.otpDriftScan ws ls) s =
      let words := below 256 fun w => decide (s.scanWord ws w ≠ (s.otpWord w).val)
      let t := words.foldl State.driftWord (if words.isEmpty then s else { s with otp := { s.otp with drift := true } })
      .next { t with otp := { t.otp with scanCnt := t.otp.scanCnt + 1#16 } } := by
  have hnone : (below 16 fun r => s.lockDrifts ls r) = [] := below_eq_nil fun r hr => hlocks ⟨r, hr⟩
  change execOtpDriftScan ws ls s = _
  unfold execOtpDriftScan
  rw [hnone]
  exact if_neg (by simp [hloaded])
end

/-- Settles O31: a read, the scan that finds nothing, and the scan that finds one word. -/
theorem otpReadsAndDriftScan : Obligations.OtpReadsAndDriftScan := by
  unfold Obligations.OtpReadsAndDriftScan
  refine ⟨?_, ?_⟩
  · intro s0 o w n s
    refine ⟨fun hbad htakes => exec_otpRead_bad hbad htakes, fun h1 h4 hin => ?_⟩
    intro locked b read marks htakes
    have hgood : ¬ (n.toNat = 0 ∨ 4 < n.toNat ∨ 16 < w.toNat % 16 + n.toNat) := by omega
    rw [exec_otpRead hgood htakes, foldr_range_four h1 h4, foldr_range_four h1 h4]
    have hread (i : Nat) : (if i < n.toNat then (s.otpReadWord (w.toNat + i)).1 else 0) = read i :=
      ite_congr rfl (fun hi => by rw [State.otpReadWord_add hi hin]) fun _ => rfl
    have hb (f : Bool) (k : Nat) : flag f k = b f k := ite_congr rfl (fun _ => Nat.one_shiftLeft k) fun _ => rfl
    have hmarks (i : Nat) : (if i < n.toNat then (s.otpReadWord (w.toNat + i)).2 else 0) = marks i :=
      ite_congr rfl (fun hi => by rw [State.otpReadWord_add hi hin]; simp only [hb]; rfl) fun _ => rfl
    rw [hread, hread, hread, hread, hmarks, hmarks, hmarks, hmarks]
    refine congrArg (fun x => Host.Outcome.next (s.complete o 0x40 0x00 x)) ?_
    norm_num
  · intro s
    refine ⟨fun hno ws ls => if_pos (by simp [hno]), fun hloaded ws ls hlocks => ⟨fun hsame => ?_, fun w hdiff hsame => ?_⟩⟩
    · rw [exec_otpDriftScan s hloaded hlocks, below_eq_nil fun w hw => by simp [hsame ⟨w, hw⟩]]
      rfl
    · have hone : (below 256 fun k => decide (s.scanWord ws k ≠ (s.otpWord k).val)) = [w.val] :=
        below_eq_singleton w.isLt fun j hj => by
          rw [decide_eq_true_eq]
          refine ⟨fun hne => ?_, fun h => h ▸ hdiff⟩
          by_contra h
          exact hne (hsame ⟨j, hj⟩ fun h' => h (congrArg Fin.val h'))
      rw [exec_otpDriftScan s hloaded hlocks, hone]
      obtain ⟨u, hu⟩ : ∃ u, u = ({ s with otp := { s.otp with drift := true } } : State) := ⟨_, rfl⟩
      obtain ⟨hself, hother, hdrift, hcnt, hlast, honly⟩ := u.driftWord_cases w
      have hback : Only driftPart s (u.driftWord w) := Only.trans driftPart_part (t := u) (by rw [hu]; rfl) honly
      have hwas (j : Nat) : u.otpWord j = s.otpWord j := by rw [hu]; rfl
      refine ⟨{ u.driftWord w with otp := { (u.driftWord w).otp with scanCnt := (u.driftWord w).otp.scanCnt + 1#16 } }, by rw [hu]; rfl,
        ?_, ?_, ?_, fun j hj => ?_, fun hold => ?_, fun hnew => ?_, ?_⟩
      · exact hdrift.trans (by rw [hu])
      · exact congrArg (· + 1#16) (hcnt.trans (by rw [hu]))
      · exact hself.trans (by rw [hwas])
      · exact (hother j fun h => hj (Fin.ext h)).trans (hwas j)
      · rw [u.driftWord_of_drifted (by rw [hwas]; exact hold), hu]
        exact ⟨rfl, rfl⟩
      · exact hlast (by rw [hwas]; exact hnew)
      · exact Only.back driftPart_part (hback.trans driftPart_part rfl)

end Sys2Proof.Machine
end


section
/-!
# Programming the OTP, its locks and the trial overrides (R426 to R432)

Each command is refused by the first of its conditions that fails; the lemmas `exec_otpProgram_…`, `exec_lock_…` and `exec_shadow…` give what
follows once the conditions before are met.
-/
namespace Sys2Proof.Machine
open Sys2Proof

/-! ### A word programmed -/

section
variable {s : State} {o : Origin} {w : Byte} {d : Word64} {tj : Bool} {out : ProgOutcome}

theorem State.updOtp_congr {w : Nat} {f g : OtpWord → OtpWord} (h : f (s.otpWord w) = g (s.otpWord w)) : s.updOtp w f = s.updOtp w g := by
  have h' : f (tabGet OtpWord.init s.otp.words w) = g (tabGet OtpWord.init s.otp.words w) := h
  simp only [State.updOtp, tabUpd, h']

theorem State.updOtp_updOtp {w : Nat} {f g : OtpWord → OtpWord} (h : f (s.otpWord w) ≠ OtpWord.init) :
    (s.updOtp w f).updOtp w g = s.updOtp w fun x => g (f x) := by
  have h' : f (tabGet OtpWord.init s.otp.words w) ≠ OtpWord.init := h
  simp only [State.updOtp, tabUpd, tabGet_tabSet_self, tabSet_tabSet s.otp.words w _ h']

theorem State.otpBlocked_some (h : s.allWithdrawn = false ∨ tj = false) : s.otpBlocked tj = some 0x04 :=
  if_pos (by obtain h | h := h <;> simp [h])

theorem State.otpBlocked_none (h : ¬ (s.allWithdrawn = false ∨ tj = false)) : s.otpBlocked tj = none := by
  refine if_neg ?_
  rw [not_or, Bool.not_eq_false, Bool.not_eq_false] at h
  simp [h]

theorem OtpWord.blow_of_not_prog {x : OtpWord} (h : x.prog = false) :
    x.blow d out = { x with fuse := d &&& ~~~out.failData, check := otpCheck d &&& ~~~out.failCheck } := by
  obtain ⟨hfuse, hcheck⟩ : x.fuse = 0#64 ∧ x.check = 0#8 := by simpa [OtpWord.prog] using h
  simp [OtpWord.blow, hfuse, hcheck]

theorem and_not_of_disjoint {n : Nat} {a b : BitVec n} (h : a &&& b = 0#n) : a &&& ~~~b = a := by
  apply BitVec.eq_of_getLsbD_eq
  intro i hi
  have hbit := congrArg (BitVec.getLsbD · i) h
  simp only [BitVec.getLsbD_and, BitVec.getLsbD_zero] at hbit
  simp only [BitVec.getLsbD_and, BitVec.getLsbD_not, hi, decide_true, Bool.true_and]
  cases hx : a.getLsbD i <;> simp_all

theorem progVerified_eq : progVerified out d = decide (d &&& out.failData = 0#64 ∧ otpCheck d &&& out.failCheck = 0#8) := by
  rw [progVerified, Bool.decide_and]

theorem exec_otpProgram (htakes : s.takes o (.otpProgram o w d tj out) = true) :
    exec (.otpProgram o w d tj out) s =
      let t := s.begun o
      if d = 0#64 then .next (t.complete o 0x41 0x03 0)
      else match t.otpBlocked tj with
        | some st => .next (t.complete o 0x41 st 0)
        | none =>
          if t.wlOn (w.toNat / 16) then .next (t.complete o 0x41 0x40 0)
          else if (t.otpWord w.toNat).prog then .next (t.complete o 0x41 0x41 0)
          else
            let u := t.updOtp w.toNat fun x => x.blow d out
            match out.loss with
            | some p => .next (u.powerLost p)
            | none =>
              if progVerified out d then
                .next ((u.updOtp w.toNat fun x => { x with val := d, shadow := if x.ovr then x.shadow else d }).complete o 0x41 0x00
                  (max 1 (min 5 out.pulses)))
              else .next (u.complete o 0x41 0x42 5) := by
  change execOtpProgram o w d tj out s = _
  rw [execOtpProgram, State.command_of_takes htakes]
  rfl

section
variable (hd : d ≠ 0#64) (hup : ¬ ((s.begun o).allWithdrawn = false ∨ tj = false)) (hlock : (s.begun o).wlOn (w.toNat / 16) = false)
  (hprog : ((s.begun o).otpWord w.toNat).prog = false) (htakes : s.takes o (.otpProgram o w d tj out) = true)
include hd hup hlock hprog htakes

/-- The pulses of a word that nothing keeps from being programmed. -/
theorem exec_otpProgram_blows :
    exec (.otpProgram o w d tj out) s =
      let u := (s.begun o).updOtp w.toNat fun x => { x with fuse := d &&& ~~~out.failData, check := otpCheck d &&& ~~~out.failCheck }
      match out.loss with
      | some p => .next (u.powerLost p)
      | none =>
        if progVerified out d then
          .next ((u.updOtp w.toNat fun x => { x with val := d, shadow := if x.ovr then x.shadow else d }).complete o 0x41 0x00
            (max 1 (min 5 out.pulses)))
        else .next (u.complete o 0x41 0x42 5) := by
  rw [exec_otpProgram htakes]
  dsimp only
  rw [if_neg hd, State.otpBlocked_none hup]
  dsimp only
  rw [hlock, hprog, State.updOtp_congr (f := fun x => x.blow d out) (g := fun x => { x with fuse := _, check := _ }) (OtpWord.blow_of_not_prog hprog)]
  rfl

theorem exec_otpProgram_verified (hloss : out.loss = none) (hgood : d &&& out.failData = 0#64 ∧ otpCheck d &&& out.failCheck = 0#8) :
    exec (.otpProgram o w d tj out) s = .next (((s.begun o).updOtp w.toNat fun x => { x with
      fuse := d, check := otpCheck d, val := d, shadow := if x.ovr then x.shadow else d }).complete o 0x41 0x00 (max 1 (min 5 out.pulses))) := by
  have hfuse : d &&& ~~~out.failData = d := and_not_of_disjoint hgood.1
  have hcheck : otpCheck d &&& ~~~out.failCheck = otpCheck d := and_not_of_disjoint hgood.2
  rw [exec_otpProgram_blows hd hup hlock hprog htakes, hloss, progVerified_eq, decide_eq_true hgood, hfuse, hcheck]
  dsimp only
  rw [if_pos rfl, State.updOtp_updOtp fun h => hd (congrArg OtpWord.fuse h)]

theorem exec_otpProgram_unverified (hloss : out.loss = none) (hbad : ¬ (d &&& out.failData = 0#64 ∧ otpCheck d &&& out.failCheck = 0#8)) :
    exec (.otpProgram o w d tj out) s = .next (((s.begun o).updOtp w.toNat fun x => { x with
      fuse := d &&& ~~~out.failData, check := otpCheck d &&& ~~~out.failCheck }).complete o 0x41 0x42 5) := by
  rw [exec_otpProgram_blows hd hup hlock hprog htakes, hloss, progVerified_eq, decide_eq_false hbad]
  rfl

theorem exec_otpProgram_loss {p : PowerLoss} (hloss : out.loss = some p) :
    exec (.otpProgram o w d tj out) s = .next (((s.begun o).updOtp w.toNat fun x => { x with
      fuse := d &&& ~~~out.failData, check := otpCheck d &&& ~~~out.failCheck }).powerLost p) := by
  rw [exec_otpProgram_blows hd hup hlock hprog htakes, hloss]
end
end

/-! ### The locks -/

theorem getLsbD_setBit_self {n i : Nat} (v : BitVec n) (b : Bool) (hi : i < n) : (setBit v i b).getLsbD i = b := by
  have hone : (BitVec.ofNat n (1 <<< i)).getLsbD i = true := by
    rw [BitVec.getLsbD_ofNat, Nat.one_shiftLeft, Nat.testBit_two_pow]
    simp [hi]
  cases b <;> simp [setBit, hone, hi]

/-- What a lock of one kind leaves, both kinds: the copies with those that verify and those that read as blown, the lock by their vote. -/
def State.writeLocked (s : State) (r : Nat) (copies : LockOutcome) : State :=
  let was := tabGet 0#3 s.otp.wlCopies r
  let n := was ||| copies.verified ||| copies.seen
  { s with otp := { s.otp with
    wlCopies := tabSet 0#3 s.otp.wlCopies r n
    wl := setBit s.otp.wl r (decide (2 ≤ blownCopies n))
    voteSplit := s.otp.voteSplit || (decide (n ≠ 0#3) && decide (n ≠ 7#3)) || decide (blownCopies (was ||| copies.verified) = 2) } }

def State.readLocked (s : State) (r : Nat) (copies : LockOutcome) : State :=
  let was := tabGet 0#3 s.otp.rlCopies r
  let n := was ||| copies.verified ||| copies.seen
  { s with otp := { s.otp with
    rlCopies := tabSet 0#3 s.otp.rlCopies r n
    rl := setBit s.otp.rl r (decide (2 ≤ blownCopies n))
    voteSplit := s.otp.voteSplit || (decide (n ≠ 0#3) && decide (n ≠ 7#3)) || decide (blownCopies (was ||| copies.verified) = 2) } }

section
variable {s : State} {o : Origin} {w : Byte} {tj : Bool} {pulses : Nat} {copies : LockOutcome}

theorem exec_writeLock (htakes : s.takes o (.writeLock o w tj pulses copies) = true) :
    exec (.writeLock o w tj pulses copies) s =
      let t := s.begun o
      if 15 < w.toNat then .next (t.complete o 0x41 0x03 0)
      else match t.otpBlocked tj with
        | some st => .next (t.complete o 0x41 st 0)
        | none => .next (t.programLock o w.toNat false pulses copies) := by
  change execWriteLock o w tj pulses copies s = _
  rw [execWriteLock, State.command_of_takes htakes]
  rfl

theorem exec_readLock (htakes : s.takes o (.readLock o w tj pulses copies) = true) :
    exec (.readLock o w tj pulses copies) s =
      let t := s.begun o
      if 15 < w.toNat then .next (t.complete o 0x41 0x03 0)
      else match t.otpBlocked tj with
        | some st => .next (t.complete o 0x41 st 0)
        | none => .next (t.programLock o w.toNat true pulses copies) := by
  change execReadLock o w tj pulses copies s = _
  rw [execReadLock, State.command_of_takes htakes]
  rfl

theorem State.programLock_inForce {r : Nat} {rd : Bool} (h : (if rd then s.rlOn r else s.wlOn r) = true) :
    s.programLock o r rd pulses copies = s.complete o 0x41 0x00 0 := if_pos h

theorem State.programLock_write {r : Nat} (hoff : s.wlOn r = false) (hloss : copies.loss = none) :
    s.programLock o r false pulses copies = (s.writeLocked r copies).complete o 0x41
      (if 2 ≤ blownCopies (tabGet 0#3 s.otp.wlCopies r ||| copies.verified) then 0x00 else 0x42) (max 1 (min 15 pulses)) := by
  refine (if_neg (by simp [hoff])).trans ?_
  dsimp only
  rw [hloss]
  rfl

theorem State.programLock_read {r : Nat} (hoff : s.rlOn r = false) (hloss : copies.loss = none) :
    s.programLock o r true pulses copies = (s.readLocked r copies).complete o 0x41
      (if 2 ≤ blownCopies (tabGet 0#3 s.otp.rlCopies r ||| copies.verified) then 0x00 else 0x42) (max 1 (min 15 pulses)) := by
  refine (if_neg (by simp [hoff])).trans ?_
  dsimp only
  rw [hloss]
  rfl
end

/-! ### Trial overrides -/

section
variable {s : State} {o : Origin} {w : Byte} {d : Word64}

theorem State.shadowBlocked_outside_bench {r : Nat} (h : s.pm.bench = false) : s.shadowBlocked r = some 0x43 := if_pos (by simp [h])

section
variable {r : Nat} (hbench : s.pm.bench = true)
include hbench

theorem State.shadowBlocked_region (h : r / 16 ≠ 3 ∧ (r / 16 < 8 ∨ 13 < r / 16)) : s.shadowBlocked r = some 0x44 := by
  refine (if_neg (by simp [hbench])).trans (if_pos ?_)
  simpa using h

theorem State.shadowBlocked_of_trial (h : r / 16 = 3 ∨ (8 ≤ r / 16 ∧ r / 16 ≤ 13)) :
    s.shadowBlocked r = if s.wlOn (r / 16) then some 0x40 else none := by
  refine (if_neg (by simp [hbench])).trans (if_neg ?_)
  simp only [Bool.and_eq_true, Bool.or_eq_true, decide_eq_true_eq]
  omega
end

theorem exec_otpShadowSet (htakes : s.takes o (.otpShadowSet o w d) = true) :
    exec (.otpShadowSet o w d) s =
      match (s.begun o).shadowBlocked w.toNat with
      | some st => .next ((s.begun o).complete o 0x42 st 0)
      | none => .next (((s.begun o).updOtp w.toNat fun x => { x with shadow := d, ovr := true }).complete o 0x42 0x00 0) := by
  change execOtpShadowSet o w d s = _
  rw [execOtpShadowSet, State.command_of_takes htakes]
  rfl

theorem exec_otpShadowRemove (htakes : s.takes o (.otpShadowRemove o w) = true) :
    exec (.otpShadowRemove o w) s =
      match (s.begun o).shadowBlocked w.toNat with
      | some st => .next ((s.begun o).complete o 0x42 st 0)
      | none => .next (((s.begun o).updOtp w.toNat fun x =>
          { x with shadow := if x.uncorr then 0#64 else x.val, ovr := false }).complete o 0x42 0x00 0) := by
  change execOtpShadowRemove o w s = _
  rw [execOtpShadowRemove, State.command_of_takes htakes]
  rfl

/-- Both actions of OTP_SHADOW while a condition of R431 fails. -/
theorem exec_otpShadow_blocked {st : Nat} (h : (s.begun o).shadowBlocked w.toNat = some st) :
    s.Gives o (.otpShadowSet o w d) ((s.begun o).answered o 0x42 st 0) ∧ s.Gives o (.otpShadowRemove o w) ((s.begun o).answered o 0x42 st 0) :=
  ⟨fun htakes => by rw [exec_otpShadowSet htakes, h]; rfl, fun htakes => by rw [exec_otpShadowRemove htakes, h]; rfl⟩
end

/-- Settles O32, condition by condition. -/
theorem otpProgrammingAndOverrides : Obligations.OtpProgrammingAndOverrides := by
  unfold Obligations.OtpProgrammingAndOverrides
  intro s0 o w d tj out pulses copies s x up lock good r
  refine ⟨fun hd htakes => ?_, fun hd hup htakes => ?_, fun hd hup hlock htakes => ?_, fun hd hup hlock hprog htakes => ?_,
    fun hd hup hlock hprog hloss hgood htakes => exec_otpProgram_verified hd hup hlock hprog htakes hloss hgood,
    fun hd hup hlock hprog hloss hbad htakes => exec_otpProgram_unverified hd hup hlock hprog htakes hloss hbad,
    fun hr => ⟨fun htakes => ?_, fun htakes => ?_⟩, fun hr hup => ⟨fun htakes => ?_, fun htakes => ?_⟩,
    fun p hd hup hlock hprog hloss htakes => exec_otpProgram_loss hd hup hlock hprog htakes hloss,
    fun hr hup hon htakes => ?_, fun hr hup hon htakes => ?_, fun hr hup hoff hloss => ?_, fun hr hup hoff hloss => ?_,
    fun hbench => exec_otpShadow_blocked (State.shadowBlocked_outside_bench hbench),
    fun hbench hregion => exec_otpShadow_blocked (State.shadowBlocked_region hbench hregion),
    fun hbench hregion hlock => exec_otpShadow_blocked ((State.shadowBlocked_of_trial hbench hregion).trans (if_pos hlock)),
    fun hbench hregion hlock => ?_⟩
  · rw [exec_otpProgram htakes]
    exact if_pos hd
  · rw [exec_otpProgram htakes]
    dsimp only
    rw [if_neg hd, State.otpBlocked_some hup]
    rfl
  · rw [exec_otpProgram htakes]
    dsimp only
    rw [if_neg hd, State.otpBlocked_none hup]
    exact if_pos hlock
  · rw [exec_otpProgram htakes]
    dsimp only
    rw [if_neg hd, State.otpBlocked_none hup]
    exact (if_neg (Bool.eq_false_iff.mp hlock)).trans (if_pos hprog)
  · rw [exec_writeLock htakes]
    exact if_pos hr
  · rw [exec_readLock htakes]
    exact if_pos hr
  · rw [exec_writeLock htakes]
    dsimp only
    rw [if_neg (Nat.not_lt.mpr hr), State.otpBlocked_some hup]
    rfl
  · rw [exec_readLock htakes]
    dsimp only
    rw [if_neg (Nat.not_lt.mpr hr), State.otpBlocked_some hup]
    rfl
  · rw [exec_writeLock htakes]
    dsimp only
    rw [if_neg (Nat.not_lt.mpr hr), State.otpBlocked_none hup]
    exact congrArg Host.Outcome.next (State.programLock_inForce hon)
  · rw [exec_readLock htakes]
    dsimp only
    rw [if_neg (Nat.not_lt.mpr hr), State.otpBlocked_none hup]
    exact congrArg Host.Outcome.next (State.programLock_inForce hon)
  · intro was n
    refine ⟨s.writeLocked r copies, if 2 ≤ blownCopies (was ||| copies.verified) then 0x00 else 0x42, fun htakes => ?_, ?_,
      tabGet_tabSet_self, by split <;> simp_all, by split <;> simp, fun htwo => ?_, rfl, rfl⟩
    · rw [exec_writeLock htakes]
      dsimp only
      rw [if_neg (Nat.not_lt.mpr hr), State.otpBlocked_none hup]
      exact congrArg Host.Outcome.next (State.programLock_write hoff hloss)
    · exact (Bool.eq_iff_iff.mp (getLsbD_setBit_self s.otp.wl _ (by omega))).trans decide_eq_true_iff
    · exact (Bool.or_eq_true _ _).mpr (.inr (decide_eq_true htwo))
  · intro was n
    refine ⟨s.readLocked r copies, if 2 ≤ blownCopies (was ||| copies.verified) then 0x00 else 0x42, fun htakes => ?_, ?_,
      tabGet_tabSet_self, by split <;> simp_all, by split <;> simp, fun htwo => ?_, rfl, rfl⟩
    · rw [exec_readLock htakes]
      dsimp only
      rw [if_neg (Nat.not_lt.mpr hr), State.otpBlocked_none hup]
      exact congrArg Host.Outcome.next (State.programLock_read hoff hloss)
    · exact (Bool.eq_iff_iff.mp (getLsbD_setBit_self s.otp.rl _ (by omega))).trans decide_eq_true_iff
    · exact (Bool.or_eq_true _ _).mpr (.inr (decide_eq_true htwo))
  · have hnone : s.shadowBlocked w.toNat = none :=
      (State.shadowBlocked_of_trial hbench hregion).trans (if_neg (Bool.eq_false_iff.mp hlock))
    exact ⟨fun htakes => by rw [exec_otpShadowSet htakes, hnone]; rfl, fun htakes => by rw [exec_otpShadowRemove htakes, hnone]; rfl⟩

end Sys2Proof.Machine
end


section
/-!
# The checks of FD that hold every output (R34, R36, R233, R236)

Each latches a mark of FD, and then goes through `fdGlobal`: every pair-stop bit in both lanes, every output held, a GLOBAL fault of every
zone that is up. Its event is lane A's, as a fault both lanes record (`State.raise_evqB`).
-/
namespace Sys2Proof.Machine
open Sys2Proof

/-! ### What a fault both lanes record leaves of the event queues -/

section
variable (s : State)

theorem State.setZoneSt_evqB (z : Nat) (st : ZoneSt) : (s.setZoneSt z st).evqB = s.evqB := by
  unfold State.setZoneSt
  dsimp only
  split
  · rfl
  · exact (congrArg State.evqB (State.postEvent_laneA _ _ _)).symm

theorem State.faultZone_evqB (z : Nat) : (s.faultZone z).evqB = s.evqB := by
  have hdrop (t : State) (l : Lane) (as : List Nat) : (t.dropLane l as).evqB = t.evqB := (congrArg State.evqB (t.dropLane_only l as)).symm
  have hoff (v : ZoneVer) : ((s.outputsOff (safeouts v.sec.blocks)).dropPts (couples v.sec.blocks)).evqB = s.evqB :=
    (congrArg State.evqB (State.dropPts_only _ _)).symm.trans (congrArg State.evqB (s.outputsOff_only _)).symm
  unfold State.faultZone
  dsimp only
  rw [State.setZoneSt_evqB]
  split
  · next v _ =>
    split
    · split
      · exact (hdrop _ _ _).trans ((hdrop _ _ _).trans (hoff v))
      · exact (hdrop _ _ _).trans (hoff v)
    · split
      · exact (hdrop _ _ _).trans (hoff v)
      · exact hoff v
  · rfl

/-- The event of a record that lane A reports is lane A's. -/
theorem State.reportRec_evqB {k : Nat} {r : FaultRec} (hrec : s.frec k = some r) (ha : r.laneA = true) :
    (s.reportRec k).evqB = s.evqB := by
  unfold State.reportRec
  rw [hrec]
  dsimp only
  rw [if_pos ha]
  split
  · exact (congrArg State.evqB (State.postEvent_laneA _ _ _)).symm
  · rfl

theorem State.record_evqB (code : BitVec 16) (loc : BitVec 12) (lb : Bool) (d p : Nat) (zs : List Nat) :
    (s.record code loc true lb d p zs).evqB = s.evqB := by
  unfold State.record
  split
  · split
    · rfl
    · dsimp only
      exact State.reportRec_evqB _ (State.setRec_frec_self _ _ _) (Bool.or_true _)
  · split
    · rfl
    · dsimp only
      exact State.reportRec_evqB _ (State.setRec_frec_self _ _ _) rfl

theorem State.raise_evqB (code : BitVec 16) (loc : BitVec 12) (lb : Bool) (d p : Nat) (scope : List Nat) :
    (s.raise code loc true lb d p scope).evqB = s.evqB :=
  (State.record_evqB _ _ _ _ _ _ _).trans (foldl_keeps State.faultZone_evqB _ _)

theorem State.latchBit_evqB (l : Lane) (p : Nat) : (s.latchBit l p).evqB = s.evqB := by
  have hunload : (s.unload p).evqB = s.evqB := by
    refine foldl_keeps (P := State.evqB) (fun t e => ?_) s.zones s
    split
    · split <;> rfl
    · rfl
  unfold State.latchBit
  split
  · rfl
  · exact (congrArg State.evqB (State.dropPairPts_only _ l p)).symm.trans hunload

theorem State.latchAll_evqB (l : Lane) : (s.latchAll l).evqB = s.evqB :=
  foldl_keeps (P := State.evqB) (fun t p => t.latchBit_evqB l p) (List.range 36) s

/-! ### Every output held -/

/-- What FD's own checks change. -/
abbrev globalPart (s t : State) : State := { s with
  fd := t.fd, zones := t.zones, pairs := t.pairs, chans := t.chans, ptsA := t.ptsA, ptsB := t.ptsB, trans := t.trans,
  owed := t.owed, cat1 := t.cat1, fl := t.fl, evRings := t.evRings, evqA := t.evqA, hi := t.hi
  laneA := { s.laneA with toFd := t.laneA.toFd }, laneB := { s.laneB with toFd := t.laneB.toFd } }

theorem globalPart_part : Part globalPart := ⟨fun _ => rfl, fun _ _ _ => rfl⟩

/-- The same with the queue of lane B, whose events no such check raises. -/
abbrev globalPartB (s t : State) : State := { globalPart s t with evqB := t.evqB }

theorem globalPartB_part : Part globalPartB := ⟨fun _ => rfl, fun _ _ _ => rfl⟩

theorem Only.global_of_evqB {s t : State} (h : Only globalPartB s t) (hq : t.evqB = s.evqB) : Only globalPart s t := by
  unfold Only globalPartB at h
  rw [hq] at h
  exact h

/-- The latches and the holds of `fdGlobal`, before its fault. -/
def State.allStopped (s : State) : State := ((s.latchAll .a).latchAll .b).holdChans allChans

theorem State.fdGlobal_eq (code : BitVec 16) (d : Nat) :
    s.fdGlobal code d = s.allStopped.raise code noLoc true true d 0 s.zonesUp := rfl

theorem State.allStopped_only : Only globalPartB s s.allStopped := by
  refine Only.trans globalPartB_part (t := (s.latchAll .a).latchAll .b) ?_ ((State.holdChans_only _ _).mono fun _ _ => rfl)
  exact Only.trans globalPartB_part ((s.latchAll_only .a).mono fun _ _ => rfl) ((State.latchAll_only _ .b).mono fun _ _ => rfl)

theorem State.allStopped_rest : s.allStopped.zones = ((s.latchAll .a).latchAll .b).zones ∧
    s.allStopped.pairs = ((s.latchAll .a).latchAll .b).pairs ∧ s.allStopped.evqB = ((s.latchAll .a).latchAll .b).evqB ∧
    s.allStopped.fd = ((s.latchAll .a).latchAll .b).fd := by
  unfold State.allStopped
  generalize (s.latchAll .a).latchAll .b = u
  rw [← State.holdChans_only]
  exact ⟨rfl, rfl, rfl, rfl⟩

theorem State.allStopped_zone_st (z : Nat) : (s.allStopped.zone z).st = (s.zone z).st := by
  have hzone : s.allStopped.zone z = ((s.latchAll .a).latchAll .b).zone z := congrArg (tabGet Zone.init · z) s.allStopped_rest.1
  rw [hzone, State.latchAll_zone_st, State.latchAll_zone_st]

theorem State.allStopped_pair (p : Fin 36) : s.allStopped.pair p = ((s.pair p).latched .a).latched .b := by
  have hpair : s.allStopped.pair p = ((s.latchAll .a).latchAll .b).pair p := congrArg (tabGet Pair.init · p) s.allStopped_rest.2.1
  rw [hpair, State.latchAll_pair _ _ p.isLt, State.latchAll_pair _ _ p.isLt]

theorem State.fdGlobal_only (code : BitVec 16) (d : Nat) : Only globalPart s (s.fdGlobal code d) := by
  refine Only.global_of_evqB ?_ ?_
  · rw [State.fdGlobal_eq]
    exact Only.trans globalPartB_part s.allStopped_only ((State.raise_only _ _ _ _ _ _ _ _).mono fun _ _ => rfl)
  · rw [State.fdGlobal_eq, State.raise_evqB, s.allStopped_rest.2.2.1, State.latchAll_evqB, State.latchAll_evqB]

theorem State.fdGlobal_fd (code : BitVec 16) (d : Nat) : (s.fdGlobal code d).fd = s.fd := by
  have hlatch (u : State) (l : Lane) : (u.latchAll l).fd = u.fd := (congrArg State.fd (u.latchAll_only l)).symm
  rw [State.fdGlobal_eq, (State.raise_rest _ _ _ _ _ _ _ _).1, s.allStopped_rest.2.2.2, hlatch, hlatch]

theorem State.fdGlobal_stopped (code : BitVec 16) (d z : Nat) : ((s.fdGlobal code d).zone z).stopped := by
  rw [State.fdGlobal_eq]
  refine State.raise_stopped ?_
  rw [State.allStopped_zone_st]
  by_cases h : (s.zone z).st = .withdrawn
  · exact .inr h
  · exact .inl (State.mem_zonesUp h)

theorem State.fdGlobal_pair (code : BitVec 16) (d : Nat) (p : Fin 36) :
    ((s.fdGlobal code d).pair p).stopA = true ∧ ((s.fdGlobal code d).pair p).stopB = true := by
  rw [State.fdGlobal_eq, State.raise_pair, State.allStopped_pair]
  exact ⟨(Pair.latched_stop .b _).2.trans (Pair.latched_stop .a _).1, (Pair.latched_stop .b _).1⟩

theorem State.conducts_of_globalHold {s : State} (h : s.fd.globalHold = true) (n : Nat) : s.conducts n = false := by
  have hheld : s.held (s.setHead n) = true := by simp [State.held, h]
  rw [State.conducts, State.swClosed_of_held _ hheld, Bool.false_and]
end

/-- What a check of FD that finds its condition leaves, `f` the mark it latches. -/
theorem State.fdGlobal_stops (s : State) (f : Fd → Fd) (code : BitVec 16) (d : Nat) (hmark : (f s.fd).globalHold = true) :
    let t := (s.updFd f).fdGlobal code d
    t.fd = f s.fd ∧ t.fd.globalHold = true ∧ (∀ n, t.conducts n = false) ∧ (∀ z, (t.zone z).stopped) ∧
      (∀ p : Fin 36, (t.pair p).stopA = true ∧ (t.pair p).stopB = true) ∧
      { t with fd := s.fd, zones := s.zones, pairs := s.pairs, chans := s.chans, ptsA := s.ptsA, ptsB := s.ptsB, trans := s.trans,
               owed := s.owed, cat1 := s.cat1, fl := s.fl, evRings := s.evRings, evqA := s.evqA, hi := s.hi,
               laneA := { t.laneA with toFd := s.laneA.toFd }, laneB := { t.laneB with toFd := s.laneB.toFd } } = s := by
  intro t
  have hfd : t.fd = f s.fd := State.fdGlobal_fd _ _ _
  have hold : t.fd.globalHold = true := by rw [hfd, hmark]
  exact ⟨hfd, hold, State.conducts_of_globalHold hold, State.fdGlobal_stopped _ _ _, State.fdGlobal_pair _ _ _,
    Only.back globalPart_part (Only.trans globalPart_part (t := s.updFd f) rfl (State.fdGlobal_only _ _ _))⟩

/-! ### The checks -/

section
variable {s : State}

theorem State.ownersDiffer_iff : s.ownersDiffer = true ↔
    ∃ n : Fin 64, ((s.chan n).pend .a = none ∧ (s.chan n).pend .b = none) ∧ (s.chan n).own .a ≠ (s.chan n).own .b := by
  unfold State.ownersDiffer
  rw [Bool.not_eq_true', List.isEmpty_eq_false_iff_exists_mem]
  simp only [mem_below, Bool.and_eq_true, Option.isNone_iff_eq_none, decide_eq_true_eq]
  exact ⟨fun ⟨n, hn, h⟩ => ⟨⟨n, hn⟩, h⟩, fun ⟨n, h⟩ => ⟨n, n.isLt, h⟩⟩

theorem State.changeDone_iff {q : OwnChange} : s.changeDone q = true ↔
    ∃ x y, q.entry .a = some x ∧ q.entry .b = some y ∧ x.new = y.new ∧ x.boundary = y.boundary ∧
      (s.chan q.ch).pend .a ≠ some x ∧ (s.chan q.ch).pend .b ≠ some y := by
  unfold State.changeDone
  cases ha : q.entry .a with
  | none => simp
  | some x =>
    cases hb : q.entry .b with
    | none => simp
    | some y => simp [and_assoc]
end

/-- Settles O50, check by check. -/
theorem fieldDieStopsEveryOutput : Obligations.FieldDieStopsEveryOutput := by
  unfold Obligations.FieldDieStopsEveryOutput
  intro s all settled done
  refine ⟨fun hsame => ?_, fun hdiff => ?_, fun hnone => ?_, fun q r hq => ⟨fun hdone => ?_, fun hdone => ?_⟩, fun hdorm => ⟨fun l => ?_, fun x => ?_⟩,
    fun hawake => ⟨fun l => ?_, fun x hx => ?_, fun x hx => ?_⟩⟩
  · refine if_neg fun h => ?_
    obtain ⟨n, hn, hne⟩ := State.ownersDiffer_iff.mp h
    exact hne (hsame n hn)
  · obtain ⟨hfd, hrest⟩ := s.fdGlobal_stops (fun f => { f with ownDisagree := true }) 0x5002#16 0 rfl
    exact ⟨_, if_pos (State.ownersDiffer_iff.mpr hdiff), by rw [hfd], hrest⟩
  · change execPendingOwnershipTimeout s = _
    rw [execPendingOwnershipTimeout, hnone]
    rfl
  · change execPendingOwnershipTimeout s = _
    rw [execPendingOwnershipTimeout, hq]
    exact if_pos (State.changeDone_iff.mpr hdone)
  · obtain ⟨hfd, hrest⟩ := s.fdGlobal_stops (fun f => { f with changes := r, ownDisagree := true }) 0x5002#16 0 rfl
    refine ⟨_, ?_, by rw [hfd], by rw [hfd], hrest⟩
    change execPendingOwnershipTimeout s = _
    rw [execPendingOwnershipTimeout, hq]
    exact if_neg fun h => hdone (State.changeDone_iff.mp h)
  · exact congrArg Host.Outcome.next (if_pos hdorm)
  · exact if_neg (by simp [hdorm])
  · have hexec (t : State) (ht : s.sbLost l = t) : exec (.sbHeartbeatLost l) s = .next t :=
      congrArg Host.Outcome.next ((if_neg (by simp [hawake])).trans ht)
    cases l with
    | a =>
      obtain ⟨hfd, hrest⟩ := s.fdGlobal_stops (fun f => { f with hbALost := true }) 0x5003#16 0 (by simp [Fd.globalHold])
      exact ⟨_, hexec _ rfl, congrArg Fd.hbALost hfd, hrest⟩
    | b =>
      obtain ⟨hfd, hrest⟩ := s.fdGlobal_stops (fun f => { f with hbBLost := true }) 0x5003#16 0 (by simp [Fd.globalHold])
      exact ⟨_, hexec _ rfl, congrArg Fd.hbBLost hfd, hrest⟩
  · exact if_neg (by simp [hx])
  · obtain ⟨hfd, hrest⟩ := s.fdGlobal_stops (fun f => { f with oscFault := true }) 0x5005#16 0 (by simp [Fd.globalHold])
    exact ⟨_, if_pos (by simp [hawake, hx]), by rw [hfd], hrest⟩

end Sys2Proof.Machine
end


section
/-!
# The end of a clean pass (R51, R52, R71, R79, R131)

A pass that ends with nothing wrong goes through `passGood`: the pair shows its figures, each zone it stepped takes its results
(`State.applyZone`), and a zone ZONE_RESTART waits for goes back to ARMED (`State.rearm`). With no operation in progress nothing else does.
-/
namespace Sys2Proof.Machine
open Sys2Proof

/-! ### Parts of the state -/

/-- What the results of a pass change: what a fault of zones changes but the records. -/
theorem State.diagEvent_only (s : State) (z n : Nat) (old r : BlockRt) : Only evPart s (s.diagEvent z n old r).1 := by
  unfold State.diagEvent
  split
  · split
    · exact State.postEvent_only s _ _ _
    · rfl
  · rfl

/-- One block's turn in `diagEvents`. -/
def diagStep (z : Nat) (v : ZoneVer) (rts : List BlockRt) (a : State × List BlockRt) (n : Nat) : State × List BlockRt :=
  ((a.1.diagEvent z n (v.rt.getD n {}) (rts.getD n {})).1, a.2 ++ [(a.1.diagEvent z n (v.rt.getD n {}) (rts.getD n {})).2])

theorem State.diagEvents_eq (s : State) (z : Nat) (v : ZoneVer) (rts : List BlockRt) :
    s.diagEvents z v rts = (List.range rts.length).foldl (diagStep z v rts) (s, []) := rfl

theorem foldl_diagStep_only (z : Nat) (v : ZoneVer) (rts : List BlockRt) (ns : List Nat) (a : State × List BlockRt) :
    Only evPart a.1 (ns.foldl (diagStep z v rts) a).1 := by
  induction ns generalizing a with
  | nil => exact Only.refl evPart_part a.1
  | cons n ns ih => exact Only.trans evPart_part (State.diagEvent_only a.1 z n _ _) (ih (diagStep z v rts a n))

theorem State.diagEvents_only (s : State) (z : Nat) (v : ZoneVer) (rts : List BlockRt) : Only evPart s (s.diagEvents z v rts).1 :=
  foldl_diagStep_only z v rts _ (s, [])

/-- An event of a block leaves its command. -/
theorem State.diagEvent_c (s : State) (z n : Nat) (old r : BlockRt) : (s.diagEvent z n old r).2.c = r.c := by
  unfold State.diagEvent
  split
  · split <;> rfl
  · rfl

theorem foldl_diagStep_c (z : Nat) (v : ZoneVer) (rts : List BlockRt) (ns : List Nat) (a : State × List BlockRt) :
    (ns.foldl (diagStep z v rts) a).2.map BlockRt.c = a.2.map BlockRt.c ++ ns.map fun n => (rts.getD n {}).c := by
  induction ns generalizing a with
  | nil => simp
  | cons n ns ih =>
    rw [List.foldl_cons, ih]
    simp [diagStep, State.diagEvent_c]

theorem State.diagEvents_c (s : State) (z : Nat) (v : ZoneVer) (rts : List BlockRt) (n : Nat) :
    ((s.diagEvents z v rts).2.getD n {}).c = (rts.getD n {}).c := by
  have hmap : (s.diagEvents z v rts).2.map BlockRt.c = (List.range rts.length).map fun n => (rts.getD n {}).c :=
    foldl_diagStep_c z v rts _ (s, [])
  have hlen := congrArg List.length hmap
  simp only [List.length_map, List.length_range] at hlen
  by_cases hn : n < rts.length
  · have hget := congrArg (·[n]?) hmap
    simp only [List.getElem?_map, List.getElem?_range hn, List.getElem?_eq_getElem (hlen.symm ▸ hn : n < (s.diagEvents z v rts).2.length),
      Option.map_some, Option.some.injEq] at hget
    rw [List.getD_eq_getElem _ _ (hlen.symm ▸ hn)]
    exact hget
  · rw [List.getD_eq_default _ _ (by omega), List.getD_eq_default _ _ (by omega)]

theorem State.driveOut_only (s : State) (t : Target) (cat dl : Nat) (was on demand withdraw cut : Bool) :
    Only outPart s (s.driveOut t cat dl was on demand withdraw cut) := by
  unfold State.driveOut
  split
  · split
    · rfl
    · cases t with
      | chan n => exact Only.trans outPart_part (State.commandLane_only s .a _ _) (State.commandLane_only _ .b _ _)
      | point a =>
        have howe (u : State) (l : Lane) : Only outPart u (u.owe l a) := by
          unfold State.owe
          split <;> rfl
        exact Only.trans outPart_part (howe s .a) (howe _ .b)
  · split
    · cases t with
      | chan n => exact Only.trans outPart_part (State.commandLane_only s .a _ _) (State.commandLane_only _ .b _ _)
      | point a => rfl
    · rfl

theorem State.lateEvents_only (s : State) (z : Nat) : Only zonePart s (s.lateEvents z) := by
  unfold State.lateEvents
  split
  · rfl
  · exact Only.trans zonePart_part ((State.diagEvents_only s z _ _).mono fun _ _ => rfl) rfl

/-! ### A zone takes the results of its pass -/

/-- The state a zone takes of its pass, the blocks with their commands, and the block once the output stage has acted on them. -/
def State.nextOf (s : State) (z : Nat) (v : ZoneVer) (rts : List BlockRt) : ZoneSt :=
  nextSt (s.zone z).st v.sec.auto (v.demands rts) (v.edge rts) (s.cat1Zone z) ((s.zone z).holdRestart || (s.zone z).wd.isSome)

def State.cmdsOf (s : State) (z : Nat) (v : ZoneVer) (rts : List BlockRt) : List BlockRt :=
  s.commands v rts (decide (s.nextOf z v rts = .running) && !(s.zone z).wd.isSome)

/-- The output stage on one block of a version. -/
def outStep (y : Zone) (v : ZoneVer) (demand : Bool) (cmds : List BlockRt) (t : State) (n : Nat) : State :=
  match (v.sec.blocks[n]?).map fun b => b.kind with
  | some (BlockKind.safeout g cat dl _) =>
    t.driveOut g cat dl (!v.first && (v.rt.getD n {}).c) (cmds.getD n {}).c demand y.wd.isSome
      (match y.wd with
        | some w => w.dropped
        | none => false)
  | _ => t

def State.outStage (s : State) (z : Nat) (v : ZoneVer) (rts : List BlockRt) : State :=
  let e := s.diagEvents z v (s.cmdsOf z v rts)
  (List.range e.2.length).foldl (outStep (s.zone z) v (v.demands rts) e.2) e.1

/-- A zone with the results of its pass, but for its state. -/
def Zone.passed (y : Zone) (demand : Bool) (cmds : List BlockRt) : Zone :=
  { y with demand := demand, active := y.active.map fun u => { u.setRt cmds with first := false } }

theorem State.applyZone_eq (s : State) (z : Nat) (v : ZoneVer) (rts : List BlockRt) :
    s.applyZone z v rts = (((s.outStage z v rts).updZone z fun y =>
      y.passed (v.demands rts) (s.diagEvents z v (s.cmdsOf z v rts)).2).setZoneSt z (s.nextOf z v rts)).lateEvents z := rfl

section
variable (s : State) (z : Nat) (v : ZoneVer) (rts : List BlockRt)

theorem outStep_only (y : Zone) (demand : Bool) (cmds : List BlockRt) (t : State) (n : Nat) : Only outPart t (outStep y v demand cmds t n) := by
  unfold outStep
  split
  · exact State.driveOut_only t _ _ _ _ _ _ _ _
  · rfl

theorem State.outStage_only : Only fzPart s (s.outStage z v rts) :=
  Only.trans fzPart_part ((State.diagEvents_only s z v _).mono fun _ _ => rfl)
    ((Only.foldl outPart_part (fun t n => outStep_only v _ _ _ t n) _ _).mono fun _ _ => rfl)

theorem State.applyZone_only : Only fzPart s (s.applyZone z v rts) := by
  rw [State.applyZone_eq]
  refine Only.trans fzPart_part ?_ ((State.lateEvents_only _ z).mono fun _ _ => rfl)
  refine Only.trans fzPart_part ?_ ((State.setZoneSt_only _ z _).mono fun _ _ => rfl)
  exact Only.trans fzPart_part (s.outStage_only z v rts) rfl

theorem State.outStage_zone (j : Nat) : (s.outStage z v rts).zone j = s.zone j := by
  have hout : (s.outStage z v rts).zones = (s.diagEvents z v (s.cmdsOf z v rts)).1.zones :=
    (congrArg State.zones (Only.foldl outPart_part (fun t n => outStep_only v _ _ _ t n) _ _)).symm
  have hdiag : (s.diagEvents z v (s.cmdsOf z v rts)).1.zones = s.zones := (congrArg State.zones (s.diagEvents_only z v _)).symm
  exact congrArg (tabGet Zone.init · j) (hout.trans hdiag)

theorem State.lateEvents_zone_ne {j : Nat} (h : j ≠ z) : (s.lateEvents z).zone j = s.zone j := by
  unfold State.lateEvents
  split
  · rfl
  · refine (State.updZone_zone_ne _ _ _ _ h).trans ?_
    exact congrArg (tabGet Zone.init · j) (congrArg State.zones (State.diagEvents_only s z _ _)).symm

/-- The RETAINED version's late events leave the zone all but that version. -/
theorem State.lateEvents_zone_self : ∃ x, (s.lateEvents z).zone z = { s.zone z with retained := x } := by
  unfold State.lateEvents
  split
  · exact ⟨_, rfl⟩
  · next v _ =>
    refine ⟨some (s.storeRt z v v.rt v.rtB).2, (State.updZone_zone_self _ _ _).trans ?_⟩
    exact congrArg (fun y : Zone => { y with retained := some (s.storeRt z v v.rt v.rtB).2 }) (congrArg (tabGet Zone.init · z) (congrArg State.zones (State.diagEvents_only s z _ _)).symm)

theorem State.applyZone_zone_ne {j : Nat} (h : j ≠ z) : (s.applyZone z v rts).zone j = s.zone j := by
  rw [State.applyZone_eq, State.lateEvents_zone_ne _ _ h, State.setZoneSt_zone_ne _ _ _ h, State.updZone_zone_ne _ _ _ _ h, State.outStage_zone]

theorem State.applyZone_zone_self : ∃ x, (s.applyZone z v rts).zone z =
    { (s.zone z).passed (v.demands rts) (s.diagEvents z v (s.cmdsOf z v rts)).2 with st := s.nextOf z v rts, retained := x } := by
  rw [State.applyZone_eq]
  obtain ⟨x, hx⟩ := State.lateEvents_zone_self (((s.outStage z v rts).updZone z fun y =>
      y.passed (v.demands rts) (s.diagEvents z v (s.cmdsOf z v rts)).2).setZoneSt z (s.nextOf z v rts)) z
  refine ⟨x, ?_⟩
  rw [hx, State.setZoneSt_zone_self, State.updZone_zone_self, State.outStage_zone]

/-- The command of a SAFEOUT is off where its zone does not run. -/
theorem State.cmdsOf_c_of_not_running (h : s.nextOf z v rts ≠ .running) {n : Nat} {b : Block} {g : Target} {c d x : Nat}
    (hb : v.sec.blocks[n]? = some b) (hk : b.kind = .safeout g c d x) : ((s.cmdsOf z v rts).getD n {}).c = false := by
  by_cases hn : n < rts.length
  · simp [State.cmdsOf, State.commands, List.getD, hn, hb, hk, h]
  · rw [List.getD_eq_default _ _ (by simpa [State.cmdsOf, State.commands] using hn)]
end

/-! ### A zone goes back to ARMED -/

/-- The results of a pass: what they change, with the completions of ZONE_RESTART. -/
abbrev resultPart (s t : State) : State := { s with
  ptsA := t.ptsA, ptsB := t.ptsB, trans := t.trans, owed := t.owed, cat1 := t.cat1, zones := t.zones, rings := t.rings
  evRings := t.evRings, evqA := t.evqA, evqB := t.evqB, hi := t.hi
  laneA := { s.laneA with toFd := t.laneA.toFd }, laneB := { s.laneB with toFd := t.laneB.toFd } }

theorem resultPart_part : Part resultPart := ⟨fun _ => rfl, fun _ _ _ => rfl⟩

section
variable (s : State) (z : Nat)

theorem State.foldl_complete_only (os : List Origin) (res : Nat) (t : State) :
    Only ringPart t (os.foldl (fun t o => t.complete o 0x14 stSuccess res) t) :=
  Only.foldl (f := fun t o => t.complete o 0x14 stSuccess res) ringPart_part
    (fun t o => t.completion_only o.ring.val o.cid.toNat 0x14 stSuccess false res) os t

theorem State.rearm_only : Only resultPart s (s.rearm z) := by
  unfold State.rearm
  dsimp only
  split
  · refine Only.trans resultPart_part ?_ ((State.foldl_complete_only _ _ _).mono fun _ _ => rfl)
    exact Only.trans resultPart_part (t := s.updZone z _) rfl ((State.setZoneSt_only _ _ _).mono fun _ _ => rfl)
  · rfl

theorem State.rearm_of_not_faulted (h : (s.zone z).st ≠ .faulted) : s.rearm z = s := if_neg (by simp [h])

theorem State.rearm_zone_ne {j : Nat} (h : j ≠ z) : (s.rearm z).zone j = s.zone j := by
  unfold State.rearm
  dsimp only
  split
  · refine (congrArg (tabGet Zone.init · j) (congrArg State.zones (State.foldl_complete_only _ _ _)).symm).trans ?_
    exact (State.setZoneSt_zone_ne _ z _ h).trans (State.updZone_zone_ne _ _ _ _ h)
  · rfl

theorem State.foldl_rearm_zone (zs : List Nat) {j : Nat} (h : (s.zone j).st ≠ .faulted) : (zs.foldl State.rearm s).zone j = s.zone j := by
  induction zs generalizing s with
  | nil => rfl
  | cons z zs ih =>
    have hone : (s.rearm z).zone j = s.zone j := by
      by_cases hj : j = z
      · rw [State.rearm_of_not_faulted s z (hj ▸ h)]
      · exact s.rearm_zone_ne z hj
    rw [List.foldl_cons, ih _ (by rw [hone]; exact h), hone]
end

/-! ### A pass with no operation in progress -/

/-- The pair after a clean pass. -/
def Pair.clean (q : Pair) (r : Running) (res : List (Nat × ZoneVer × List BlockRt)) (t : Nat) : Pair :=
  { ((q.delayed 0 res).inject true).passed r res t with run := none, codeA := flipCode q.codeA, codeB := flipCode q.codeB }

theorem Pair.clean_spec (q : Pair) (r : Running) (res : List (Nat × ZoneVer × List BlockRt)) (t : Nat) :
    (q.clean r res t).run = none ∧ (q.clean r res t).lastPass = r.num ∧ (q.clean r res t).lastTime = t ∧
    (q.clean r res t).maxTime = max q.maxTime t ∧ (q.clean r res t).role = q.role ∧ (q.clean r res t).codeA = flipCode q.codeA ∧
    (q.clean r res t).codeB = flipCode q.codeB ∧ (q.clean r res t).injOk = (if q.injDue then q.injOk + 1#16 else q.injOk) ∧
    (q.clean r res t).injDue = false ∧ (q.clean r res t).injDueB = false ∧ (q.clean r res t).stopA = q.stopA ∧
    (q.clean r res t).stopB = q.stopB := by
  unfold Pair.clean Pair.passed Pair.inject Pair.delayed
  cases q.injDue <;> cases q.injDueB <;> simp

theorem Pair.clean_haltBit (q : Pair) (r : Running) (res : List (Nat × ZoneVer × List BlockRt)) (t : Nat) :
    (q.clean r res t).haltBit = q.haltBit := by
  unfold Pair.clean Pair.passed Pair.inject Pair.delayed
  cases q.injDue <;> cases q.injDueB <;> rfl

/-- A zone of the pass takes its results. -/
def State.takeResult (t : State) (e : Nat × ZoneVer × List BlockRt) : State := t.applyZone e.1 e.2.1 e.2.2

theorem State.takeResult_only (t : State) (e : Nat × ZoneVer × List BlockRt) : Only fzPart t (t.takeResult e) := by
  unfold State.takeResult
  exact State.applyZone_only t e.1 e.2.1 e.2.2

/-- The zones the pass stepped take their results, and post with the pass. -/
def State.passResults (s : State) (p : Nat) (r : Running) (mine : List (Nat × ZoneVer × List BlockRt)) : State :=
  let t := mine.foldl State.takeResult s
  let pa := mine.flatMap fun e => t.posts e.1 .a
  let pb := mine.flatMap fun e => t.posts e.1 .b
  if pa.isEmpty then t else { t with trans := t.trans ++ [{
    body := .posted p r.num pa pb, repA := true, repB := true, okA := true, okB := true, since := t.now }] }

theorem State.passResults_only (s : State) (p : Nat) (r : Running) (mine : List (Nat × ZoneVer × List BlockRt)) :
    Only fzPart s (s.passResults p r mine) := by
  have hfold : Only fzPart s (mine.foldl State.takeResult s) := Only.foldl fzPart_part State.takeResult_only mine s
  unfold State.passResults
  dsimp only
  split
  · exact hfold
  · exact Only.trans fzPart_part hfold rfl

theorem State.passResults_zone (s : State) (p : Nat) (r : Running) (mine : List (Nat × ZoneVer × List BlockRt)) (j : Nat) :
    (s.passResults p r mine).zone j = (mine.foldl State.takeResult s).zone j := by
  unfold State.passResults
  dsimp only
  split <;> rfl

section
variable {s : State} {p : Fin 36} {r : Running} {info : PassInfo} {res : List (Nat × ZoneVer × List BlockRt)}

/-- The block after the pair has shown its figures. -/
def State.pairClean (s : State) (p : Nat) (r : Running) (res : List (Nat × ZoneVer × List BlockRt)) : State :=
  s.updPair p fun q => q.clean r res (min 65535 (s.since r.start))

/-- The results of a clean pass with no operation in progress, before what follows it. -/
def State.passDone (s : State) (p : Nat) (r : Running) (res : List (Nat × ZoneVer × List BlockRt)) : State :=
  let t := s.pairClean p r res
  if (s.pair p).role = .carrying || (s.pair p).role = .loading then
    (s.zonesOn p).foldl State.rearm (t.passResults p r (res.filter fun e => (s.zonesOn p).contains e.1))
  else t

theorem State.pairClean_pair_self : ∃ b c, (s.pairClean p r res).pair p =
    { (s.pair p).clean r res (min 65535 (s.since r.start)) with roleB := b, shiftB := c } := ⟨_, _, State.updPair_pair_self s p _⟩

theorem State.passDone_only : Only resultPart (s.pairClean p r res) (s.passDone p r res) := by
  unfold State.passDone
  dsimp only
  split
  · exact Only.trans resultPart_part ((State.passResults_only _ _ _ _).mono fun _ _ => rfl)
      (Only.foldl resultPart_part (fun t z => t.rearm_only z) _ _)
  · exact Only.refl resultPart_part _

theorem State.passDone_pair (j : Nat) : (s.passDone p r res).pair j = (s.pairClean p r res).pair j :=
  congrArg (tabGet Pair.init · j) (congrArg State.pairs State.passDone_only).symm

/-- What a pass does past its results: the copies of a migration, the operation in progress, a halt that waits. -/
theorem State.passGood_eq : s.passGood p r info res =
    let t := s.passDone p r res
    let c := t.passCopies (t.copiesOf p r.coupled) res
    let u := if c.1.isEmpty then t else t.updCopies fun _ => c.1
    let moved := if r.coupled && c.1.isEmpty then (match u.op with
      | some op => op.kind.copies
      | none => []) else []
    let u := u.opPass p r.coupled info.migMismatch (c.2.1 ++ moved.map (u.viewOf · .a)) (c.2.2 ++ moved.map (u.viewOf · .b))
    if (u.pair p).haltBit && (u.pair p).role != .halted then u.haltNow p else u := rfl

theorem State.passGood_of_idle (hidle : s.op = none) (hhalt : (s.pair p).haltBit = false) :
    s.passGood p r info res = s.passDone p r res := by
  have hop : (s.passDone p r res).op = none := (congrArg State.op State.passDone_only).symm.trans hidle
  have hbit : ((s.passDone p r res).pair p).haltBit = false := by
    obtain ⟨b, c, hpair⟩ := State.pairClean_pair_self (s := s) (p := p) (r := r) (res := res)
    rw [State.passDone_pair, hpair]
    exact ((s.pair p).clean_haltBit r res (min 65535 (s.since r.start))).trans hhalt
  rw [State.passGood_eq]
  generalize s.passDone p r res = t at hop hbit ⊢
  have hcopies : t.copiesOf p r.coupled = [] := by rw [State.copiesOf, hop]
  have hpass (c m : Bool) (va vb : List CopyView) : t.opPass p c m va vb = t := by rw [State.opPass, hop]
  dsimp only
  rw [hcopies]
  simp only [State.passCopies, List.map_nil, List.isEmpty_nil, if_true, hpass, hbit, Bool.false_and]
  rfl
end

/-! ### The headline: a zone that demands -/

/-- A zone that takes its results with its pass: the version it steps, ARMED, RUNNING or DEMANDED. -/
def Zone.steppedWith (y : Zone) (v : ZoneVer) : Prop := y.st.steps = true ∧ ∃ w, y.active = some w ∧ w.sec = v.sec

/-- A zone that has demanded in a pass: not RUNNING, its SAFEOUT commands off. -/
def Zone.demandedWith (y : Zone) (v : ZoneVer) : Prop :=
  (y.st = .armed ∨ y.st = .demanded) ∧ y.demand = true ∧ ∃ w, y.active = some w ∧ w.sec = v.sec ∧
    ∀ (n : Nat) (b : Block) (g : Target) (c dl x : Nat), v.sec.blocks[n]? = some b → b.kind = .safeout g c dl x → (w.rt.getD n {}).c = false

theorem Zone.demandedWith.steppedWith {y : Zone} {v : ZoneVer} (h : y.demandedWith v) : y.steppedWith v := by
  obtain ⟨hst, -, w, hw, hsec, -⟩ := h
  exact ⟨by obtain h | h := hst <;> rw [h] <;> rfl, w, hw, hsec⟩

/-- R51: what demands is ARMED or DEMANDED next. -/
theorem nextSt_of_demand {st : ZoneSt} (h : st.steps = true) (auto edge cat1 hold : Bool) :
    nextSt st auto true edge cat1 hold = .armed ∨ nextSt st auto true edge cat1 hold = .demanded := by
  cases st with
  | armed => exact .inl rfl
  | running => exact .inr rfl
  | demanded => exact .inr rfl
  | withdrawn => cases h
  | admitted => cases h
  | faulted => cases h

section
variable {s : State} {z : Nat} {v : ZoneVer} {rts : List BlockRt}

theorem State.applyZone_demanded (hy : (s.zone z).steppedWith v) (hdemand : v.demands rts = true) :
    ((s.applyZone z v rts).zone z).demandedWith v := by
  obtain ⟨hst, w, hw, hsec⟩ := hy
  obtain ⟨x, hx⟩ := s.applyZone_zone_self z v rts
  have hnext : s.nextOf z v rts = .armed ∨ s.nextOf z v rts = .demanded := by
    rw [State.nextOf, hdemand]
    exact nextSt_of_demand hst _ _ _ _
  have hstop : s.nextOf z v rts ≠ .running := by
    obtain h | h := hnext <;> rw [h] <;> decide
  rw [hx]
  refine ⟨hnext, hdemand, { w.setRt (s.diagEvents z v (s.cmdsOf z v rts)).2 with first := false }, ?_, hsec, fun n b g c dl x hb hk => ?_⟩
  · change Option.map _ (s.zone z).active = _
    rw [hw]
    rfl
  · exact (s.diagEvents_c z v _ n).trans (s.cmdsOf_c_of_not_running z v rts hstop hb hk)

theorem State.takeResult_keeps {t : State} {e : Nat × ZoneVer × List BlockRt} {P : Zone → Prop} (hz : P (t.zone z))
    (hself : e.1 = z → P ((t.takeResult e).zone z)) : P ((t.takeResult e).zone z) := by
  by_cases h : e.1 = z
  · exact hself h
  · rw [State.takeResult, State.applyZone_zone_ne _ _ _ _ (Ne.symm h)]
    exact hz

/-- The results of a pass, where every zone `z` among them comes with its one version and demands. -/
theorem State.foldl_takeResult_demanded (hdemand : v.demands rts = true) (mine : List (Nat × ZoneVer × List BlockRt))
    (hone : ∀ e ∈ mine, e.1 = z → e.2 = (v, rts)) (t : State) (ht : (t.zone z).steppedWith v)
    (hin : (z, v, rts) ∈ mine ∨ (t.zone z).demandedWith v) : ((mine.foldl State.takeResult t).zone z).demandedWith v := by
  induction mine generalizing t with
  | nil => exact hin.resolve_left (by simp)
  | cons e mine ih =>
    have hnow (h : e.1 = z) : ((t.takeResult e).zone z).demandedWith v := by
      obtain ⟨i, x⟩ := e
      obtain rfl : i = z := h
      obtain rfl : x = (v, rts) := hone (i, x) List.mem_cons_self rfl
      exact State.applyZone_demanded ht hdemand
    refine ih (fun x hx => hone x (List.mem_cons_of_mem _ hx)) (t.takeResult e)
      (State.takeResult_keeps (P := fun y => y.steppedWith v) ht fun h => (hnow h).steppedWith) ?_
    obtain hmem | hdone := hin
    · obtain heq | hmem := List.mem_cons.mp hmem
      · exact .inr (hnow (congrArg Prod.fst heq).symm)
      · exact .inl hmem
    · exact .inr (State.takeResult_keeps (P := fun y => y.demandedWith v) hdone hnow)
end

section
variable {s : State} {p : Fin 36} {r : Running} {info : PassInfo}

/-- The results of a pass: the zones it steps with their versions and what lane A makes of them. -/
def State.resultsOf (s : State) (p : Nat) (r : Running) : List (Nat × ZoneVer × List BlockRt) :=
  (s.stepped p r.coupled).map fun e => (e.1, e.2, s.evalA p e.2)

/-- A clean pass with no operation in progress. -/
theorem exec_passEnd_clean (hrun : (s.pair p).run = some r) (hidle : s.op = none) (hhalt : (s.pair p).haltBit = false)
    (hcauses : passCauses (s.pair p) (takenWords info (delayWords r (s.stepped p r.coupled)))
      ((s.stepped p r.coupled).any fun e => s.lanesDiffer p e.2) = []) :
    exec (.passEnd p info) s = .next (s.passDone p r (s.resultsOf p r)).settle := by
  have harm : s.armDue = s := by rw [State.armDue, hidle]
  rw [← State.passGood_of_idle hidle hhalt]
  change execPassEnd p info s = _
  rw [execPassEnd, hrun]
  dsimp only
  rw [harm, hcauses]
  rfl

/-- With no operation in progress a pass steps the zones of its pair alone, each with its ACTIVE version. -/
theorem State.mem_stepped (hidle : s.op = none) {c : Bool} {e : Nat × ZoneVer} (he : e ∈ s.stepped p c) :
    e.1 ∈ s.zonesOn p ∧ (s.zone e.1).st.steps = true ∧ (s.zone e.1).active = some e.2 := by
  have hcopies : s.copiesOf p c = [] := by rw [State.copiesOf, hidle]
  rw [State.stepped, hcopies, List.filterMap_nil, List.append_nil, List.mem_filterMap] at he
  obtain ⟨z, hz, he⟩ := he
  dsimp only at he
  split at he
  · next hst =>
    obtain ⟨v, hv, rfl⟩ := Option.map_eq_some_iff.mp he
    exact ⟨hz, hst, hv⟩
  · cases he
end

/-- Settles O54: the pass leaves the zone not RUNNING, and what follows the results leaves it so. -/
theorem demandEndsEveryCommand : Obligations.DemandEndsEveryCommand := by
  unfold Obligations.DemandEndsEveryCommand
  intro s p info r z v hrun hidle hhalt hrole hcauses hmem hdemand
  obtain ⟨hon, hst, hv⟩ := State.mem_stepped hidle hmem
  have hfold : (((s.pairClean p r (s.resultsOf p r)).passResults p r ((s.resultsOf p r).filter fun e => (s.zonesOn p).contains e.1)).zone z).demandedWith v := by
    rw [State.passResults_zone]
    refine State.foldl_takeResult_demanded hdemand _ (fun e he hz => ?_) _ ⟨hst, v, hv, rfl⟩ (.inl ?_)
    · obtain ⟨x, hx, rfl⟩ := List.mem_map.mp (List.mem_of_mem_filter he)
      obtain ⟨-, -, hactive⟩ := State.mem_stepped hidle hx
      obtain rfl : x.1 = z := hz
      have heq : x.2 = v := Option.some.inj (hactive.symm.trans hv)
      rw [heq]
    · exact List.mem_filter.mpr ⟨List.mem_map_of_mem hmem, by simpa using hon⟩
  have hzone : (s.passDone p r (s.resultsOf p r)).zone z =
      ((s.pairClean p r (s.resultsOf p r)).passResults p r ((s.resultsOf p r).filter fun e => (s.zonesOn p).contains e.1)).zone z := by
    rw [State.passDone, if_pos (by obtain h | h := hrole <;> simp [h])]
    refine State.foldl_rearm_zone _ _ ?_
    obtain ⟨h | h, -⟩ := hfold <;> (rw [h]; decide)
  obtain ⟨hnext, hdem, w, hw, hsec, hoff⟩ := hfold
  refine ⟨_, exec_passEnd_clean hrun hidle hhalt hcauses, ?_, ?_, w, ?_, hsec, hoff⟩
  · rw [hzone]
    obtain h | h := hnext <;> (rw [h]; decide)
  · rw [hzone, hdem]
  · rw [hzone, hw]

end Sys2Proof.Machine
end


section
/-!
# The end of a pass of a slice, and of a clean pass (R51, R52, R79, R88, R318, R339)

The faults a slice shows are raised one after the other; `State.foldl_raise_records` follows the records of a table that was empty.
-/
namespace Sys2Proof.Machine
open Sys2Proof

/-! ### Records of several faults -/

/-- What a table in canonical form lists it shows. -/
theorem tabGet_of_mem {α : Type} [DecidableEq α] {d : α} {t : Tab α} {lo k : Nat} {v : α} (hwf : tabWfFrom d lo t = true) (h : (k, v) ∈ t) :
    tabGet d t k = v ∧ lo ≤ k := by
  induction t generalizing lo with
  | nil => cases h
  | cons e t ih =>
    obtain ⟨a, w⟩ := e
    simp only [tabWfFrom, Bool.and_eq_true, decide_eq_true_eq] at hwf
    obtain heq | hmem := List.mem_cons.mp h
    · obtain ⟨rfl, rfl⟩ := Prod.mk.inj heq
      exact ⟨by simp [tabGet], hwf.1.1⟩
    · obtain ⟨hget, hlo⟩ := ih hwf.2 hmem
      exact ⟨by rw [tabGet, if_pos (by omega), hget], by omega⟩

/-- The fault table in canonical form, its first `m` records taken at most. -/
structure State.RecsBelow (s : State) (m : Nat) : Prop where
  wf : tabWf none s.fl.recs = true
  free : ∀ k, m ≤ k → s.frec k = none

/-- A record of the fault that is LATCHED. -/
def FaultRec.isLatched (r : FaultRec) (code : BitVec 16) (loc : BitVec 12) : Prop := r.code = code ∧ r.loc = loc ∧ r.st = .latched

theorem Fl.countNew_recs (f : Fl) (code : BitVec 16) : (f.countNew code).recs = f.recs := by
  unfold Fl.countNew
  split <;> rfl

section
variable {s : State} {code : BitVec 16} {loc : BitVec 12} {m k : Nat}

theorem State.findRec_some (h : s.RecsBelow m) (hk : s.findRec code loc = some k) : ∃ r, s.frec k = some r ∧ r.code = code ∧ r.loc = loc := by
  obtain ⟨⟨i, x⟩, hmem, hx⟩ := List.mem_filterMap.mp (List.mem_of_mem_head? hk)
  cases x with
  | none => cases hx
  | some r =>
    dsimp only at hx
    split at hx
    · next hr =>
      obtain rfl : i = k := Option.some.inj hx
      obtain ⟨hget, -⟩ := tabGet_of_mem h.wf hmem
      rw [Bool.and_eq_true, decide_eq_true_eq, decide_eq_true_eq] at hr
      exact ⟨r, hget, hr⟩
    · cases hx

theorem State.emptyRec_of_below (h : s.RecsBelow m) (hm : m < 64) : ∃ k, s.emptyRec = some k ∧ k ≤ m ∧ s.frec k = none := by
  have hmem : m ∈ below 64 fun k => (s.frec k).isNone := mem_below.mpr ⟨hm, by rw [h.free m le_rfl]; rfl⟩
  have hsorted : (below 64 fun k => (s.frec k).isNone).Pairwise (· < ·) := List.pairwise_lt_range.filter _
  rw [State.emptyRec]
  cases hlist : below 64 fun k => (s.frec k).isNone with
  | nil => rw [hlist] at hmem; cases hmem
  | cons k ks =>
    have hk : k ∈ below 64 fun k => (s.frec k).isNone := hlist ▸ List.mem_cons_self
    rw [hlist] at hmem hsorted
    refine ⟨k, rfl, ?_, by simpa using (mem_below.mp hk).2⟩
    obtain rfl | hin := List.mem_cons.mp hmem
    · exact le_rfl
    · exact (List.rel_of_pairwise_cons hsorted hin).le

theorem State.setRec_wf (h : tabWf none s.fl.recs = true) (r : Option FaultRec) : tabWf none (s.setRec k r).fl.recs = true := tabWf_tabSet h

theorem State.reportRec_wf (h : tabWf none s.fl.recs = true) : tabWf none (s.reportRec k).fl.recs = true := by
  unfold State.reportRec
  split
  · exact h
  · split
    · rw [← congrArg State.fl (State.postEvent_only _ _ _ _)]
      exact State.setRec_wf h _
    · exact State.setRec_wf h _

variable (la lb : Bool) (d p : Nat)

/-- A fault of no zone goes into one record, and leaves the others. -/
theorem State.record_at (h : s.RecsBelow m) (hm : m < 64) : ∃ k, k ≤ m ∧ (∀ r, s.frec k = some r → r.code = code ∧ r.loc = loc) ∧
    (∀ j, j ≠ k → (s.record code loc la lb d p []).frec j = s.frec j) ∧ tabWf none (s.record code loc la lb d p []).fl.recs = true := by
  unfold State.record
  cases hfind : s.findRec code loc with
  | some k =>
    obtain ⟨r, hr, hcode, hloc⟩ := State.findRec_some h hfind
    have hk : k < m := by
      by_contra hge
      rw [h.free k (Nat.le_of_not_lt hge)] at hr
      cases hr
    refine ⟨k, hk.le, fun x hx => ?_, fun j hj => ?_, ?_⟩
    · obtain rfl : r = x := Option.some.inj (hr.symm.trans hx)
      exact ⟨hcode, hloc⟩
    · dsimp only
      rw [hr]
      dsimp only
      rw [State.reportRec_frec_ne _ _ hj, State.setRec_frec_ne _ _ _ hj]
      rfl
    · dsimp only
      rw [hr]
      exact State.reportRec_wf (State.setRec_wf h.wf _)
  | none =>
    obtain ⟨k, hempty, hk, hnone⟩ := State.emptyRec_of_below h hm
    refine ⟨k, hk, fun x hx => absurd hx (by simp [hnone]), fun j hj => ?_, ?_⟩
    · dsimp only
      rw [hempty]
      dsimp only
      rw [State.reportRec_frec_ne _ _ hj, State.setRec_frec_ne _ _ _ hj]
      split <;> exact congrArg (tabGet none · j) (s.fl.countNew_recs code)
    · dsimp only
      rw [hempty]
      refine State.reportRec_wf (State.setRec_wf ?_ _)
      dsimp only
      split <;> exact (congrArg (tabWf none) (s.fl.countNew_recs code)).trans h.wf

/-- A fault of no zone, on a table with room for it: its record is LATCHED, and those of other faults stay. -/
theorem State.raise_nil_records (h : s.RecsBelow m) (hm : m < 64) :
    (s.raise code loc la lb d p []).RecsBelow (m + 1) ∧
    (∃ k y, (s.raise code loc la lb d p []).frec k = some y ∧ y.isLatched code loc) ∧
    ∀ c l, (∃ k y, s.frec k = some y ∧ y.isLatched c l) → ∃ k y, (s.raise code loc la lb d p []).frec k = some y ∧ y.isLatched c l := by
  have hraise : s.raise code loc la lb d p [] = s.record code loc la lb d p [] := rfl
  have hlatched : ∃ k y, (s.raise code loc la lb d p []).frec k = some y ∧ y.isLatched code loc := by
    cases hfind : s.findRec code loc with
    | some k =>
      obtain ⟨r, hr, hcode, hloc⟩ := State.findRec_some h hfind
      exact ⟨k, s.raise_found code loc la lb d p [] hfind hr hcode hloc⟩
    | none =>
      obtain ⟨k, hempty, -, -⟩ := State.emptyRec_of_below h hm
      exact ⟨k, s.raise_new code loc la lb d p [] hfind hempty⟩
  obtain ⟨k, hk, hsame, hother, hwf⟩ := State.record_at (code := code) (loc := loc) la lb d p h hm
  rw [← hraise] at hother hwf
  refine ⟨⟨hwf, fun j hj => ?_⟩, hlatched, ?_⟩
  · rw [hother j (by omega)]
    exact h.free j (by omega)
  · rintro c l ⟨j, y, hy, hc, hl, hst⟩
    by_cases hj : j = k
    · obtain ⟨rfl, rfl⟩ := hsame y (hj ▸ hy)
      rw [← hc, ← hl]
      exact hlatched
    · exact ⟨j, y, (hother j hj).trans hy, hc, hl, hst⟩
end

/-- Faults of no zone one after the other, on a table with room for them all: each has its record, LATCHED. -/
theorem State.foldl_raise_records {p n m : Nat} (cs : List Cause) {s : State} (h : s.RecsBelow m) (hm : m + cs.length ≤ 64) :
    let t := cs.foldl (fun (t : State) (x : Cause) => t.raise x.code (BitVec.ofNat 12 p) x.la x.lb x.detail n []) s
    (∀ x ∈ cs, ∃ k y, t.frec k = some y ∧ y.isLatched x.code (BitVec.ofNat 12 p)) ∧
    ∀ c l, (∃ k y, s.frec k = some y ∧ y.isLatched c l) → ∃ k y, t.frec k = some y ∧ y.isLatched c l := by
  induction cs generalizing s m with
  | nil => exact ⟨fun x hx => (List.not_mem_nil hx).elim, fun c l hr => hr⟩
  | cons x cs ih =>
    rw [List.length_cons] at hm
    obtain ⟨hnext, hnew, hold⟩ := State.raise_nil_records (code := x.code) (loc := BitVec.ofNat 12 p) x.la x.lb x.detail n h (by omega)
    obtain ⟨hall, hkeep⟩ := ih hnext (by omega)
    refine ⟨fun y hy => ?_, fun c l hr => hkeep c l (hold c l hr)⟩
    obtain rfl | hin := List.mem_cons.mp hy
    · exact hkeep _ _ hnew
    · exact hall y hin

theorem causeIf_length_le (c : Bool) (x : Cause) : (causeIf c x).length ≤ 1 := by
  cases c <;> simp [causeIf]

theorem codeCause_length_le (l : Lane) (c : Option (BitVec 2)) (q : BitVec 2) : (codeCause l c q).length ≤ 1 := by
  unfold codeCause
  dsimp only
  split
  · exact Nat.zero_le 1
  · split
    · exact Nat.zero_le 1
    · split <;> exact le_rfl

theorem sliceCauses_length_le (q : Pair) (info : PassInfo) (b : Bool) : (sliceCauses q info b).length ≤ 7 := by
  unfold sliceCauses
  dsimp only
  simp only [List.length_append]
  have ha := codeCause_length_le .a info.codeA q.codeA
  have hb := codeCause_length_le .b info.codeB q.codeB
  refine le_trans (Nat.add_le_add (Nat.add_le_add (Nat.add_le_add (Nat.add_le_add (Nat.add_le_add (Nat.add_le_add
    (causeIf_length_le _ _) (causeIf_length_le _ _)) (causeIf_length_le _ _)) (causeIf_length_le _ _)) (causeIf_length_le _ _)) ha) hb) le_rfl

/-! ### A pass of a slice -/

section
variable {s : State} {p : Fin 36} {info : PassInfo} {b : Bool}

/-- The pair of a slice that fails, and what failed. -/
def State.sliceFailed (s : State) (p : Nat) (cs : List Cause) : State :=
  { s.updPair p fun q => { q with role := .unusable } with
    bist := { s.bist with sliceRows := s.bist.sliceRows ++ cs.map fun (x : Cause) => x.entry p } }

/-- The faults a slice shows, recorded. -/
def State.sliceFaults (s : State) (p : Nat) (cs : List Cause) : State :=
  cs.foldl (fun (t : State) x => t.raise x.code (BitVec.ofNat 12 p) x.la x.lb x.detail (s.pair p).passNow []) (s.sliceFailed p cs)

theorem exec_passEnd_of_not_running (h : (s.pair p).run = none) : exec (.passEnd p info) s = .next (s.slicePass p info) := by
  change execPassEnd p info s = _
  rw [execPassEnd, h]
  rfl

theorem State.slicePass_of_slice {p : Nat} (h : s.bist.slice = some (p, b)) : s.slicePass p info =
    let cs := sliceCauses (s.pair p) info s.bist.slicePoison
    if cs.isEmpty then
      { s.updPair p fun q => { q with codeA := flipCode q.codeA, codeB := flipCode q.codeB } with
        bist := { s.bist with slicePoison := s.bist.slicePoison || decide (info.poison ≠ 0) } }
    else (s.sliceFaults p cs).settle := by
  rw [State.slicePass, h]
  exact if_neg fun hne => hne rfl

theorem State.slicePass_of_other {p : Nat} (h : ∀ b, s.bist.slice ≠ some (p, b)) : s.slicePass p info = s := by
  rw [State.slicePass]
  split
  · next q b hq => exact if_pos fun heq => h b (by rw [hq, heq])
  · rfl

/-- What the faults of a slice leave: its pair UNUSABLE, other pairs, zones and the entries of what failed. -/
theorem State.sliceFaults_rest (p : Nat) (cs : List Cause) :
    (s.sliceFaults p cs).pairs = (s.sliceFailed p cs).pairs ∧ (s.sliceFaults p cs).bist = (s.sliceFailed p cs).bist ∧
    ∀ z, ((s.sliceFaults p cs).zone z).st = (s.zone z).st := by
  unfold State.sliceFaults
  refine ⟨foldl_keeps (P := State.pairs) (fun t x => (State.raise_rest _ _ _ _ _ _ _ _).2.2.1) cs _,
    foldl_keeps (P := State.bist) (fun t x => (congrArg State.bist (State.raise_only _ _ _ _ _ _ _ _)).symm) cs _, fun z => ?_⟩
  refine (foldl_keeps (P := fun t : State => (t.zone z).st) (fun t x => ?_) cs _).trans rfl
  rw [State.raise_zone_st]
  exact if_neg fun h => absurd h.1 List.not_mem_nil
end

/-! ### The state a zone takes -/

theorem nextSt_ne_faulted {st : ZoneSt} (h : st.steps = true) (auto demand edge cat1 hold : Bool) :
    nextSt st auto demand edge cat1 hold ≠ .faulted := by
  cases st <;> simp only [ZoneSt.steps, Bool.false_eq_true] at h
  · unfold nextSt
    dsimp only
    split <;> decide
  · unfold nextSt
    dsimp only
    split <;> decide
  · unfold nextSt
    dsimp only
    split
    · decide
    · split
      · split <;> decide
      · decide

section
variable {s : State} {p : Fin 36} {r : Running} {z : Nat} {v : ZoneVer}

theorem State.nextOf_pairClean (res : List (Nat × ZoneVer × List BlockRt)) (rts : List BlockRt) :
    (s.pairClean p r res).nextOf z v rts = s.nextOf z v rts := rfl

theorem Zone.passed_active {y : Zone} (demand : Bool) (cmds : List BlockRt) (h : y.active = some v) :
    (y.passed demand cmds).active = some { v.setRt cmds with first := false } := by
  rw [Zone.passed, h]
  rfl

theorem State.passResults_zone_single (t : State) (rts : List BlockRt) :
    (t.passResults p r [(z, v, rts)]).zone z = (t.applyZone z v rts).zone z := by
  rw [State.passResults_zone, List.foldl_cons, List.foldl_nil, State.takeResult]

/-- A zone alone on its pair takes its results, and no more follows. -/
theorem State.passDone_zone_alone (hrole : (s.pair p).role = .carrying ∨ (s.pair p).role = .loading)
    (hstepped : s.stepped p r.coupled = [(z, v)]) (hon : s.zonesOn p = [z]) (hst : (s.zone z).st.steps = true) :
    ∃ x cmds, (s.passDone p r (s.resultsOf p r)).zone z =
      { (s.zone z).passed (v.demands (s.evalA p v)) cmds with st := s.nextOf z v (s.evalA p v), retained := x } := by
  have hmine : (s.resultsOf p r).filter (fun e => (s.zonesOn p).contains e.1) = [(z, v, s.evalA p v)] := by
    rw [State.resultsOf, hstepped, hon]
    simp
  have hfault : s.nextOf z v (s.evalA p v) ≠ .faulted := nextSt_ne_faulted hst _ _ _ _ _
  have hzone : (s.pairClean p r (s.resultsOf p r)).zone z = s.zone z := rfl
  rw [State.passDone, if_pos (by obtain h | h := hrole <;> simp [h]), hmine]
  dsimp only
  generalize s.evalA p v = rts at hfault ⊢
  obtain ⟨x, hx⟩ := (s.pairClean p r (s.resultsOf p r)).applyZone_zone_self z v rts
  rw [State.nextOf_pairClean, hzone] at hx
  rw [← State.passResults_zone_single] at hx
  refine ⟨x, ((s.pairClean p r (s.resultsOf p r)).diagEvents z v ((s.pairClean p r (s.resultsOf p r)).cmdsOf z v rts)).2, ?_⟩
  exact (State.foldl_rearm_zone _ _ (by rw [hx]; exact hfault)).trans hx
end

/-- Settles O53: passes of a slice, clean passes, and the table of R51 and R52. -/
theorem cleanPassEnd : Obligations.CleanPassEnd := by
  unfold Obligations.CleanPassEnd
  refine ⟨fun s p info hrun => ⟨fun hother => ?_, fun b hslice => ?_⟩, fun s p info r => ?_, fun auto demand edge cat1 hold => ?_⟩
  · rw [exec_passEnd_of_not_running hrun, State.slicePass_of_other hother]
  · intro cs
    rw [exec_passEnd_of_not_running hrun, State.slicePass_of_slice hslice]
    refine ⟨fun hgood => congrArg Host.Outcome.next (if_pos (List.isEmpty_iff.mpr hgood)), fun hbad => ?_⟩
    obtain ⟨hpairs, hbist, hzones⟩ := s.sliceFaults_rest p cs
    have hpair (j : Nat) : (s.sliceFaults p cs).pair j = (s.sliceFailed p cs).pair j := congrArg (tabGet Pair.init · j) hpairs
    refine ⟨s.sliceFaults p cs, congrArg Host.Outcome.next (if_neg fun h => hbad (List.isEmpty_iff.mp h)), ?_, ?_, fun j hj => ?_, hzones,
      fun x hx hnil => ?_⟩
    · rw [hpair]
      exact congrArg Pair.role (State.updPair_pair_self s p _)
    · rw [hbist]
      rfl
    · rw [hpair]
      exact State.updPair_pair_ne s p _ j hj
    · have hbelow : (s.sliceFailed p cs).RecsBelow 0 := ⟨congrArg (tabWf none) hnil, fun k _ => congrArg (tabGet none · k) hnil⟩
      have hlen : cs.length ≤ 7 := sliceCauses_length_le _ _ _
      exact (State.foldl_raise_records cs hbelow (by omega)).1 x hx
  · intro q hrun hidle hhalt hcauses
    obtain ⟨b, c, hpair⟩ := State.pairClean_pair_self (s := s) (p := p) (r := r) (res := s.resultsOf p r)
    rw [← State.passDone_pair] at hpair
    obtain ⟨hnone, hlast, htime, hmax, hrole, hcodeA, hcodeB, hinj, hdue, hdueB, hstopA, hstopB⟩ :=
      q.clean_spec r (s.resultsOf p r) (min 65535 (s.since r.start))
    refine ⟨_, exec_passEnd_clean hrun hidle hhalt hcauses, ?_⟩
    rw [hpair]
    refine ⟨hnone, hlast, htime, hmax, hrole, hcodeA, hcodeB, hinj, hdue, hdueB, hstopA, hstopB, fun j hj => ?_, fun hfree => ?_,
      fun z v hcarry hstepped hon => ?_⟩
    · rw [State.passDone_pair]
      exact State.updPair_pair_ne s p _ j hj
    · have hno : ¬ ((s.pair p).role = .carrying || (s.pair p).role = .loading) = true := by
        change ¬ (q.role = .carrying || q.role = .loading) = true
        rw [hfree]
        decide
      rw [State.passDone, if_neg hno]
      rfl
    · intro rts
      obtain ⟨-, hst, hv⟩ := State.mem_stepped hidle (hstepped ▸ List.mem_singleton_self (z, v) : (z, v) ∈ s.stepped p r.coupled)
      obtain ⟨x, cmds, hx⟩ := State.passDone_zone_alone hcarry hstepped hon hst
      rw [hx]
      exact ⟨rfl, rfl, _, Zone.passed_active (v.demands rts) cmds hv, rfl, rfl, rfl⟩
  · refine ⟨?_, rfl, ?_⟩
    · cases auto <;> cases demand <;> cases edge <;> cases hold <;> rfl
    · cases auto <;> cases demand <;> cases cat1 <;> cases hold <;> rfl

end Sys2Proof.Machine
end


section
/-!
# Timeouts of commits and withdrawals, and the passes of tiles (R182, R186, R478)
-/
namespace Sys2Proof.Machine
open Sys2Proof

/-! ### A commit that is not confirmed -/

/-- The end of the operation in progress. -/
abbrev closePart (s t : State) : State := { s with op := t.op, mig := t.mig, rings := t.rings, hi := t.hi }

theorem closePart_part : Part closePart := ⟨fun _ => rfl, fun _ _ _ => rfl⟩

section
variable (s : State)

theorem State.closeOp_only (status res : Nat) : Only closePart s (s.closeOp status res) := by
  unfold State.closeOp
  split
  · rfl
  · next op _ =>
    obtain ⟨u, hu⟩ : ∃ u, u = ({ s with op := none, mig := { s.mig with stage := 0 } } : State) := ⟨_, rfl⟩
    refine Only.trans closePart_part (t := u) (by rw [hu]; rfl) ?_
    rw [← hu]
    unfold State.completeOpt
    split
    · exact (State.completion_only _ _ _ _ _ _ _).mono fun _ _ => rfl
    · rfl

theorem State.closeOp_op (status res : Nat) : (s.closeOp status res).op = none := by
  unfold State.closeOp
  split
  · next h => exact h
  · unfold State.completeOpt
    split
    · exact (congrArg State.op (State.completion_only _ _ _ _ _ _ _)).symm
    · rfl

/-- A commit that fails: its zone takes RESTART again, and nothing of its zones or channels changes beside. -/
theorem State.commitFail_spec {op : LongOp} {z : Nat} {rb boot : Bool} (hop : s.op = some op) (hkind : op.kind = .commit z rb boot) (st : Nat) :
    (s.commitFail st).op = none ∧ (s.commitFail st).zone z = { s.zone z with holdRestart := false } ∧
    (∀ y, y ≠ z → (s.commitFail st).zone y = s.zone y) ∧ (s.commitFail st).chans = s.chans := by
  obtain ⟨t, ht⟩ : ∃ t, t = s.updZone z fun y => { y with holdRestart := false } := ⟨_, rfl⟩
  obtain ⟨u, hu⟩ : ∃ u, u = (if boot then t.bootFail 5 st else t).rebound op.tgt := ⟨_, rfl⟩
  have hfail : s.commitFail st = u.closeOp st 0 := by
    rw [State.commitFail, hop]
    dsimp only
    rw [hkind, hu, ht]
  have hzones : u.zones = t.zones := by
    rw [hu]
    unfold State.bootFail
    split
    · split <;> rfl
    · rfl
  have hchans : u.chans = t.chans := by
    rw [hu]
    unfold State.bootFail
    split
    · split <;> rfl
    · rfl
  have hzone (y : Nat) : (s.commitFail st).zone y = t.zone y := by
    rw [hfail, State.zone, ← congrArg State.zones (u.closeOp_only st 0)]
    exact congrArg (tabGet Zone.init · y) hzones
  refine ⟨by rw [hfail, State.closeOp_op], ?_, fun y hy => ?_, ?_⟩
  · rw [hzone, ht, State.updZone_zone_self]
  · rw [hzone, ht, State.updZone_zone_ne _ _ _ _ hy]
  · rw [hfail, ← congrArg State.chans (u.closeOp_only st 0)]
    exact hchans.trans (by rw [ht]; rfl)
end

/-! ### Commands on their way to FD -/

/-- A command waits in a lane for FD. -/
def State.hasSent (s : State) (l : Lane) (c : FdCmd) : Prop := c ∈ (s.lane l).toFd

section
variable {s : State} {l : Lane} {c : FdCmd}

theorem State.hasSent_congr {t : State} (ha : t.laneA = s.laneA) (hb : t.laneB = s.laneB) : t.hasSent l c ↔ s.hasSent l c := by
  cases l
  · exact (congrArg (fun d : LaneDie => c ∈ d.toFd) ha).to_iff
  · exact (congrArg (fun d : LaneDie => c ∈ d.toFd) hb).to_iff

theorem State.hasSent.pushFd (h : s.hasSent l c) (m : Lane) (x : FdCmd) : (s.pushFd m x).hasSent l c := by
  unfold State.pushFd
  split
  · exact h
  · cases l <;> cases m
    · exact List.mem_append_left _ h
    · exact h
    · exact h
    · exact List.mem_append_left _ h

theorem State.hasSent_pushFd (h : s.pm.dstate ≠ .off) (x : FdCmd) : (s.pushFd l x).hasSent l (x.inLane l) := by
  rw [State.pushFd, if_neg h]
  cases l <;> exact List.mem_append_right _ (List.mem_singleton_self _)

theorem State.owe_lanes (s : State) (l : Lane) (a : Nat) : (s.owe l a).laneA = s.laneA ∧ (s.owe l a).laneB = s.laneB := by
  unfold State.owe
  split <;> exact ⟨rfl, rfl⟩

theorem State.hasSent.commandLane (h : s.hasSent l c) (m : Lane) (t : Target) (on : Bool) : (s.commandLane m t on).hasSent l c := by
  cases t with
  | chan n => exact h.pushFd m _
  | point a =>
    have hlanes : (s.commandLane m (.point a) on).laneA = s.laneA ∧ (s.commandLane m (.point a) on).laneB = s.laneB := by
      cases on with
      | false => cases m <;> exact s.owe_lanes _ a
      | true => cases m <;> exact ⟨rfl, rfl⟩
    exact (State.hasSent_congr hlanes.1 hlanes.2).mpr h

/-- The step of `outputsOff` on one output. -/
def State.outputOff (u : State) (t : Target) : State :=
  let v := (u.commandLane .a t false).commandLane .b t false
  { v with cat1 := tabSet (false, false) v.cat1 (targetKey t) (false, false) }

theorem State.outputsOff_eq (ts : List Target) : s.outputsOff ts = ts.foldl State.outputOff s := rfl

theorem State.hasSent.outputOff (h : s.hasSent l c) (t : Target) : (s.outputOff t).hasSent l c :=
  (State.hasSent_congr rfl rfl).mpr ((h.commandLane .a t false).commandLane .b t false)

theorem State.hasSent.foldl {α : Type} {f : State → α → State} (each : ∀ t x, State.hasSent t l c → (f t x).hasSent l c) (h : s.hasSent l c)
    (xs : List α) : (xs.foldl f s).hasSent l c :=
  List.foldlRecOn xs f h fun t ht x _ => each t x ht

/-- An output commanded off, in the encoding of both lanes. -/
theorem State.outputsOff_sends {n : Nat} {ts : List Target} (hn : .chan n ∈ ts) (hon : s.pm.dstate ≠ .off) :
    (s.outputsOff ts).hasSent .a (.switch n false) ∧ (s.outputsOff ts).hasSent .b (.switch n true) := by
  rw [State.outputsOff_eq]
  induction ts generalizing s with
  | nil => cases hn
  | cons t ts ih =>
    rw [List.foldl_cons]
    obtain heq | hin := List.mem_cons.mp hn
    · subst heq
      have ha : (s.outputOff (.chan n)).hasSent .a (.switch n false) :=
        (State.hasSent_congr rfl rfl).mpr ((State.hasSent_pushFd (l := .a) hon (.switch n false)).pushFd .b (.switch n false))
      have hpm : (s.commandLane .a (.chan n) false).pm.dstate ≠ .off := by
        rw [← congrArg State.pm (s.commandLane_only .a (.chan n) false)]
        exact hon
      have hb : (s.outputOff (.chan n)).hasSent .b (.switch n true) :=
        (State.hasSent_congr rfl rfl).mpr (State.hasSent_pushFd (l := .b) hpm (.switch n false))
      exact ⟨ha.foldl (fun t x h => h.outputOff x) ts, hb.foldl (fun t x h => h.outputOff x) ts⟩
    · refine ih hin ?_
      have hpm : (s.outputOff t).pm = s.pm :=
        (congrArg State.pm (State.commandLane_only _ .b t false)).symm.trans (congrArg State.pm (s.commandLane_only .a t false)).symm
      rw [hpm]
      exact hon
end

/-! ### The end of a withdrawal -/

/-- What the end of a withdrawal changes. -/
abbrev withdrawPart (s t : State) : State := { s with
  ptsA := t.ptsA, ptsB := t.ptsB, trans := t.trans, zones := t.zones, pairs := t.pairs, cat1 := t.cat1, prodOwnA := t.prodOwnA
  prodOwnB := t.prodOwnB, hi := t.hi, rings := t.rings, evRings := t.evRings, evqA := t.evqA, evqB := t.evqB, bist := t.bist
  laneA := { s.laneA with toFd := t.laneA.toFd }, laneB := { s.laneB with toFd := t.laneB.toFd } }

theorem withdrawPart_part : Part withdrawPart := ⟨fun _ => rfl, fun _ _ _ => rfl⟩

/-- What a lane sends FD. -/
abbrev sentPart (s t : State) : State := { s with
  laneA := { s.laneA with toFd := t.laneA.toFd }, laneB := { s.laneB with toFd := t.laneB.toFd } }

theorem sentPart_part : Part sentPart := ⟨fun _ => rfl, fun _ _ _ => rfl⟩

theorem State.pushFd_only (s : State) (l : Lane) (c : FdCmd) : Only sentPart s (s.pushFd l c) := by
  unfold State.pushFd
  split
  · rfl
  · cases l <;> rfl

theorem State.sendOwner_only (s : State) (chs : List Nat) (old new : Nat) (b : Word) : Only sentPart s (s.sendOwner chs old new b) :=
  Only.foldl sentPart_part (fun t _ => Only.trans sentPart_part (t.pushFd_only .a _) (State.pushFd_only _ .b _)) chs s

theorem State.sendBoundary_only (s : State) (chs : List Nat) (b : Word) : Only sentPart s (s.sendBoundary chs b) :=
  Only.foldl sentPart_part (fun t _ => Only.trans sentPart_part (t.pushFd_only .a _) (State.pushFd_only _ .b _)) chs s

abbrev vacatePart (s t : State) : State := { s with pairs := t.pairs, bist := t.bist }

theorem vacatePart_part : Part vacatePart := ⟨fun _ => rfl, fun _ _ _ => rfl⟩

theorem State.vacate_only (s : State) (p : Nat) : Only vacatePart s (s.vacate p) := by
  unfold State.vacate
  dsimp only
  split
  · split <;> rfl
  · split <;> rfl
  · split
    · unfold State.bistAsk
      split <;> rfl
    · rfl
  · rfl

section
variable {s : State} {v : ZoneVer} {w : Withdraw} {c : FdCmd} {l : Lane}

theorem State.hasSent.sendOwner (h : s.hasSent l c) (chs : List Nat) (old new : Nat) (b : Word) : (s.sendOwner chs old new b).hasSent l c :=
  State.hasSent.foldl (fun _ _ h => (h.pushFd .a _).pushFd .b _) h chs

theorem State.hasSent.sendBoundary (h : s.hasSent l c) (chs : List Nat) (b : Word) : (s.sendBoundary chs b).hasSent l c :=
  State.hasSent.foldl (fun _ _ h => (h.pushFd .a _).pushFd .b _) h chs

/-- The channels a version drives, given up with the boundary of their pair's next pass. -/
def State.chansGiven (s : State) (v : ZoneVer) : State :=
  (s.sendOwner (s.chansOf v) v.pair 0x3F (s.pair v.pair).nextPass).sendBoundary (s.chansOf v) (s.pair v.pair).nextPass

/-- The outputs and points of a version given back, before its zone is emptied. -/
def State.givenBack (s : State) (v : ZoneVer) : State :=
  let t := ((s.chansGiven v).ownPoints (targetPts v.targets) 0x3F).dropPts v.writes
  { t with cat1 := v.targets.foldl (fun t k => tabSet (false, false) t (targetKey k) (false, false)) t.cat1 }

/-- The pairs a zone has versions on. -/
def Zone.pairsHeld (y : Zone) (v : ZoneVer) : List Nat :=
  [v.pair] ++ (match y.staged with | some u => [u.pair] | none => []) ++ (match y.retained with | some u => [u.pair] | none => [])

/-- Its zone is emptied too. -/
def State.emptied (s : State) (z : Nat) (v : ZoneVer) : State := ((s.givenBack v).setZoneSt z .withdrawn).updZone z fun _ => Zone.init

theorem State.endWithdraw_eq {z : Nat} (hv : (s.zone z).active = some v) (hw : (s.zone z).wd = some w) : s.endWithdraw z =
    w.os.foldl (fun t o => t.complete o 0x12 stSuccess 0) ((distinct ((s.zone z).pairsHeld v)).foldl State.vacate (s.emptied z v)) := by
  rw [State.endWithdraw, hv, hw]
  rfl

theorem State.chansGiven_only : Only sentPart s (s.chansGiven v) :=
  Only.trans sentPart_part (s.sendOwner_only _ _ _ _) (State.sendBoundary_only _ _ _)

theorem State.givenBack_only : Only withdrawPart s (s.givenBack v) := by
  have hdrop : Only withdrawPart s (((s.chansGiven v).ownPoints (targetPts v.targets) 0x3F).dropPts v.writes) := by
    refine Only.trans withdrawPart_part ?_ ((State.dropPts_only _ _).mono fun _ _ => rfl)
    exact Only.trans withdrawPart_part (t := s.chansGiven v) (State.chansGiven_only.mono fun _ _ => rfl) rfl
  exact Only.trans withdrawPart_part hdrop rfl

theorem State.emptied_only {z : Nat} : Only withdrawPart s (s.emptied z v) := by
  refine Only.trans withdrawPart_part ?_ (t := (s.givenBack v).setZoneSt z .withdrawn) rfl
  exact Only.trans withdrawPart_part State.givenBack_only ((State.setZoneSt_only _ _ _).mono fun _ _ => rfl)

theorem State.givenBack_zone (j : Nat) : (s.givenBack v).zone j = s.zone j := by
  have hsent : (s.chansGiven v).zones = s.zones := (congrArg State.zones State.chansGiven_only).symm
  have hdrop : (s.givenBack v).zones = (s.chansGiven v).zones :=
    (congrArg State.zones (State.dropPts_only ((s.chansGiven v).ownPoints (targetPts v.targets) 0x3F) v.writes)).symm
  exact congrArg (tabGet Zone.init · j) (hdrop.trans hsent)

theorem State.hasSent.emptied (h : s.hasSent l c) (z : Nat) : (s.emptied z v).hasSent l c := by
  have hgiven : (s.chansGiven v).hasSent l c := (h.sendOwner _ _ _ _).sendBoundary _ _
  have hdrop := State.dropPts_only ((s.chansGiven v).ownPoints (targetPts v.targets) 0x3F) v.writes
  have hback : (s.givenBack v).hasSent l c :=
    (State.hasSent_congr (congrArg State.laneA hdrop).symm (congrArg State.laneB hdrop).symm).mpr hgiven
  have hst := State.setZoneSt_only (s.givenBack v) z .withdrawn
  exact (State.hasSent_congr (congrArg State.laneA hst).symm (congrArg State.laneB hst).symm).mpr hback

/-- The end of a withdrawal: its zone is empty, no other zone and no channel changes, and what waits for FD still waits. -/
theorem State.endWithdraw_spec {z : Nat} (hv : (s.zone z).active = some v) (hw : (s.zone z).wd = some w) :
    (s.endWithdraw z).zone z = Zone.init ∧ (∀ y, y ≠ z → (s.endWithdraw z).zone y = s.zone y) ∧ (s.endWithdraw z).chans = s.chans ∧
    ∀ l c, s.hasSent l c → (s.endWithdraw z).hasSent l c := by
  have hvacate := Only.foldl vacatePart_part State.vacate_only (distinct ((s.zone z).pairsHeld v)) (s.emptied z v)
  obtain ⟨u, hu⟩ : ∃ u, u = (distinct ((s.zone z).pairsHeld v)).foldl State.vacate (s.emptied z v) := ⟨_, rfl⟩
  have hcomplete : Only ringPart u (s.endWithdraw z) := by
    rw [State.endWithdraw_eq hv hw, ← hu]
    exact Only.foldl (f := fun t o => t.complete o 0x12 stSuccess 0) ringPart_part
      (fun t o => t.completion_only o.ring.val o.cid.toNat 0x12 stSuccess false 0) w.os u
  rw [← hu] at hvacate
  have hzone (y : Nat) : (s.endWithdraw z).zone y = (s.emptied z v).zone y :=
    congrArg (tabGet Zone.init · y) ((congrArg State.zones hcomplete).symm.trans (congrArg State.zones hvacate).symm)
  refine ⟨?_, fun y hy => ?_, ?_, fun l c h => ?_⟩
  · rw [hzone, State.emptied, State.updZone_zone_self]
  · rw [hzone, State.emptied, State.updZone_zone_ne _ _ _ _ hy, State.setZoneSt_zone_ne _ _ _ hy, State.givenBack_zone]
  · exact (congrArg State.chans hcomplete).symm.trans
      ((congrArg State.chans hvacate).symm.trans (congrArg State.chans State.emptied_only).symm)
  · have hlanes := State.hasSent_congr (l := l) (c := c) (congrArg State.laneA hcomplete).symm (congrArg State.laneB hcomplete).symm
    have hbefore := State.hasSent_congr (l := l) (c := c) (congrArg State.laneA hvacate).symm (congrArg State.laneB hvacate).symm
    exact hlanes.mpr (hbefore.mpr (h.emptied z))
end

/-! ### A pass of a tile -/

section
variable {s : State}

/-- The points of a lane, in its encoding. -/
def State.ptsOf (s : State) : Lane → Tab Pt
  | .a => s.ptsA
  | .b => s.ptsB

theorem State.ptOf_congr {t : State} {l : Lane} (hpt : ∀ a, t.hasPt a = s.hasPt a) (hpts : t.ptsOf l = s.ptsOf l) (a : Nat) :
    t.ptOf l a = s.ptOf l a := by
  cases l with
  | a =>
    have h : t.ptsA = s.ptsA := hpts
    simp only [State.ptOf, State.ptA, hpt, h]
  | b =>
    have h : t.ptsB = s.ptsB := hpts
    simp only [State.ptOf, State.ptB, hpt, h]

theorem State.setPtLane_ptsOf_other (l : Lane) (b : Nat) (x : Pt) : (s.setPtLane l b x).ptsOf (otherLane l) = s.ptsOf (otherLane l) := by
  cases l <;> rfl

theorem State.setPtLane_hasPt (l : Lane) (b : Nat) (x : Pt) (a : Nat) : (s.setPtLane l b x).hasPt a = s.hasPt a := by
  cases l <;> rfl

/-- A point set reads as set where it exists, and no other point changes. -/
theorem State.setPtLane_ptOf (l : Lane) (b : Nat) (x : Pt) (a : Nat) :
    (s.setPtLane l b x).ptOf l a = if a = b ∧ s.hasPt a = true then x else s.ptOf l a := by
  cases l with
  | a =>
    rw [State.ptOf, State.ptA, State.setPtLane_hasPt]
    have htab : (s.setPtLane .a b x).ptsA = tabSet ptInitA s.ptsA b x := rfl
    rw [htab, tabGet_tabSet]
    simp only [State.ptOf, State.ptA]
    by_cases hab : a = b
    · subst hab
      cases s.hasPt a <;> simp
    · simp [hab]
  | b =>
    rw [State.ptOf, State.ptB, State.setPtLane_hasPt]
    have htab : (s.setPtLane .b b x).ptsB = tabSet ptInitB s.ptsB b (~~~x) := rfl
    rw [htab, tabGet_tabSet]
    simp only [State.ptOf, State.ptB]
    by_cases hab : a = b
    · subst hab
      cases s.hasPt a <;> simp
    · simp [hab]

/-- A point set invalid reads invalid, whether it exists or not. -/
theorem State.setPtLane_invalid (l : Lane) (b a : Nat) : (s.setPtLane l b 0#2).ptOf l a = if a = b then 0#2 else s.ptOf l a := by
  rw [State.setPtLane_ptOf]
  by_cases hp : s.hasPt a = true
  · simp [hp]
  · have hno : s.ptOf l a = 0#2 := by cases l <;> simp [State.ptOf, State.ptA, State.ptB, hp]
    simp [hp, hno]

theorem State.foldl_invalid_ptOf (l : Lane) (as : List Nat) (a : Nat) :
    (as.foldl (fun t a => t.setPtLane l a 0#2) s).ptOf l a = if a ∈ as then 0#2 else s.ptOf l a := by
  induction as generalizing s with
  | nil => rfl
  | cons b as ih =>
    rw [List.foldl_cons, ih, State.setPtLane_invalid]
    by_cases h : a = b <;> simp [h]

theorem State.dropLane_ptOf (l : Lane) (as : List Nat) (a : Nat) : (s.dropLane l as).ptOf l a = if a ∈ as then 0#2 else s.ptOf l a := by
  have hpurge (t : State) : (t.purge l as).ptOf l a = t.ptOf l a := by cases l <;> rfl
  rw [State.dropLane, hpurge, State.foldl_invalid_ptOf]

theorem State.dropLane_hasPt (l : Lane) (as : List Nat) (a : Nat) : (s.dropLane l as).hasPt a = s.hasPt a := by
  rw [← s.dropLane_only l as]
  rfl

theorem State.dropLane_ptOf_other (l : Lane) (as : List Nat) (a : Nat) :
    (s.dropLane l as).ptOf (otherLane l) a = s.ptOf (otherLane l) a := by
  refine State.ptOf_congr (State.dropLane_hasPt l as) ?_ a
  have hfold := foldl_keeps (P := fun t : State => t.ptsOf (otherLane l)) (h := fun t a => t.setPtLane l a 0#2)
    (fun t a => State.setPtLane_ptsOf_other l a 0#2) as s
  have hpurge (t : State) : (t.purge l as).ptsOf (otherLane l) = t.ptsOf (otherLane l) := by cases l <;> rfl
  exact (hpurge _).trans hfold

theorem State.dropPts_ptOf (l : Lane) (as : List Nat) (a : Nat) : (s.dropPts as).ptOf l a = if a ∈ as then 0#2 else s.ptOf l a := by
  cases l with
  | a => exact ((State.dropLane_ptOf_other .b as a).trans (State.dropLane_ptOf .a as a))
  | b =>
    have hother : (s.dropLane .a as).ptOf .b a = s.ptOf .b a := State.dropLane_ptOf_other .a as a
    rw [State.dropPts, State.dropLane_ptOf, hother]
end

/-! ### A pass of a tile -/

section
variable {s : State} {p : Fin 36} {l : Lane} {par : Bool}

theorem exec_tilePass_none (h : (s.tileAt (tileKey p l)).sec = none) : exec (.tilePass p l par) s = .next s := by
  change execTilePass p l par s = _
  rw [execTilePass, h]
  rfl

section
variable {x : TileSection} (hsec : (s.tileAt (tileKey p l)).sec = some x)
include hsec

theorem exec_tilePass_refused (h : s.lanesRun = false ∨ (s.pair p).role ≠ .split ∨ (s.tileAt (tileKey p l)).stopped = true) :
    exec (.tilePass p l par) s = .next s := by
  change execTilePass p l par s = _
  rw [execTilePass, hsec]
  exact if_pos (by obtain h | h | h := h <;> simp [h])

variable (hrun : s.lanesRun = true) (hsplit : (s.pair p).role = .split) (hgoes : (s.tileAt (tileKey p l)).stopped = false)
include hrun hsplit hgoes

/-- A tile whose pass shows a parity error. -/
theorem exec_tilePass_parity : exec (.tilePass p l true) s =
    .next (({ s.updTile (tileKey p l) fun t => { t with stopped := true } with
      db := { s.db with tileStop := setBit s.db.tileStop p true } } : State).dropPts (couples x.blocks)) := by
  change execTilePass p l true s = _
  rw [execTilePass, hsec]
  exact if_neg (by simp [hrun, hsplit, hgoes])

/-- A tile after its pass, before its outputs are driven. -/
def State.tilePassed (s : State) (p : Nat) (l : Lane) (x : TileSection) : State :=
  let t := s.tileAt (tileKey p l)
  let rts := s.stepTile l t x
  let us := (s.laneTime l - t.last).toNat / 100
  let u := s.updTile (tileKey p l) fun t => { t with
    rt := rts, first := false, last := if t.first then s.laneTime l else t.last + BitVec.ofNat 64 (100 * us) }
  let pts := tileCouples x rts
  if pts.isEmpty then u else { u with trans := u.trans ++ [{
    body := match l with
      | .a => .posted p 0#32 pts (negPts pts)
      | .b => .posted p 0#32 (negPts pts) pts
    repA := true, repB := true, okA := true, okB := true, since := u.now }] }

theorem exec_tilePass_steps : exec (.tilePass p l false) s =
    .next ((s.tilePassed p l x).driveTile l x (s.stepTile l (s.tileAt (tileKey p l)) x)) := by
  change execTilePass p l false s = _
  rw [execTilePass, hsec]
  refine (if_neg (by simp [hrun, hsplit, hgoes])).trans ?_
  dsimp only
  rw [if_neg Bool.false_ne_true]
  rfl
end

theorem State.driveTile_only (x : TileSection) (rts : List BlockRt) : Only sentPart s (s.driveTile l x rts) := by
  refine Only.foldl sentPart_part (fun t e => ?_) x.outs s
  dsimp only
  split
  · exact Only.trans sentPart_part (t.pushFd_only .a _) (State.pushFd_only _ .b _)
  · rfl

theorem State.tilePassed_rest (x : TileSection) : (s.tilePassed p l x).zones = s.zones ∧ (s.tilePassed p l x).pairs = s.pairs ∧
    (s.tilePassed p l x).fl = s.fl ∧ (s.tilePassed p l x).ports = s.ports ∧
    (s.tilePassed p l x).tiles = (s.updTile (tileKey p l) fun t => { t with
      rt := s.stepTile l (s.tileAt (tileKey p l)) x, first := false
      last := if t.first then s.laneTime l
        else t.last + BitVec.ofNat 64 (100 * ((s.laneTime l - (s.tileAt (tileKey p l)).last).toNat / 100)) }).tiles := by
  unfold State.tilePassed
  dsimp only
  split <;> exact ⟨rfl, rfl, rfl, rfl, rfl⟩
end

/-- Settles O55: timeouts of commits and withdrawals, and passes of tiles. -/
theorem timeoutsAndTilePasses : Obligations.TimeoutsAndTilePasses := by
  unfold Obligations.TimeoutsAndTilePasses
  refine ⟨⟨fun s hidle => ?_, fun s op z rb boot hop hkind => ⟨fun hstage => ?_, fun hstage => ?_⟩, fun s z => ⟨fun hno => ?_, fun v w hv hw => ?_⟩⟩,
    fun s p l par => ⟨fun hno => ?_, fun x hsec hrun hsplit hgoes => ?_⟩⟩
  · change execNotStopped s = _
    rw [execNotStopped, hidle]
    rfl
  · change execNotStopped s = _
    rw [execNotStopped, hop]
    dsimp only
    rw [hkind]
    exact congrArg Host.Outcome.next (if_neg hstage)
  · refine ⟨s.commitFail 0x21, ?_, State.commitFail_spec s hop hkind 0x21⟩
    change execNotStopped s = _
    rw [execNotStopped, hop]
    dsimp only
    rw [hkind]
    exact congrArg Host.Outcome.next (if_pos hstage)
  · change execWithdrawTimeout z s = _
    rw [execWithdrawTimeout]
    obtain h | h := hno
    · rw [h]
      rfl
    · rw [h]
      cases (s.zone z.toNat).active <;> rfl
  · have hzones : (s.outputsOff v.targets).zones = s.zones := (congrArg State.zones (s.outputsOff_only _)).symm
    have hchans : (s.outputsOff v.targets).chans = s.chans := (congrArg State.chans (s.outputsOff_only _)).symm
    have hzone (y : Nat) : (s.outputsOff v.targets).zone y = s.zone y := congrArg (tabGet Zone.init · y) hzones
    obtain ⟨hself, hother, hkeep, hsent⟩ := State.endWithdraw_spec (s := s.outputsOff v.targets) (z := z.toNat) (v := v) (w := w)
      (by rw [hzone, hv]) (by rw [hzone, hw])
    refine ⟨(s.outputsOff v.targets).endWithdraw z.toNat, ?_, hself, fun y hy => (hother y hy).trans (hzone y), fun n hn hon => ?_,
      hkeep.trans hchans⟩
    · change execWithdrawTimeout z s = _
      rw [execWithdrawTimeout, hv, hw]
      rfl
    · obtain ⟨ha, hb⟩ := State.outputsOff_sends hn hon
      exact ⟨hsent _ _ ha, hsent _ _ hb⟩
  · cases hsec : (s.tileAt (tileKey p l)).sec with
    | none => exact exec_tilePass_none hsec
    | some x => exact exec_tilePass_refused hsec (hno.resolve_left (by rw [hsec]; exact Option.some_ne_none x))
  · cases par with
    | true =>
      obtain ⟨u, hu⟩ : ∃ u, u = ({ s.updTile (tileKey p l) fun t => { t with stopped := true } with
        db := { s.db with tileStop := setBit s.db.tileStop p true } } : State) := ⟨_, rfl⟩
      have hdrop := State.dropPts_only u (couples x.blocks)
      have htile (j : Nat) : (u.dropPts (couples x.blocks)).tileAt j = (s.updTile (tileKey p l) fun t => { t with stopped := true }).tileAt j :=
        congrArg (tabGet Tile.init · j) ((congrArg State.tiles hdrop).symm.trans (by rw [hu]))
      refine ⟨u.dropPts (couples x.blocks), by rw [hu]; exact exec_tilePass_parity hsec hrun hsplit hgoes,
        fun _ => ⟨?_, ?_, fun a ha => ⟨?_, ?_⟩⟩, fun h => absurd h (by decide), fun j hj => ?_, ?_, ?_, ?_, ?_⟩
      · rw [htile, State.updTile_tileAt_self]
      · rw [← congrArg State.db hdrop, hu]
        exact getLsbD_setBit_self _ _ p.isLt
      · rw [State.dropPts_ptOf, if_pos ha]
      · rw [State.dropPts_ptOf, if_pos ha]
      · rw [htile, State.updTile_tileAt_ne _ _ _ _ hj]
      all_goals
        rw [← hdrop, hu]
        rfl
    | false =>
      obtain ⟨hzones, hpairs, hfl, hports, htiles⟩ := s.tilePassed_rest (p := p) (l := l) x
      have hdrive := State.driveTile_only (s := s.tilePassed p l x) (l := l) x (s.stepTile l (s.tileAt (tileKey p l)) x)
      have htile (j : Nat) := congrArg (tabGet Tile.init · j) ((congrArg State.tiles hdrive).symm.trans htiles)
      refine ⟨_, exec_tilePass_steps hsec hrun hsplit hgoes, fun h => absurd h (by decide), fun _ => ⟨?_, ?_, ?_⟩, fun j hj => ?_,
        (congrArg State.zones hdrive).symm.trans hzones, (congrArg State.pairs hdrive).symm.trans hpairs,
        (congrArg State.fl hdrive).symm.trans hfl, (congrArg State.ports hdrive).symm.trans hports⟩
      · exact (congrArg Tile.stopped ((htile _).trans (State.updTile_tileAt_self s (tileKey p l) _))).trans hgoes
      · exact congrArg Tile.first ((htile _).trans (State.updTile_tileAt_self s (tileKey p l) _))
      · exact congrArg Tile.rt ((htile _).trans (State.updTile_tileAt_self s (tileKey p l) _))
      · exact (htile j).trans (State.updTile_tileAt_ne s (tileKey p l) _ j hj)

end Sys2Proof.Machine
end


section
/-!
# Resets of the whole device (R15, R29, R432, R441, R444, R445)
-/
namespace Sys2Proof.Machine
open Sys2Proof

/-! ### Every entry of a table -/

section
variable {α : Type} [DecidableEq α] {d : α} {t : Tab α} {g : Nat → α → α} {lo k : Nat}

/-- A table in canonical form shows nothing below its first index. -/
theorem tabGet_below (hwf : tabWfFrom d lo t = true) (h : k < lo) : tabGet d t k = d := by
  cases t with
  | nil => rfl
  | cons e t =>
    obtain ⟨a, v⟩ := e
    simp only [tabWfFrom, Bool.and_eq_true, decide_eq_true_eq] at hwf
    obtain ⟨⟨hlo, -⟩, -⟩ := hwf
    rw [tabGet, if_neg (by omega), if_neg (by omega)]

/-- A function that keeps the default, applied at every entry of a table in canonical form, is applied at every index. -/
theorem tabGet_tabMap (hwf : tabWfFrom d lo t = true) (hd : ∀ k, g k d = d) : tabGet d (tabMap d g t) k = g k (tabGet d t k) := by
  induction t generalizing lo with
  | nil => exact (hd k).symm
  | cons e t ih =>
    obtain ⟨a, v⟩ := e
    simp only [tabWfFrom, Bool.and_eq_true, decide_eq_true_eq] at hwf
    obtain ⟨-, hrest⟩ := hwf
    have hlow (hk : k ≤ a) : tabGet d (tabMap d g t) k = d := tabGet_below (tabWfFrom_tabMap hrest) (by omega)
    rw [tabMap, tabGet]
    by_cases hlt : a < k
    · rw [if_pos hlt]
      split
      · exact ih hrest
      · rw [tabGet, if_pos hlt]
        exact ih hrest
    · rw [if_neg hlt]
      by_cases heq : a = k
      · subst heq
        rw [if_pos rfl]
        split
        · next h => rw [hlow le_rfl, h]
        · rw [tabGet, if_neg hlt, if_pos rfl]
      · rw [if_neg heq, hd]
        split
        · exact hlow (by omega)
        · rw [tabGet, if_neg hlt, if_neg heq]
end

/-! ### What a reset leaves -/

section
variable (s : State)

/-- The fuses, and what a reset that keeps overrides leaves of them. -/
theorem State.atReset_otpWord (keep : Bool) (hwf : tabWf OtpWord.init s.otp.words = true) (w : Nat) : (s.atReset keep).otpWord w =
    { fuse := (s.otpWord w).fuse, check := (s.otpWord w).check, ovr := (s.otpWord w).ovr && keep
      shadow := if (s.otpWord w).ovr && keep then (s.otpWord w).shadow else 0#64 } :=
  tabGet_tabMap hwf fun _ => rfl

/-- The two lane dies' counts start at different instants. -/
theorem State.skewLanes_skew : s.skewLanes.tb.skewA = 0 ↔ 0 < s.skewLanes.tb.skewB := by
  obtain ⟨k, hk⟩ : ∃ k, k = (Config.freeMeasure s.freeCtr).toNat := ⟨_, rfl⟩
  have ha : s.skewLanes.tb.skewA = if k % 2 = 1 then k / 2 + 1 else 0 := by rw [hk]; rfl
  have hb : s.skewLanes.tb.skewB = if k % 2 = 0 then k / 2 + 1 else 0 := by rw [hk]; rfl
  rw [ha, hb]
  obtain h | h := Nat.mod_two_eq_zero_or_one k <;> simp [h]
end

/-! ### The pins -/

section
variable {s : State} {ns : Nat}

theorem State.pulseActs_short (h : ns < 1000) : s.pulseActs ns = (false, s) := if_pos h

theorem State.pulseActs_long (h : 10000 ≤ ns) : s.pulseActs ns = (true, s) := (if_neg (by omega)).trans (if_pos h)

theorem State.pulseActs_between (h1 : 1000 ≤ ns) (h2 : ns < 10000) :
    s.pulseActs ns = (Config.freePulseActs s.freeCtr, { s with freeCtr := s.freeCtr + 1 }) := (if_neg (by omega)).trans (if_neg (by omega))

theorem exec_resetN {b : Bool} {t : State} (h : s.pulseActs ns = (b, t)) :
    exec (.resetN ns) s = .next (if b && !t.pm.inReset then t.wholeReset 1 true else t) := by
  change execResetN ns s = _
  rw [execResetN, h]
  rfl

theorem exec_perstN_acts (h : 10000 ≤ ns) : exec (.perstN ns) s =
    if s.pm.inReset then .next { s with otp := s.otp.afterReset false }
    else if s.pm.flashMode then
      let t := s.dropOverrides.hostReset.settle
      .next { t with hi := { t.hi with d3 := false, ready := false } }
    else .next (s.wholeReset 2 false) := by
  change execPerstN ns s = _
  rw [execPerstN, State.pulseActs_long h]
  rfl
end

/-- Settles O38. -/
theorem resetsOfTheDevice : Obligations.ResetsOfTheDevice := by
  unfold Obligations.ResetsOfTheDevice
  intro s
  refine ⟨rfl, rfl, fun loss hall hhub => ?_, fun ns hns => ⟨?_, ?_⟩, fun ns hns => ⟨?_, fun hin => ?_, fun hout hflash => ?_, fun hout hflash => ?_⟩,
    fun ns h1 h2 => ⟨_, exec_resetN (State.pulseActs_between h1 h2)⟩, fun cause keep => ?_, fun b seqErr => ⟨fun hout => ?_, fun hin => ?_⟩⟩
  · cases loss with
    | all => exact absurd rfl hall
    | hub => exact absurd rfl hhub
    | lane l => exact ⟨_, rfl⟩
    | field => exact ⟨_, rfl⟩
  · rw [exec_resetN (State.pulseActs_short hns)]
    rfl
  · change execPerstN ns s = _
    rw [execPerstN, State.pulseActs_short hns]
    rfl
  · rw [exec_resetN (State.pulseActs_long hns)]
    cases s.pm.inReset <;> rfl
  · rw [exec_perstN_acts hns, if_pos hin]
  · rw [exec_perstN_acts hns, if_neg (by simp [hout]), if_neg (by simp [hflash])]
  · rw [exec_perstN_acts hns, if_neg (by simp [hout]), if_pos hflash]
  · intro t
    refine ⟨rfl, rfl, rfl, ?_, rfl, rfl, rfl, rfl, fun hwf w => ?_⟩
    · change ({ State.reset.db with ir := if (cause = 0 || cause = 3 : Bool) then .idcode else irKept s.db.ir } : Db) = _
      simp only [Bool.or_eq_true, decide_eq_true_eq]
    · have hword : t.otpWord w = (s.atReset keep).otpWord w := rfl
      rw [hword, s.atReset_otpWord keep hwf w]
      exact ⟨rfl, rfl, rfl, by simp only [Bool.and_eq_true]⟩
  · exact congrArg Host.Outcome.next (if_neg (by simp [hout]))
  · obtain ⟨u, hu⟩ : ∃ u, u = ((s.atReset true).updPm fun p =>
      { p with inReset := false, dstate := .load, bootsel := b, bench := b == 3#2, seqErr := seqErr }) := ⟨_, rfl⟩
    refine ⟨u.skewLanes, ?_, ?_, ?_, ?_, ?_, ?_, u.skewLanes_skew, fun hwf w => ?_⟩
    · rw [hu]
      exact congrArg Host.Outcome.next (if_pos hin)
    · rw [hu]
      rfl
    · rw [hu]
      rfl
    · rw [hu]
      rfl
    · rw [hu]
      rfl
    · rw [hu]
      rfl
    · have hword : u.skewLanes.otpWord w = (s.atReset true).otpWord w := by rw [hu]; rfl
      rw [hword, s.atReset_otpWord true hwf w]
      exact ⟨rfl, Bool.and_true _⟩

end Sys2Proof.Machine
end


section
/-!
# Dormant mode, wake, and the end of bench mode (R454 to R457, R465)
-/
namespace Sys2Proof.Machine
open Sys2Proof

/-! ### Connections and ports as Dormant mode leaves them -/

/-- What a Dormant entry changes of connections and ports, before the lanes announce it. -/
abbrev quietPart (s t : State) : State := { s with
  ptsA := t.ptsA, ptsB := t.ptsB, conns := t.conns, ports := t.ports, trans := t.trans
  evRings := t.evRings, evqA := t.evqA, evqB := t.evqB, hi := t.hi, freeCtr := t.freeCtr }

theorem quietPart_part : Part quietPart := ⟨fun _ => rfl, fun _ _ _ => rfl⟩

/-- A connection that has no session left. -/
def Conn.isShut (c : Conn) : Prop := c.st = .closed ∨ c.st = .withdrawn

/-- One connection's turn in `closeAllConns`. -/
def State.shutConn (t : State) (k : Nat) : State :=
  if (t.conn k).st = .withdrawn || (t.conn k).st = .closed then t
  else (if (t.conn k).st = .running then t.sendClose k rsShutdown else t).setConn k .closed none

theorem State.closeAllConns_eq (s : State) : s.closeAllConns = s.conns.foldl (fun t e => t.shutConn e.1) s := rfl

section
variable (s : State) (k : Nat)

theorem State.sendClose_sends (reason : Nat) : s.Sends (s.sendClose k reason) k := (s.sendFrame_sends ..).trans (.updConn _ fun _ => rfl)

theorem State.shutConn_only : Only quietPart s (s.shutConn k) := by
  unfold State.shutConn
  split
  · rfl
  · refine Only.trans quietPart_part ?_ ((State.setConn_only _ k .closed none).mono fun _ _ => rfl)
    split
    · exact (s.sendClose_sends k _).only.mono fun _ _ => rfl
    · rfl

theorem State.shutConn_self : ((s.shutConn k).conn k).isShut := by
  unfold State.shutConn
  split
  · next h =>
    rw [Bool.or_eq_true, decide_eq_true_eq, decide_eq_true_eq] at h
    exact h.symm
  · exact .inl (State.setConn_st _ k .closed none)

theorem State.shutConn_ne {j : Nat} (h : j ≠ k) : (s.shutConn k).conn j = s.conn j := by
  unfold State.shutConn
  split
  · rfl
  · rw [State.setConn_conn_ne _ _ _ _ h]
    split
    · exact (s.sendClose_sends k _).other j h
    · rfl
end

theorem State.foldl_shutConn (es : Tab Conn) (s : State) (j : Nat) (h : (s.conn j).isShut ∨ ∃ e ∈ es, e.1 = j) :
    ((es.foldl (fun t e => t.shutConn e.1) s).conn j).isShut := by
  induction es generalizing s with
  | nil => exact h.resolve_right (by simp)
  | cons e es ih =>
    refine ih _ ?_
    by_cases hj : j = e.1
    · subst hj
      exact .inl (s.shutConn_self e.1)
    · rw [State.shutConn_ne s e.1 hj]
      obtain h | ⟨x, hx, hxj⟩ := h
      · exact .inl h
      · obtain rfl | hx := List.mem_cons.mp hx
        · exact absurd hxj.symm hj
        · exact .inr ⟨x, hx, hxj⟩

section
variable (s : State)

/-- Every connection is CLOSED, or never was declared. -/
theorem State.closeAllConns_isShut (k : Nat) : (s.closeAllConns.conn k).isShut := by
  rw [State.closeAllConns_eq]
  refine State.foldl_shutConn s.conns s k ?_
  by_cases h : s.conn k = Conn.init
  · exact .inl (.inr (by rw [h]; rfl))
  · obtain ⟨e, he, hk⟩ := List.mem_map.mp (mem_of_tabGet_ne h)
    exact .inr ⟨e, he, hk⟩

theorem State.closeAllConns_only : Only quietPart s s.closeAllConns :=
  Only.foldl (f := fun (t : State) (e : Nat × Conn) => t.shutConn e.1) quietPart_part (fun t e => t.shutConn_only e.1) s.conns s

/-- An update of a connection that leaves its state. -/
theorem State.updConn_conn_st {f : Conn → Conn} (hf : ∀ c, (f c).st = c.st) (k j : Nat) : ((s.updConn k f).conn j).st = (s.conn j).st := by
  rw [State.updConn_conn]
  split
  · next h => rw [hf, h]
  · rfl

/-- What a port still sends in Dormant mode, and a connection on it. -/
def Conn.onlyCloses (c : Conn) : Conn := { c with txReq := false, txBuilt := c.txBuilt.filter fun b => decide (b.frameA.ftype = ftClose) }

def Port.onlyCloses (q : Port) : Port := { q with queue := q.queue.filter fun f => decide (f.frame.ftype = ftClose) }

theorem State.dropOthers_eq : s.dropOthers = (List.range 32).foldl (fun t p => t.updPort p Port.onlyCloses)
    (s.conns.foldl (fun t e => t.updConn e.1 Conn.onlyCloses) s) := rfl

theorem State.dropOthers_only : Only quietPart s s.dropOthers := by
  rw [State.dropOthers_eq]
  exact Only.trans quietPart_part
    (Only.foldl (f := fun (t : State) (e : Nat × Conn) => t.updConn e.1 Conn.onlyCloses) quietPart_part (fun _ _ => rfl) s.conns s)
    (Only.foldl (f := fun (t : State) (p : Nat) => t.updPort p Port.onlyCloses) quietPart_part (fun _ _ => rfl) (List.range 32) _)

theorem State.dropOthers_conn_st (k : Nat) : (s.dropOthers.conn k).st = (s.conn k).st := by
  rw [State.dropOthers_eq]
  have hports := foldl_keeps (P := State.conns) (h := fun (t : State) (p : Nat) => t.updPort p Port.onlyCloses) (fun _ _ => rfl) (List.range 32)
    (s.conns.foldl (fun t e => t.updConn e.1 Conn.onlyCloses) s)
  have hconns := foldl_keeps (P := fun (t : State) => (t.conn k).st) (h := fun (t : State) (e : Nat × Conn) => t.updConn e.1 Conn.onlyCloses)
    (fun t e => t.updConn_conn_st (f := Conn.onlyCloses) (fun _ => rfl) e.1 k) s.conns s
  exact (congrArg (fun t : Tab Conn => (tabGet Conn.init t k).st) hports).trans hconns

/-- A connection of the old state that was open opens again at wake. -/
def State.markWake (s t : State) (e : Nat × Conn) : State :=
  if (s.conn e.1).st != .withdrawn && (s.conn e.1).st != .closed then t.updConn e.1 fun c => { c with wakeOpen := true } else t

/-- Connections and ports as Dormant mode leaves them. -/
def State.connsShut (s : State) : State := s.conns.foldl s.markWake s.closeAllConns.dropOthers

theorem State.goDormant_eq : s.goDormant = { s.connsShut with
    tb := { s.connsShut.tb with laLf := true, lbLf := true, xchkOff := true }
    laneA := s.connsShut.laneA.announce
    laneB := s.connsShut.laneB.announce
    pm := { s.connsShut.pm with dstate := .dormant, rawAtEntry := s.connsShut.rawMask } } := rfl

theorem State.markWake_only (t : State) (e : Nat × Conn) : Only quietPart t (s.markWake t e) := by
  unfold State.markWake
  split <;> rfl

theorem State.connsShut_only : Only quietPart s s.connsShut :=
  Only.trans quietPart_part (Only.trans quietPart_part s.closeAllConns_only (State.dropOthers_only _))
    (Only.foldl quietPart_part s.markWake_only s.conns _)

theorem State.connsShut_isShut (k : Nat) : (s.connsShut.conn k).isShut := by
  have hmark := foldl_keeps (P := fun (t : State) => (t.conn k).st) (h := s.markWake) (fun t e => by
    unfold State.markWake
    split
    · exact t.updConn_conn_st (f := fun c => { c with wakeOpen := true }) (fun _ => rfl) e.1 k
    · rfl) s.conns s.closeAllConns.dropOthers
  have hst : (s.connsShut.conn k).st = (s.closeAllConns.conn k).st := hmark.trans (State.dropOthers_conn_st _ k)
  unfold Conn.isShut
  rw [hst]
  exact s.closeAllConns_isShut k

/-- What Dormant mode leaves of the rest of the device. -/
theorem State.goDormant_spec : s.goDormant.pm.dstate = .dormant ∧ s.goDormant.tb = { s.tb with laLf := true, lbLf := true, xchkOff := true } ∧
    s.goDormant.fd = s.fd ∧ s.goDormant.laneA = { s.laneA with dormAnn := true, annX := false, annFd := false } ∧
    s.goDormant.laneB = { s.laneB with dormAnn := true, annX := false, annFd := false } ∧ (∀ k, (s.goDormant.conn k).isShut) ∧
    s.goDormant.zones = s.zones ∧ s.goDormant.pairs = s.pairs ∧ s.goDormant.chans = s.chans ∧ s.goDormant.otp = s.otp := by
  have hshut := s.connsShut_isShut
  have honly := s.connsShut_only
  rw [State.goDormant_eq]
  generalize s.connsShut = t at hshut honly
  refine ⟨rfl, ?_, (congrArg State.fd honly).symm, ?_, ?_, hshut, (congrArg State.zones honly).symm, (congrArg State.pairs honly).symm,
    (congrArg State.chans honly).symm, (congrArg State.otp honly).symm⟩
  · exact congrArg (fun b : Tbs => { b with laLf := true, lbLf := true, xchkOff := true }) (congrArg State.tb honly).symm
  · exact congrArg LaneDie.announce (congrArg State.laneA honly).symm
  · exact congrArg LaneDie.announce (congrArg State.laneB honly).symm

/-! ### Dormant entry and wake -/

theorem exec_dormantEntry_barred {c : Nat} (h : s.dormantBar true = some c) : exec .dormantEntry s = .next (s.wrej c 0 0x2004) := by
  change ok (s.dormantWrite 0) = _
  rw [State.dormantWrite, h]
  rfl

theorem exec_dormantEntry_free (h : s.dormantBar true = none) :
    exec .dormantEntry s = .next (if s.pm.dstate = .dormant then s else s.goDormant) := by
  change ok (s.dormantWrite 0) = _
  rw [State.dormantWrite, h]
  rfl

theorem State.dormantBar_awake (h : s.pm.dstate ≠ .dormant) : s.dormantBar true =
    if s.allWithdrawn = false then some 1 else if s.pm.dstate ≠ .run then some 3 else if s.tb.lfFail then some 1 else none := by
  rw [State.dormantBar, if_neg h]
  cases s.allWithdrawn <;> rfl
end

/-! ### The 1 ms read of the inputs -/

section
variable {s : State}

/-- The inputs as the 1 ms read of Dormant mode leaves them. -/
def State.inputsRead (s : State) (raw : BitVec 64) : State :=
  (s.updChans (below 64 fun n => (s.chan n).mode == 1#2) fun n c => { c with raw := raw.getLsbD n }).updPm fun p => { p with rawAtEntry := raw }

theorem exec_dormantInputRead (h : s.pm.dstate = .dormant) (raw : BitVec 64) : exec (.dormantInputRead raw) s =
    .next (if (below 64 fun n => (s.chan n).mode == 1#2).any fun n =>
        (if n < 32 then bit s.pm.wakeLo n else bit s.pm.wakeHi (n - 32)) && (raw.getLsbD n != s.pm.rawAtEntry.getLsbD n)
      then (s.inputsRead raw).wake else s.inputsRead raw) := by
  change execDormantInputRead raw s = _
  unfold execDormantInputRead
  exact if_neg (not_not.mpr h)

theorem State.inputsRead_raw (raw : BitVec 64) (n : Fin 64) (h : (s.chan n).mode = 1#2) : ((s.inputsRead raw).chan n).raw = raw.getLsbD n := by
  have hin : n.val ∈ below 64 fun n => (s.chan n).mode == 1#2 := mem_below.mpr ⟨n.isLt, by simp [h]⟩
  have hchan : (s.inputsRead raw).chan n =
      (s.updChans (below 64 fun n => (s.chan n).mode == 1#2) fun n c => { c with raw := raw.getLsbD n }).chan n := rfl
  rw [hchan, State.updChans_chan _ _ _ _ (below_nodup _ _), if_pos hin]
end

/-! ### The end of bench mode (R465) -/

section
variable {s : State}

theorem State.benchHeld_iff : s.benchHeld = true ↔ s.db.broken = true ∨ ∃ p : Fin 36, (s.pair p).role = .halted := by
  unfold State.benchHeld
  rw [Bool.or_eq_true, Bool.not_eq_true', List.isEmpty_eq_false_iff_exists_mem]
  simp only [mem_below, beq_iff_eq]
  exact or_congr_right ⟨fun ⟨p, hp, h⟩ => ⟨⟨p, hp⟩, h⟩, fun ⟨p, h⟩ => ⟨p, p.isLt, h⟩⟩

/-- A word as it stands with no override. -/
def OtpWord.unoverridden (o : OtpWord) : OtpWord :=
  if o.ovr then { o with ovr := false, shadow := if o.uncorr then 0#64 else o.val } else o

theorem State.mapOtp_otpWord (t : State) (f : Nat → OtpWord → OtpWord) (w : Fin 256) : (t.mapOtp f).otpWord w = f w (t.otpWord w) := by
  rw [State.otpWord, State.mapOtp]
  dsimp only
  rw [tabGet_tabUpdAll List.nodup_range, if_pos (List.mem_range.mpr w.isLt), State.otpWord]

/-- The words of the array. -/
abbrev wordsPart (s t : State) : State := { s with otp := { s.otp with words := t.otp.words } }

theorem wordsPart_part : Part wordsPart := ⟨fun _ => rfl, fun _ _ _ => rfl⟩

theorem State.withWords_only (t : State) (ws : Tab OtpWord) : Only wordsPart t { t with otp := { t.otp with words := ws } } := rfl

theorem State.mapOtp_only (t : State) (f : Nat → OtpWord → OtpWord) : Only wordsPart t (t.mapOtp f) := t.withWords_only _

/-- What leaving bench mode changes beside what it does to the words. -/
abbrev benchPart (s t : State) : State := { s with pm := t.pm, chans := t.chans, db := t.db, otp := { s.otp with words := t.otp.words } }

theorem benchPart_part : Part benchPart := ⟨fun _ => rfl, fun _ _ _ => rfl⟩

theorem State.leaveBench_eq (h : s.pm.bench = true) (hfree : s.benchHeld = false) : s.leaveBench =
    { ((s.holdChans s.safetyChans).updPm fun p => { p with bench := false }).dropOverrides with
      db := { s.db with ir := irKept s.db.ir } } := if_neg (by simp [h, hfree])
end

/-- Settles O41. -/
theorem dormantAndBenchMode : Obligations.DormantAndBenchMode := by
  unfold Obligations.DormantAndBenchMode
  refine ⟨fun s => ⟨fun hrun hwith hlf => ?_, fun hrun hbar => ?_, fun hdorm => ?_, fun hnotRun hawake => ?_, fun hawake => ⟨?_, fun raw => ?_⟩,
    fun hdorm => ⟨?_, fun raw => ?_⟩, fun l => ⟨fun hdorm => ?_, fun hawake => ?_⟩⟩,
    fun s => ⟨fun hbench => ?_, fun hbench hheld => ?_, fun hbench hintact hnone => ?_⟩⟩
  · have hawake : s.pm.dstate ≠ .dormant := by rw [hrun]; decide
    have hbar : s.dormantBar true = none := by rw [State.dormantBar_awake s hawake, hwith, hrun, hlf]; rfl
    exact ⟨s.goDormant, by rw [exec_dormantEntry_free s hbar, if_neg hawake], s.goDormant_spec⟩
  · have hawake : s.pm.dstate ≠ .dormant := by rw [hrun]; decide
    refine exec_dormantEntry_barred s ?_
    rw [State.dormantBar_awake s hawake, hrun]
    obtain h | h := hbar
    · rw [h]
      rfl
    · rw [h]
      cases s.allWithdrawn <;> rfl
  · rw [exec_dormantEntry_free s (if_pos hdorm), if_pos hdorm]
  · refine exec_dormantEntry_barred s ?_
    rw [State.dormantBar_awake s hawake, if_pos hnotRun]
    cases s.allWithdrawn <;> rfl
  · exact congrArg Host.Outcome.next (if_neg hawake)
  · exact if_pos hawake
  · exact congrArg Host.Outcome.next (if_pos hdorm)
  · intro sel hit
    have hiff : ((below 64 fun n => (s.chan n).mode == 1#2).any fun n => sel n && (raw.getLsbD n != s.pm.rawAtEntry.getLsbD n)) = true ↔ hit := by
      simp only [List.any_eq_true, mem_below, beq_iff_eq, Bool.and_eq_true, bne_iff_ne]
      exact ⟨fun ⟨n, ⟨hn, hmode⟩, hsel⟩ => ⟨⟨n, hn⟩, hmode, hsel⟩, fun ⟨n, hmode, hsel⟩ => ⟨n, ⟨n.isLt, hmode⟩, hsel⟩⟩
    refine ⟨s.inputsRead raw, rfl, State.inputsRead_raw raw, rfl, fun hno => ⟨?_, hdorm, rfl⟩, fun hyes => ?_⟩
    · rw [exec_dormantInputRead hdorm]
      exact congrArg Host.Outcome.next (if_neg fun h => hno (hiff.mp h))
    · rw [exec_dormantInputRead hdorm]
      exact congrArg Host.Outcome.next (if_pos (hiff.mpr hyes))
  · exact if_pos hdorm
  · intro u
    have hu : (if (s.lane l).annX && !(s.lane l).retAnn then s.laneFault (otherLane l) 0x2006#16 0 else s) = u :=
      ite_congr (by simp) (fun _ => rfl) fun _ => rfl
    change execWakeReturnTimeout l s = _
    unfold execWakeReturnTimeout
    dsimp only
    rw [if_neg hawake, hu]
    simp only [Bool.and_eq_true, Bool.not_eq_true', and_assoc]
    rfl
  · exact congrArg Host.Outcome.next ((if_neg (by simp [hbench])).trans (if_pos (by simp [hbench])))
  · exact congrArg Host.Outcome.next (if_pos (by rw [hbench, State.benchHeld_iff.mpr hheld]; rfl))
  · have hfree : s.benchHeld = false := by
      rw [← Bool.not_eq_true, State.benchHeld_iff]
      rintro (h | ⟨p, h⟩)
      · exact absurd h (by simp [hintact])
      · exact hnone p h
    obtain ⟨t, ht⟩ : ∃ t, t = s.holdChans s.safetyChans := ⟨_, rfl⟩
    have hchan (n : Fin 64) : t.chan n = if (s.chan n).mode = 2#2 then
        { s.chan n with ret := (s.chan n).ret || (s.chan n).isOutput, pulse := none } else s.chan n := by
      rw [ht, State.holdChans_chan _ State.safetyChans_nodup]
      exact ite_congr (by simp [State.mem_safetyChans]) (fun _ => rfl) fun _ => rfl
    have honly : Only chansPart s t := by rw [ht]; exact State.holdChans_only s _
    obtain ⟨u, hu⟩ : ∃ u, u = t.updPm fun p => { p with bench := false } := ⟨_, rfl⟩
    obtain ⟨v, hv⟩ : ∃ v, v = u.dropOverrides := ⟨_, rfl⟩
    have hwords : Only wordsPart u v := by rw [hv]; exact u.mapOtp_only _
    have hchans : v.chans = t.chans := (congrArg State.chans hwords).symm.trans (by rw [hu]; rfl)
    have hmode2 (n : Fin 64) : v.chan n = t.chan n := congrArg (tabGet Chan.init · n) hchans
    refine ⟨{ v with db := { s.db with ir := irKept s.db.ir } }, ?_, ?_, fun w => ?_, fun n hmode => ?_, fun n hmode => ?_, rfl, ?_⟩
    · rw [hv, hu, ht, ← State.leaveBench_eq hbench hfree]
      exact congrArg Host.Outcome.next (if_neg (by simp [hfree]))
    · have hpm : v.pm = u.pm := (congrArg State.pm hwords).symm
      refine hpm.trans ?_
      rw [hu, ← honly]
      rfl
    · have hword : u.otpWord w = s.otpWord w := by rw [hu, ← honly]; rfl
      have hdrop : v.otpWord w = (u.otpWord w).unoverridden := by
        rw [hv]
        exact State.mapOtp_otpWord u _ w
      rw [← hword]
      exact hdrop
    · have hret : v.chan n = { s.chan n with ret := (s.chan n).ret || (s.chan n).isOutput, pulse := none } :=
        (hmode2 n).trans ((hchan n).trans (if_pos hmode))
      exact ⟨(congrArg Chan.ret hret).trans (by simp [Chan.isOutput, hmode]), congrArg Chan.pulse hret⟩
    · exact (hmode2 n).trans ((hchan n).trans (if_neg hmode))
    · have hpart : Only benchPart s { v with db := { s.db with ir := irKept s.db.ir } } := by
        have hup : Only benchPart s u := by
          rw [hu]
          exact Only.trans benchPart_part (t := t) (honly.mono fun _ _ => rfl) rfl
        exact Only.trans benchPart_part (Only.trans benchPart_part hup (hwords.mono fun _ _ => rfl)) rfl
      exact Only.back benchPart_part hpart

end Sys2Proof.Machine
end


section
/-!
# SHUTDOWN_N and the BIST record (R333, R452, R453)
-/
namespace Sys2Proof.Machine
open Sys2Proof

/-! ### A shutdown starts -/

/-- Completions, and what a zone has waiting for one. -/
abbrev zoneRingPart (s t : State) : State := { s with zones := t.zones, rings := t.rings, hi := t.hi }

theorem zoneRingPart_part : Part zoneRingPart := ⟨fun _ => rfl, fun _ _ _ => rfl⟩

section
variable (s : State)

/-- What waits for an outside event ends ABORTED: commands, self-tests asked for, sheets. -/
def State.abortWaits (s : State) : State :=
  let t := ({ s with waiting := [] } : State)
  let t := s.waiting.foldl (fun t i => match waitOrigin i with
    | some (o, c) => t.complete o c stAborted 0
    | none => t) t
  let t := t.bist.asked.foldl (fun t e => t.complete e.1 0x30 stAborted 0) { t with bist := { t.bist with asked := [] } }
  ({ t with snap := { t.snap with waiting := [] } } : State).abortMoves

/-- What waits in one zone for a completion. -/
def State.abortZone (t : State) (e : Nat × Zone) : State :=
  let y := t.zone e.1
  let u := t.updZone e.1 fun y => { y with restartReq := false, restartO := [], wd := y.wd.map fun w => { w with os := [] } }
  let u := y.restartO.foldl (fun u o => u.complete o 0x14 stAborted y.st.code) u
  match y.wd with
  | some w => w.os.foldl (fun u o => u.complete o 0x12 stAborted y.st.code) u
  | none => u

theorem State.abortAll_eq : s.abortAll =
    (s.cancelOp stAborted).abortWaits.zones.foldl State.abortZone (s.cancelOp stAborted).abortWaits := rfl

theorem State.complete_only (o : Origin) (c st res : Nat) : Only ringPart s (s.complete o c st res) := s.completion_only _ _ _ _ _ _

theorem State.foldl_complete_of {α : Type} (f : α → Origin) (c st res : Nat) (xs : List α) (t : State) :
    Only ringPart t (xs.foldl (fun t e => t.complete (f e) c st res) t) :=
  Only.foldl (f := fun t e => t.complete (f e) c st res) ringPart_part (fun t e => t.complete_only (f e) c st res) xs t

theorem State.abortMoves_only : Only ringPart s s.abortMoves := by
  refine Only.foldl ringPart_part (fun t r => ?_) (List.finRange 16) s
  split
  · exact t.completion_only _ _ _ _ _ _
  · rfl

theorem State.abortZone_only (e : Nat × Zone) : Only zoneRingPart s (s.abortZone e) := by
  have hmany (t : State) (os : List Origin) (c res : Nat) : Only zoneRingPart t (os.foldl (fun u o => u.complete o c stAborted res) t) :=
    (State.foldl_complete_of (fun o => o) c stAborted res os t).mono fun _ _ => rfl
  unfold State.abortZone
  dsimp only
  split
  · exact Only.trans zoneRingPart_part (Only.trans zoneRingPart_part (t := s.updZone e.1 _) rfl (hmany _ _ _ _)) (hmany _ _ _ _)
  · exact Only.trans zoneRingPart_part (t := s.updZone e.1 _) rfl (hmany _ _ _ _)

theorem State.abortWaits_empties : s.abortWaits.waiting = [] ∧ s.abortWaits.bist.asked = [] ∧ s.abortWaits.snap.waiting = [] := by
  obtain ⟨u, hu⟩ : ∃ u : State, u = s.waiting.foldl (fun t i => match waitOrigin i with
    | some (o, c) => t.complete o c stAborted 0
    | none => t) { s with waiting := [] } := ⟨_, rfl⟩
  have hwait : u.waiting = [] := by
    rw [hu]
    refine foldl_keeps (P := State.waiting) (fun t i => ?_) s.waiting _
    split
    · exact (congrArg State.waiting (t.complete_only _ _ _ _)).symm
    · rfl
  obtain ⟨v, hv⟩ : ∃ v : State, v = u.bist.asked.foldl (fun t e => t.complete e.1 0x30 stAborted 0) { u with bist := { u.bist with asked := [] } } :=
    ⟨_, rfl⟩
  have hasked : Only ringPart { u with bist := { u.bist with asked := [] } } v := by
    rw [hv]
    exact State.foldl_complete_of Prod.fst 0x30 stAborted 0 _ _
  have hmoves := State.abortMoves_only { v with snap := { v.snap with waiting := [] } }
  have heq : s.abortWaits = ({ v with snap := { v.snap with waiting := [] } } : State).abortMoves := by rw [hv, hu]; rfl
  rw [heq]
  refine ⟨(congrArg State.waiting hmoves).symm.trans ((congrArg State.waiting hasked).symm.trans hwait),
    (congrArg (fun t : State => t.bist.asked) hmoves).symm.trans (congrArg (fun t : State => t.bist.asked) hasked).symm,
    (congrArg (fun t : State => t.snap.waiting) hmoves).symm⟩

theorem State.abortAll_empties : s.abortAll.waiting = [] ∧ s.abortAll.bist.asked = [] ∧ s.abortAll.snap.waiting = [] := by
  obtain ⟨hwait, hasked, hsnap⟩ := (s.cancelOp stAborted).abortWaits_empties
  have honly : Only zoneRingPart (s.cancelOp stAborted).abortWaits s.abortAll := by
    rw [State.abortAll_eq]
    exact Only.foldl zoneRingPart_part State.abortZone_only _ _
  generalize (s.cancelOp stAborted).abortWaits = u at hwait hasked hsnap honly
  exact ⟨(congrArg State.waiting honly).symm.trans hwait, (congrArg (fun t : State => t.bist.asked) honly).symm.trans hasked,
    (congrArg (fun t : State => t.snap.waiting) honly).symm.trans hsnap⟩

theorem State.startShutdown_spec (o : Option Origin) (cut : Bool) : let t := s.startShutdown o cut
    t.pm.dstate = .shutdown ∧ t.pm.shutO = o ∧ t.pm.shutCut = cut ∧ t.pm.bistDue = false ∧
    t.waiting = [] ∧ t.bist.asked = [] ∧ t.snap.waiting = [] := by
  have hempty := s.abortAll_empties
  unfold State.startShutdown
  generalize s.abortAll = u at hempty ⊢
  exact ⟨rfl, rfl, rfl, rfl, hempty⟩

theorem State.wake_of_awake (h : s.pm.dstate ≠ .dormant) : s.wake = s := if_neg h

theorem exec_shutdownN_eq : exec .shutdownN s = (match s.wake.pm.dstate with
    | .run => .next (s.wake.startShutdown none true).settle
    | .shutdown => .next (s.wake.updPm fun p => { p with shutCut := true }).settle
    | _ => .next s.wake) := rfl
end

/-! ### The device is OFF -/

section
variable (s : State)

/-- Every command off, the values of silent outputs too. -/
def Chan.switchedOff (c : Chan) : Chan := { c.cmdsOff with nsOn := false, nsSilent := false, pulse := none }

theorem State.goOff_eq : s.goOff = (List.range 32).foldl State.portOff
    ((s.updPm fun p => { p with dstate := .off, shutO := none, bistDue := false }).updChans allChans fun _ c => c.switchedOff) := rfl

/-- What going OFF changes. -/
abbrev offPart (s t : State) : State := { s with
  pm := t.pm, chans := t.chans, ports := t.ports, evRings := t.evRings, hi := t.hi, rings := t.rings }

theorem offPart_part : Part offPart := ⟨fun _ => rfl, fun _ _ _ => rfl⟩

theorem State.foldl_portOff_only (ns : List Nat) (t : State) : Only portPart t (ns.foldl State.portOff t) :=
  Only.foldl portPart_part State.portOff_only ns t

theorem State.portOff_port_ne (p : Nat) {j : Nat} (h : j ≠ p) : (s.portOff p).port j = s.port j := by
  unfold State.portOff
  by_cases hst : ((s.updPort p fun q => { q with queue := [], inFlight := none }).port p).st = .disabled
  · rw [State.setPort, if_pos hst, State.updPort_port_ne _ _ _ _ h]
  · rw [(State.setPort_port hst (by decide)).2.1 j h, State.updPort_port_ne _ _ _ _ h]

theorem State.foldl_portOff_port (ns : List Nat) (t : State) {j : Nat}
    (h : j ∈ ns ∨ (t.port j).st = .disabled ∧ (t.port j).queue = []) :
    ((ns.foldl State.portOff t).port j).st = .disabled ∧ ((ns.foldl State.portOff t).port j).queue = [] := by
  induction ns generalizing t with
  | nil => exact h.resolve_left (by simp)
  | cons n ns ih =>
    refine ih _ ?_
    by_cases hj : j = n
    · obtain ⟨hst, hqueue, -⟩ := t.portOff_port n
      subst hj
      exact .inr ⟨hst, hqueue⟩
    · rw [State.portOff_port_ne t n hj]
      exact h.imp_left fun hin => (List.mem_cons.mp hin).resolve_left hj

theorem Chan.switchedOff_off (c : Chan) : c.switchedOff.cmd .a = false ∧ c.switchedOff.cmd .b = false ∧ c.switchedOff.nsOn = false ∧
    c.switchedOff.nsSilent = false := ⟨rfl, rfl, rfl, rfl⟩

theorem State.goOff_spec : s.goOff.pm.dstate = .off ∧ (∀ p : Fin 32, (s.goOff.port p).st = .disabled ∧ (s.goOff.port p).queue = []) ∧
    (∀ n : Fin 64, s.goOff.chan n = (s.chan n).switchedOff) ∧ Only offPart s s.goOff := by
  obtain ⟨u, hu⟩ : ∃ u, u = s.updPm fun p => { p with dstate := .off, shutO := none, bistDue := false } := ⟨_, rfl⟩
  obtain ⟨t, ht⟩ : ∃ t, t = u.updChans allChans fun _ c => c.switchedOff := ⟨_, rfl⟩
  have heq : s.goOff = (List.range 32).foldl State.portOff t := by rw [ht, hu]; rfl
  have honly := State.foldl_portOff_only (List.range 32) t
  rw [← heq] at honly
  have hoff : Only offPart s s.goOff := by
    refine Only.trans offPart_part (t := t) ?_ (honly.mono fun _ _ => rfl)
    rw [ht]
    exact Only.trans offPart_part (t := u) (by rw [hu]; rfl) ((State.updChans_only u _ _).mono fun _ _ => rfl)
  refine ⟨?_, fun p => ?_, fun n => ?_, hoff⟩
  · refine (congrArg (fun t : State => t.pm.dstate) honly).symm.trans ?_
    rw [ht, ← State.updChans_only u, hu]
    rfl
  · rw [heq]
    exact State.foldl_portOff_port _ t (.inl (List.mem_range.mpr p.isLt))
  · have hchan : s.goOff.chan n = t.chan n := congrArg (tabGet Chan.init · n) (congrArg State.chans honly).symm
    have hwas : u.chan n = s.chan n := by rw [hu]; rfl
    rw [hchan, ht, allChans, State.updChans_chan _ _ _ _ List.nodup_range, if_pos (List.mem_range.mpr n.isLt), hwas]
end

/-! ### Faults of both lanes -/

/-- What a fault of a lane changes. -/
abbrev laneFaultPart (s t : State) : State := { s with
  ptsA := t.ptsA, ptsB := t.ptsB, trans := t.trans, owed := t.owed, cat1 := t.cat1, zones := t.zones, pairs := t.pairs, fl := t.fl
  evRings := t.evRings, evqA := t.evqA, evqB := t.evqB, hi := t.hi, laneA := t.laneA, laneB := t.laneB }

theorem laneFaultPart_part : Part laneFaultPart := ⟨fun _ => rfl, fun _ _ _ => rfl⟩

section
variable (s : State)

theorem State.updLane_only (l : Lane) (f : LaneDie → LaneDie) : Only laneFaultPart s (s.updLane l f) := by
  cases l <;> rfl

theorem State.laneFault_only (l : Lane) (code : BitVec 16) (d : Nat) : Only laneFaultPart s (s.laneFault l code d) := by
  rw [State.laneFault_eq, State.laneLatched]
  refine Only.trans laneFaultPart_part ?_ ((State.raise_only _ _ _ _ _ _ _ _).mono fun _ _ => rfl)
  exact Only.trans laneFaultPart_part ((s.latchAll_only l).mono fun _ _ => rfl) (State.updLane_only _ l _)

/-- Both lanes have recorded a mismatch: every pair is stopped in both. -/
theorem State.resultsDiffer_spec : Only laneFaultPart s s.resultsDiffer ∧
    ∀ p : Fin 36, (s.resultsDiffer.pair p).stopA = true ∧ (s.resultsDiffer.pair p).stopB = true := by
  obtain ⟨ha, -⟩ := faultsAreRecordedAndStopZones.2 s .a 0x2003#16 0
  obtain ⟨hb, hkeep, -⟩ := faultsAreRecordedAndStopZones.2 (s.laneFault .a 0x2003#16 0) .b 0x2003#16 0
  exact ⟨Only.trans laneFaultPart_part (s.laneFault_only .a _ 0) (State.laneFault_only _ .b _ 0), fun p => ⟨(hkeep p).trans (ha p), hb p⟩⟩
end

/-! ### The record -/

section
variable (s : State) (c : TestCond)

/-- What the conditions of a test, and its result, change of the device beside a mismatch. -/
abbrev condPart (s t : State) : State := { s with
  adm := t.adm, evRings := t.evRings, hi := t.hi
  bist := { s.bist with
    deferred := t.bist.deferred, deferCnt := t.bist.deferCnt, condTj := t.bist.condTj, condTb := t.bist.condTb
    condVcore := t.bist.condVcore, deferEvAt := t.bist.deferEvAt } }

theorem condPart_part : Part condPart := ⟨fun _ => rfl, fun _ _ _ => rfl⟩

/-- A wait for the conditions is reported once a second. -/
def State.deferPosts (s : State) : Bool :=
  match s.bist.deferEvAt with
  | none => true
  | some t => decide (1000000000 ≤ s.since t)

/-- A wait for the conditions, counted, with the conditions that failed. -/
def State.deferNoted (s : State) (c : TestCond) : State :=
  { s with bist := { s.bist with
    deferred := !condOk c, deferCnt := satInc s.bist.deferCnt 65535, condTj := !c.tj, condTb := !c.timebase, condVcore := !c.vcore
    deferEvAt := if s.deferPosts then some s.now else s.bist.deferEvAt } }

theorem State.defer_eq : s.defer c = if s.deferPosts then
    (s.deferNoted c).postEvent 0x0A 3 (flag (!c.vcore) 0 + flag (!c.timebase) 1 + flag (!c.tj) 2) else s.deferNoted c := rfl

theorem State.defer_evRings : Only evRingPart (s.deferNoted c) (s.defer c) := by
  rw [State.defer_eq]
  split
  · exact State.postEvent_hubPart _ _ _
  · exact Only.refl evRingPart_part _

theorem State.defer_only : Only condPart s (s.defer c) :=
  Only.trans condPart_part (t := s.deferNoted c) rfl ((s.defer_evRings c).mono fun _ _ => rfl)

/-- The stewards have folded the result and compared it: the state a record is written in. -/
def State.recordFolded (s : State) (c : TestCond) (fa fb : List BistEntry) : State :=
  if condOk c then s.foldBoth (resultWords 0 fa) (resultWords 0 fb) else s

/-- What comparing a result, and noting its conditions, may change. -/
abbrev judgePart (s t : State) : State := laneFaultPart (condPart s t) t

theorem judgePart_part : Part judgePart := ⟨fun _ => rfl, fun _ _ _ => rfl⟩

theorem State.recordFolded_only (fa fb : List BistEntry) : Only condPart s (s.recordFolded c fa fb) := by
  unfold State.recordFolded
  split <;> rfl

/-- The conditions are noted, or the wait for them is. -/
def State.condNoted (s : State) (c : TestCond) : State := if condOk c then s.seeCond c else s.defer c

theorem State.condNoted_only : Only condPart s (s.condNoted c) := by
  unfold State.condNoted
  split
  · rfl
  · exact s.defer_only c

/-- A mismatch of the two results stops every pair. -/
def State.recordCompared (s : State) (c : TestCond) (fa fb : List BistEntry) : State :=
  if condOk c && decide (fa ≠ fb) then (s.recordFolded c fa fb).resultsDiffer else s.recordFolded c fa fb

theorem State.recordCompared_same (fa fb : List BistEntry) (h : ¬ (condOk c = true ∧ fa ≠ fb)) :
    Only condPart s (s.recordCompared c fa fb) := by
  rw [State.recordCompared, if_neg (by simpa using h)]
  exact s.recordFolded_only c fa fb

theorem State.recordCompared_differ (fa fb : List BistEntry) (h : condOk c = true ∧ fa ≠ fb) :
    Only judgePart s (s.recordCompared c fa fb) ∧
    ∀ p : Fin 36, ((s.recordCompared c fa fb).pair p).stopA = true ∧ ((s.recordCompared c fa fb).pair p).stopB = true := by
  rw [State.recordCompared, if_pos (by simp [h])]
  obtain ⟨honly, hstop⟩ := (s.recordFolded c fa fb).resultsDiffer_spec
  exact ⟨Only.trans judgePart_part ((s.recordFolded_only c fa fb).mono fun _ _ => rfl) (honly.mono fun _ _ => rfl), hstop⟩
end

section
variable (s : State) (c : TestCond) (tj : Byte) (ch : BitVec 64)

/-- The record of R333 that follows the newest one, or the first. -/
def State.newRecord (s : State) (c : TestCond) (tj : Byte) (es : List BistEntry) (ch : BitVec 64) (n : Word) : BistRec :=
  let res := shutdownResult c es
  let r : BistRec := {
    magic := 0x49564252#32, format := 1#8, consumed := 0xFF#8, result := BitVec.ofNat 8 res
    cond := BitVec.ofNat 8 (flag c.vcore 0 + flag c.timebase 1 + flag c.tj 2)
    counter := n, deviceId := (s.otpWord 0).shadow, tjMax := tj
    pairOk := if res = 3 then 0#64 else pairOkMask es, chOk := if res = 3 then 0#64 else ch
    entries := es.take 64, crcA := 0#32, crcB := 0#32 }
  { r with crcA := crcA (recBytes r), crcB := crcB (recBytes r) }

/-- The sector the next record goes to, and its number. -/
def Bist.nextRecord (b : Bist) : Nat × Word :=
  match b.newest with
  | some (k, r) => (1 - k, nextCounter r.counter)
  | none => (0, 1#32)

/-- The record of number `p.2` is put into sector `p.1`. -/
def State.putRecord (s : State) (c : TestCond) (tj : Byte) (es : List BistEntry) (ch : BitVec 64) (p : Nat × Word) : State :=
  { s with bist := { s.bist.setRecord p.1 (some (s.newRecord c tj es ch p.2)) with recCounter := p.2 } }

theorem State.writeRecord_eq (es : List BistEntry) : s.writeRecord c tj es ch = s.putRecord c tj es ch s.bist.nextRecord := by
  unfold State.writeRecord Bist.nextRecord
  cases s.bist.newest with
  | none => rfl
  | some e => rfl

theorem State.writeRecord_flash (es : List BistEntry) : (s.writeRecord c tj es ch).bist.flash =
    tabSet none s.bist.flash (s.bist.recSec + s.bist.nextRecord.1) (some (s.newRecord c tj es ch s.bist.nextRecord.2)) := by
  rw [State.writeRecord_eq]
  rfl

theorem State.writeRecord_only (es : List BistEntry) : Only (fun s t => { s with bist := t.bist }) s (s.writeRecord c tj es ch) := by
  rw [State.writeRecord_eq]
  rfl

/-- What the record names as failed. -/
def State.recordFails (s : State) (c : TestCond) (fa fb : List BistEntry) : List BistEntry :=
  (s.recordCompared c fa fb).bist.repairs ++ (if condOk c && !(condOk c && decide (fa ≠ fb)) then fa else [])

/-- Whether a record is written. -/
def State.recordWrites (s : State) (c : TestCond) (fa fb : List BistEntry) : Bool :=
  let t := (s.recordCompared c fa fb).condNoted c
  t.pm.flashMode && t.pm.erase4k && !(condOk c && decide (fa ≠ fb))

/-- The state once the record is written, where it is. -/
def State.recordDone (s : State) (c : TestCond) (tj : Byte) (fa fb : List BistEntry) (ch : BitVec 64) : State :=
  let t := (s.recordCompared c fa fb).condNoted c
  if s.recordWrites c fa fb then t.writeRecord c tj (s.recordFails c fa fb) ch else t

theorem exec_shutdownRecordWritten_due {fa fb : List BistEntry} (hshut : s.pm.dstate = .shutdown) (hdue : s.pm.bistDue = true) :
    ∃ o res, exec (.shutdownRecordWritten c tj ⟨fa, fb⟩ ch) s =
      .next (((s.recordDone c tj fa fb ch).completeOpt o 0x51 stSuccess res).goOff) :=
  ⟨(s.recordDone c tj fa fb ch).pm.shutO,
    fld (if condOk c && decide (fa ≠ fb) then 3 else shutdownResult c (s.recordFails c fa fb)) 8 0 +
      fld (if s.recordWrites c fa fb then (s.recordDone c tj fa fb ch).bist.recCounter.toNat else 0) 32 32,
    if_neg (by simp [hshut, hdue])⟩

/-- The last completion and what the device switches off leave the rest. -/
abbrev closedPart (s t : State) : State := { s with
  pm := t.pm, chans := t.chans, ports := t.ports, evRings := t.evRings, hi := t.hi, rings := t.rings }

theorem State.completeOpt_only (o : Option Origin) (op st res : Nat) : Only ringPart s (s.completeOpt o op st res) := by
  unfold State.completeOpt
  split
  · exact s.complete_only _ _ _ _
  · rfl
end

section
variable (s : State) (c : TestCond) (tj : Byte) (ch : BitVec 64) (fa fb : List BistEntry)

/-- With one result in both lanes only the record, and what a wait for the conditions notes, are new. -/
abbrev recordPart (s t : State) : State := { s with
  adm := t.adm, bist := t.bist, pm := t.pm, chans := t.chans, ports := t.ports, evRings := t.evRings, hi := t.hi, rings := t.rings }

theorem State.recordNoted_same (h : ¬ (condOk c = true ∧ fa ≠ fb)) : Only condPart s ((s.recordCompared c fa fb).condNoted c) :=
  Only.trans condPart_part (s.recordCompared_same c fa fb h) (State.condNoted_only _ c)

theorem State.recordNoted_differ (h : condOk c = true ∧ fa ≠ fb) :
    Only judgePart s ((s.recordCompared c fa fb).condNoted c) ∧ ∀ p : Fin 36,
      (((s.recordCompared c fa fb).condNoted c).pair p).stopA = true ∧ (((s.recordCompared c fa fb).condNoted c).pair p).stopB = true := by
  obtain ⟨honly, hstop⟩ := s.recordCompared_differ c fa fb h
  have hnoted := (s.recordCompared c fa fb).condNoted_only c
  refine ⟨Only.trans judgePart_part honly (hnoted.mono fun _ _ => rfl), fun p => ?_⟩
  have hpair : ((s.recordCompared c fa fb).condNoted c).pair p = (s.recordCompared c fa fb).pair p :=
    congrArg (tabGet Pair.init · p) (congrArg State.pairs hnoted).symm
  rw [hpair]
  exact hstop p

theorem State.recordDone_differ (h : condOk c = true ∧ fa ≠ fb) :
    s.recordDone c tj fa fb ch = (s.recordCompared c fa fb).condNoted c :=
  if_neg (by simp [State.recordWrites, h])

theorem State.recordDone_only : Only (fun s t => { s with bist := t.bist }) ((s.recordCompared c fa fb).condNoted c)
    (s.recordDone c tj fa fb ch) := by
  unfold State.recordDone
  dsimp only
  split
  · exact State.writeRecord_only _ c tj ch _
  · rfl

theorem State.recordDone_flash_of_not (h : s.pm.flashMode = false ∨ s.pm.erase4k = false ∨ condOk c = true ∧ fa ≠ fb) :
    (s.recordDone c tj fa fb ch).bist.flash = s.bist.flash := by
  by_cases hd : condOk c = true ∧ fa ≠ fb
  · rw [State.recordDone_differ s c tj ch fa fb hd, ← (s.recordNoted_differ c fa fb hd).1]
  · have honly := s.recordNoted_same c fa fb hd
    have hno : s.recordWrites c fa fb ≠ true := by
      unfold State.recordWrites
      rw [← honly]
      obtain h | h | h := h
      · simp [h]
      · simp [h]
      · exact absurd h hd
    rw [State.recordDone, if_neg hno, ← honly]

theorem State.recordDone_flash (hd : ¬ (condOk c = true ∧ fa ≠ fb)) (hmode : s.pm.flashMode = true) (herase : s.pm.erase4k = true) :
    (s.recordDone c tj fa fb ch).bist.flash = tabSet none s.bist.flash (s.bist.recSec + s.bist.nextRecord.1)
      (some (s.newRecord c tj (s.bist.repairs ++ if condOk c then fa else []) ch s.bist.nextRecord.2)) := by
  have honly := s.recordNoted_same c fa fb hd
  have hno : (condOk c && decide (fa ≠ fb)) = false := by simpa using hd
  have hyes : s.recordWrites c fa fb = true := by
    unfold State.recordWrites
    rw [← honly, hno]
    simp [hmode, herase]
  have hfails : s.recordFails c fa fb = s.bist.repairs ++ if condOk c then fa else [] := by
    rw [State.recordFails, hno, ← s.recordCompared_same c fa fb hd]
    simp
  rw [State.recordDone, if_pos hyes, State.writeRecord_flash, hfails, ← honly]
  rfl
end

/-- Settles O40: a result is compared, its conditions noted, the record written and the device switched off, each step with its frame. -/
theorem shutdownAndItsRecord : Obligations.ShutdownAndItsRecord := by
  unfold Obligations.ShutdownAndItsRecord
  intro s
  refine ⟨fun hrun => ?_, fun hshut => ?_, fun hmem => ?_, fun c tj fa fb ch => ?_⟩
  · have hwake := s.wake_of_awake (by rw [hrun]; decide)
    refine ⟨s.startShutdown none true, ?_, s.startShutdown_spec none true⟩
    rw [exec_shutdownN_eq, hwake, hrun]
  · have hwake := s.wake_of_awake (by rw [hshut]; decide)
    rw [exec_shutdownN_eq, hwake, hshut]
    rfl
  · have hwake := s.wake_of_awake (by rintro h; rw [h] at hmem; simp at hmem)
    rw [exec_shutdownN_eq, hwake]
    simp only [List.mem_cons, List.not_mem_nil, or_false] at hmem
    obtain h | h | h | h := hmem <;> rw [h]
  · intro differ
    refine ⟨fun hno => if_pos ?_, fun hshut hdue => ?_⟩
    · obtain h | h := hno <;> simp [h]
    · obtain ⟨o, res, hexec⟩ := exec_shutdownRecordWritten_due s c tj ch (fa := fa) (fb := fb) hshut hdue
      obtain ⟨v, hv⟩ : ∃ v, v = s.recordDone c tj fa fb ch := ⟨_, rfl⟩
      obtain ⟨u, hu⟩ : ∃ u, u = v.completeOpt o 0x51 stSuccess res := ⟨_, rfl⟩
      rw [← hv, ← hu] at hexec
      obtain ⟨hoff, hports, hchans, hend⟩ := u.goOff_spec
      have hring : Only ringPart v u := by
        rw [hu]
        exact State.completeOpt_only _ _ _ _ _
      have hclosed : Only closedPart v u.goOff :=
        Only.trans offPart_part (hring.mono fun _ _ => rfl) hend
      have hwritten := s.recordDone_only c tj ch fa fb
      rw [← hv] at hwritten
      have hflash : u.goOff.bist.flash = v.bist.flash := (congrArg (fun t : State => t.bist.flash) hclosed).symm
      refine ⟨u.goOff, hexec, hoff, hports, fun n => ?_, ?_, fun hd => ?_, fun hd p => ?_, fun h => ?_, fun hmode herase hd => ?_⟩
      · rw [hchans n]
        exact (u.chan n).switchedOff_off
      · refine (congrArg State.otp hclosed).symm.trans ((congrArg State.otp hwritten).symm.trans ?_)
        by_cases hd : differ
        · exact (congrArg State.otp (s.recordNoted_differ c fa fb hd).1).symm
        · exact (congrArg State.otp (s.recordNoted_same c fa fb hd)).symm
      · have hnoted := s.recordNoted_same c fa fb hd
        exact ⟨(congrArg State.zones hclosed).symm.trans ((congrArg State.zones hwritten).symm.trans (congrArg State.zones hnoted).symm),
          (congrArg State.pairs hclosed).symm.trans ((congrArg State.pairs hwritten).symm.trans (congrArg State.pairs hnoted).symm)⟩
      · have hpair : u.goOff.pair p = ((s.recordCompared c fa fb).condNoted c).pair p :=
          congrArg (tabGet Pair.init · p)
            ((congrArg State.pairs hclosed).symm.trans (congrArg State.pairs hwritten).symm)
        rw [hpair]
        exact (s.recordNoted_differ c fa fb hd).2 p
      · rw [hflash, hv]
        exact s.recordDone_flash_of_not c tj ch fa fb h
      · have hput := s.recordDone_flash c tj ch fa fb hd hmode herase
        rw [← hv, ← hflash] at hput
        intro es put
        have hnext (k : Nat) (n : Word) (h : s.bist.nextRecord = (k, n)) : put k n := by
          rw [h] at hput
          exact ⟨_, hput, rfl, rfl, rfl, rfl, rfl, rfl, rfl, rfl, rfl, rfl⟩
        refine ⟨fun r h => hnext _ _ ?_, fun r h => hnext _ _ ?_, fun h => hnext _ _ ?_⟩ <;> rw [Bist.nextRecord, h]

end Sys2Proof.Machine
end


section
/-!
# The load of the shadows and the start test (R329, R335, R336, R421, R447)
-/
namespace Sys2Proof.Machine
open Sys2Proof

/-! ### Small facts -/

theorem Bist.newest_record {b : Bist} {k : Nat} {r : BistRec} (h : b.newest = some (k, r)) : b.record k = some r := by
  have hvalid {j : Nat} {q : BistRec} (h : validRec (b.record j) = some q) : b.record j = some q := (Option.filter_eq_some_iff.mp h).1
  unfold Bist.newest at h
  split at h
  · cases h
  · cases h
    exact hvalid ‹_›
  · cases h
    exact hvalid ‹_›
  · have hr := hvalid ‹validRec (b.record 0) = some _›
    have hq := hvalid ‹validRec (b.record 1) = some _›
    split at h
    · cases h; exact hq
    · split at h
      · cases h; exact hr
      · split at h
        · cases h; exact hq
        · cases h; exact hr

theorem getLsbD_setBit_true {n i : Nat} (v : BitVec n) (j : Nat) : (setBit v i true).getLsbD j = (decide (j < n) && decide (j = i) || v.getLsbD j) := by
  have hone : (BitVec.ofNat n (1 <<< i)).getLsbD j = (decide (j < n) && decide (j = i)) := by
    rw [BitVec.getLsbD_ofNat, Nat.one_shiftLeft, Nat.testBit_two_pow]
    exact congrArg _ (decide_eq_decide.mpr eq_comm)
  rw [setBit, if_pos rfl, BitVec.getLsbD_or, hone, Bool.or_comm]

theorem getLsbD_foldl_setBit_true {n : Nat} (is : List Nat) (v : BitVec n) (j : Nat) :
    (is.foldl (fun v i => setBit v i true) v).getLsbD j = (decide (j < n) && decide (j ∈ is) || v.getLsbD j) := by
  induction is generalizing v with
  | nil => simp
  | cons i is ih =>
    rw [List.foldl_cons, ih, getLsbD_setBit_true]
    by_cases hj : j = i
    · simp only [hj, List.mem_cons, true_or, decide_true, Bool.and_true]
      cases decide (i < n) <;> simp
    · simp [hj]

/-- A mask of at most eight pairs is taken whole. -/
theorem clipMask_of_le {m : BitVec 36} (h : (maskBits m).length ≤ 8) : clipMask m = (m, false) := by
  have hbits : (maskBits m).foldl (fun v p => setBit v p true) 0#36 = m := by
    refine BitVec.eq_of_getLsbD_eq fun j hj => ?_
    rw [getLsbD_foldl_setBit_true, maskBits]
    simp [mem_below, hj]
  unfold clipMask
  dsimp only
  rw [List.take_of_length_le h, hbits, decide_eq_false (by omega)]

/-! ### What the fuses say -/

section
variable {s t : State} (h : t.otp = s.otp)
include h

theorem State.otpWord_congr : t.otpWord = s.otpWord := funext fun w => congrArg (fun o : Otp => tabGet OtpWord.init o.words w) h

theorem State.region3Ok_congr : t.region3Ok = s.region3Ok := by
  simp only [State.region3Ok, State.region3Clean, State.otpWord_congr h, h]

theorem State.splitFuse_congr : t.splitFuse = s.splitFuse := by
  rw [State.splitFuse, State.splitFuse, State.region3Ok_congr h, State.otpWord_congr h]

theorem State.recSector_congr (n : Nat) : t.recSector n = s.recSector n := by
  rw [State.recSector, State.recSector, State.recSectorFuse, State.recSectorFuse, State.region3Ok_congr h, State.otpWord_congr h]

theorem State.recReason_congr (r : BistRec) (crc : Bool) : t.recReason r crc = s.recReason r crc := by
  rw [State.recReason, State.recReason, State.otpWord_congr h]
end

/-! ### The choice of the start test -/

/-- What the flash and the choice of the start test change. -/
abbrev bootPart (s t : State) : State := { s with pm := t.pm, bist := t.bist, freeCtr := t.freeCtr }

theorem bootPart_part : Part bootPart := ⟨fun _ => rfl, fun _ _ _ => rfl⟩

section
variable (s : State)

/-- A full start, with the reason for it. -/
def State.fullStart (s : State) (reason : Nat) : State :=
  { s with bist := { s.bist with startMode := 2#2, recReason := reason }, pm := { s.pm with quick := false } }

/-- A quick start, from a record. -/
def State.quickStart (s : State) (r : BistRec) : State :=
  { s with
    bist := { s.bist with startMode := 1#2, recReason := 0, recCounter := r.counter, repairs := r.entries.filter (·.action = 0#2) }
    pm := { s.pm with quick := true } }

theorem State.chooseStart_of_noFlash (crc : Bool) (h : s.pm.flashMode = false ∨ s.pm.sfdpOk = false) : s.chooseStart crc = s.fullStart 1 :=
  if_pos (by simpa using h)

theorem State.chooseStart_of_noRecord (crc : Bool) (hflash : s.pm.flashMode = true) (hsfdp : s.pm.sfdpOk = true)
    (h : s.pm.erase4k = false ∨ s.bist.newest = none) : s.chooseStart crc = s.fullStart 2 := by
  unfold State.chooseStart
  dsimp only
  rw [if_neg (by simp [hflash, hsfdp])]
  split
  · rfl
  · rw [h.resolve_left (by simpa using ‹¬ (!s.pm.erase4k) = true›)]
    rfl

theorem State.chooseStart_of_record (crc : Bool) {k : Nat} {r : BistRec} (hflash : s.pm.flashMode = true) (hsfdp : s.pm.sfdpOk = true)
    (herase : s.pm.erase4k = true) (hnew : s.bist.newest = some (k, r)) :
    s.chooseStart crc = if s.recReason r crc = 0 then ({ s with bist := s.bist.consume k } : State).quickStart r
      else ({ s with bist := s.bist.consume k } : State).fullStart (s.recReason r crc) := by
  unfold State.chooseStart
  dsimp only
  rw [if_neg (by simp [hflash, hsfdp]), if_neg (by simp [herase]), hnew]
  rfl

theorem State.chooseStart_only (crc : Bool) : Only bootPart s (s.chooseStart crc) := by
  unfold State.chooseStart
  dsimp only
  split
  · rfl
  · split
    · rfl
    · split
      · rfl
      · split <;> rfl

theorem State.bootFail_only (err st : Nat) : Only bootPart s (s.bootFail err st) ∧ (s.bootFail err st).bist = s.bist ∧
    (s.bootFail err st).pm.flashMode = s.pm.flashMode ∧ (s.bootFail err st).pm.sfdpOk = s.pm.sfdpOk := by
  unfold State.bootFail
  split
  · exact ⟨rfl, rfl, rfl, rfl⟩
  · exact ⟨rfl, rfl, rfl, rfl⟩

/-- What tables that can be read give. -/
def State.tablesRead (s : State) (fl : FlashInfo) : State := { s with
  pm := { s.pm with
    sfdpOk := true, erase4k := fl.erase4k, addr4 := flashAddr4 fl, readMode := flashReadMode fl
    addrMode := flashAddr4 fl && !fl.fourByteTable }
  bist := { s.bist with recSec := s.recSector fl.size } }

/-- The tables of a flash, where the boot mode reads one. -/
def State.flashRead (s : State) (fl : FlashInfo) : State := if s.pm.flashMode then s.readSfdp fl else s

theorem State.flashRead_of_noFlash {fl : FlashInfo} (h : s.pm.flashMode = false ∨ fl.sfdpOk = false) :
    Only bootPart s (s.flashRead fl) ∧ (s.flashRead fl).bist = s.bist ∧
    ((s.flashRead fl).pm.flashMode = false ∨ (s.flashRead fl).pm.sfdpOk = false) := by
  unfold State.flashRead
  by_cases hflash : s.pm.flashMode = true
  · have hsfdp := h.resolve_left (by simp [hflash])
    rw [if_pos hflash, State.readSfdp, if_neg (by simp [hsfdp])]
    obtain ⟨honly, hbist, -, hok⟩ := State.bootFail_only ((s.updPm fun p => { p with sfdpOk := false }).draw).2 1
      (failCodes.getD ((Config.freeMeasure s.freeCtr).toNat % failCodes.length) 0x0C)
    exact ⟨Only.trans bootPart_part (t := ((s.updPm fun p => { p with sfdpOk := false }).draw).2) rfl honly, hbist, .inr hok⟩
  · rw [if_neg hflash]
    exact ⟨rfl, rfl, .inl (by simpa using hflash)⟩

theorem State.flashRead_of_flash {fl : FlashInfo} (hflash : s.pm.flashMode = true) (hsfdp : fl.sfdpOk = true) : s.flashRead fl =
    s.tablesRead fl := by
  rw [State.flashRead, if_pos hflash, State.readSfdp, if_pos hsfdp]
  rfl

/-- The flash is read and the start test chosen. -/
def State.startChosen (s : State) (fl : FlashInfo) (crc : Bool) : State := (s.flashRead fl).chooseStart crc

theorem State.startChosen_only (fl : FlashInfo) (crc : Bool) : Only bootPart s (s.startChosen fl crc) := by
  refine Only.trans bootPart_part (t := s.flashRead fl) ?_ (State.chooseStart_only _ crc)
  by_cases h : s.pm.flashMode = false ∨ fl.sfdpOk = false
  · exact (s.flashRead_of_noFlash h).1
  · rw [not_or, Bool.not_eq_false, Bool.not_eq_false] at h
    rw [s.flashRead_of_flash h.1 h.2]
    rfl

theorem State.startChosen_noFlash {fl : FlashInfo} (crc : Bool) (h : s.pm.flashMode = false ∨ fl.sfdpOk = false) :
    (s.startChosen fl crc).bist = { s.bist with startMode := 2#2, recReason := 1 } ∧ (s.startChosen fl crc).pm.quick = false := by
  obtain ⟨-, hbist, hno⟩ := s.flashRead_of_noFlash h
  rw [State.startChosen, State.chooseStart_of_noFlash _ crc hno, ← hbist]
  exact ⟨rfl, rfl⟩

/-- What the tables of the flash set, whatever the choice of the start test. -/
theorem State.startChosen_flash {fl : FlashInfo} (crc : Bool) (hflash : s.pm.flashMode = true) (hsfdp : fl.sfdpOk = true) :
    let t := s.startChosen fl crc
    t.bist.recSec = s.recSector fl.size ∧ t.pm.erase4k = fl.erase4k ∧ t.pm.addr4 = flashAddr4 fl ∧ t.pm.readMode = flashReadMode fl := by
  have hkeep (u : State) : let t := u.chooseStart crc
      t.bist.recSec = u.bist.recSec ∧ t.pm.erase4k = u.pm.erase4k ∧ t.pm.addr4 = u.pm.addr4 ∧ t.pm.readMode = u.pm.readMode := by
    intro t
    have ht : t = u.chooseStart crc := rfl
    rw [ht]
    unfold State.chooseStart
    dsimp only
    split
    · exact ⟨rfl, rfl, rfl, rfl⟩
    · split
      · exact ⟨rfl, rfl, rfl, rfl⟩
      · split
        · exact ⟨rfl, rfl, rfl, rfl⟩
        · split <;> exact ⟨rfl, rfl, rfl, rfl⟩
  have h := hkeep (s.flashRead fl)
  rw [s.flashRead_of_flash hflash hsfdp] at h
  intro t
  have ht : t = s.startChosen fl crc := rfl
  rw [ht, State.startChosen, s.flashRead_of_flash hflash hsfdp]
  exact h

theorem State.startChosen_noRecord {fl : FlashInfo} (crc : Bool) (hflash : s.pm.flashMode = true) (hsfdp : fl.sfdpOk = true)
    (h : fl.erase4k = false ∨ ({ s.bist with recSec := s.recSector fl.size } : Bist).newest = none) :
    let t := s.startChosen fl crc
    t.bist.startMode = 2#2 ∧ t.bist.recReason = 2 ∧ t.pm.quick = false ∧ t.bist.flash = s.bist.flash := by
  intro t
  have ht : t = s.startChosen fl crc := rfl
  rw [ht, State.startChosen, s.flashRead_of_flash hflash hsfdp, State.chooseStart_of_noRecord]
  · exact ⟨rfl, rfl, rfl, rfl⟩
  · exact hflash
  · rfl
  · exact h

theorem State.startChosen_record {fl : FlashInfo} (crc : Bool) {k : Nat} {r : BistRec} (hflash : s.pm.flashMode = true)
    (hsfdp : fl.sfdpOk = true) (herase : fl.erase4k = true)
    (hnew : ({ s.bist with recSec := s.recSector fl.size } : Bist).newest = some (k, r)) :
    let t := s.startChosen fl crc
    let reason := s.recReason r crc
    t.bist.recReason = reason ∧ t.bist.startMode = (if reason = 0 then 1#2 else 2#2) ∧ t.pm.quick = decide (reason = 0) ∧
    t.bist.flash = tabSet none s.bist.flash (s.recSector fl.size + k) (some { r with consumed := 0#8 }) := by
  intro t reason
  have hflashed : (({ s.bist with recSec := s.recSector fl.size } : Bist).consume k).flash =
      tabSet none s.bist.flash (s.recSector fl.size + k) (some { r with consumed := 0#8 }) := by
    rw [Bist.consume, Bist.newest_record hnew]
    rfl
  have ht : t = if reason = 0 then _ else _ :=
    (congrArg (·.chooseStart crc) (s.flashRead_of_flash hflash hsfdp)).trans ((s.tablesRead fl).chooseStart_of_record crc hflash rfl herase hnew)
  rw [ht]
  by_cases hreason : reason = 0
  · rw [if_pos hreason, if_pos hreason]
    exact ⟨hreason.symm, rfl, (decide_eq_true hreason).symm, hflashed⟩
  · rw [if_neg hreason, if_neg hreason]
    exact ⟨rfl, rfl, (decide_eq_false hreason).symm, hflashed⟩
end

/-! ### The load of the shadows -/

section
variable (s : State) (excs : List OtpExc) (split : List LockRead)

/-- The shadows are loaded and the hard repairs in place. -/
def State.repaired (s : State) (excs : List OtpExc) (split : List LockRead) : State :=
  let s := s.loadShadows excs split
  s.hardRepairs.foldl (fun t e => t.updPair e.pair fun q => q.swapRow e.lane e.row e.spare) s

abbrev loadPart (s t : State) : State := { s with otp := t.otp, pairs := t.pairs }

theorem loadPart_part : Part loadPart := ⟨fun _ => rfl, fun _ _ _ => rfl⟩

theorem State.loadShadows_only : Only loadPart s (s.loadShadows excs split) ∧ (s.loadShadows excs split).otp.loaded = true := by
  have hotp (t : State) (q : Otp) : Only loadPart t { t with otp := q } := rfl
  unfold State.loadShadows
  exact ⟨Only.trans loadPart_part ((s.mapOtp_only _).mono fun _ _ => rfl) (Only.trans loadPart_part (hotp _ _) (hotp _ _)), rfl⟩

theorem State.repaired_only : Only loadPart s (s.repaired excs split) ∧ (s.repaired excs split).otp.loaded = true := by
  obtain ⟨honly, hloaded⟩ := s.loadShadows_only excs split
  have hrows := Only.foldl (f := fun (t : State) (e : HardRepair) => t.updPair e.pair fun q => q.swapRow e.lane e.row e.spare)
    (m := fun s t => { s with pairs := t.pairs }) ⟨fun _ => rfl, fun _ _ _ => rfl⟩ (fun _ _ => rfl)
    (s.loadShadows excs split).hardRepairs (s.loadShadows excs split)
  exact ⟨Only.trans loadPart_part honly (hrows.mono fun _ _ => rfl),
    (congrArg (fun t : State => t.otp.loaded) hrows).symm.trans hloaded⟩

/-- A lane whose CRC over its shadows fails raises its fault. -/
def State.crcFault (s : State) (l : Lane) (ok : Bool) : State := if ok then s else s.laneFault l 0x5001#16 0

/-- What a fault of a lane leaves standing in that lane. -/
def State.laneDown (s : State) (l : Lane) : Prop := (s.lane l).withhold = true ∧ ∀ p : Fin 36, (s.pair p).stop l = true

theorem State.crcFault_only (l : Lane) (ok : Bool) : Only laneFaultPart s (s.crcFault l ok) := by
  unfold State.crcFault
  split
  · rfl
  · exact s.laneFault_only l _ 0

theorem State.laneFault_down (l : Lane) (code : BitVec 16) (d : Nat) : (s.laneFault l code d).laneDown l := by
  obtain ⟨hstop, -, hwithhold, -⟩ := faultsAreRecordedAndStopZones.2 s l code d
  exact ⟨hwithhold, hstop⟩

theorem State.laneFault_keeps_down {s : State} (l : Lane) (code : BitVec 16) (d : Nat) (h : s.laneDown (otherLane l)) :
    (s.laneFault l code d).laneDown (otherLane l) := by
  obtain ⟨-, hkeep, -, -, -, hother⟩ := faultsAreRecordedAndStopZones.2 s l code d
  exact ⟨(congrArg LaneDie.withhold hother).trans h.1, fun p => (hkeep p).trans (h.2 p)⟩

/-- The lanes have checked the shadows they were delivered. -/
def State.crcChecked (s : State) (oka okb : Bool) : State := (s.crcFault .a oka).crcFault .b okb

theorem State.crcChecked_only (oka okb : Bool) : Only laneFaultPart s (s.crcChecked oka okb) :=
  Only.trans laneFaultPart_part (s.crcFault_only .a oka) (State.crcFault_only _ .b okb)

theorem State.crcChecked_a (okb : Bool) : (s.crcChecked false okb).laneDown .a := by
  have ha := s.laneFault_down .a 0x5001#16 0
  cases okb with
  | true => exact ha
  | false => exact State.laneFault_keeps_down .b _ 0 ha

theorem State.crcChecked_b (oka : Bool) : (s.crcChecked oka false).laneDown .b := State.laneFault_down _ .b _ 0

/-- A port that is enabled begins to send. -/
def Port.begins (q : Port) : Port := if q.st = .disabled then q else { q with sentPage := q.live.page false }

def State.portsBegin (s : State) : State := (List.range 32).foldl (fun t n => t.updPort n Port.begins) s

theorem State.portsBegin_only : Only (fun s t => { s with ports := t.ports }) s s.portsBegin :=
  Only.foldl (f := fun (t : State) (n : Nat) => t.updPort n Port.begins) (m := fun s t => { s with ports := t.ports })
    ⟨fun _ => rfl, fun _ _ _ => rfl⟩ (fun _ _ => rfl) (List.range 32) s

theorem State.portsBegin_port (n : Fin 32) : s.portsBegin.port n = (s.port n).begins := by
  have h := foldl_shows (h := fun (t : State) (n : Nat) => t.updPort n Port.begins) (P := fun (t : State) n => t.port n)
    (ks := List.range 32) (f := fun _ => Port.begins) (fun t k j => by
      by_cases hj : j = k
      · subst hj
        exact (State.updPort_port_self t j _).trans (if_pos rfl).symm
      · exact (State.updPort_port_ne t k _ j hj).trans (if_neg hj).symm) List.nodup_range s (n : Nat)
  exact h.trans (if_pos (List.mem_range.mpr n.isLt))

/-- The state in which the start test begins. -/
def State.booted (s : State) (excs : List OtpExc) (split : List LockRead) (ca cb : StartCrc) (fl : FlashInfo) : State :=
  ((((s.repaired excs split).crcChecked ca.shadows cb.shadows).startChosen fl (ca.record && cb.record)).updPm
    fun p => { p with dstate := .startTest }).portsBegin

theorem exec_shadowsLoaded_load {ca cb : StartCrc} {fl : FlashInfo} (hreset : s.pm.inReset = false) (hload : s.pm.dstate = .load) :
    exec (.shadowsLoaded excs split ca cb fl) s = .next (s.booted excs split ca cb fl) :=
  if_neg (by simp [hreset, hload])
end

theorem shadowsLoaded_spec (s : State) (excs : List OtpExc) (split : List LockRead) (ca cb : StartCrc) (fl : FlashInfo) :
    let t := s.booted excs split ca cb fl
    let v := (s.repaired excs split).crcChecked ca.shadows cb.shadows
    let w := v.startChosen fl (ca.record && cb.record)
    t.pm = { w.pm with dstate := .startTest } ∧ t.bist = w.bist ∧ t.otp = v.otp ∧ t.pairs = v.pairs ∧ t.laneA = v.laneA ∧ t.laneB = v.laneB ∧
    (∀ n : Fin 32, t.port n = (w.port n).begins) ∧ Only (fun s t => { bootPart s t with ports := t.ports }) v t := by
  intro t v w
  have hstart : Only bootPart v w := v.startChosen_only fl _
  have ht : t = (w.updPm fun p => { p with dstate := .startTest }).portsBegin := rfl
  have hports := (w.updPm fun p => { p with dstate := .startTest }).portsBegin_only
  rw [← ht] at hports
  have honly : Only (fun s t => { bootPart s t with ports := t.ports }) v t := by
    refine Only.trans ⟨fun _ => rfl, fun _ _ _ => rfl⟩ (hstart.mono fun _ _ => rfl) ?_
    exact Only.trans ⟨fun _ => rfl, fun _ _ _ => rfl⟩ (t := w.updPm fun p => { p with dstate := .startTest }) rfl (hports.mono fun _ _ => rfl)
  refine ⟨(congrArg State.pm hports).symm, (congrArg State.bist hports).symm, (congrArg State.otp honly).symm, (congrArg State.pairs honly).symm,
    (congrArg State.laneA honly).symm, (congrArg State.laneB honly).symm, fun n => ?_, honly⟩
  rw [ht]
  exact State.portsBegin_port _ n

/-! ### The start test -/

section
variable (s : State) (c : TestCond) (res : StartResult)

/-- What the start test makes of a pair. -/
def State.roleGiven (s : State) (bad : Nat → Bool) (rows : List BistEntry) (mask : BitVec 36) (p : Nat) (q : Pair) : Pair → Pair :=
  let fail := bad p || q.stopA || q.stopB || q.noSpare
  let rep := rows.any fun e => decide (e.pair.toNat = p)
  fun q => { q with
    role := if fail then .unusable else if mask.getLsbD p then .split else .free
    last := if fail then 3 else if rep then 2 else 1
    passedAt := if fail then q.passedAt else some s.now }

section
variable (bad : Nat → Bool) (rows : List BistEntry) (mask : BitVec 36)

theorem State.startRoles_eq : s.startRoles bad rows mask =
    (List.range 36).foldl (fun t p => t.updPair p (s.roleGiven bad rows mask p (t.pair p))) s := rfl

theorem State.startRoles_only : Only (fun s t => { s with pairs := t.pairs }) s (s.startRoles bad rows mask) := by
  rw [State.startRoles_eq]
  exact Only.foldl (f := fun (t : State) (p : Nat) => t.updPair p (s.roleGiven bad rows mask p (t.pair p)))
    (m := fun s t => { s with pairs := t.pairs }) ⟨fun _ => rfl, fun _ _ _ => rfl⟩ (fun _ _ => rfl) (List.range 36) s

theorem State.startRoles_pair (p : Fin 36) :
    (s.startRoles bad rows mask).pair p = Pair.both (s.roleGiven bad rows mask p (s.pair p)) (s.pair p) := by
  rw [State.startRoles_eq]
  have h := foldl_shows (h := fun (t : State) (p : Nat) => t.updPair p (s.roleGiven bad rows mask p (t.pair p)))
    (P := fun (t : State) p => t.pair p) (ks := List.range 36) (f := fun p q => Pair.both (s.roleGiven bad rows mask p q) q)
    (fun t k j => by
      by_cases hj : j = k
      · subst hj
        exact (State.updPair_pair_self t j _).trans (if_pos rfl).symm
      · exact (State.updPair_pair_ne t k _ j hj).trans (if_neg hj).symm) List.nodup_range s (p : Nat)
  exact h.trans (if_pos (List.mem_range.mpr p.isLt))
end

/-- Roles, and what the registers show of them. -/
abbrev rolesPart (s t : State) : State := { s with bist := t.bist, gc := t.gc, db := t.db, pairs := t.pairs, adm := t.adm }

theorem rolesPart_part : Part rolesPart := ⟨fun _ => rfl, fun _ _ _ => rfl⟩

/-- What the analogue results change where every item, channel and port passed. -/
abbrev analoguePart (s t : State) : State := { s with bist := { s.bist with chOk := t.bist.chOk, lmAOk := t.bist.lmAOk, lmBOk := t.bist.lmBOk }, ports := t.ports }

theorem analoguePart_part : Part analoguePart := ⟨fun _ => rfl, fun _ _ _ => rfl⟩

theorem State.startAnalogue_clean (hana : res.anaFail = []) (hch : res.chOk = BitVec.allOnes 64) (ha : res.lmOkA = true) (hb : res.lmOkB = true) :
    Only analoguePart s (s.startAnalogue res false) := by
  have hnone : (below 64 fun n => !(BitVec.allOnes 64).getLsbD n) = [] := below_eq_nil fun n hn => by rw [BitVec.getLsbD_allOnes]; simp [hn]
  unfold State.startAnalogue
  simp only [hana, hch, ha, hb, hnone, List.foldl_nil, if_true]
  generalize (List.range _) = ps
  have hports := Only.foldl (f := fun (t : State) (n : Nat) => t.updPort n fun q =>
    if (false && q.st != .disabled) = true then q else { q with serdesFail := res.portFail.getLsbD n }) (m := fun s t => { s with ports := t.ports })
    ⟨fun _ => rfl, fun _ _ _ => rfl⟩ (fun _ _ => rfl) ps { s with bist := { s.bist with chOk := BitVec.allOnes 64 } }
  refine Only.trans analoguePart_part (t := { s with bist := { s.bist with chOk := BitVec.allOnes 64 } }) rfl ?_
  exact Only.trans analoguePart_part (hports.mono fun _ _ => rfl) rfl

variable {s c res}

theorem exec_startTestEnd_clean (hreset : s.pm.inReset = false) (hst : s.pm.dstate = .startTest) (hdef : s.bist.deferred = false)
    (hcond : condOk c = true) (hflash : s.pm.flashMode = false) (hquick : s.pm.quick = false) (hrep : s.bist.repairs = [])
    (hrows : res.repairs = []) (hfailed : res.failed = []) (hana : res.anaFail = []) (hch : res.chOk = BitVec.allOnes 64)
    (ha : res.lmOkA = true) (hb : res.lmOkB = true) (img : List (BitVec 24 × Image × Image)) :
    ∃ t, exec (.startTestEnd c ⟨res, res⟩ img) s = .next (t.startAnalogue res false).enterRun.settle ∧
    Only rolesPart s t ∧ t.pm = s.pm ∧ t.gc.roles = true ∧ t.bist.zeroed = 0#36 ∧ t.db.clipped = (clipMask s.splitFuse).2 ∧
    ∀ p : Fin 36, (t.pair p).role = if (s.pair p).stopA = true ∨ (s.pair p).stopB = true ∨ (s.pair p).noSpare = true then .unusable
      else if (clipMask s.splitFuse).1.getLsbD p then .split else .free := by
  change ∃ t, execStartTestEnd c ⟨res, res⟩ img s = _ ∧ _
  unfold execStartTestEnd
  rw [if_neg (by simp [hreset, hst]), if_neg (by simp [hdef]), if_neg (by simp [hcond]), if_neg (by simp)]
  extract_lets folded found seen quick bist gc graded marks soft bist' repaired image header
  have hseen : Only rolesPart s seen ∧ seen.pm = s.pm ∧ seen.bist.repairs = s.bist.repairs ∧ seen.pairs = s.pairs := ⟨rfl, rfl, rfl, rfl⟩
  have hquick' : quick = seen.pm.quick := rfl
  have hgraded : graded = { seen with
    bist := { seen.bist with zeroed := if quick then BitVec.allOnes 36 else 0#36 }, gc := { seen.gc with roles := true } } := rfl
  have hmarks (h : quick = false) (p : Nat) : marks p = false := by simp only [marks, h, Bool.false_and]
  have hsoft : soft = graded.bist.repairs ++ res.repairs := rfl
  have hrepaired : repaired = ({ graded with bist := { graded.bist with repairs := soft } } : State).applyRepairs soft := rfl
  have himage (h : repaired.pm.flashMode = false) : image = none := by simp [image, h]
  have hheader (h : image = none) : header = 0#36 := by simp only [header, h]
  have hfound : found = res := rfl
  clear_value header image repaired bist' soft marks graded gc bist quick seen found folded
  obtain ⟨hseen, hpm, hseenrep, hseenpairs⟩ := hseen
  rw [hpm, hquick] at hquick'
  have hempty : soft = [] := by rw [hsoft, hgraded, hrows, List.append_nil, ← hrep, ← hseenrep]
  rw [hempty, hgraded, hquick'] at hrepaired
  have hwas : Only rolesPart s repaired ∧ repaired.pm = s.pm ∧ repaired.otp = s.otp ∧ repaired.pairs = s.pairs ∧
      repaired.gc.roles = true ∧ repaired.bist.zeroed = 0#36 := by
    rw [hrepaired]
    exact ⟨Only.trans rolesPart_part hseen rfl, hpm, (congrArg State.otp hseen).symm, hseenpairs, rfl, rfl⟩
  clear hrepaired hgraded hsoft hseen
  obtain ⟨hwas, hpm', hotp, hpairs, hroles, hzeroed⟩ := hwas
  have hnobad : (fun p => marks p || res.failed.any fun q => decide (q.val = p)) = fun _ => false := by
    funext p
    rw [hmarks hquick', hfailed]
    rfl
  have hnone := himage (by rw [hpm', hflash])
  rw [hfound, hnobad, hrows, hheader hnone, BitVec.or_zero, State.splitFuse_congr hotp]
  rcases clipMask s.splitFuse with ⟨mask, clipped⟩
  have honly := repaired.startRoles_only (fun _ => false) [] mask
  have hpair := repaired.startRoles_pair (fun _ => false) [] mask
  obtain ⟨roled, hroled⟩ : ∃ u, u = repaired.startRoles (fun _ => false) [] mask := ⟨_, rfl⟩
  rw [← hroled] at honly hpair
  have hwas' : Only rolesPart s roled := Only.trans rolesPart_part hwas (honly.mono fun _ _ => rfl)
  have hpm'' : roled.pm = s.pm := (congrArg State.pm honly).symm.trans hpm'
  obtain ⟨split, hsplit⟩ : ∃ u : State, u = { roled with db := { roled.db with
    clipped := clipped, headerUsed := decide (0#36 ≠ 0#36)
    splitMask := (below 36 fun p => (roled.pair p).role == Role.split).foldl (fun v p => setBit v p true) 0#36 } } := ⟨_, rfl⟩
  refine ⟨split, ?_, ?_, ?_, ?_, ?_, ?_, fun p => ?_⟩
  · have hflash' : (split.startAnalogue res false).pm.flashMode = false := by
      rw [← split.startAnalogue_clean res hana hch ha hb, hsplit]
      exact (congrArg Pm.flashMode hpm'').trans hflash
    dsimp only
    rw [← hroled, ← hsplit, hquick', hflash']
    rfl
  · rw [hsplit]
    exact Only.trans rolesPart_part hwas' rfl
  · rw [hsplit]
    exact hpm''
  · rw [hsplit]
    exact (congrArg (fun t : State => t.gc.roles) honly).symm.trans hroles
  · rw [hsplit]
    exact (congrArg (fun t : State => t.bist.zeroed) honly).symm.trans hzeroed
  · rw [hsplit]
  · have hrole : (split.pair p).role = (roled.pair p).role := by rw [hsplit]; rfl
    have hsame : repaired.pair p = s.pair p := congrArg (tabGet Pair.init · p) hpairs
    rw [hrole, hpair, hsame]
    simp [Pair.both, State.roleGiven, or_assoc]
end

/-! ### RUN is entered -/

/-- What the connections change as RUN is entered. -/
abbrev openingPart (s t : State) : State := { connPart s t with fl := t.fl }

theorem openingPart_part : Part openingPart := ⟨fun _ => rfl, fun _ _ _ => rfl⟩

/-- Groups that hold their outputs, connections that open, ports that send. -/
abbrev runPart (s t : State) : State := { openingPart s t with chans := t.chans, grps := t.grps, ports := t.ports }

theorem runPart_part : Part runPart := ⟨fun _ => rfl, fun _ _ _ => rfl⟩

section
variable (s : State)

theorem State.connFault_only (k : Nat) (code : BitVec 16) (cause : Nat) : Only openingPart s (s.connFault k code cause) := by
  unfold State.connFault
  split
  · rfl
  · have hrec (t : State) : Only recPart t (t.raise code (BitVec.ofNat 12 k) true true 0 0 []) := t.record_only _ _ _ _ _ _ _
    exact Only.trans openingPart_part ((s.setConn_only k _ _).mono fun _ _ => rfl) ((hrec _).mono fun _ _ => rfl)

theorem State.enterOpening_openingPart (k : Nat) (cause backoff : Option Nat) : Only openingPart s (s.enterOpening k cause backoff) := by
  have hset : Only openingPart s (s.setConn k .opening cause) := (s.setConn_only k _ _).mono fun _ _ => rfl
  unfold State.enterOpening
  dsimp only
  split
  · exact hset
  · split
    · exact Only.trans openingPart_part hset (State.connFault_only _ k _ _)
    · exact Only.trans openingPart_part hset rfl

theorem State.connsAtRun_only : Only openingPart s s.connsAtRun := by
  refine Only.foldl openingPart_part (fun t e => ?_) s.conns s
  split
  · split
    · have hopen := t.enterOpening_openingPart e.1 none none
      dsimp only
      split
      · exact Only.trans openingPart_part hopen rfl
      · exact hopen
    · rfl
  · rfl

theorem State.kick_only (p : Nat) : Only (fun s t => { s with ports := t.ports }) s (s.kick p) := by
  unfold State.kick
  dsimp only
  split
  · split <;> rfl
  · rfl

theorem State.grpLatch_only (g : Nat) (f : Grp → Grp) : Only runPart s (s.grpLatch g f) := by
  obtain ⟨-, -, -, honly⟩ := State.grpLatch_rest (s := s) (g := g) f
  exact honly.mono fun _ _ => rfl

theorem State.enterRun_only : Only runPart (s.updPm fun p => { p with dstate := .run }) s.enterRun := by
  have hgroups (t : State) : Only runPart t ((List.range 4).foldl (fun t g =>
      if (t.grp g).belowOff then t.grpLatch g fun q => { q with startHold := true } else t) t) := by
    refine Only.foldl runPart_part (fun t g => ?_) (List.range 4) t
    split
    · exact t.grpLatch_only g _
    · exact Only.refl runPart_part t
  have hports (t : State) : Only runPart t ((List.range 32).foldl State.kick t) :=
    Only.foldl runPart_part (fun t p => (t.kick_only p).mono fun _ _ => rfl) (List.range 32) t
  unfold State.enterRun
  exact Only.trans runPart_part (hgroups _) (Only.trans runPart_part ((State.connsAtRun_only _).mono fun _ _ => rfl) (hports _))
end

/-! ### The obligation -/

/-- The conditions of a test are noted or waited for, whatever comes of the test. -/
theorem State.seeCond_of_eq {s : State} {c : TestCond} (h : s.bist.deferred = !condOk c) : s.seeCond c = s := by
  rw [State.seeCond, ← h]

/-- Settles O39: the load by the choice of the start test and the lanes' own checks, the start test by what each of its steps leaves. -/
theorem bootAndStartTest : Obligations.BootAndStartTest := by
  refine ⟨fun s excs split ca cb fl => ⟨fun h => if_pos (by simpa using h), fun hreset hload => ?_⟩, fun s c => ⟨fun h => ?_, fun hreset hst => ?_⟩⟩
  · obtain ⟨hpm, hbist, hotp, hpairs, ha, hb, hport, honly⟩ := shadowsLoaded_spec s excs split ca cb fl
    obtain ⟨hrepaired, hloaded⟩ := s.repaired_only excs split
    have hchecked := (s.repaired excs split).crcChecked_only ca.shadows cb.shadows
    have hda (h : ca.shadows = false) : ((s.repaired excs split).crcChecked ca.shadows cb.shadows).laneDown .a := by
      rw [h]; exact State.crcChecked_a _ _
    have hdb (h : cb.shadows = false) : ((s.repaired excs split).crcChecked ca.shadows cb.shadows).laneDown .b := by
      rw [h]; exact State.crcChecked_b _ _
    have hok (ha : ca.shadows = true) (hb : cb.shadows = true) : (s.repaired excs split).crcChecked ca.shadows cb.shadows = s.repaired excs split := by
      rw [ha, hb]; rfl
    refine ⟨s.booted excs split ca cb fl, exec_shadowsLoaded_load s excs split hreset hload, ?_⟩
    generalize s.booted excs split ca cb fl = t at *
    generalize (s.repaired excs split).crcChecked ca.shadows cb.shadows = v at *
    have hvpm : v.pm = s.pm := (congrArg State.pm hchecked).symm.trans (congrArg State.pm hrepaired).symm
    have hvbist : v.bist = s.bist := (congrArg State.bist hchecked).symm.trans (congrArg State.bist hrepaired).symm
    have hvports : v.ports = s.ports := (congrArg State.ports hchecked).symm.trans (congrArg State.ports hrepaired).symm
    have hvotp : v.otp = (s.repaired excs split).otp := (congrArg State.otp hchecked).symm
    have hpair (p : Nat) : t.pair p = v.pair p := congrArg (tabGet Pair.init · p) hpairs
    have hsector : t.recSector fl.size = v.recSector fl.size := State.recSector_congr hotp _
    refine ⟨congrArg Pm.dstate hpm, ?_, fun h => ?_, ?_⟩
    · rw [hotp, hvotp, hloaded]
    · rw [← hvpm] at h
      obtain ⟨hchosen, hquick⟩ := v.startChosen_noFlash (ca.record && cb.record) h
      rw [hchosen] at hbist
      rw [hbist, hpm, ← hvbist]
      exact ⟨rfl, rfl, hquick, rfl⟩
    intro b
    have hb' : b = { v.bist with recSec := v.recSector fl.size } := by rw [← hsector, hvbist]
    rw [← hvpm, ← hvbist, hb', hbist, hpm]
    refine ⟨fun hflash hsfdp => v.startChosen_flash _ hflash hsfdp, fun hflash hsfdp h => v.startChosen_noRecord _ hflash hsfdp h,
      fun k r hflash hsfdp herase hnew => ?_, fun h => ?_, fun h => ?_, fun n => ?_, fun hca hcb => ?_⟩
    · rw [State.recReason_congr hotp]
      exact v.startChosen_record _ hflash hsfdp herase hnew
    · obtain ⟨hwithhold, hstop⟩ := hda h
      exact ⟨(congrArg LaneDie.withhold ha).trans hwithhold, fun p => (congrArg Pair.stopA (hpair p)).trans (hstop p)⟩
    · obtain ⟨hwithhold, hstop⟩ := hdb h
      exact ⟨(congrArg LaneDie.withhold hb).trans hwithhold, fun p => (congrArg Pair.stopB (hpair p)).trans (hstop p)⟩
    · have hwas : (v.startChosen fl (ca.record && cb.record)).port n = s.port n := congrArg (tabGet Port.init · n)
        ((congrArg State.ports (v.startChosen_only fl (ca.record && cb.record))).symm.trans hvports)
      rw [hport n, hwas]
      rfl
    · rw [← honly, hok hca hcb, ← hrepaired]
  · have hpoll : (s.pm.inReset || decide (s.pm.dstate ≠ .startTest)) = true := by simpa using h
    exact ⟨if_pos hpoll, fun _ _ => if_pos hpoll⟩
  · have hno : ¬ (s.pm.inReset || decide (s.pm.dstate ≠ .startTest)) = true := by simp [hreset, hst]
    refine ⟨fun hcond => ?_, fun hcond hdef => ?_, fun hdef _ _ => (if_neg hno).trans (if_pos hdef), fun hcond hdef => ?_,
      fun resA resB img hcond hdef hne => ?_, fun res img hcond hdef hflash hquick hrep hrows hfailed hana hch _ ha hb hmask => ?_⟩
    · refine (if_neg hno).trans ((if_pos (by simp [hcond])).trans ?_)
      rw [State.seeCond, hcond]
      rfl
    · refine (if_neg hno).trans ((if_pos (by simp [hdef])).trans ?_)
      rw [State.seeCond_of_eq (by rw [hcond, hdef]; rfl)]
      rfl
    · have honly := s.defer_evRings c
      refine ⟨s.defer c, ?_, ?_, ?_, ?_, ?_, ?_, fun res img => ?_, ?_⟩
      · rw [← honly]; simp [State.deferNoted, hcond]
      · rw [← honly]; rfl
      · rw [← honly]; rfl
      · rw [← honly]; rfl
      · rw [← honly]; rfl
      · rw [← honly]; rfl
      · exact (if_neg hno).trans ((if_neg (by simp [hdef])).trans (if_pos (by simp [hcond])))
      · exact (if_neg hno).trans (if_neg (by simp [hcond, hdef]))
    · exact (if_neg hno).trans ((if_neg (by simp [hdef])).trans ((if_neg (by simp [hcond])).trans (if_pos hne)))
    · obtain ⟨t, hexec, honly, hpm, hroles, hzeroed, hclipped, hrole⟩ :=
        exec_startTestEnd_clean hreset hst hdef hcond hflash hquick hrep hrows hfailed hana hch ha hb img
      rw [clipMask_of_le hmask] at hclipped hrole
      have hclean := t.startAnalogue_clean res hana hch ha hb
      obtain ⟨u, hu⟩ : ∃ u, u = t.startAnalogue res false := ⟨_, rfl⟩
      rw [← hu] at hexec hclean
      have hrun := u.enterRun_only
      refine ⟨u.enterRun, hexec, ?_, fun p => ?_, ?_, ?_, ?_, ?_, ?_⟩
      · exact (congrArg (fun t : State => t.pm.dstate) hrun).symm
      · have hsame : u.enterRun.pair p = t.pair p := congrArg (tabGet Pair.init · p)
          ((congrArg State.pairs hrun).symm.trans (congrArg State.pairs hclean).symm)
        rw [hsame, hrole p]
      · exact (congrArg (fun t : State => t.gc.roles) hrun).symm.trans ((congrArg (fun t : State => t.gc.roles) hclean).symm.trans hroles)
      · exact (congrArg (fun t : State => t.bist.zeroed) hrun).symm.trans ((congrArg (fun t : State => t.bist.zeroed) hclean).symm.trans hzeroed)
      · exact (congrArg State.zones hrun).symm.trans ((congrArg State.zones hclean).symm.trans (congrArg State.zones honly).symm)
      · exact (congrArg State.otp hrun).symm.trans ((congrArg State.otp hclean).symm.trans (congrArg State.otp honly).symm)
      · exact (congrArg (fun t : State => t.db.clipped) hrun).symm.trans ((congrArg (fun t : State => t.db.clipped) hclean).symm.trans hclipped)

end Sys2Proof.Machine
end


section
/-!
# Faults of a pair (R29, R82, R319)
-/
namespace Sys2Proof.Machine
open Sys2Proof

section
variable (s : State)

/-! ### A fault a lane detects on a pair -/

theorem State.stopPair_of_not_testing {l : Lane} {p : Nat} (h : (s.pair p).role ≠ .testing) : s.stopPair l p = s.latchBit l p :=
  if_neg (by simpa using h)

theorem State.mem_faultZonesOn {p z : Nat} : z ∈ s.faultZonesOn p ↔ ∃ e ∈ s.zones, e.1 = z ∧ e.2.pairOf = p ∧ e.2.st ≠ .withdrawn := by
  unfold State.faultZonesOn
  rw [List.mem_filterMap]
  refine exists_congr fun e => and_congr_right fun _ => ?_
  by_cases h : e.2.pairOf = p ∧ e.2.st ≠ .withdrawn
  · simp [h]
  · have hno : (decide (e.2.pairOf = p) && decide (e.2.st ≠ .withdrawn)) ≠ true := by simpa using h
    simp only [reduceCtorEq, if_neg hno, false_iff]
    exact fun hz => h hz.2

theorem State.raise_stops (code : BitVec 16) (loc : BitVec 12) (la lb : Bool) (d pass : Nat) (zs : List Nat) {z : Nat} (h : z ∈ zs) :
    ((s.raise code loc la lb d pass zs).zone z).stopped := by
  unfold Zone.stopped
  rw [State.raise_zone_st]
  by_cases hw : (s.zone z).st = .withdrawn
  · exact .inl (by rw [if_neg fun hin => hin.2 hw, hw])
  · exact .inr (if_pos ⟨h, hw⟩)

theorem State.raise_keeps_stopped (code : BitVec 16) (loc : BitVec 12) (la lb : Bool) (d pass : Nat) (zs : List Nat) {z : Nat}
    (h : (s.zone z).stopped) : ((s.raise code loc la lb d pass zs).zone z).stopped := by
  unfold Zone.stopped
  rw [State.raise_zone_st]
  split
  · exact .inr rfl
  · exact h

/-- A fault of a pair latches the bit of the lane and raises the zones on the pair. -/
theorem State.pairFault_spec (l : Lane) (p : Nat) (code : BitVec 16) (detail : Nat) (hrole : (s.pair p).role ≠ .testing) :
    (∀ j, (s.pairFault l p code detail).pair j = if j = p then (s.pair p).latched l else s.pair j) ∧
    (∀ z ∈ s.faultZonesOn p, ((s.pairFault l p code detail).zone z).stopped) ∧
    ∀ z, z ∉ s.faultZonesOn p → ((s.pairFault l p code detail).zone z).st = (s.zone z).st := by
  unfold State.pairFault
  dsimp only
  rw [s.stopPair_of_not_testing hrole]
  refine ⟨fun j => ?_, fun z hz => State.raise_stops _ _ _ _ _ _ _ _ hz, fun z hz => ?_⟩
  · rw [State.raise_pair, State.latchBit_pair]
  · rw [State.raise_zone_st, if_neg fun h => hz h.1, State.latchBit_zone_st]

/-! ### A pass that ends with a cause -/

/-- What a cause latches. -/
def State.causeLatched (s : State) (p : Nat) (x : Cause) : State :=
  let s := if x.a then s.latchBit .a p else s
  if x.b then s.latchBit .b p else s

def Pair.caused (x : Cause) (q : Pair) : Pair :=
  let q := if x.a then q.latched .a else q
  if x.b then q.latched .b else q

theorem State.passFault_eq (p num : Nat) (x : Cause) : s.passFault p num x =
    (s.causeLatched p x).raise x.code (BitVec.ofNat 12 p) x.la x.lb x.detail num (s.faultZonesOn p) := rfl

theorem State.causeLatched_pair (p : Nat) (x : Cause) (j : Nat) :
    (s.causeLatched p x).pair j = if j = p then (s.pair p).caused x else s.pair j := by
  obtain ⟨a, b, la, lb, code, detail⟩ := x
  have hself (t : State) : t.pair j = if j = p then t.pair p else t.pair j := by
    split
    · next h => rw [h]
    · rfl
  cases a <;> cases b
  · exact hself s
  · exact s.latchBit_pair .b p j
  · exact s.latchBit_pair .a p j
  · refine (State.latchBit_pair _ .b p j).trans ?_
    change (if j = p then ((s.latchBit .a p).pair p).latched .b else (s.latchBit .a p).pair j) = _
    rw [State.latchBit_pair, State.latchBit_pair, if_pos rfl]
    by_cases hj : j = p <;> simp [hj, Pair.caused]

theorem State.causeLatched_zone_st (p : Nat) (x : Cause) (z : Nat) : ((s.causeLatched p x).zone z).st = (s.zone z).st := by
  unfold State.causeLatched
  dsimp only
  split
  · rw [State.latchBit_zone_st]
    split
    · exact s.latchBit_zone_st .a p z
    · rfl
  · split
    · exact s.latchBit_zone_st .a p z
    · rfl

theorem Pair.latched_run {l : Lane} {q : Pair} (h : q.run = none) : (q.latched l).run = none := by
  unfold Pair.latched
  split
  · exact h
  · rfl

theorem Pair.caused_run {x : Cause} {q : Pair} (h : q.run = none) : (q.caused x).run = none := by
  unfold Pair.caused
  dsimp only
  split
  · split
    · exact Pair.latched_run (Pair.latched_run h)
    · exact Pair.latched_run h
  · split
    · exact Pair.latched_run h
    · exact h

theorem Pair.latched_keeps (l m : Lane) {q : Pair} (h : q.stop m = true) : (q.latched l).stop m = true := by
  obtain ⟨hself, hother⟩ := q.latched_stop l
  by_cases hm : m = l
  · rw [hm]; exact hself
  · have hm' : m = otherLane l := by cases l <;> cases m <;> simp_all [otherLane]
    rw [hm', hother, ← hm']
    exact h

theorem Pair.caused_keeps (m : Lane) {x : Cause} {q : Pair} (h : q.stop m = true) : (q.caused x).stop m = true := by
  unfold Pair.caused
  dsimp only
  split
  · split
    · exact Pair.latched_keeps _ _ (Pair.latched_keeps _ _ h)
    · exact Pair.latched_keeps _ _ h
  · split
    · exact Pair.latched_keeps _ _ h
    · exact h

theorem Pair.caused_stop (x : Cause) (q : Pair) : (x.a = true → (q.caused x).stopA = true) ∧ (x.b = true → (q.caused x).stopB = true) := by
  unfold Pair.caused
  dsimp only
  refine ⟨fun h => ?_, fun h => ?_⟩
  · rw [if_pos h]
    have ha := (q.latched_stop .a).1
    split
    · exact Pair.latched_keeps .b .a ha
    · exact ha
  · rw [if_pos h]
    exact (Pair.latched_stop .b _).1

/-- The causes of a pass, one after the other. -/
theorem State.foldl_passFault_spec (p num : Nat) (xs : List Cause) (t : State) :
    let u := xs.foldl (fun t x => t.passFault p num x) t
    (∀ j, u.pair j = if j = p then xs.foldl (fun q x => q.caused x) (t.pair p) else t.pair j) ∧
    ∀ z, (t.zone z).stopped → (u.zone z).stopped := by
  induction xs generalizing t with
  | nil =>
    refine ⟨fun j => ?_, fun z h => h⟩
    split
    · next h => rw [h]; rfl
    · rfl
  | cons x xs ih =>
    have hpair (j : Nat) : (t.passFault p num x).pair j = if j = p then (t.pair p).caused x else t.pair j := by
      rw [State.passFault_eq, State.raise_pair, State.causeLatched_pair]
    obtain ⟨hpairs, hzones⟩ := ih (t.passFault p num x)
    refine ⟨fun j => (hpairs j).trans ?_, fun z h => hzones z ?_⟩
    · rw [hpair, hpair, if_pos rfl]
      by_cases hj : j = p <;> simp [hj]
    · rw [State.passFault_eq]
      refine State.raise_keeps_stopped _ _ _ _ _ _ _ _ ?_
      unfold Zone.stopped
      rw [State.causeLatched_zone_st]
      exact h

theorem Pair.foldl_caused (xs : List Cause) (q : Pair) :
    (∀ m, q.stop m = true → (xs.foldl (fun q x => q.caused x) q).stop m = true) ∧
    (q.run = none → (xs.foldl (fun q x => q.caused x) q).run = none) ∧
    ∀ x ∈ xs, (x.a = true → (xs.foldl (fun q x => q.caused x) q).stopA = true) ∧
      (x.b = true → (xs.foldl (fun q x => q.caused x) q).stopB = true) := by
  induction xs generalizing q with
  | nil => exact ⟨fun _ h => h, fun h => h, fun x hx => absurd hx (List.not_mem_nil)⟩
  | cons x xs ih =>
    obtain ⟨hkeep, hrun, hstop⟩ := ih (q.caused x)
    refine ⟨fun m h => hkeep m (Pair.caused_keeps m h), fun h => hrun (Pair.caused_run h), fun y hy => ?_⟩
    obtain rfl | hy := List.mem_cons.mp hy
    · obtain ⟨ha, hb⟩ := Pair.caused_stop y q
      exact ⟨fun h => hkeep .a (ha h), fun h => hkeep .b (hb h)⟩
    · exact hstop y hy
end

/-! ### The obligation -/

theorem Pair.inject_run (q : Pair) (b : Bool) : (q.inject b).run = q.run := by
  simp only [Pair.inject, apply_ite Pair.run, ite_self]

theorem Pair.failed_run (q : Pair) (r : Running) (info : PassInfo) (res : List (Nat × ZoneVer × List BlockRt)) (differ : Bool) (c : BitVec 2)
    (t : Nat) : (q.failed r info res differ c t).run = none := by
  have hpassed (b : Bool) (u : Pair) (h : u.run = none) : (if b then u.passed r res t else u).run = none := by
    cases b <;> exact h
  unfold Pair.failed
  dsimp only
  split
  · exact hpassed _ _ rfl
  · rw [Pair.inject_run]
    exact hpassed _ _ rfl

/-- The pass is over, with what it showed. -/
def State.passFailed (s : State) (p : Nat) (r : Running) (info : PassInfo) (res : List (Nat × ZoneVer × List BlockRt)) (differ : Bool) : State :=
  s.badCode.2.updPair p fun q => q.failed r info res differ s.badCode.1 (min 65535 (s.badCode.2.since r.start))

theorem State.passFailed_spec (s : State) (p : Nat) (r : Running) (info : PassInfo) (res : List (Nat × ZoneVer × List BlockRt)) (differ : Bool) :
    let t := s.passFailed p r info res differ
    (t.pair p).run = none ∧ (∀ j, j ≠ p → t.pair j = s.pair j) ∧ t.zones = s.zones := by
  refine ⟨?_, fun j hj => State.updPair_pair_ne _ p _ j hj, rfl⟩
  rw [State.passFailed, State.updPair_pair_self]
  exact Pair.failed_run ..

theorem exec_passEnd_causes {s : State} {p : Fin 36} {info : PassInfo} {r : Running} (hrun : (s.pair p).run = some r) :
    let x := s.armDue
    let zs := x.stepped p r.coupled
    let info' := takenWords info (delayWords r zs)
    let differ := zs.any fun e => x.lanesDiffer p e.2
    let causes := passCauses (s.pair p) info' differ
    causes ≠ [] → exec (.passEnd p info) s = .next (causes.foldl (fun t c => t.passFault p r.num.toNat c)
      (x.passFailed p r info' (zs.map fun e => (e.1, e.2, x.evalA p e.2)) differ)).settle := by
  intro x zs info' differ causes hne
  change execPassEnd p info s = _
  unfold execPassEnd
  dsimp only
  rw [hrun]
  exact if_neg (by simpa using hne)

/-- Settles O34: latching a bit says what becomes of the pair, raising the fault what becomes of the zones, cause by cause. -/
theorem pairFaultStopsThePair : Obligations.PairFaultStopsThePair := by
  refine ⟨⟨fun s l p code detail hrole hstop => ?_, fun s p l => ?_, rfl, rfl, rfl⟩, fun s p info r hrun => ?_⟩
  · intro t
    obtain ⟨hpair, hin, hout⟩ := s.pairFault_spec l p code detail hrole
    obtain ⟨hself, hother⟩ := (s.pair p).latched_stop l
    obtain ⟨hnew, hnone⟩ := Pair.latched_new hstop
    have hp : t.pair p = (s.pair p).latched l := (hpair p).trans (if_pos rfl)
    refine ⟨by rw [hp]; exact hself, by rw [hp]; exact hother, by rw [hp]; exact hnew, by rw [hp]; exact hnone,
      fun q hq => (hpair q).trans (if_neg fun h => hq (Fin.ext h)), hin, fun z hz => hout z fun hmem => ?_⟩
    obtain ⟨e, he, hz', hon, -⟩ := s.mem_faultZonesOn.mp hmem
    exact hz e he hz' hon
  · intro on late
    have hpass : exec (.passWatch p l) s = .next (if s.lanesRun && (s.pair p).watchedBy l &&
        ((s.pair p).run.isSome || (s.pair p).stop (otherLane l)) then (s.pairFault l p 0x1002#16 0).settle else s) := rfl
    have hstart : exec (.startWatch p l) s = .next (if s.lanesRun && (s.pair p).watchedBy l && (s.pair p).run.isNone then
        (s.pairFault l p 0x1002#16 0).settle else s) := rfl
    rw [hpass, hstart]
    refine ⟨fun hon hlate => ?_, fun h => ?_, fun hon hnone => ?_, fun h => ?_⟩
    · rw [if_pos (by simpa [on, late] using And.intro hon hlate)]
    · rw [if_neg]
      intro hyes
      simp only [Bool.and_eq_true, Bool.or_eq_true] at hyes
      obtain ⟨hon, hlate⟩ := hyes
      exact h.elim (fun h => h hon) (fun h => h hlate)
    · rw [if_pos (by simpa [on, hnone] using hon)]
    · rw [if_neg]
      intro hyes
      simp only [Bool.and_eq_true, Option.isNone_iff_eq_none] at hyes
      obtain ⟨hon, hnone⟩ := hyes
      exact h.elim (fun h => h hon) (fun h => by simp [hnone] at h)
  · intro x causes
    refine ⟨fun hop => by simp [x, hop], fun hne => ?_⟩
    have hexec := exec_passEnd_causes (info := info) hrun hne
    obtain ⟨t, ht⟩ : ∃ t, t = x.passFailed p r (takenWords info (delayWords r (x.stepped p r.coupled)))
      ((x.stepped p r.coupled).map fun e => (e.1, e.2, x.evalA p e.2)) ((x.stepped p r.coupled).any fun e => x.lanesDiffer p e.2) := ⟨_, rfl⟩
    obtain ⟨hnone, hothers, hzones⟩ := x.passFailed_spec p r (takenWords info (delayWords r (x.stepped p r.coupled)))
      ((x.stepped p r.coupled).map fun e => (e.1, e.2, x.evalA p e.2)) ((x.stepped p r.coupled).any fun e => x.lanesDiffer p e.2)
    rw [← ht] at hnone hothers hzones
    obtain ⟨hpair, -⟩ := State.foldl_passFault_spec p r.num.toNat causes t
    obtain ⟨-, hrun', hstop⟩ := Pair.foldl_caused causes (t.pair p)
    refine ⟨causes.foldl (fun t c => t.passFault p r.num.toNat c) t, ?_, ?_, fun c hc => ?_, fun z hz => ?_, fun q hq => ?_⟩
    · rw [ht]
      exact hexec
    · rw [hpair, if_pos rfl]
      exact hrun' hnone
    · rw [hpair, if_pos rfl]
      exact hstop c hc
    · obtain ⟨c, cs, hcs⟩ := List.exists_cons_of_ne_nil hne
      rw [hcs, List.foldl_cons]
      refine (State.foldl_passFault_spec p r.num.toNat cs _).2 z ?_
      have hscope : t.faultZonesOn p = x.faultZonesOn p := by rw [State.faultZonesOn, hzones]; rfl
      rw [State.passFault_eq, hscope]
      exact State.raise_stops _ _ _ _ _ _ _ _ hz
    · rw [hpair, if_neg hq, hothers q hq]

end Sys2Proof.Machine
end


section
/-!
# Clears of faults (R306, R312 to R316)
-/
namespace Sys2Proof.Machine
open Sys2Proof

/-! ### FL_CLEAR and the acknowledgement input -/

theorem FaultRec.selected_iff (r : FaultRec) (code : BitVec 16) (loc : BitVec 12) :
    r.selected code loc = true ↔ code = 0#16 ∨ r.code = code ∧ (loc = 0xFFF#12 ∨ r.loc = loc) := by
  simp [FaultRec.selected, noLoc]

section
variable (s : State)

theorem State.mem_selectRecs {code : BitVec 16} {loc : BitVec 12} {k : Nat} : k ∈ s.selectRecs code loc ↔
    ∃ r, (k, some r) ∈ s.fl.recs ∧ (code = 0#16 ∨ r.code = code ∧ (loc = 0xFFF#12 ∨ r.loc = loc)) := by
  unfold State.selectRecs
  rw [List.mem_filterMap]
  constructor
  · rintro ⟨⟨j, o⟩, hmem, hsel⟩
    cases o with
    | none => simp at hsel
    | some r =>
      obtain ⟨hr, hk⟩ := Option.ite_none_right_eq_some.mp hsel
      cases hk
      exact ⟨r, hmem, (r.selected_iff code loc).mp hr⟩
  · rintro ⟨r, hmem, hsel⟩
    exact ⟨(k, some r), hmem, if_pos ((r.selected_iff code loc).mpr hsel)⟩

/-! ### The end of a clear -/

/-- The loop-back a record selected asks for. -/
def State.looped (s : State) (r : FaultRec) (tests : List (BitVec 16 × BitVec 12)) : State :=
  if r.code = 0x300A#16 then { s with bist := { s.bist with chOk := setBit s.bist.chOk r.loc.toNat (tests.contains (r.code, r.loc)) } } else s

/-- A clear is over. -/
def State.clearEnded (s : State) (c : Clear) (res : Nat) : State :=
  { s with fl := { s.fl with clear := none, result := res, overflow := s.fl.overflow && decide (c.code ≠ 0#16) } }

theorem resetOnly_iff (code : BitVec 16) : resetOnly code = true ↔ code.toNat / 4096 = 2 ∨ code.toNat / 4096 = 5 ∨ code = 0x4005#16 := by
  simp [resetOnly, faultClass, or_assoc]

theorem State.looped_of_resetOnly {r : FaultRec} (tests : List (BitVec 16 × BitVec 12)) (h : resetOnly r.code = true) : s.looped r tests = s := by
  refine if_neg fun hcode => ?_
  rw [hcode] at h
  revert h
  decide

theorem State.looped_clearEnded (c : Clear) (res : Nat) (r : FaultRec) (tests : List (BitVec 16 × BitVec 12)) :
    (s.looped r tests).clearEnded c res = (s.clearEnded c res).looped r tests := by
  unfold State.looped
  split <;> rfl

theorem State.looped_fl (r : FaultRec) (tests : List (BitVec 16 × BitVec 12)) : (s.looped r tests).fl = s.fl := by
  unfold State.looped
  split <;> rfl

theorem State.looped_only (r : FaultRec) (tests : List (BitVec 16 × BitVec 12)) : Only (fun s t => { s with bist := t.bist }) s (s.looped r tests) := by
  unfold State.looped
  split <;> rfl

/-- What a record that has left the table leaves behind, and its event. -/
abbrev clearedPart (s t : State) : State := { connPart s t with chans := t.chans, grps := t.grps, fd := t.fd }

theorem clearedPart_part : Part clearedPart := ⟨fun _ => rfl, fun _ _ _ => rfl⟩

theorem State.releaseField_only (code : BitVec 16) (loc : BitVec 12) : Only clearedPart s (s.releaseField code loc) := by
  unfold State.releaseField
  dsimp only
  split
  · exact Only.trans clearedPart_part (t := s.updGrp _ _) rfl ((State.holdChans_only _ _).mono fun _ _ => rfl)
  · exact Only.trans clearedPart_part (t := s.updGrp _ _) rfl ((State.holdChans_only _ _).mono fun _ _ => rfl)
  · rfl
  · split
    · rfl
    · exact Only.trans clearedPart_part ((s.updChans_only _ _).mono fun _ _ => rfl) ((State.holdChans_only _ _).mono fun _ _ => rfl)

theorem State.recCleared_only (r : FaultRec) : Only clearedPart s (s.recCleared r) := by
  unfold State.recCleared
  split
  · exact s.releaseField_only _ _
  · split
    · exact (s.setConn_only _ _ _).mono fun _ _ => rfl
    · rfl
  · rfl

theorem State.postEvent_clearedPart (t src p : Nat) : Only clearedPart s (s.postEvent t src p) := (s.postEvent_only t src p).mono fun _ _ => rfl

section
variable {s} {c : Clear} {tests : List (BitVec 16 × BitVec 12)}

theorem State.endClear_none (h : c.sel = []) : s.endClear c tests = s.clearEnded c (if c.code = 0#16 ∧ s.fl.overflow = true then 1 else 4) := by
  unfold State.endClear
  rw [h]
  simp only [List.map_nil, clearResult, List.isEmpty_nil, if_true, Bool.and_eq_true, decide_eq_true_eq]
  rfl

/-- What the end of a clear does to the one record it selected. -/
theorem State.endClear_one {k : Nat} {r : FaultRec} (h : c.sel = [k]) (hrec : s.frec k = some r) : s.endClear c tests =
    let v := s.clearVerdict c tests k
    let t := (s.looped r tests).clearEnded c v
    if v = 1 then ((t.setRec k none).recCleared r).postEvent 0x02 1 (r.code.toNat + fld r.loc.toNat 16 16 + fld v 8 32) else t := by
  have hloop : s.loopbacks [k] tests = s.looped r tests := by
    unfold State.loopbacks
    rw [List.foldl_cons, hrec]
    rfl
  have hsame (res : Nat) : ((s.looped r tests).clearEnded c res).frec k = some r := by
    refine Eq.trans ?_ hrec
    rw [State.frec, State.clearEnded]
    dsimp only
    rw [State.looped_fl]
    rfl
  have hres (ovf : Bool) : clearResult [s.clearVerdict c tests k] ovf = s.clearVerdict c tests k := Nat.max_eq_right (Nat.zero_le _)
  unfold State.endClear
  rw [h, hloop]
  simp only [List.map_cons, List.map_nil, List.foldl_cons, List.foldl_nil, hres]
  rw [← s.looped_fl r tests]
  split
  · exact congrArg (fun o : Option FaultRec => match o with
      | some q => ((((s.looped r tests).clearEnded c (s.clearVerdict c tests k)).setRec k none).recCleared q).postEvent 0x02 1
          (q.code.toNat + fld q.loc.toNat 16 16 + fld (s.clearVerdict c tests k) 8 32)
      | none => (s.looped r tests).clearEnded c (s.clearVerdict c tests k)) (hsame (s.clearVerdict c tests k))
  · rfl
end
end

/-- A clear that is not of the acknowledgement input ends with what is due settled. -/
theorem exec_clearComplete_eq {s : State} {c : Clear} (tests : List (BitVec 16 × BitVec 12)) (h : s.fl.clear = some c) (hack : c.ack = false) :
    exec (.clearComplete tests) s = .next (s.endClear c tests).settle := by
  change execClearComplete tests s = _
  unfold execClearComplete
  rw [h]
  dsimp only
  rw [hack]
  rfl

section
variable {s : State} {c : Clear} {tests : List (BitVec 16 × BitVec 12)} {k : Nat} {r : FaultRec}

theorem State.clearVerdict_reset (hrec : s.frec k = some r) (h : resetOnly r.code = true) : s.clearVerdict c tests k = 3 := by
  unfold State.clearVerdict
  rw [hrec]
  exact if_pos h

theorem State.clearVerdict_present (hrec : s.frec k = some r) (h : resetOnly r.code = false)
    (hcause : k ∈ c.again ∨ s.reportDue r = true ∨ s.causeGone r tests = false) : s.clearVerdict c tests k = 2 := by
  unfold State.clearVerdict
  rw [hrec]
  refine (if_neg (by simp [h])).trans (if_neg ?_)
  obtain h | h | h := hcause <;> simp [h]

theorem State.clearVerdict_gone (hrec : s.frec k = some r) (h : resetOnly r.code = false) (hagain : k ∉ c.again)
    (hdue : s.reportDue r = false) (hgone : s.causeGone r tests = true) : s.clearVerdict c tests k = 1 := by
  unfold State.clearVerdict
  rw [hrec]
  exact (if_neg (by simp [h])).trans (if_pos (by simp [hagain, hdue, hgone]))

/-- The one record selected has left the table. -/
theorem State.endClear_removes (h : c.sel = [k]) (hrec : s.frec k = some r) (hv : s.clearVerdict c tests k = 1) : let u := s.endClear c tests
    u.frec k = none ∧ u.fl.result = 1 ∧ u.fl.clear = none ∧ u.bist = (s.looped r tests).bist ∧ (∀ j, j ≠ k → u.frec j = s.frec j) ∧
    u.zones = s.zones ∧ u.pairs = s.pairs := by
  have heq := State.endClear_one (tests := tests) h hrec
  dsimp only at heq
  rw [hv, if_pos rfl] at heq
  obtain ⟨t, ht⟩ : ∃ t, t = (s.looped r tests).clearEnded c 1 := ⟨_, rfl⟩
  have hfl : t.fl.recs = s.fl.recs ∧ t.fl.result = 1 ∧ t.fl.clear = none := by
    have hrecs := congrArg Fl.recs (s.looped_fl r tests)
    rw [ht]
    exact ⟨hrecs, rfl, rfl⟩
  have hrest : t.bist = (s.looped r tests).bist ∧ t.zones = s.zones ∧ t.pairs = s.pairs := by
    have honly := s.looped_only r tests
    rw [ht]
    exact ⟨rfl, (congrArg State.zones honly).symm, (congrArg State.pairs honly).symm⟩
  rw [← ht] at heq
  have honly : Only clearedPart (t.setRec k none) (s.endClear c tests) := by
    rw [heq]
    exact Only.trans clearedPart_part (State.recCleared_only _ r) (State.postEvent_clearedPart _ _ _ _)
  obtain ⟨hrecs, hresult, hclear⟩ := hfl
  obtain ⟨hbist, hzones, hpairs⟩ := hrest
  have hshown (j : Nat) : (s.endClear c tests).frec j = (t.setRec k none).frec j :=
    congrArg (fun f : Fl => tabGet none f.recs j) (congrArg State.fl honly).symm
  refine ⟨?_, (congrArg (fun t : State => t.fl.result) honly).symm.trans hresult, (congrArg (fun t : State => t.fl.clear) honly).symm.trans hclear,
    (congrArg State.bist honly).symm.trans hbist, fun j hj => ?_, (congrArg State.zones honly).symm.trans hzones,
    (congrArg State.pairs honly).symm.trans hpairs⟩
  · rw [hshown, State.setRec_frec_self]
  · rw [hshown, State.setRec_frec_ne _ _ _ hj]
    exact congrArg (tabGet none · j) hrecs
end

/-! ### Records that become GONE -/

/-- What FD found as the condition of a record ended. -/
def State.foundLow (s : State) (r : FaultRec) : State :=
  if r.code = 0x3010#16 || r.code = 0x3011#16 then s.updGrp (r.loc.toNat - 0x40) fun g => { g with stood := g.inBand }
  else s.updChan r.loc.toNat fun c => c.foundLow r.code

theorem State.foundLow_only (s : State) (r : FaultRec) : Only (fun s t => { s with chans := t.chans, grps := t.grps }) s (s.foundLow r) := by
  unfold State.foundLow
  split <;> rfl

theorem exec_recordGone_gone {s : State} {k : Fin 64} {r : FaultRec} (hrec : s.frec k = some r)
    (hcode : r.code ∈ [0x3001#16, 0x3002#16, 0x3003#16, 0x3004#16, 0x3010#16, 0x3011#16]) (hst : r.st = .latched) :
    exec (.recordGone k) s = .next (((s.foundLow r).setRec k (some { r with st := .gone })).reportRec k) := by
  change execRecordGone k s = _
  unfold execRecordGone
  rw [hrec]
  simp only [List.mem_cons, List.not_mem_nil, or_false] at hcode
  exact if_pos (by simp [hst, or_assoc, hcode])

theorem exec_recordGone_stays {s : State} {k : Fin 64} {r : FaultRec} (hrec : s.frec k = some r)
    (h : r.code ∉ [0x3001#16, 0x3002#16, 0x3003#16, 0x3004#16, 0x3010#16, 0x3011#16] ∨ r.st = .gone) :
    exec (.recordGone k) s = .next s := by
  change execRecordGone k s = _
  unfold execRecordGone
  rw [hrec]
  simp only [List.mem_cons, List.not_mem_nil, or_false, not_or] at h
  refine if_neg ?_
  obtain h | h := h <;> simp [h]

theorem State.reportRec_some {s : State} {k : Nat} {r : FaultRec} (h : s.frec k = some r) :
    ∃ at' pend, (s.reportRec k).frec k = some { r with evAt := at', evPend := pend } :=
  ⟨_, _, (s.reportRec_frec_self k).trans (congrArg (Option.map _) h)⟩

/-- Settles O35: the verdict on the one record a clear selects says what its end does; a record that becomes GONE is set, then reported. -/
theorem clearsOfFaults : Obligations.ClearsOfFaults := by
  refine ⟨fun s => ⟨fun ka kb => ?_, ?_⟩, fun s c tests hclear hack => ?_, fun s tests hnone => ?_, fun s k => ?_⟩
  · intro rejected argA argB
    have hB : s.fl.argB = ~~~argB := (BitVec.not_not).symm
    have hexec : exec (.faultClear ka kb) s = .next (s.clearWrite 0 ka kb) := rfl
    rw [hexec]
    unfold State.clearWrite
    dsimp only
    refine ⟨fun h => by rw [if_pos h], fun h hkey => ?_, fun h hka hkb hne => ?_, fun h hka hkb heq => ?_⟩
    · rw [if_neg (by simp [h]), if_pos]
      · rfl
      · rw [hB]
        simpa using hkey
    · rw [if_neg (by simp [h]), if_neg (by simp [hka, hkb, hB, argA]), if_pos hne]
      rfl
    · rw [if_neg (by simp [h]), if_neg (by simp [hka, hkb, hB, argA]), if_neg (by simpa using heq)]
      exact ⟨_, rfl, rfl, rfl, fun k => s.mem_selectRecs⟩
  · intro acks
    have hexec : exec .faultAcknowledgement s = execFaultAcknowledgement s := rfl
    rw [hexec]
    unfold execFaultAcknowledgement
    have hno (h : acks) : ¬ (!s.fl.ackEn || s.fl.ackEnB || decide (s.fl.ackChB ≠ ~~~s.fl.ackCh)) = true := by
      obtain ⟨ha, hb, hch⟩ := h
      simp [ha, hb, hch]
    refine ⟨fun h => ?_, fun h hclear => ?_, fun h hclear => ?_⟩
    · rw [if_pos]
      · rfl
      · by_contra hn
        simp only [Bool.or_eq_true, Bool.not_eq_true', decide_eq_true_eq, not_or, Bool.not_eq_false, Bool.not_eq_true, not_not] at hn
        obtain ⟨⟨ha, hb⟩, hch⟩ := hn
        exact h ⟨ha, hb, hch⟩
    · rw [if_neg (hno h), if_pos hclear]
      rfl
    · rw [if_neg (hno h), if_neg (by simp [hclear])]
      refine ⟨_, rfl, rfl, rfl, fun k => s.mem_selectRecs.trans ?_⟩
      simp
  · intro ended
    rw [exec_clearComplete_eq tests hclear hack]
    refine ⟨fun hsel => by rw [State.endClear_none hsel]; rfl, fun k r hsel hrec => ?_, resetOnly_iff⟩
    intro looped
    have heq := State.endClear_one (tests := tests) hsel hrec
    dsimp only at heq
    refine ⟨fun hreset => ?_, fun hreset hcause => ?_, fun hreset hagain hdue hgone => ?_⟩
    · rw [heq, State.clearVerdict_reset hrec hreset, if_neg (by decide), State.looped_of_resetOnly _ _ hreset]
      rfl
    · rw [heq, State.clearVerdict_present hrec hreset hcause, if_neg (by decide), State.looped_clearEnded]
      rfl
    · exact ⟨_, rfl, State.endClear_removes hsel hrec (State.clearVerdict_gone hrec hreset hagain hdue hgone)⟩
  · change execClearComplete tests s = _
    unfold execClearComplete
    rw [hnone]
    rfl
  · intro watched
    refine ⟨fun hnone => ?_, fun r hrec => ⟨exec_recordGone_stays hrec, fun hcode hst => ?_⟩⟩
    · change execRecordGone k s = _
      unfold execRecordGone
      rw [hnone]
      rfl
    · obtain ⟨u, hu⟩ : ∃ u, u = (s.foundLow r).setRec k (some { r with st := .gone }) := ⟨_, rfl⟩
      have hexec := exec_recordGone_gone hrec hcode hst
      rw [← hu] at hexec
      have hself : u.frec k = some { r with st := .gone } := by rw [hu, State.setRec_frec_self]
      obtain ⟨at', pend, hshown⟩ := State.reportRec_some hself
      have hlow := s.foundLow_only r
      have hset : Only recPart (s.foundLow r) u := by rw [hu]; exact State.setRec_only _ k _
      have hkeep := Only.trans recPart_part hset (u.reportRec_only k)
      have hchan (j : Nat) : (u.reportRec k).chan j = (s.foundLow r).chan j := congrArg (tabGet Chan.init · j) (congrArg State.chans hkeep).symm
      have hgrp (j : Nat) : (u.reportRec k).grp j = (s.foundLow r).grp j := congrArg (tabGet Grp.init · j) (congrArg State.grps hkeep).symm
      refine ⟨u.reportRec k, at', pend, hexec, hshown, fun j hj => ?_, fun hg => ⟨?_, ?_⟩, fun hc => ?_, fun hc => ?_, fun j hj => ?_, ?_⟩
      · rw [State.reportRec_frec_ne _ _ hj, hu, State.setRec_frec_ne _ _ _ hj]
        exact congrArg (fun f : Fl => tabGet none f.recs j) (congrArg State.fl hlow).symm
      · rw [hgrp, State.foundLow, if_pos (by simpa using hg), State.updGrp_grp_self]
      · refine (congrArg State.chans hkeep).symm.trans ?_
        rw [State.foundLow, if_pos (by simpa using hg)]
        rfl
      · rw [hchan, State.foundLow, if_neg (by simp [hc]), State.updChan_chan_self, Chan.foundLow, if_pos hc]
      · have hno : ¬ (r.code = 0x3010#16 ∨ r.code = 0x3011#16) ∧ r.code ≠ 0x3001#16 := by
          simp only [List.mem_cons, List.not_mem_nil, or_false] at hc
          obtain h | h | h := hc <;> simp [h]
        rw [hchan, State.foundLow, if_neg (by simpa using hno.1), State.updChan_chan_self, Chan.foundLow, if_neg hno.2]
      · rw [hchan, State.foundLow]
        split
        · rfl
        · exact State.updChan_chan_ne _ _ _ _ hj
      · rw [← hkeep, ← hlow]

end Sys2Proof.Machine
end


section
/-!
# What the lanes take from a cross link frame (R307, R457)
-/
namespace Sys2Proof.Machine
open Sys2Proof

/-- A lane that has announced its entry to Dormant mode and its return, both taken by the other lane. -/
def LaneDie.returned (d : LaneDie) : LaneDie := { d with dormAnn := true, annX := true, retAnn := true }

/-- Dormant mode with the announcements of a return still standing in both lanes. -/
def returnedInDormant : State := { State.reset with
  pm := { State.reset.pm with dstate := .dormant }, laneA := State.reset.laneA.returned, laneB := State.reset.laneB.returned }

/-- A good frame with nothing else to report ends both announcements there. -/
theorem exec_crossLink_returnedInDormant : exec (.laneCrossLinkFrame .a true [] false false) returnedInDormant =
    .next (returnedInDormant.laneAnnounce .b) := by
  have hbits : (List.range 36).foldl (fun (t : State) p => if (t.pair p).stop .b then t.latchBit .a p else t) returnedInDormant =
      returnedInDormant := foldl_stays (fun p => rfl) _
  change execLaneCrossLinkFrame .a true [] false false returnedInDormant = _
  unfold execLaneCrossLinkFrame
  dsimp only [otherLane]
  rw [hbits]
  rfl

/-- Refutes O51: an entry announced and taken before does not stay taken where both lanes have announced a return as well, which the
statement leaves free: the frame that finds all four marks ends them, in Dormant mode too. -/
theorem not_laneChecksAndCrossLink : ¬ Obligations.LaneChecksAndCrossLink := by
  rintro ⟨-, hlink⟩
  obtain ⟨-, -, hgood, -⟩ := hlink returnedInDormant .a
  obtain ⟨t, hexec, -, -, -, hann, -⟩ := hgood [] false false
  have ht : t = returnedInDormant.laneAnnounce .b := Host.Outcome.next.inj (hexec.symm.trans exec_crossLink_returnedInDormant)
  have hends : (t.lane .b).annX = false := by
    rw [ht]
    rfl
  exact absurd ((hann rfl rfl).symm.trans hends) (by decide)

end Sys2Proof.Machine
end


section
/-!
# What FD takes of the lanes' announcements (R457)
-/
namespace Sys2Proof.Machine
open Sys2Proof

/-- A lane that has announced its entry to Dormant mode and its return, both taken by FD. -/
def LaneDie.returnedFd (d : LaneDie) : LaneDie := { d with dormAnn := true, annFd := true, retFd := true }

/-- Dormant mode with FD holding the outputs, the announcements of a return still standing in both lanes. -/
def returnedFdInDormant : State := { State.reset with
  pm := { State.reset.pm with dstate := .dormant }, fd := { State.reset.fd with dormHold := true }
  laneA := State.reset.laneA.returnedFd, laneB := State.reset.laneB.returnedFd }

/-- FD then ends its hold with the next frame, and takes both lanes as no longer announced. -/
theorem fdAnnounce_ends_announcements : (returnedFdInDormant.fdAnnounce .a).laneA.annFd = false := rfl

/-- Refutes O49: an entry FD has taken does not stay taken in Dormant mode where FD holds the outputs and both lanes have announced a
return, which the statement leaves free: the frame that finds them ends the hold and both announcements. -/
theorem not_fieldLinks : ¬ Obligations.FieldLinks := by
  intro h
  obtain ⟨-, -, -, hann, -⟩ := h returnedFdInDormant .a
  have htaken : (returnedFdInDormant.fdAnnounce .a).laneA.annFd = true := (hann rfl rfl).1
  rw [fdAnnounce_ends_announcements] at htaken
  exact absurd htaken (by decide)

end Sys2Proof.Machine
end


section
/-!
# Port states and the Gatehouse (R249 to R252, R263 to R269)
-/
namespace Sys2Proof.Machine
open Sys2Proof

/-! ### What a port sends next -/

/-- A port but for what it sends. -/
def Port.unsent (q : Port) : Port := { q with inFlight := none, queue := [], ident := 0#16, wire := [] }

theorem Port.unsent_fields {q q' : Port} (h : q.unsent = q'.unsent) : q.st = q'.st ∧ q.txCnt = q'.txCnt ∧ q.lastSent = q'.lastSent ∧
    q.lpPage = q'.lpPage ∧ q.anFault = q'.anFault := by
  have hst : q.unsent.st = q'.unsent.st := by rw [h]
  have hcnt : q.unsent.txCnt = q'.unsent.txCnt := by rw [h]
  have hlast : q.unsent.lastSent = q'.unsent.lastSent := by rw [h]
  have hpage : q.unsent.lpPage = q'.unsent.lpPage := by rw [h]
  have hfault : q.unsent.anFault = q'.unsent.anFault := by rw [h]
  exact ⟨hst, hcnt, hlast, hpage, hfault⟩

section
variable (s : State) (p : Nat)

theorem State.kick_port_ne {j : Nat} (h : j ≠ p) : (s.kick p).port j = s.port j := by
  unfold State.kick
  dsimp only
  split
  · split
    · exact State.updPort_port_ne _ _ _ _ h
    · rfl
  · rfl

theorem State.kick_unsent : ((s.kick p).port p).unsent = (s.port p).unsent := by
  unfold State.kick
  dsimp only
  split
  · split
    · rw [State.updPort_port_self]
      split <;> rfl
    · rfl
  · rfl

/-- A port that may send and has nothing on the line takes the next frame of its queue. -/
theorem State.kick_sends (hst : (s.port p).st = .up) (hheld : s.txHeld = false) (hidle : (s.port p).inFlight = none) :
    ((s.kick p).port p).inFlight = (s.port p).queue.head? ∧ ((s.kick p).port p).queue = (s.port p).queue.tail := by
  unfold State.kick
  dsimp only
  split
  · next f r hq _ =>
    rw [if_pos (by simp [hst, hheld]), hq, State.updPort_port_self]
    split <;> exact ⟨rfl, rfl⟩
  · next hno =>
    cases hq : (s.port p).queue with
    | nil => exact ⟨hidle, rfl⟩
    | cons f r => exact absurd hidle (hno f r hq)

theorem State.kick_of_empty (h : (s.port p).queue = []) : s.kick p = s := by
  unfold State.kick
  dsimp only
  rw [h]

/-! ### Port states -/

/-- A port enters a state, and may begin to send. -/
theorem State.setPort_spec (st : PortSt) : ((s.setPort p st).port p).unsent = { (s.port p).unsent with st := st } ∧
    (∀ j, j ≠ p → (s.setPort p st).port j = s.port j) ∧ Only portPart s (s.setPort p st) := by
  unfold State.setPort
  by_cases hst : (s.port p).st = st
  · rw [if_pos hst, ← hst]
    exact ⟨rfl, fun _ _ => rfl, rfl⟩
  · rw [if_neg hst]
    obtain ⟨u, hu⟩ : ∃ u, u = (s.updPort p fun q => { q with st := st }).postEvent 0x10 3 (p + fld st.code 8 8) := ⟨_, rfl⟩
    have hport (j : Nat) : u.port j = (s.updPort p fun q => { q with st := st }).port j := by
      rw [hu, State.port, State.postEvent_ports]
      rfl
    have honly : Only portPart s u := by
      rw [hu]
      exact Only.trans portPart_part (t := s.updPort p fun q => { q with st := st }) rfl ((State.postEvent_hubPart _ _ _).mono fun _ _ => rfl)
    rw [← hu]
    refine ⟨?_, fun j hj => ?_, Only.trans portPart_part honly ((u.kick_only p).mono fun _ _ => rfl)⟩
    · rw [State.kick_unsent, hport, State.updPort_port_self]
      rfl
    · rw [State.kick_port_ne _ _ hj, hport, State.updPort_port_ne _ _ _ _ hj]

/-- A port has come to a state; no other port has changed, nor anything else but what events and free values take. -/
structure State.Moved (s t : State) (p : Fin 32) (st : PortSt) : Prop where
  st : (t.port p).st = st
  other : ∀ j : Nat, j ≠ p → t.port j = s.port j
  rest : { t with ports := s.ports, evRings := s.evRings, evqA := s.evqA, evqB := s.evqB, hi := s.hi, freeCtr := s.freeCtr } = s

/-- Ports, events of the hub, free values. -/
abbrev linkPart (s t : State) : State := { portPart s t with freeCtr := t.freeCtr }

theorem linkPart_part : Part linkPart := ⟨fun _ => rfl, fun _ _ _ => rfl⟩

theorem linkPart_rest {s t : State} (h : Only linkPart s t) :
    { t with ports := s.ports, evRings := s.evRings, evqA := s.evqA, evqB := s.evqB, hi := s.hi, freeCtr := s.freeCtr } = s := by
  rw [← h]
end

/-- A change of one port's figures, then a state: the port has moved. -/
theorem State.setPort_moved {s u : State} {p : Fin 32} {st : PortSt} (hother : ∀ j : Nat, j ≠ p → u.port j = s.port j) (honly : Only linkPart s u) :
    s.Moved (u.setPort p st) p st := by
  obtain ⟨hself, hne, hset⟩ := u.setPort_spec p st
  exact ⟨congrArg Port.st hself, fun j hj => (hne j hj).trans (hother j hj),
    linkPart_rest (Only.trans linkPart_part honly (hset.mono fun _ _ => rfl))⟩

/-- The frame an UP port receives, if there is one, is dropped. -/
theorem State.discardRx_spec (s : State) (p reason : Nat) : let t := (s.discardRx p reason).2
    (∀ j, j ≠ p → t.port j = s.port j) ∧ Only linkPart s t := by
  unfold State.discardRx
  split
  · dsimp only
    split
    · exact ⟨fun j hj => State.updPort_port_ne _ _ _ _ hj, rfl⟩
    · exact ⟨fun _ _ => rfl, rfl⟩
  · exact ⟨fun _ _ => rfl, rfl⟩

/-! ### Commands of a port -/

section
variable (s : State) (p : Fin 32)

theorem exec_syncAcquired_noSync (h : (s.port p).st = .noSync) :
    ∃ t, exec (.syncAcquired p) s = .next t ∧ s.Moved t p (if (s.port p).live.negotiates then .negotiating else .up) :=
  ⟨_, congrArg Host.Outcome.next (if_pos h), State.setPort_moved (fun _ hj => State.updPort_port_ne _ _ _ _ hj) rfl⟩

theorem exec_syncLost_up (h : (s.port p).st = .up) : ∃ t, exec (.syncLost p) s = .next t ∧ s.Moved t p .noSync := by
  obtain ⟨hother, honly⟩ := s.discardRx_spec p 2
  exact ⟨_, congrArg Host.Outcome.next (if_pos h), State.setPort_moved hother honly⟩

/-- A page as a port that negotiates takes it. -/
def State.pageTaken (s : State) (p : Fin 32) (page : BitVec 16) : State := s.updPort p fun q =>
  { q with lpPage := page, sentPage := s.onLine ((s.port p).live.page true), anFault := (s.port p).live.pageFault page }

theorem exec_negotiationComplete_off (page : BitVec 16)
    (h : (s.port p).live.negotiates = false ∨ (s.port p).st = .disabled ∨ (s.port p).st = .noSync) :
    exec (.negotiationComplete p page) s = .next s := by
  refine if_pos ?_
  obtain h | h | h := h <;> simp [h]

theorem exec_negotiationComplete_negotiating (page : BitVec 16) (hneg : (s.port p).live.negotiates = true) (hst : (s.port p).st = .negotiating) :
    exec (.negotiationComplete p page) s =
      .next (if (s.port p).live.pageOk page then (s.pageTaken p page).setPort p .up else s.pageTaken p page) := by
  refine (if_neg (by simp [hneg, hst])).trans ((if_pos hst).trans ?_)
  split <;> rfl

theorem exec_negotiationComplete_up (page : BitVec 16) (hneg : (s.port p).live.negotiates = true) (hst : (s.port p).st = .up) :
    exec (.negotiationComplete p page) s = .next (if (s.port p).live.phyMode = 1#2 && !(s.port p).live.pageOk page then
      ((s.pageTaken p page).discardRx p 2).2.setPort p .noSync else s.pageTaken p page) := by
  refine (if_neg (by simp [hneg, hst])).trans ((if_neg (by simp [hst])).trans ?_)
  split <;> rfl

theorem State.pageTaken_port (page : BitVec 16) : (s.pageTaken p page).port p =
    { s.port p with lpPage := page, sentPage := s.onLine ((s.port p).live.page true), anFault := (s.port p).live.pageFault page } :=
  State.updPort_port_self _ _ _

theorem State.pageTaken_moved {st : PortSt} (page : BitVec 16) (h : (s.port p).st = st) : s.Moved (s.pageTaken p page) p st :=
  ⟨by rw [State.pageTaken_port]; exact h, fun j hj => State.updPort_port_ne _ _ _ _ hj, rfl⟩

/-- The frame on the line is over. -/
def State.frameSent (s : State) (p : Fin 32) (f : TxFrame) : State := s.updPort p fun q =>
  { q with inFlight := none, lastSent := some f, txCnt := q.txCnt + 1#32 }

theorem exec_portTransmit_sent {f : TxFrame} (h : (s.port p).inFlight = some f) : exec (.portTransmit p) s = .next ((s.frameSent p f).kick p) := by
  change execPortTransmit p s = _
  unfold execPortTransmit
  rw [h]
  rfl

theorem exec_portTransmit_idle (hnone : (s.port p).inFlight = none) (hqueue : (s.port p).queue = []) :
    exec (.portTransmit p) s = .next s := by
  change execPortTransmit p s = _
  unfold execPortTransmit
  rw [hnone]
  exact congrArg Host.Outcome.next (s.kick_of_empty p hqueue)
end

/-! ### The Gatehouse -/

section
variable (s : State) (p : Fin 32) (f : Frame) (line : LineInfo)

theorem Port.drop_counts (q : Port) (r : Nat) (ft : BitVec 4) (h : BitVec 16) : (q.drop r ft h).ghTotal = q.ghTotal + 1#32 ∧
    (q.drop r ft h).lastReason = r ∧ (q.drop r ft h).rxCnt = q.rxCnt := by
  unfold Port.drop
  dsimp only
  split <;> exact ⟨rfl, rfl, rfl⟩

theorem exec_portFrameEnd_dropped {r : Nat} (hup : (s.port p).st = .up) (h : s.gatehouse p f line = some r) :
    ∃ ft hd, exec (.portFrameEnd p f line) s = .next (s.updPort p fun q => q.drop r ft hd) := by
  refine ⟨(((s.port p).live.received f line).map fun x => x.ftype).getD 0#4,
    (((s.port p).live.received f line).map fun x => x.handle).getD 0#16, (if_neg (not_not_intro hup)).trans ?_⟩
  rw [h]
  rfl

/-- A frame counted, by its kind. -/
def State.rxCounted (s : State) (p : Fin 32) (x : Frame) (k : Nat) : State :=
  let s := s.updPort p fun q => { q with rxCnt := q.rxCnt + 1#32, openCnt := if x.ftype = ftOpen then q.openCnt + 1 else q.openCnt }
  if x.ftype = ftOpen then s else s.updConn k fun c => { c with rateCnt := c.rateCnt + 1 }

theorem exec_portFrameEnd_forwarded {x : Frame} {k : Nat} {d : ConnDecl} (hup : (s.port p).st = .up)
    (hrec : (s.port p).live.received f line = some x) (h : s.gatehouse p f line = none) (hslot : s.slotOf p x.handle = some (k, d)) :
    exec (.portFrameEnd p f line) s = .next ((s.rxCounted p x k).hand k x) := by
  have hslot' : (s.updPort p fun q => { q with
      rxCnt := q.rxCnt + 1#32, openCnt := if x.ftype = ftOpen then q.openCnt + 1 else q.openCnt }).slotOf p x.handle = some (k, d) := hslot
  refine (if_neg (not_not_intro hup)).trans ?_
  rw [h, hrec]
  dsimp only
  rw [hslot']
  rfl

theorem State.rxCounted_spec {x : Frame} {k : Nat} :
    ((s.rxCounted p x k).port p).rxCnt = (s.port p).rxCnt + 1#32 ∧ ((s.rxCounted p x k).port p).ghTotal = (s.port p).ghTotal ∧
    (x.ftype = 2#4 → ((s.rxCounted p x k).port p).openCnt = (s.port p).openCnt + 1 ∧ (s.rxCounted p x k).conns = s.conns) ∧
    (x.ftype ≠ 2#4 → ((s.rxCounted p x k).port p).openCnt = (s.port p).openCnt ∧
      ((s.rxCounted p x k).conn k).rateCnt = (s.conn k).rateCnt + 1 ∧ ∀ j, j ≠ k → (s.rxCounted p x k).conn j = s.conn j) ∧
    (∀ j : Nat, j ≠ p → (s.rxCounted p x k).port j = s.port j) ∧
    Only (fun s t => { s with ports := t.ports, conns := t.conns }) s (s.rxCounted p x k) := by
  obtain ⟨u, hu⟩ : ∃ u, u = s.updPort p fun q => { q with
      rxCnt := q.rxCnt + 1#32, openCnt := if x.ftype = ftOpen then q.openCnt + 1 else q.openCnt } := ⟨_, rfl⟩
  have hself : u.port p = { s.port p with
      rxCnt := (s.port p).rxCnt + 1#32, openCnt := if x.ftype = ftOpen then (s.port p).openCnt + 1 else (s.port p).openCnt } := by
    rw [hu]
    exact State.updPort_port_self _ _ _
  have hne (j : Nat) (h : j ≠ p) : u.port j = s.port j := by
    rw [hu]
    exact State.updPort_port_ne _ _ _ _ h
  have honly : Only (fun s t => { s with ports := t.ports, conns := t.conns }) s u ∧ u.conns = s.conns := by
    rw [hu]
    exact ⟨rfl, rfl⟩
  have heq : s.rxCounted p x k = if x.ftype = ftOpen then u else u.updConn k fun c => { c with rateCnt := c.rateCnt + 1 } := by rw [hu]; rfl
  obtain ⟨honly, hconns⟩ := honly
  have hconn (j : Nat) : u.conn j = s.conn j := congrArg (tabGet Conn.init · j) hconns
  rw [heq]
  by_cases hopen : x.ftype = 2#4
  · have hft : x.ftype = ftOpen := hopen
    rw [if_pos hft, hself]
    exact ⟨rfl, rfl, fun _ => ⟨if_pos hft, hconns⟩, fun h => absurd hopen h, hne, honly⟩
  · have hft : x.ftype ≠ ftOpen := hopen
    rw [if_neg hft]
    have hport (j : Nat) : (u.updConn k fun c => { c with rateCnt := c.rateCnt + 1 }).port j = u.port j := rfl
    simp only [hport, hself]
    refine ⟨trivial, trivial, fun h => absurd h hopen, fun _ => ⟨if_neg hft, ?_, fun j hj => ?_⟩, hne, ?_⟩
    · rw [State.updConn_conn_self, hconn]
    · rw [State.updConn_conn_ne _ _ _ _ hj, hconn]
    · exact Only.trans ⟨fun _ => rfl, fun _ _ _ => rfl⟩ honly rfl

/-! Which frames pass. -/

/-- A frame that passes names a declared connection of its port, with room in the window. -/
theorem State.gatehouse_none (h : s.gatehouse p f line = none) : ∃ x k d, (s.port p).live.received f line = some x ∧
    s.slotOf p x.handle = some (k, d) ∧ (x.ftype = 2#4 → (s.port p).openCnt < 16) ∧ (x.ftype ≠ 2#4 → (s.conn k).rateCnt < 2) := by
  have hpass {c : Prop} [Decidable c] {r : Nat} {o : Option Nat} (h : (if c then some r else o) = none) : o = none := by
    split at h
    · cases h
    · exact h
  unfold State.gatehouse at h
  replace h := hpass (hpass (hpass (hpass h)))
  cases hrec : (s.port p).live.received f line with
  | none =>
    rw [hrec] at h
    cases h
  | some x =>
    rw [hrec] at h
    dsimp only [Option.bind_some] at h
    cases hslot : s.slotOf p x.handle with
    | none =>
      rw [hslot] at h
      cases h
    | some e =>
      rw [hslot] at h
      replace h := hpass h
      refine ⟨x, e.1, e.2, rfl, hslot, fun hopen => ?_, fun hopen => ?_⟩
      · rw [if_pos (show x.ftype = ftOpen from hopen)] at h
        split at h
        · cases h
        · omega
      · rw [if_neg (show ¬ x.ftype = ftOpen from hopen)] at h
        split at h
        · cases h
        · omega

theorem State.gatehouse_preRun (h : s.pm.dstate ≠ .run) : s.gatehouse p f line = some 1 := if_pos h
end

/-- Settles O58: each command of a port is a change of figures followed by a state or a send; a frame that passes the Gatehouse has
reached its last check. -/
theorem portsAndGatehouse : Obligations.PortsAndGatehouse := by
  refine ⟨fun s p => ?_, fun s p f line => ?_, fun _ _ => rfl, fun _ _ => rfl⟩
  · intro moved
    have hmoved {t : State} {st : PortSt} (h : s.Moved t p st) : moved t st := ⟨h.st, h.other, h.rest⟩
    refine ⟨fun h => congrArg Host.Outcome.next (if_neg h), fun h => ?_, fun h => congrArg Host.Outcome.next (if_neg h), fun h => ?_,
      fun page => ⟨exec_negotiationComplete_off s p page, fun hneg hst => ?_, fun hneg hst => ?_⟩, fun f hf => ?_, exec_portTransmit_idle s p⟩
    · obtain ⟨t, hexec, ht⟩ := exec_syncAcquired_noSync s p h
      exact ⟨t, hexec, hmoved ht⟩
    · obtain ⟨t, hexec, ht⟩ := exec_syncLost_up s p h
      exact ⟨t, hexec, hmoved ht⟩
    · refine ⟨_, exec_negotiationComplete_negotiating s p page hneg hst, ?_⟩
      have htaken := s.pageTaken_moved p page hst
      have hport := s.pageTaken_port p page
      split
      · obtain ⟨hself, -, -⟩ := (s.pageTaken p page).setPort_spec p .up
        obtain ⟨-, -, -, hpage, hfault⟩ := Port.unsent_fields (q' := { (s.pageTaken p page).port p with st := .up }) hself
        rw [hport] at hpage hfault
        exact ⟨hmoved (State.setPort_moved htaken.other rfl), hpage, hfault⟩
      · rw [hport]
        exact ⟨hmoved htaken, rfl, rfl⟩
    · refine ⟨_, exec_negotiationComplete_up s p page hneg hst, ?_⟩
      obtain ⟨hother, honly⟩ := (s.pageTaken p page).discardRx_spec p 2
      have htaken := s.pageTaken_moved p page hst
      by_cases hend : (s.port p).live.phyMode = 1#2 ∧ (s.port p).live.pageOk page = false
      · rw [if_pos hend, if_pos (by simp [hend])]
        exact hmoved (State.setPort_moved (fun j hj => (hother j hj).trans (htaken.other j hj)) (Only.trans linkPart_part (t := s.pageTaken p page) rfl honly))
      · rw [if_neg hend, if_neg (by simpa using hend)]
        exact hmoved htaken
    · refine ⟨_, exec_portTransmit_sent s p hf, ?_⟩
      have hself : (s.frameSent p f).port p = { s.port p with inFlight := none, lastSent := some f, txCnt := (s.port p).txCnt + 1#32 } :=
        State.updPort_port_self _ _ _
      obtain ⟨hst, hcnt, hlast, -⟩ := Port.unsent_fields ((s.frameSent p f).kick_unsent p)
      rw [hself] at hst hcnt hlast
      refine ⟨hcnt, hlast, hmoved ⟨hst, fun j hj => ?_, ?_⟩, fun hup hrun => ?_⟩
      · rw [State.kick_port_ne _ _ hj]
        exact State.updPort_port_ne _ _ _ _ hj
      · exact linkPart_rest (Only.trans linkPart_part (t := s.frameSent p f) rfl (((s.frameSent p f).kick_only p).mono fun _ _ => rfl))
      · have hheld : (s.frameSent p f).txHeld = false := by
          have hdst : (s.frameSent p f).pm.dstate = .run := hrun
          rw [State.txHeld, hdst]
        have hsends := (s.frameSent p f).kick_sends p (by rw [hself]; exact hup) hheld (by rw [hself])
        rw [hself] at hsends
        exact hsends
  · have hpass := s.gatehouse_none p f line
    refine ⟨fun h => if_pos h, fun hup => ⟨fun r hr => ?_, fun x k d hrec hnone hslot => ?_⟩, s.gatehouse_preRun p f line, fun hrec hnone => ?_,
      fun x hrec => ⟨fun k d hslot hopen hfull hnone => ?_, fun k d hslot hopen hfull hnone => ?_, fun hslot hnone => ?_⟩⟩
    · obtain ⟨ft, hd, hexec⟩ := exec_portFrameEnd_dropped s p f line hup hr
      obtain ⟨hcnt, hreason, hrx⟩ := (s.port p).drop_counts r ft hd
      have hself : (s.updPort p fun q => q.drop r ft hd).port p = (s.port p).drop r ft hd := State.updPort_port_self _ _ _
      refine ⟨_, hexec, ?_⟩
      rw [hself]
      exact ⟨hcnt, hreason, hrx, fun j hj => State.updPort_port_ne _ _ _ _ hj, rfl⟩
    · obtain ⟨hrx, hgh, hopen, hdata, hother, honly⟩ := s.rxCounted_spec p (x := x) (k := k)
      refine ⟨_, exec_portFrameEnd_forwarded s p f line hup hrec hnone hslot, hrx, hgh, hopen, hdata, hother, ?_, ?_, ?_⟩
      · exact congrArg (fun d : LaneDie => { d with rxq := d.rxq ++ [RxFrame.mk k x false] }) (congrArg State.laneA honly).symm
      · exact congrArg (fun d : LaneDie => { d with rxq := d.rxq ++ [RxFrame.mk k x false] }) (congrArg State.laneB honly).symm
      · generalize s.rxCounted p x k = u at honly
        rw [← honly]
        rfl
    · obtain ⟨x, -, -, hx, -⟩ := hpass hnone
      cases hrec.symm.trans hx
    · obtain ⟨y, j, e, hy, -, hroom, -⟩ := hpass hnone
      cases hrec.symm.trans hy
      exact absurd (hroom hopen) (by omega)
    · obtain ⟨y, j, e, hy, hslot', -, hroom⟩ := hpass hnone
      cases hrec.symm.trans hy
      cases hslot.symm.trans hslot'
      exact absurd (hroom hopen) (by omega)
    · obtain ⟨y, j, e, hy, hslot', -⟩ := hpass hnone
      cases hrec.symm.trans hy
      cases hslot.symm.trans hslot'

end Sys2Proof.Machine

end


section
/-!
# The transmit side and the openers (R26, R270, R278 to R281)
-/
namespace Sys2Proof.Machine
open Sys2Proof

/-! ### Requests and merges -/

section
variable {s : State} {k : Nat}

theorem State.updConn_congr {f g : Conn → Conn} (h : f (s.conn k) = g (s.conn k)) : s.updConn k f = s.updConn k g :=
  congrArg (fun c => { s with conns := tabSet Conn.init s.conns k c }) h

theorem State.txPop_eq {b : TxBuild} {rest : List TxBuild} (h : (s.conn k).txBuilt = b :: rest) :
    s.txPop k = s.updConn k fun c => { c with txBuilt := rest } :=
  State.updConn_congr (by rw [h]; rfl)

theorem State.handPoints_only (f : Frame) : Only (fun s t => { s with handed := t.handed }) s (s.handPoints k f) := by
  unfold State.handPoints
  split
  · split <;> rfl
  · rfl

/-- A frame for an idle UP port with an empty queue is sent at once. -/
theorem State.enqueue_sends {p : Nat} (f : TxFrame) (hqueue : (s.port p).queue = []) (hst : (s.port p).st = .up) (hrun : s.pm.dstate = .run)
    (hidle : (s.port p).inFlight = none) : let t := s.enqueue p f
    (t.port p).inFlight = some f ∧ ((s.port p).live.tunnel = false → (t.port p).wire = bodyBytes f.frame) ∧
    ((s.port p).live.tunnel = true → (t.port p).wire = tunnelBytes (s.port p).live (s.port p).ident f.mac f.ip (bodyBytes f.frame)) ∧
    (∀ j, j ≠ p → t.port j = s.port j) ∧ Only (fun s t => { s with ports := t.ports }) s t := by
  obtain ⟨u, hu⟩ : ∃ u, u = s.updPort p fun q => { q with queue := q.queue ++ [f] } := ⟨_, rfl⟩
  have hport : u.port p = { s.port p with queue := [f] } := by
    rw [hu, State.updPort_port_self, hqueue]
    rfl
  have hother (j : Nat) (h : j ≠ p) : u.port j = s.port j := by
    rw [hu]
    exact State.updPort_port_ne _ _ _ _ h
  have honly : Only (fun s t => { s with ports := t.ports }) s u := by
    rw [hu]
    rfl
  have heq : s.enqueue p f = u.kick p := by
    unfold State.enqueue
    dsimp only
    rw [if_neg (by simp [hst]), hqueue, hidle, hu]
    rfl
  have hheld : u.txHeld = false := by
    have hpm : u.pm = s.pm := (congrArg State.pm honly).symm
    rw [State.txHeld, hpm, hrun]
  have hkick : u.kick p = u.updPort p fun q => if q.live.tunnel then
      { q with inFlight := some f, queue := [], ident := q.ident + 1#16, wire := tunnelBytes q.live q.ident f.mac f.ip (bodyBytes f.frame) }
      else { q with inFlight := some f, queue := [], wire := bodyBytes f.frame } := by
    unfold State.kick
    dsimp only
    rw [hport]
    dsimp only
    rw [hidle]
    exact if_pos (by simp [hst, hheld])
  have hself : ((s.enqueue p f).port p) = if (s.port p).live.tunnel then
      { s.port p with inFlight := some f, queue := [], ident := (s.port p).ident + 1#16,
                      wire := tunnelBytes (s.port p).live (s.port p).ident f.mac f.ip (bodyBytes f.frame) }
      else { s.port p with inFlight := some f, queue := [], wire := bodyBytes f.frame } := by
    rw [heq, hkick, State.updPort_port_self, hport]
  refine ⟨?_, fun h => ?_, fun h => ?_, fun j hj => ?_, ?_⟩
  · rw [hself]
    split <;> rfl
  · rw [hself, if_neg (by simp [h])]
  · rw [hself, if_pos h]
  · rw [heq, State.kick_port_ne _ _ hj, hother j hj]
  · rw [heq]
    exact Only.trans ⟨fun _ => rfl, fun _ _ _ => rfl⟩ honly (u.kick_only p)
end

section
variable {s : State} {k : Fin 2048} {b : TxBuild} {rest : List TxBuild} (hb : (s.conn k).txBuilt = b :: rest)
include hb

theorem exec_txMergeTimeout_lost : exec (.txMergeTimeout k) s = .next ((s.updConn k fun c => { c with txBuilt := rest }).txLost b.port) := by
  change execTxMergeTimeout k s = _
  unfold execTxMergeTimeout
  rw [hb, State.txPop_eq hb]
  rfl

theorem exec_txMerge_lost (h : b.frameA.payload ≠ negBytes b.frameB.payload) :
    exec (.txMerge k) s = .next ((s.updConn k fun c => { c with txBuilt := rest }).txLost b.port) := by
  change execTxMerge k s = _
  unfold execTxMerge
  rw [hb]
  dsimp only
  rw [if_neg h, State.txPop_eq hb]
  rfl

theorem exec_txMerge_sent (h : b.frameA.payload = negBytes b.frameB.payload) :
    exec (.txMerge k) s = .next (((s.updConn k fun c => { c with txBuilt := rest }).handPoints k { b.frameA with crcB := ~~~b.frameB.crcB }).enqueue
      b.port { slot := k, mac := b.mac, ip := b.ip, frame := { b.frameA with crcB := ~~~b.frameB.crcB } }) := by
  change execTxMerge k s = _
  unfold execTxMerge
  rw [hb]
  dsimp only
  rw [if_pos h, State.txPop_eq hb]
  rfl
end

/-! ### Openers -/

section
variable {s : State} {k : Fin 2048} {d : ConnDecl} (hdecl : (s.conn k).decl = some d)
include hdecl

theorem exec_openRetry_eq : exec (.openRetry k) s = .next (if (s.conn k).st = .opening && !d.listener && !(s.conn k).stagger then
    (s.updConn k fun c => { c with backoff := min 8 (c.backoff + 1) }).sendOpen k else s) := by
  change execOpenRetry k s = _
  unfold execOpenRetry
  dsimp only
  rw [hdecl]
  rfl

theorem exec_staleReopen_eq : exec (.staleReopen k) s = .next (if (s.conn k).st = .stale && !d.listener && decide ((s.port d.port).st = .up) then
    (s.enterOpening k none (some 0)).firstOpen k else s) := by
  change execStaleReopen k s = _
  unfold execStaleReopen
  dsimp only
  rw [hdecl]
  rfl
end

/-- Settles O57: a merge pops the oldest frame and queues it; an opener's frames change of its connection only what it sends. -/
theorem openersAndTransmit : Obligations.OpenersAndTransmit := by
  refine ⟨fun s k => ⟨fun h => congrArg Host.Outcome.next (if_pos h), fun h => congrArg Host.Outcome.next (if_neg (by simp [h])), fun h => ⟨?_, ?_⟩,
    fun b rest hb => ?_⟩, fun s k => ⟨fun h => ?_, fun h => ⟨?_, ?_⟩, fun d hdecl => ⟨fun hst hstag => ?_, fun h => ?_, fun hst hlist hstag => ?_,
    fun h => ?_, fun hst hlist hport hcmac => ?_⟩⟩⟩
  · change execTxMerge k s = _
    unfold execTxMerge
    rw [h]
    rfl
  · change execTxMergeTimeout k s = _
    unfold execTxMergeTimeout
    rw [h]
    rfl
  · refine ⟨exec_txMergeTimeout_lost hb, exec_txMerge_lost hb, fun heq hqueue hup hrun hidle => ?_⟩
    obtain ⟨f, hf⟩ : ∃ f : TxFrame, f = { slot := k, mac := b.mac, ip := b.ip, frame := { b.frameA with crcB := ~~~b.frameB.crcB } } := ⟨_, rfl⟩
    obtain ⟨u, hu⟩ : ∃ u, u = (s.updConn k fun c => { c with txBuilt := rest }).handPoints k { b.frameA with crcB := ~~~b.frameB.crcB } := ⟨_, rfl⟩
    have hpoints := State.handPoints_only (s := s.updConn k fun c => { c with txBuilt := rest }) (k := k) { b.frameA with crcB := ~~~b.frameB.crcB }
    have hexec := exec_txMerge_sent hb heq
    rw [← hu, ← hf] at hexec
    rw [← hu] at hpoints
    have hports (j : Nat) : u.port j = s.port j := congrArg (tabGet Port.init · j) (congrArg State.ports hpoints).symm
    have hconn (j : Nat) : u.conn j = (s.updConn k fun c => { c with txBuilt := rest }).conn j :=
      congrArg (tabGet Conn.init · j) (congrArg State.conns hpoints).symm
    have hdst : u.pm.dstate = .run := (congrArg (fun t : State => t.pm.dstate) hpoints).symm.trans hrun
    obtain ⟨hsent, hbody, htunnel, hother, honly⟩ := State.enqueue_sends (s := u) (p := b.port) f (by rw [hports]; exact hqueue)
      (by rw [hports]; exact hup) hdst (by rw [hports]; exact hidle)
    rw [hports] at hbody htunnel
    have hconn' (j : Nat) : (u.enqueue b.port f).conn j = (s.updConn k fun c => { c with txBuilt := rest }).conn j :=
      (congrArg (tabGet Conn.init · j) (congrArg State.conns honly).symm).trans (hconn j)
    refine ⟨_, f, hexec, ?_, hsent, by rw [hf], by rw [hf], hbody, fun h => ?_, fun j hj => ?_, fun j hj => (hother j hj).trans (hports j), ?_⟩
    · rw [hconn', State.updConn_conn_self]
    · rw [htunnel h, hf]
    · rw [hconn', State.updConn_conn_ne _ _ _ _ hj]
    · rw [← honly, ← hpoints]
      rfl
  · refine congrArg Host.Outcome.next (if_neg ?_)
    obtain h | h := h <;> simp [h]
  · change execOpenRetry k s = _
    unfold execOpenRetry
    dsimp only
    rw [h]
    rfl
  · change execStaleReopen k s = _
    unfold execStaleReopen
    dsimp only
    rw [h]
    rfl
  · obtain ⟨u, hu⟩ : ∃ u, u = s.updConn k fun c => { c with stagger := false } := ⟨_, rfl⟩
    have hself : u.conn k = { s.conn k with stagger := false } := by rw [hu, State.updConn_conn_self]
    have hsends := u.firstOpen_sends k
    obtain ⟨hst', -, -, hnonce⟩ := Conn.unsent_eq hsends.same
    have hshown : ((u.firstOpen k).conn k).unsent.stagger = (u.conn k).unsent.stagger := by rw [hsends.same]
    have hstag' : ((u.firstOpen k).conn k).stagger = (u.conn k).stagger := hshown
    rw [hself] at hst' hnonce hstag'
    refine ⟨u.firstOpen k, ?_, hstag', hst'.trans hst, hnonce, fun j hj => ?_, ?_⟩
    · rw [hu]
      exact congrArg Host.Outcome.next (if_pos (by simp [hst, hstag]))
    · rw [hsends.other j hj, hu, State.updConn_conn_ne _ _ _ _ hj]
    · have hwas : { u with conns := s.conns } = s := by rw [hu]; rfl
      rw [← hwas, ← hsends.only]
  · rw [exec_openRetry_eq hdecl]
    refine congrArg Host.Outcome.next (if_neg ?_)
    obtain h | h | h := h <;> simp [h]
  · obtain ⟨u, hu⟩ : ∃ u, u = s.updConn k fun c => { c with backoff := min 8 (c.backoff + 1) } := ⟨_, rfl⟩
    have hself : u.conn k = { s.conn k with backoff := min 8 ((s.conn k).backoff + 1) } := by rw [hu, State.updConn_conn_self]
    have hsends := u.sendOpen_sends k
    obtain ⟨hst', -, hback, hnonce⟩ := Conn.unsent_eq hsends.same
    rw [hself] at hst' hback hnonce
    refine ⟨u.sendOpen k, ?_, hback, hnonce, hst'.trans hst, fun j hj => ?_, ?_⟩
    · rw [exec_openRetry_eq hdecl, if_pos (by simp [hst, hlist, hstag]), hu]
    · rw [hsends.other j hj, hu, State.updConn_conn_ne _ _ _ _ hj]
    · have hwas : { u with conns := s.conns } = s := by rw [hu]; rfl
      rw [← hwas, ← hsends.only]
  · rw [exec_staleReopen_eq hdecl]
    refine congrArg Host.Outcome.next (if_neg ?_)
    obtain h | h | h := h <;> simp [h]
  · obtain ⟨hst', hback', hnew, -, -⟩ := State.enterOpening_conn hdecl hcmac (some 0)
    have hother := fun j hj => State.enterOpening_conn_ne (j := j) hdecl hcmac (some 0) hj
    have honly := State.enterOpening_only hdecl hcmac (some 0) (by rw [hst]; decide)
    have hsends := State.firstOpen_sends (s.enterOpening k none (some 0)) k
    obtain ⟨hst'', -, hback, hnonce⟩ := Conn.unsent_eq hsends.same
    refine ⟨_, (exec_staleReopen_eq hdecl).trans (congrArg Host.Outcome.next (if_pos (by simp [hst, hlist, hport]))), hst''.trans hst',
      hback.trans hback', ?_, fun j hj => (hsends.other j hj).trans (hother j hj), ?_, ?_⟩
    · rw [hnonce]
      exact hnew
    · exact (congrArg State.fl hsends.only).symm.trans (congrArg State.fl honly).symm
    · exact (congrArg State.zones hsends.only).symm.trans (congrArg State.zones honly).symm

end Sys2Proof.Machine
end


section
/-!
# Received frames of a connection, and the ends of a session (R281 to R293)
-/
namespace Sys2Proof.Machine
open Sys2Proof

/-! ### A connection that leaves its session -/

/-- Points a mark sets, connections, events: what leaving a session changes beside the points of both lanes. -/
abbrev leftPart (s t : State) : State := { s with
  conns := t.conns, trans := t.trans, evRings := t.evRings, evqA := t.evqA, evqB := t.evqB, hi := t.hi, fl := t.fl, freeCtr := t.freeCtr }

theorem leftPart_ptOf {s t : State} (h : Only leftPart s t) (l : Lane) (a : Nat) : t.ptOf l a = s.ptOf l a := by
  refine State.ptOf_congr (fun b => ?_) ?_ a
  · rw [← h]
    rfl
  · cases l
    · exact (congrArg State.ptsA h).symm
    · exact (congrArg State.ptsB h).symm

/-- The consumed points of a declaration are invalid in both lanes. -/
def State.ptsGone (s : State) (d : ConnDecl) : Prop :=
  ∀ i, i < d.rxPoints → s.ptOf .a (d.rxBase + i) = 0#2 ∧ s.ptOf .b (d.rxBase + i) = 0#2

theorem leftPart_ptsGone {s t : State} {d : ConnDecl} (h : Only leftPart s t) (hgone : s.ptsGone d) : t.ptsGone d := fun i hi => by
  rw [leftPart_ptOf h, leftPart_ptOf h]
  exact hgone i hi

section
variable (s : State) (k : Nat)

theorem State.dropPts_gone (d : ConnDecl) : (s.dropPts (rxAddrs d)).ptsGone d := fun i hi => by
  have hmem : d.rxBase + i ∈ rxAddrs d := List.mem_map.mpr ⟨i, List.mem_range.mpr hi, rfl⟩
  rw [State.dropPts_ptOf, State.dropPts_ptOf, if_pos hmem]
  exact ⟨rfl, if_pos hmem⟩

theorem State.setConn_gone {d : ConnDecl} {st : ConnSt} (cause : Option Nat) (hdecl : (s.conn k).decl = some d)
    (hrun : (s.conn k).st = .running) (hst : st ≠ .running) : (s.setConn k st cause).ptsGone d := by
  obtain ⟨u, hu⟩ : ∃ u, u = (s.updConn k fun c => c.entered st cause).leaveSession (s.conn k) := ⟨_, rfl⟩
  have hgone : u.ptsGone d := by
    rw [hu, State.leaveSession, hdecl]
    dsimp only
    rw [if_pos hrun]
    exact State.dropPts_gone _ d
  have heq := s.setConn_eq k st cause
  dsimp only at heq
  rw [if_neg (by rw [hrun]; exact Ne.symm hst), ← hu] at heq
  rw [heq]
  refine leftPart_ptsGone ?_ hgone
  refine Only.trans ⟨fun _ => rfl, fun _ _ _ => rfl⟩ ?_ ((State.postEvent_only _ _ _ _).mono fun _ _ => rfl)
  split <;> rfl

/-- What a state entered with a cause shows, and what it leaves. -/
structure State.Leaves (s t : State) (k : Nat) (d : ConnDecl) (st : ConnSt) (cause : Nat) : Prop where
  enters : (t.conn k).st = st
  why : (t.conn k).cause = cause
  ver : st.versioned = false → (t.conn k).ver = 0
  other : ∀ j, j ≠ k → t.conn j = s.conn j
  zones : t.zones = s.zones
  pairs : t.pairs = s.pairs
  gone : (s.conn k).st = .running → t.ptsGone d

variable {s k} {d : ConnDecl}

theorem State.setConn_leaves {st : ConnSt} (cause : Nat) (hdecl : (s.conn k).decl = some d) (hst : st ≠ .running) :
    s.Leaves (s.setConn k st (some cause)) k d st cause := by
  have honly := s.setConn_only k st (some cause)
  have hself := s.setConn_conn_self k st (some cause)
  dsimp only at hself
  refine ⟨s.setConn_st k st _, ?_, fun hver => ?_, fun j hj => s.setConn_conn_ne k st _ hj, (congrArg State.zones honly).symm,
    (congrArg State.pairs honly).symm, fun hrun => s.setConn_gone k _ hdecl hrun hst⟩
  · rw [hself]
    split <;> rfl
  · rw [hself]
    split <;> exact if_neg (by simp [hver])

theorem State.connFault_leaves (code : BitVec 16) (cause : Nat) (hdecl : (s.conn k).decl = some d) (hst : (s.conn k).st ≠ .faulted) :
    s.Leaves (s.connFault k code cause) k d .faulted cause := by
  obtain ⟨u, hu⟩ : ∃ u, u = s.setConn k .faulted (some cause) := ⟨_, rfl⟩
  have hleaves : s.Leaves u k d .faulted cause := hu ▸ State.setConn_leaves cause hdecl (by decide)
  have hrec : Only recPart u (u.raise code (BitVec.ofNat 12 k) true true 0 0 []) := u.record_only _ _ _ _ _ _ _
  have heq : s.connFault k code cause = u.raise code (BitVec.ofNat 12 k) true true 0 0 [] := by
    rw [hu]
    exact if_neg hst
  rw [← heq] at hrec
  have hconn (j : Nat) : (s.connFault k code cause).conn j = u.conn j := congrArg (tabGet Conn.init · j) (congrArg State.conns hrec).symm
  refine ⟨(congrArg Conn.st (hconn k)).trans hleaves.enters, (congrArg Conn.cause (hconn k)).trans hleaves.why,
    fun hver => (congrArg Conn.ver (hconn k)).trans (hleaves.ver hver), fun j hj => (hconn j).trans (hleaves.other j hj),
    (congrArg State.zones hrec).symm.trans hleaves.zones, (congrArg State.pairs hrec).symm.trans hleaves.pairs,
    fun hrun => leftPart_ptsGone (hrec.mono fun _ _ => rfl) (hleaves.gone hrun)⟩

/-- What was done to the connection before it left, but for its state. -/
theorem State.Leaves.after {t u : State} {st : ConnSt} {cause : Nat} (h : t.Leaves u k d st cause) (hst : (t.conn k).st = (s.conn k).st)
    (hother : ∀ j, j ≠ k → t.conn j = s.conn j) (hzones : t.zones = s.zones) (hpairs : t.pairs = s.pairs) : s.Leaves u k d st cause :=
  ⟨h.enters, h.why, h.ver, fun j hj => (h.other j hj).trans (hother j hj), h.zones.trans hzones, h.pairs.trans hpairs,
    fun hrun => h.gone (hst.trans hrun)⟩

theorem State.wdXchk_leaves (hdecl : (s.conn k).decl = some d) (hses : (s.conn k).st.session = true) :
    s.Leaves (s.wdXchk k) k d .faulted caWdXchk := by
  have hsends := s.closeIfOn_sends k rsPeerFault
  obtain ⟨hst, hdecl', -⟩ := Conn.unsent_eq hsends.same
  refine (State.connFault_leaves 0x4004#16 caWdXchk (hdecl'.trans hdecl) (fun h => ?_)).after hst hsends.other
    (congrArg State.zones hsends.only).symm (congrArg State.pairs hsends.only).symm
  rw [hst] at h
  rw [h] at hses
  cases hses
end

/-! ### Watchdogs -/

section
variable {s : State} {k : Fin 2048}

theorem exec_watchdogExpiry_none (e : Nat) (h : (s.conn k).decl = none ∨ (s.conn k).st.session = false) : exec (.watchdogExpiry k e) s = .next s := by
  change execWatchdogExpiry k e s = _
  unfold execWatchdogExpiry
  dsimp only
  cases hdecl : (s.conn k).decl with
  | none => rfl
  | some d => exact if_pos (by simp [h.resolve_left (by simp [hdecl])])

variable {d : ConnDecl} (hdecl : (s.conn k).decl = some d) (hses : (s.conn k).st.session = true)
include hdecl hses

theorem exec_watchdogExpiry_eq (e : Nat) : exec (.watchdogExpiry k e) s = .next (if e * 10000 + 10000000 < d.watchdog * 1000 * 9995 then s.wdXchk k
    else if (s.conn k).st = .running then s.stale k caWd else s.enterOpening k none none) := by
  change execWatchdogExpiry k e s = _
  unfold execWatchdogExpiry
  dsimp only
  rw [hdecl]
  dsimp only
  rw [if_neg (by simp [hses])]
  split
  · rfl
  · split <;> rfl
end

/-! ### DATA frames -/

/-- What the lanes hold of the frames handed to them. -/
abbrev rxPart (s t : State) : State := { s with laneA := t.laneA, laneB := t.laneB }

theorem rxPart_part : Part rxPart := ⟨fun _ => rfl, fun _ _ _ => rfl⟩

theorem State.rxTake_only (s : State) (l : Lane) : Only rxPart s (s.rxTake l) := by
  cases l <;> rfl

section
variable {s u : State} (hu : Only rxPart s u)
include hu

theorem rxPart_conn (k : Nat) : u.conn k = s.conn k := congrArg (tabGet Conn.init · k) (congrArg State.conns hu).symm

theorem rxPart_checkFrame (l : Lane) (d : ConnDecl) (seq : Word) (f : Frame) (ts : Option Word) :
    u.checkFrame l d seq f ts = s.checkFrame l d seq f ts := by
  rw [← hu]
  rfl
end

theorem Conn.setRx_self (c : Conn) (l : Lane) (r : RxLane) : (c.setRx l r).rx l = r := by cases l <;> rfl

theorem Conn.setRx_other (c : Conn) (l : Lane) (r : RxLane) : (c.setRx l r).rx (otherLane l) = c.rx (otherLane l) := by cases l <;> rfl

/-- The TIMESTAMP of a frame is not after the last one accepted. -/
def lateFrame (ts : Option Word) (f : Frame) : Prop := ∃ t0, ts = some t0 ∧ ((f.tstamp - t0).toNat = 0 ∨ 2 ^ 31 ≤ (f.tstamp - t0).toNat)

section
variable (s : State) (l : Lane)

theorem State.checkFrame_passes {d : ConnDecl} {seq : Word} {f : Frame} {ts : Option Word} (hcrc : crcOk l d.connId seq f = true)
    (hcmac : s.cmacOk d seq f = true) (hlate : ¬ lateFrame ts f) : s.checkFrame l d seq f ts = none := by
  unfold State.checkFrame
  rw [if_neg (by simp [hcrc]), if_neg (by simp [hcmac])]
  cases ts with
  | none => rfl
  | some t0 =>
    refine if_pos ?_
    have hin : ¬ ((f.tstamp - t0).toNat = 0 ∨ 2 ^ 31 ≤ (f.tstamp - t0).toNat) := fun h => hlate ⟨t0, rfl, h⟩
    simp only [Bool.and_eq_true, decide_eq_true_eq]
    omega

theorem State.checkFrame_crc {d : ConnDecl} {seq : Word} {f : Frame} (ts : Option Word) (hcrc : crcOk l d.connId seq f = false) :
    s.checkFrame l d seq f ts = some false := if_pos (by simp [hcrc])

/-- The transaction a lane's report opens. -/
def reported (l : Lane) (k : Nat) (seq : Word) (r : RxReport) (now : Word64) : Trans :=
  let a := decide (l = .a)
  { body := .frame k seq r.tstamp (if a then r.lost else 0) (if a then r.pts else []) (if a then [] else r.pts)
    repA := a, repB := !a, okA := a && r.good, okB := !a && r.good, since := now, cmac := r.cmac }

theorem State.report_new {k : Nat} {seq : Word} (r : RxReport) (h : (s.trans.any fun t => t.waits l k seq) = false) :
    s.report l k seq r = { s with trans := s.trans ++ [reported l k seq r s.now] } :=
  if_neg (by simp [h])

/-- The first failure a lane counts of a connection. -/
theorem State.rxFail_first {k : Nat} (h : ((s.conn k).rx l).errAt = []) : s.rxFail l k true false =
    s.updConn k fun c => { c.setRx l { (s.conn k).rx l with errAt := [s.now] } with crcFail := satInc c.crcFail 255 } := by
  unfold State.rxFail
  dsimp only
  rw [h]
  simp only [List.filter_nil, List.nil_append, List.length_singleton]
  cases l <;> exact (if_neg (by simp)).trans rfl
end

section
variable {s : State} {l : Lane} {k : Fin 2048} {f : Frame}

theorem exec_dataFrame_untaken (h : s.rxFront l k f = false ∨ s.rxLost l = true ∨ f.ftype ≠ 1#4) : exec (.dataFrame l k f) s = .next s := by
  refine if_pos ?_
  obtain h | h | h := h <;> simp [h, ftData]

/-- The lane takes the frame, then checks it against the connection. -/
def State.dataTaken (u : State) (l : Lane) (k : Nat) (d : ConnDecl) (f : Frame) : State :=
  let r := (u.conn k).rx l
  let n := seqStep r f
  let seq := r.eSeq + BitVec.ofNat 32 n
  if n = 0 || 128 < n then (if l = .a then u.updConn k fun c => { c with seqDrop := satInc c.seqDrop 255 } else u)
  else
    match u.checkFrame l d seq f r.ts with
    | some cm =>
      let t := u.rxFail l k (!u.otherFailed l k seq cm) cm
      if (t.conn k).st.session then t.report l k seq { good := false, cmac := cm, tstamp := f.tstamp, lost := 0, pts := [] } else t
    | none =>
      (u.updConn k fun c => c.setRx l { r with eSeq := seq, ts := some f.tstamp }).report l k seq
        { good := true, cmac := false, tstamp := f.tstamp, lost := n - 1, pts := match l with
          | .a => unpackPoints f.payload d.rxPoints
          | .b => (unpackPoints f.payload d.rxPoints).map (~~~ ·) }

variable (hfront : s.rxFront l k f = true) (hlost : s.rxLost l = false) (hty : f.ftype = 1#4)
include hfront hlost hty

theorem exec_dataFrame_none (h : (s.conn k).decl = none ∨ (s.conn k).st.session = false) : exec (.dataFrame l k f) s = .next (s.rxTake l) := by
  refine (if_neg (by simp [hfront, hlost, hty, ftData])).trans ?_
  have hconn : (s.rxTake l).conn k = s.conn k := rxPart_conn (s.rxTake_only l) k
  dsimp only
  rw [hconn]
  cases hdecl : (s.conn k).decl with
  | none => rfl
  | some d => exact if_pos (by simp [h.resolve_left (by simp [hdecl])])

theorem exec_dataFrame_eq {d : ConnDecl} (hdecl : (s.conn k).decl = some d) (hses : (s.conn k).st.session = true) :
    exec (.dataFrame l k f) s = .next (if f.handle ≠ d.rxHandle then s.rxTake l else (s.rxTake l).dataTaken l k d f) := by
  refine (if_neg (by simp [hfront, hlost, hty, ftData])).trans ?_
  have hconn : (s.rxTake l).conn k = s.conn k := rxPart_conn (s.rxTake_only l) k
  generalize s.rxTake l = u at hconn
  have hdecl' : (u.conn k).decl = some d := by rw [hconn, hdecl]
  have hses' : (u.conn k).st.session = true := by rw [hconn, hses]
  dsimp only
  rw [hdecl']
  dsimp only
  rw [hses', Bool.not_true, Bool.false_or]
  by_cases hh : f.handle ≠ d.rxHandle
  · rw [if_pos (decide_eq_true hh), if_pos hh]
    rfl
  · rw [if_neg (by simpa using hh), if_neg hh]
    unfold State.dataTaken
    dsimp only
    generalize u.checkFrame l d _ f _ = o
    split
    · rfl
    · cases o <;> rfl
end


/-! What a lane makes of a DATA frame of its session. -/

section
variable {u : State} {l : Lane} {k : Nat} {d : ConnDecl} {f : Frame}

theorem State.dataTaken_dropped (h : seqStep ((u.conn k).rx l) f = 0 ∨ 128 < seqStep ((u.conn k).rx l) f) :
    u.dataTaken l k d f = if l = .a then u.updConn k fun c => { c with seqDrop := satInc c.seqDrop 255 } else u :=
  if_pos (by simpa using h)

variable (hlo : 1 ≤ seqStep ((u.conn k).rx l) f) (hhi : seqStep ((u.conn k).rx l) f ≤ 128)
include hlo hhi

theorem State.dataTaken_accepted
    (hcheck : u.checkFrame l d (((u.conn k).rx l).eSeq + BitVec.ofNat 32 (seqStep ((u.conn k).rx l) f)) f ((u.conn k).rx l).ts = none)
    (hnew : (u.trans.any fun t => t.waits l k (((u.conn k).rx l).eSeq + BitVec.ofNat 32 (seqStep ((u.conn k).rx l) f))) = false) :
    let r := (u.conn k).rx l
    let n := seqStep r f
    let seq := r.eSeq + BitVec.ofNat 32 n
    let pts := unpackPoints f.payload d.rxPoints
    ∃ x : Trans, u.dataTaken l k d f = { u.updConn k fun c => c.setRx l { r with eSeq := seq, ts := some f.tstamp } with trans := u.trans ++ [x] } ∧
      x.body = .frame k seq f.tstamp (if l = .a then n - 1 else 0) (if l = .a then pts else []) (if l = .a then [] else pts.map (~~~ ·)) ∧
      (x.okA = true ↔ l = .a) ∧ (x.okB = true ↔ l = .b) := by
  intro r n seq pts
  have htaken : u.dataTaken l k d f = (u.updConn k fun c => c.setRx l { r with eSeq := seq, ts := some f.tstamp }).report l k seq
      { good := true, cmac := false, tstamp := f.tstamp, lost := n - 1, pts := match l with
        | .a => pts
        | .b => pts.map (~~~ ·) } := by
    refine (if_neg ?_).trans ?_
    · simp only [Bool.or_eq_true, decide_eq_true_eq]
      omega
    · rw [hcheck]
      cases l <;> rfl
  rw [htaken, State.report_new _ _ _ (by exact hnew)]
  refine ⟨_, rfl, ?_⟩
  cases l <;> simp [reported]

theorem State.dataTaken_failed {cm : Bool}
    (hcheck : u.checkFrame l d (((u.conn k).rx l).eSeq + BitVec.ofNat 32 (seqStep ((u.conn k).rx l) f)) f ((u.conn k).rx l).ts = some cm)
    (hcm : cm = false) (herr : ((u.conn k).rx l).errAt = []) (htrans : u.trans = []) (hses : (u.conn k).st.session = true) :
    ∃ x : Trans, u.dataTaken l k d f = { u.updConn k fun c => { c.setRx l { (u.conn k).rx l with errAt := [u.now] } with
        crcFail := satInc c.crcFail 255 } with trans := [x] } ∧ x.okA = false ∧ x.okB = false := by
  subst hcm
  obtain ⟨t, ht⟩ : ∃ t, t = u.updConn k fun c => { c.setRx l { (u.conn k).rx l with errAt := [u.now] } with crcFail := satInc c.crcFail 255 } :=
    ⟨_, rfl⟩
  have hself : (t.conn k).st = (u.conn k).st := by
    rw [ht, State.updConn_conn_self]
    cases l <;> rfl
  have hother (seq : Word) : u.otherFailed l k seq false = false := by rw [State.otherFailed, htrans]; rfl
  have htt : t.trans = [] := by rw [ht]; exact htrans
  refine ⟨reported l k (((u.conn k).rx l).eSeq + BitVec.ofNat 32 (seqStep ((u.conn k).rx l) f))
    { good := false, cmac := false, tstamp := f.tstamp, lost := 0, pts := [] } t.now, ?_, by simp [reported], by simp [reported]⟩
  refine (if_neg ?_).trans ?_
  · simp only [Bool.or_eq_true, decide_eq_true_eq]
    omega
  · rw [hcheck]
    dsimp only
    rw [hother, Bool.not_false, State.rxFail_first _ _ herr, ← ht, hself, if_pos hses, State.report_new _ _ _ (by rw [htt]; rfl), htt]
    rfl
end

/-! ### Opening frames -/

/-- Both lanes have taken the frame in front of them. -/
def State.bothTaken (s : State) : State := (s.rxTake .a).rxTake .b

theorem State.bothTaken_only (s : State) : Only rxPart s s.bothTaken := Only.trans rxPart_part (s.rxTake_only .a) (State.rxTake_only _ .b)

section
variable {s : State} {k : Fin 2048} {f : Frame} {ft : BitVec 4} {takes : ConnDecl → Bool}

theorem State.takeOpening_of_type (h : f.ftype ≠ ft) : s.takeOpening k f ft takes = (false, s) := if_pos h

theorem State.takeOpening_of_not_front (h : ¬ (s.rxFront .a k f = true ∧ s.rxFront .b k f = true)) :
    s.takeOpening k f ft takes = (false, s) := by
  have hboth : s.rxBoth k f = none := if_neg (by simpa using h)
  unfold State.takeOpening
  split
  · rfl
  · rw [hboth]

variable {d : ConnDecl} (hfront : s.rxFront .a k f = true ∧ s.rxFront .b k f = true) (hdecl : (s.conn k).decl = some d) (hty : f.ftype = ft)
include hfront hdecl hty

theorem State.takeOpening_eq : s.takeOpening k f ft takes = if !takes d || decide (f.handle ≠ d.rxHandle) then (false, s.bothTaken)
    else s.bothTaken.checkOpening k d f (!s.rxLost .a) (!s.rxLost .b) := by
  have hboth : s.rxBoth k f = some (!s.rxLost .a, !s.rxLost .b, s.bothTaken) := if_pos (by simp [hfront])
  have hconn : (s.bothTaken.conn k).decl = some d := by rw [rxPart_conn s.bothTaken_only, hdecl]
  unfold State.takeOpening
  rw [if_neg (not_not_intro hty), hboth]
  dsimp only
  rw [hconn]

theorem State.takeOpening_refused (h : takes d = false ∨ f.handle ≠ d.rxHandle) : s.takeOpening k f ft takes = (false, s.bothTaken) := by
  rw [State.takeOpening_eq hfront hdecl hty]
  refine if_pos ?_
  obtain h | h := h <;> simp [h]

theorem State.takeOpening_passed (htakes : takes d = true) (hh : f.handle = d.rxHandle) (ha : s.rxLost .a = false) (hb : s.rxLost .b = false)
    (hca : s.checkFrame .a d 0#32 f none = none) (hcb : s.checkFrame .b d 0#32 f none = none) :
    s.takeOpening k f ft takes = (true, s.bothTaken) := by
  rw [State.takeOpening_eq hfront hdecl hty, if_neg (by simp [htakes, hh]), ha, hb]
  rw [← rxPart_checkFrame s.bothTaken_only] at hca hcb
  unfold State.checkOpening
  dsimp only
  rw [Bool.not_false, if_pos rfl, if_pos rfl, hca, hcb]
  rfl
end

/-! What an accepted opening frame does. -/

section
variable {s : State} {k : Nat} {d : ConnDecl}

theorem State.sendFrame_conn (ft : BitVec 4) (ver : Nat) (seq : Word) (payload : List Byte) :
    ∃ bs, (s.sendFrame k ft ver seq payload).conn k = { s.conn k with txBuilt := bs } := by
  obtain h | ⟨b, h⟩ := s.sendFrame_cases k ft ver seq payload
  · rw [h]
    exact ⟨_, rfl⟩
  · rw [h, State.updConn_conn_self]
    exact ⟨_, rfl⟩

/-- While the ports send, a frame of a declared connection joins the frames it has built. -/
theorem State.sendFrame_built (ft : BitVec 4) (ver : Nat) (seq : Word) (payload : List Byte) (hdecl : (s.conn k).decl = some d)
    (hidle : s.txIdle = false) : ∃ b, s.sendFrame k ft ver seq payload = s.updConn k fun c => { c with txBuilt := c.txBuilt ++ [b] } := by
  unfold State.sendFrame
  rw [hdecl, hidle]
  exact ⟨_, rfl⟩

/-- A connection as it enters the negotiated session. -/
structure Conn.Negotiated (c c' : Conn) (ver : Nat) (peer : Word) : Prop where
  entersSession : c'.st = .negotiating
  hasVer : c'.ver = ver
  hasPeer : c'.peerNonce = some peer
  hasSeq : c'.txSeq = peer
  keepsNonce : c'.nonce = c.nonce
  expectsA : c'.rxA.eSeq = c.nonce - 1#32
  expectsB : c'.rxB.eSeq = c.nonce - 1#32
  awake : c'.wakeOpen = false
  keepsRtt : c'.rtt = c.rtt

theorem State.setConn_kept_fields (st : ConnSt) (cause : Option Nat) : let c := (s.setConn k st cause).conn k
    c.nonce = (s.conn k).nonce ∧ c.wakeOpen = false ∧ c.rtt = (s.conn k).rtt := by
  rw [State.setConn_conn_self]
  dsimp only
  split <;> exact ⟨rfl, rfl, rfl⟩

theorem State.negotiate_spec (ver : Nat) (peer : Word) (cause : Option Nat) (hst : (s.conn k).st ≠ .running) :
    let t := s.negotiate k ver peer cause
    (s.conn k).Negotiated (t.conn k) ver peer ∧ (∀ j, j ≠ k → t.conn j = s.conn j) ∧ Only openPart s t := by
  obtain ⟨u, hu⟩ : ∃ u, u = s.setConn k .negotiating cause := ⟨_, rfl⟩
  obtain ⟨hnonce, hwake, hrtt⟩ := State.setConn_kept_fields (s := s) (k := k) .negotiating cause
  have hset := s.setConn_st k .negotiating cause
  have hother := fun j hj => s.setConn_conn_ne k .negotiating cause (j := j) hj
  have honly := s.setConn_open_only k .negotiating cause hst
  rw [← hu] at hnonce hwake hrtt hset honly
  rw [← hu] at hother
  intro t
  obtain ⟨c', hc', ht⟩ : ∃ c' : Conn, c' = { (u.conn k).endTx with
      ver := ver, peerNonce := some peer, txSeq := peer,
      rxA := { (u.conn k).rxA with eSeq := (u.conn k).nonce - 1#32, ts := none, named := none, e := 0 },
      rxB := { (u.conn k).rxB with eSeq := (u.conn k).nonce - 1#32, ts := none, named := none, e := 0 } } ∧ t.conn k = c' := by
    refine ⟨_, rfl, ?_⟩
    rw [hu]
    exact State.updConn_conn_self _ k _
  refine ⟨?_, fun j hj => ?_, ?_⟩
  · rw [ht, hc']
    exact ⟨hset, rfl, rfl, rfl, hnonce, congrArg (· - 1#32) hnonce, congrArg (· - 1#32) hnonce, hwake, hrtt⟩
  · refine (State.updConn_conn_ne _ k _ j hj).trans ?_
    rw [← hu]
    exact hother j hj
  · refine Only.trans openPart_part honly ?_
    rw [hu]
    rfl
/-- A listener agrees: it enters the session and answers. -/
def State.agreed (s : State) (k : Nat) (d : ConnDecl) (ver : Nat) (peer : Word) (cause : Option Nat) : State :=
  let t := (s.negotiate k ver peer cause).updConn k fun c => { c with usedNonce := c.nonce }
  t.sendFrame k ftOpenAck 0 0#32 (payAck ver d (t.conn k).nonce peer)

theorem State.agreed_spec (ver : Nat) (peer : Word) (cause : Option Nat) (hst : (s.conn k).st ≠ .running) :
    let t := s.agreed k d ver peer cause
    (s.conn k).Negotiated (t.conn k) ver peer ∧ (t.conn k).usedNonce = (s.conn k).nonce ∧ (∀ j, j ≠ k → t.conn j = s.conn j) ∧
    Only openPart s t := by
  obtain ⟨hneg, hother, honly⟩ := State.negotiate_spec (s := s) (k := k) ver peer cause hst
  obtain ⟨u, hu⟩ : ∃ u, u = (s.negotiate k ver peer cause).updConn k fun c => { c with usedNonce := c.nonce } := ⟨_, rfl⟩
  have hself : u.conn k = { (s.negotiate k ver peer cause).conn k with usedNonce := ((s.negotiate k ver peer cause).conn k).nonce } := by
    rw [hu, State.updConn_conn_self]
  have huother (j : Nat) (hj : j ≠ k) : u.conn j = s.conn j := by
    rw [hu, State.updConn_conn_ne _ _ _ _ hj]
    exact hother j hj
  have huonly : Only openPart s u := by
    rw [hu]
    exact Only.trans openPart_part honly rfl
  intro t
  have ht : t = u.sendFrame k ftOpenAck 0 0#32 (payAck ver d (u.conn k).nonce peer) := by rw [hu]; rfl
  have hsends := u.sendFrame_sends k ftOpenAck 0 0#32 (payAck ver d (u.conn k).nonce peer)
  obtain ⟨bs, hbs⟩ := State.sendFrame_conn (s := u) (k := k) ftOpenAck 0 0#32 (payAck ver d (u.conn k).nonce peer)
  rw [← ht] at hsends hbs
  rw [hself] at hbs
  refine ⟨?_, ?_, fun j hj => (hsends.other j hj).trans (huother j hj), Only.trans openPart_part huonly (hsends.only.mono fun _ _ => rfl)⟩
  · rw [hbs]
    exact ⟨hneg.entersSession, hneg.hasVer, hneg.hasPeer, hneg.hasSeq, hneg.keepsNonce, hneg.expectsA, hneg.expectsB, hneg.awake, hneg.keepsRtt⟩
  · rw [hbs]
    exact hneg.keepsNonce

variable {p : List Byte}

theorem State.listen_opening (hst : (s.conn k).st = .opening) (hagree : agrees d p = true) (hver : topVersion (s.offer d &&& fieldBE p 0 1) ≠ 0) :
    s.listen k d p = s.agreed k d (topVersion (s.offer d &&& fieldBE p 0 1)) (word (fieldBE p 8 4)) none := by
  unfold State.listen
  dsimp only
  rw [hst]
  dsimp only
  rw [if_neg hver, if_neg (by simp [hagree])]
  rfl

theorem State.listen_woken (hst : (s.conn k).st = .closed) (hwake : (s.conn k).wakeOpen = true) (hagree : agrees d p = true)
    (hver : topVersion (s.offer d &&& fieldBE p 0 1) ≠ 0) (hopen : ((s.enterOpening k none (some 0)).conn k).st = .opening) :
    s.listen k d p = (s.enterOpening k none (some 0)).agreed k d (topVersion (s.offer d &&& fieldBE p 0 1)) (word (fieldBE p 8 4)) none := by
  unfold State.listen
  dsimp only
  rw [hst]
  dsimp only
  rw [if_pos hwake, if_neg hver, if_neg (by simp [hagree])]
  exact if_pos hopen

theorem State.listen_closed (hst : (s.conn k).st = .closed) (hwake : (s.conn k).wakeOpen = false) :
    s.listen k d p = s.sendFrame k ftOpenRefuse 0 0#32 (payRefuse rsNotReady (s.offer d) (word (fieldBE p 8 4))) := by
  unfold State.listen
  dsimp only
  rw [hst]
  dsimp only
  rw [if_neg (by simp [hwake])]

end

/-! ### The opening frames as commands -/

section
variable {s u : State} {k : Fin 2048} {f : Frame} {d : ConnDecl}

theorem exec_openFrame_untaken (h : s.takeOpening k f ftOpen (fun d => d.listener) = (false, u)) : exec (.openFrame k f) s = .next u := by
  change execOpenFrame k f s = _
  unfold execOpenFrame
  rw [h]
  cases (s.conn k).decl <;> rfl

theorem exec_openFrame_taken (h : s.takeOpening k f ftOpen (fun d => d.listener) = (true, u)) (hdecl : (s.conn k).decl = some d) :
    exec (.openFrame k f) s = .next (if s.txIdle then u else u.listen k d f.payload) := by
  change execOpenFrame k f s = _
  unfold execOpenFrame
  rw [h, hdecl]
  cases s.txIdle <;> rfl

theorem exec_openAck_untaken (rtt : Nat) (h : s.takeOpening k f ftOpenAck (s.awaits k) = (false, u)) :
    exec (.openAck k f rtt) s = .next u := by
  change execOpenAck k f rtt s = _
  unfold execOpenAck
  rw [h]
  cases (s.conn k).decl <;> rfl

theorem exec_openRefuse_untaken (h : s.takeOpening k f ftOpenRefuse (s.awaits k) = (false, u)) :
    exec (.openRefuse k f) s = .next u := by
  change execOpenRefuse k f s = _
  unfold execOpenRefuse
  rw [h]
  rfl

theorem exec_openAck_foreign (rtt : Nat) (h : s.takeOpening k f ftOpenAck (s.awaits k) = (true, u)) (hdecl : (s.conn k).decl = some d)
    (hnonce : fieldBE f.payload 20 4 ≠ (u.conn k).nonce.toNat) : exec (.openAck k f rtt) s = .next u := by
  change execOpenAck k f rtt s = _
  unfold execOpenAck
  rw [h, hdecl]
  dsimp only
  rw [if_pos (by simp [hnonce])]
  rfl

/-- An opener has measured its round trip. -/
def State.roundTrip (u : State) (k rtt : Nat) : State := u.updConn k fun c => { c with rtt := min 65535 rtt }

theorem exec_openAck_taken (rtt : Nat) (h : s.takeOpening k f ftOpenAck (s.awaits k) = (true, u)) (hdecl : (s.conn k).decl = some d)
    (hnonce : fieldBE f.payload 20 4 = (u.conn k).nonce.toNat) (hst : (u.conn k).st = .opening) (hlo : 1 ≤ fieldBE f.payload 0 1)
    (hhi : fieldBE f.payload 0 1 ≤ 3) (hoffer : u.offer d / 2 ^ fieldBE f.payload 0 1 % 2 = 1) (hagree : agrees d f.payload = true) :
    exec (.openAck k f rtt) s = .next (if d.watchdog - d.tCyc < rtt then u.roundTrip k rtt
      else (u.roundTrip k rtt).negotiate k (fieldBE f.payload 0 1) (word (fieldBE f.payload 8 4)) none) := by
  change execOpenAck k f rtt s = _
  unfold execOpenAck
  rw [h, hdecl]
  dsimp only
  rw [if_neg (by simp [hnonce, hst]), if_neg (by simp [hlo, hhi, hoffer, hagree])]
  rfl

theorem exec_openRefuse_taken (h : s.takeOpening k f ftOpenRefuse (s.awaits k) = (true, u)) (hnonce : fieldBE f.payload 4 4 = (u.conn k).nonce.toNat)
    (hst : (u.conn k).st = .opening) : exec (.openRefuse k f) s = .next (if fieldBE f.payload 0 1 = rsNoVersion then u.connFault k 0x4002#16 caNoVersion
      else if fieldBE f.payload 0 1 = rsMismatch then u.connFault k 0x4003#16 caMismatch else u) := by
  change execOpenRefuse k f s = _
  unfold execOpenRefuse
  rw [h]
  dsimp only
  rw [if_neg (by simp [hnonce, hst])]
  split
  · rfl
  · split <;> rfl

theorem State.roundTrip_negotiates (rtt ver : Nat) (peer : Word) (hst : (u.conn k).st = .opening) :
    let t := (u.roundTrip k rtt).negotiate k ver peer none
    (t.conn k).st = .negotiating ∧ (t.conn k).ver = ver ∧ (t.conn k).txSeq = peer ∧ (t.conn k).rxA.eSeq = (u.conn k).nonce - 1#32 ∧
    (t.conn k).rtt = min 65535 rtt ∧ (∀ j : Nat, j ≠ k → t.conn j = u.conn j) ∧ t.fl = u.fl := by
  have hself : (u.roundTrip k rtt).conn k = { u.conn k with rtt := min 65535 rtt } := State.updConn_conn_self _ _ _
  obtain ⟨hneg, hother, honly⟩ := State.negotiate_spec (s := u.roundTrip k rtt) (k := k) ver peer none (by rw [hself]; simp [hst])
  rw [hself] at hneg
  refine ⟨hneg.entersSession, hneg.hasVer, hneg.hasSeq, hneg.expectsA, hneg.keepsRtt, fun j hj => (hother j hj).trans ?_, (congrArg State.fl honly).symm⟩
  exact State.updConn_conn_ne _ _ _ _ hj
end

section
variable {s : State} {k : Fin 2048} {f : Frame} {d : ConnDecl}
  (hfront : s.rxFront .a k f = true ∧ s.rxFront .b k f = true) (hdecl : (s.conn k).decl = some d) (hh : f.handle = d.rxHandle)
  (ha : s.rxLost .a = false) (hb : s.rxLost .b = false)
  (hca : s.checkFrame .a d 0#32 f none = none) (hcb : s.checkFrame .b d 0#32 f none = none)
include hfront hdecl hh ha hb hca hcb

theorem exec_openFrame_accepted (hrole : d.listener = true) (hty : f.ftype = ftOpen) :
    exec (.openFrame k f) s = .next (if s.txIdle then s.bothTaken else s.bothTaken.listen k d f.payload) :=
  exec_openFrame_taken (State.takeOpening_passed hfront hdecl hty hrole hh ha hb hca hcb) hdecl

theorem exec_openFrame_opening (hrole : d.listener = true) (hty : f.ftype = ftOpen) (hidle : s.txIdle = false)
    (hst : (s.conn k).st = .opening) (hagree : agrees d f.payload = true) (hver : topVersion (s.offer d &&& fieldBE f.payload 0 1) ≠ 0) :
    ∃ t, exec (.openFrame k f) s = .next t ∧
      (s.conn k).Negotiated (t.conn k) (topVersion (s.offer d &&& fieldBE f.payload 0 1)) (word (fieldBE f.payload 8 4)) ∧
      (t.conn k).usedNonce = (s.conn k).nonce ∧ (∀ j : Nat, j ≠ k → t.conn j = s.conn j) ∧ Only openPart s.bothTaken t := by
  have hconn := rxPart_conn s.bothTaken_only
  have hoffer : s.bothTaken.offer d = s.offer d := by rw [← s.bothTaken_only]; rfl
  rw [exec_openFrame_accepted hfront hdecl hh ha hb hca hcb hrole hty, hidle, if_neg (by decide),
    State.listen_opening (by rw [hconn, hst]) hagree (by rwa [hoffer]), hoffer]
  obtain ⟨hneg, hused, hother, honly⟩ := State.agreed_spec (s := s.bothTaken) (k := k) (d := d)
    (topVersion (s.offer d &&& fieldBE f.payload 0 1)) (word (fieldBE f.payload 8 4)) none (by rw [hconn, hst]; decide)
  rw [hconn] at hneg hused
  exact ⟨_, rfl, hneg, hused, fun j hj => (hother j hj).trans (hconn j), honly⟩

theorem exec_openFrame_woken (hrole : d.listener = true) (hty : f.ftype = ftOpen) (hidle : s.txIdle = false)
    (hst : (s.conn k).st = .closed) (hwake : (s.conn k).wakeOpen = true) (hagree : agrees d f.payload = true)
    (hver : topVersion (s.offer d &&& fieldBE f.payload 0 1) ≠ 0) (hcmac : d.cmac = false) :
    ∃ t, exec (.openFrame k f) s = .next t ∧ (t.conn k).st = .negotiating ∧
      (t.conn k).ver = topVersion (s.offer d &&& fieldBE f.payload 0 1) ∧ (t.conn k).nonce ≠ (s.conn k).nonce ∧
      (t.conn k).nonce ≠ (s.conn k).usedNonce ∧ (t.conn k).wakeOpen = false := by
  have hconn := rxPart_conn s.bothTaken_only
  have hoffer : s.bothTaken.offer d = s.offer d := by rw [← s.bothTaken_only]; rfl
  obtain ⟨hopen, -, hnew, hunused, -⟩ := State.enterOpening_conn (s := s.bothTaken) (k := k) (d := d) (by rw [hconn, hdecl]) hcmac (some 0)
  rw [exec_openFrame_accepted hfront hdecl hh ha hb hca hcb hrole hty, hidle, if_neg (by decide),
    State.listen_woken (by rw [hconn, hst]) (by rw [hconn, hwake]) hagree (by rwa [hoffer]) hopen, hoffer]
  obtain ⟨hneg, -, -, -⟩ := State.agreed_spec (s := s.bothTaken.enterOpening k none (some 0)) (k := k) (d := d)
    (topVersion (s.offer d &&& fieldBE f.payload 0 1)) (word (fieldBE f.payload 8 4)) none (by rw [hopen]; decide)
  rw [hconn] at hnew hunused
  exact ⟨_, rfl, hneg.entersSession, hneg.hasVer, fun h => hnew (hneg.keepsNonce.symm.trans h), fun h => hunused (hneg.keepsNonce.symm.trans h), hneg.awake⟩

theorem exec_openFrame_closed (hrole : d.listener = true) (hty : f.ftype = ftOpen) (hidle : s.txIdle = false)
    (hst : (s.conn k).st = .closed) (hwake : (s.conn k).wakeOpen = false) :
    ∃ t, exec (.openFrame k f) s = .next t ∧ (t.conn k).st = .closed ∧
      (t.conn k).txBuilt.length = (s.conn k).txBuilt.length + 1 ∧ { t with conns := s.conns } = s.bothTaken := by
  have hconn := rxPart_conn s.bothTaken_only
  have hidle' : s.bothTaken.txIdle = false := by rw [← hidle, ← s.bothTaken_only]; rfl
  rw [exec_openFrame_accepted hfront hdecl hh ha hb hca hcb hrole hty, hidle, if_neg (by decide),
    State.listen_closed (by rw [hconn, hst]) (by rw [hconn, hwake])]
  obtain ⟨b, hsent⟩ := State.sendFrame_built (s := s.bothTaken) (k := k) (d := d) ftOpenRefuse 0 0#32
    (payRefuse rsNotReady (s.bothTaken.offer d) (word (fieldBE f.payload 8 4))) (by rw [hconn, hdecl]) hidle'
  rw [hsent]
  refine ⟨_, rfl, ?_, ?_, rfl⟩
  · rw [State.updConn_conn_self, hconn]
    exact hst
  · rw [State.updConn_conn_self, hconn]
    exact List.length_append

theorem exec_openAck_accepted (rtt : Nat) (hrole : d.listener = false) (hst : (s.conn k).st = .opening) (hty : f.ftype = ftOpenAck) :
    (fieldBE f.payload 20 4 ≠ (s.conn k).nonce.toNat → exec (.openAck k f rtt) s = .next s.bothTaken) ∧
    (fieldBE f.payload 20 4 = (s.conn k).nonce.toNat → 1 ≤ fieldBE f.payload 0 1 → fieldBE f.payload 0 1 ≤ 3 →
      s.offer d / 2 ^ fieldBE f.payload 0 1 % 2 = 1 → agrees d f.payload = true → ∃ t, exec (.openAck k f rtt) s = .next t ∧
      (t.conn k).rtt = min 65535 rtt ∧ (rtt ≤ d.watchdog - d.tCyc → (t.conn k).st = .negotiating ∧
        (t.conn k).ver = fieldBE f.payload 0 1 ∧ (t.conn k).txSeq = BitVec.ofNat 32 (fieldBE f.payload 8 4) ∧
        (t.conn k).rxA.eSeq = (s.conn k).nonce - 1#32) ∧
      (d.watchdog - d.tCyc < rtt → (t.conn k).st = .opening) ∧ (∀ j : Nat, j ≠ k → t.conn j = s.conn j) ∧ t.fl = s.fl) := by
  have hconn := rxPart_conn s.bothTaken_only
  have hoffer : s.bothTaken.offer d = s.offer d := by rw [← s.bothTaken_only]; rfl
  have hfl : s.bothTaken.fl = s.fl := (congrArg State.fl s.bothTaken_only).symm
  have hpass := State.takeOpening_passed (takes := s.awaits k) hfront hdecl hty (by simp [State.awaits, hrole, hst]) hh ha hb hca hcb
  refine ⟨fun hnonce => exec_openAck_foreign rtt hpass hdecl (by rwa [hconn]), fun hnonce hlo hhi hver hagree => ?_⟩
  rw [exec_openAck_taken rtt hpass hdecl (by rwa [hconn]) (by rwa [hconn]) hlo hhi (by rwa [hoffer]) hagree]
  split
  next hslow =>
    have hself : (s.bothTaken.roundTrip k rtt).conn k = { s.bothTaken.conn k with rtt := min 65535 rtt } := State.updConn_conn_self _ _ _
    rw [hconn] at hself
    exact ⟨_, rfl, congrArg Conn.rtt hself, fun h => absurd hslow (Nat.not_lt.mpr h), fun _ => (congrArg Conn.st hself).trans hst,
      fun j hj => (State.updConn_conn_ne _ _ _ _ hj).trans (hconn j), hfl⟩
  next hquick =>
    obtain ⟨hneg, hver', hseq, he, hrtt, hother, hfl'⟩ := State.roundTrip_negotiates (u := s.bothTaken) (k := k) rtt
      (fieldBE f.payload 0 1) (word (fieldBE f.payload 8 4)) (by rw [hconn, hst])
    rw [hconn] at he
    exact ⟨_, rfl, hrtt, fun _ => ⟨hneg, hver', hseq, he⟩, fun h => absurd h hquick, fun j hj => (hother j hj).trans (hconn j), hfl'.trans hfl⟩

theorem exec_openRefuse_accepted (hrole : d.listener = false) (hst : (s.conn k).st = .opening) (hty : f.ftype = ftOpenRefuse)
    (hnonce : fieldBE f.payload 4 4 = (s.conn k).nonce.toNat) :
    (fieldBE f.payload 0 1 = 1 → ∃ t, exec (.openRefuse k f) s = .next t ∧ (t.conn k).st = .faulted ∧ (t.conn k).cause = 0x9 ∧ (t.conn k).ver = 0) ∧
    (fieldBE f.payload 0 1 = 2 → ∃ t, exec (.openRefuse k f) s = .next t ∧ (t.conn k).st = .faulted ∧ (t.conn k).cause = 0xA) ∧
    (fieldBE f.payload 0 1 ≠ 1 → fieldBE f.payload 0 1 ≠ 2 → exec (.openRefuse k f) s = .next s.bothTaken) := by
  have hconn := rxPart_conn s.bothTaken_only
  have hpass := State.takeOpening_passed (takes := s.awaits k) hfront hdecl hty (by simp [State.awaits, hrole, hst]) hh ha hb hca hcb
  have hleaves (code : BitVec 16) (cause : Nat) := State.connFault_leaves (s := s.bothTaken) (k := k) code cause (by rw [hconn, hdecl])
    (by rw [hconn, hst]; decide)
  rw [exec_openRefuse_taken hpass (by rwa [hconn]) (by rwa [hconn])]
  refine ⟨fun h => ?_, fun h => ?_, fun h1 h2 => ?_⟩
  · obtain ⟨hf, hc, hv, -⟩ := hleaves 0x4002#16 caNoVersion
    exact ⟨_, congrArg Host.Outcome.next (if_pos h), hf, hc, hv rfl⟩
  · obtain ⟨hf, hc, -⟩ := hleaves 0x4003#16 caMismatch
    exact ⟨_, congrArg Host.Outcome.next ((if_neg (by rw [h]; decide)).trans (if_pos h)), hf, hc⟩
  · exact congrArg Host.Outcome.next ((if_neg h1).trans (if_neg h2))
end

/-! ### The ends of a session -/

section
variable {s : State} {k : Fin 2048} {f : Frame} {d : ConnDecl}

theorem exec_close_untaken (h : s.rxFront .a k f = false ∨ s.rxFront .b k f = false ∨ f.ftype ≠ ftClose) : exec (.close k f) s = .next s := by
  change execClose k f s = _
  unfold execClose
  split
  · rfl
  next hty =>
    have hboth : s.rxBoth k f = none := by
      refine if_neg ?_
      obtain h | h | h := h
      · simp [h]
      · simp [h]
      · exact absurd h hty
    rw [hboth]
    rfl

variable (hfront : s.rxFront .a k f = true ∧ s.rxFront .b k f = true) (hty : f.ftype = ftClose)
include hfront hty

theorem exec_close_idle (h : (s.conn k).decl = none ∨ (s.conn k).st.session = false ∨ ∃ d, (s.conn k).decl = some d ∧ f.handle ≠ d.rxHandle) :
    exec (.close k f) s = .next s.bothTaken := by
  have hboth : s.rxBoth k f = some (!s.rxLost .a, !s.rxLost .b, s.bothTaken) := if_pos (by simp [hfront])
  change execClose k f s = _
  unfold execClose
  rw [if_neg (not_not_intro hty), hboth]
  dsimp only
  rw [rxPart_conn s.bothTaken_only]
  cases hdecl : (s.conn k).decl with
  | none => rfl
  | some d =>
    refine if_pos ?_
    obtain h | h | ⟨d', h, hh⟩ := h
    · rw [h] at hdecl
      cases hdecl
    · simp [h]
    · rw [h] at hdecl
      cases hdecl
      simp [hh]

/-- The state a CLOSE that both lanes accept acts on. -/
def State.closing (s : State) (k : Nat) (f : Frame) : State := s.bothTaken.updConn k fun c => c.accept f

theorem exec_close_accepted (hdecl : (s.conn k).decl = some d) (hses : (s.conn k).st.session = true) (hh : f.handle = d.rxHandle)
    (ha : s.rxLost .a = false) (hb : s.rxLost .b = false)
    (hca : s.closeCheck .a k d f true = (true, none)) (hcb : s.closeCheck .b k d f true = (true, none)) :
    exec (.close k f) s = .next (if fieldBE f.payload 0 1 = rsNoVersion then (s.closing k f).connFault k 0x4002#16 caNoVersion
      else if fieldBE f.payload 0 1 = rsMismatch then (s.closing k f).connFault k 0x4003#16 caMismatch
      else (s.closing k f).stale k caPartnerClose) := by
  have hboth : s.rxBoth k f = some (!s.rxLost .a, !s.rxLost .b, s.bothTaken) := if_pos (by simp [hfront])
  have hcheck (l : Lane) : s.bothTaken.closeCheck l k d f true = s.closeCheck l k d f true := by
    unfold State.closeCheck
    rw [rxPart_conn s.bothTaken_only]
    simp only [rxPart_checkFrame s.bothTaken_only]
  change execClose k f s = _
  unfold execClose
  rw [if_neg (not_not_intro hty), hboth, ha, hb, Bool.not_false]
  dsimp only
  rw [rxPart_conn s.bothTaken_only, hdecl]
  dsimp only
  rw [if_neg (by simp [hses, hh]), hcheck, hcheck, hca, hcb]
  dsimp only [State.rxFails, Option.isNone]
  have hses' : (s.bothTaken.conn k).st.session = true := (congrArg (fun c => c.st.session) (rxPart_conn s.bothTaken_only k)).trans hses
  rw [if_neg (by decide)]
  refine (if_neg (by simp [hses'])).trans ((if_neg (by decide)).trans ((if_pos rfl).trans ?_))
  split
  · rfl
  · split <;> rfl
end

theorem ConnSt.ne_faulted_of_session {st : ConnSt} (h : st.session = true) : st ≠ .faulted := fun hst => by
  rw [hst] at h
  cases h

section
variable {s : State} {k : Fin 2048} {d : ConnDecl} (hdecl : (s.conn k).decl = some d) (hses : (s.conn k).st.session = true)
include hdecl hses

/-- A CLOSE ends the session with what its reason says. -/
theorem exec_close_leaves {f : Frame} (hfront : s.rxFront .a k f = true ∧ s.rxFront .b k f = true) (hty : f.ftype = ftClose)
    (hh : f.handle = d.rxHandle) (ha : s.rxLost .a = false) (hb : s.rxLost .b = false)
    (hca : s.closeCheck .a k d f true = (true, none)) (hcb : s.closeCheck .b k d f true = (true, none)) :
    ∃ t st cause, exec (.close k f) s = .next t ∧ s.Leaves t k d st cause ∧
      (fieldBE f.payload 0 1 = 1 ∨ fieldBE f.payload 0 1 = 2 → st = .faulted) ∧
      (fieldBE f.payload 0 1 ≠ 1 → fieldBE f.payload 0 1 ≠ 2 → st = .stale ∧ cause = 3) := by
  have hself : (s.closing k f).conn k = (s.conn k).accept f := by
    rw [State.closing, State.updConn_conn_self, rxPart_conn s.bothTaken_only]
  have hdecl' : ((s.closing k f).conn k).decl = some d := (congrArg Conn.decl hself).trans hdecl
  have hst : ((s.closing k f).conn k).st = (s.conn k).st := (congrArg Conn.st hself).trans rfl
  have hother (j : Nat) (hj : j ≠ k) : (s.closing k f).conn j = s.conn j :=
    (State.updConn_conn_ne _ _ _ _ hj).trans (rxPart_conn s.bothTaken_only j)
  have hzones : (s.closing k f).zones = s.zones := (congrArg State.zones s.bothTaken_only).symm
  have hpairs : (s.closing k f).pairs = s.pairs := (congrArg State.pairs s.bothTaken_only).symm
  have hfault (code : BitVec 16) (cause : Nat) : s.Leaves ((s.closing k f).connFault k code cause) k d .faulted cause :=
    (State.connFault_leaves code cause hdecl' (hst ▸ ConnSt.ne_faulted_of_session hses)).after hst hother hzones hpairs
  have hstale : s.Leaves ((s.closing k f).stale k caPartnerClose) k d .stale caPartnerClose :=
    (State.setConn_leaves caPartnerClose hdecl' (by decide)).after hst hother hzones hpairs
  rw [exec_close_accepted hfront hty hdecl hses hh ha hb hca hcb]
  split
  next h => exact ⟨_, _, _, rfl, hfault _ _, fun _ => rfl, fun h1 => absurd h h1⟩
  next =>
    split
    next h => exact ⟨_, _, _, rfl, hfault _ _, fun _ => rfl, fun _ h2 => absurd h h2⟩
    next h1 h2 => exact ⟨_, _, _, rfl, hstale, fun h => (h.elim h1 h2).elim, fun _ _ => ⟨rfl, rfl⟩⟩

end

section
variable {s : State} {k : Nat} {d : ConnDecl} (hdecl : (s.conn k).decl = some d)
include hdecl

/-- A connection that enters OPENING from a session. -/
theorem State.enterOpening_unversioned (hcmac : d.cmac = false) : ((s.enterOpening k none none).conn k).ver = 0 := by
  have hself := s.setConn_conn_self k .opening none
  have hver : ((s.setConn k .opening none).conn k).ver = 0 := by
    dsimp only at hself
    rw [hself]
    split <;> rfl
  rw [State.enterOpening_eq hdecl hcmac, State.updConn_conn_self]
  exact (congrArg Conn.ver (State.updConn_conn_self _ k _)).trans hver

theorem State.enterOpening_others (hst : (s.conn k).st ≠ .running) : let t := s.enterOpening k none none
    (∀ j, j ≠ k → t.conn j = s.conn j) ∧ t.zones = s.zones ∧ t.pairs = s.pairs := by
  have honly := s.setConn_open_only k .opening none hst
  have hother := fun j hj => s.setConn_conn_ne k .opening none (j := j) hj
  have hself : ((s.setConn k .opening none).conn k).decl = some d := (s.setConn_decl k .opening none).trans hdecl
  have hopen := s.setConn_st k .opening none
  obtain ⟨u, hu⟩ : ∃ u, u = s.setConn k .opening none := ⟨_, rfl⟩
  rw [← hu] at honly hself hopen
  rw [← hu] at hother
  have heq : s.enterOpening k none none = if d.cmac && (u.connKey d).isNone then u.connFault k 0x4005#16 caKey
      else (u.newNonce k).updConn k fun c => { c with backoff := c.backoff, stagger := false, peerNonce := none } := by
    unfold State.enterOpening
    dsimp only
    rw [← hu, hself]
    rfl
  intro t
  have hzones : u.zones = s.zones := (congrArg State.zones honly).symm
  have hpairs : u.pairs = s.pairs := (congrArg State.pairs honly).symm
  have ht : t = _ := heq
  rw [ht]
  split
  · obtain ⟨-, -, -, hother', hzones', hpairs', -⟩ := State.connFault_leaves (s := u) 0x4005#16 caKey hself (by rw [hopen]; decide)
    exact ⟨fun j hj => (hother' j hj).trans (hother j hj), hzones'.trans hzones, hpairs'.trans hpairs⟩
  · exact ⟨fun j hj => (State.updConn_conn_ne _ _ _ _ hj).trans ((State.updConn_conn_ne _ _ _ _ hj).trans (hother j hj)), hzones, hpairs⟩
end

section
variable {s : State} {k : Fin 2048} {d : ConnDecl} (hdecl : (s.conn k).decl = some d) (hses : (s.conn k).st.session = true)
include hdecl hses

theorem exec_watchdogExpiry_ends (e : Nat) : let early := e * 10000 + 10000000 < d.watchdog * 1000 * 9995
    ∃ t, exec (.watchdogExpiry k e) s = .next t ∧ ((s.conn k).st = .running → t.ptsGone d) ∧
      (early → (t.conn k).st = .faulted ∧ (t.conn k).cause = 0xB ∧ (t.conn k).ver = 0) ∧
      (¬ early → (s.conn k).st = .running → (t.conn k).st = .stale ∧ (t.conn k).cause = 1) ∧
      (¬ early → (s.conn k).st = .negotiating → d.cmac = false → (t.conn k).st = .opening ∧ (t.conn k).ver = 0 ∧
        (t.conn k).nonce ≠ (s.conn k).nonce ∧ (t.conn k).nonce ≠ (s.conn k).usedNonce) ∧
      (∀ j : Nat, j ≠ k → t.conn j = s.conn j) ∧ t.zones = s.zones ∧ t.pairs = s.pairs := by
  intro early
  rw [exec_watchdogExpiry_eq hdecl hses]
  split
  next h =>
    have hl := State.wdXchk_leaves hdecl hses
    exact ⟨_, rfl, hl.gone, fun _ => ⟨hl.enters, hl.why, hl.ver rfl⟩, fun hn => absurd h hn, fun hn => absurd h hn, hl.other, hl.zones, hl.pairs⟩
  next h =>
    split
    next hrun =>
      have hl : s.Leaves (s.stale k caWd) k d .stale caWd := State.setConn_leaves caWd hdecl (by decide)
      exact ⟨_, rfl, hl.gone, fun hn => absurd hn h, fun _ _ => ⟨hl.enters, hl.why⟩,
        fun _ hneg => (ConnSt.noConfusion (hrun.symm.trans hneg)),
        hl.other, hl.zones, hl.pairs⟩
    next hrun =>
      obtain ⟨hother, hzones, hpairs⟩ := State.enterOpening_others hdecl hrun
      refine ⟨_, rfl, fun hn => absurd hn hrun, fun hn => absurd hn h, fun _ hn => absurd hn hrun, fun _ _ hcmac => ?_, hother, hzones, hpairs⟩
      obtain ⟨hopen, -, hnew, hunused, -⟩ := State.enterOpening_conn hdecl hcmac none
      exact ⟨hopen, State.enterOpening_unversioned hdecl hcmac, hnew, hunused⟩
end

theorem exec_wdXchk_idle {s : State} {k : Fin 2048} (h : (s.conn k).st.session = false) : exec (.wdXchk k) s = .next s :=
  congrArg Host.Outcome.next (if_neg (by simp [h]))

theorem exec_wdXchk_eq {s : State} {k : Fin 2048} (h : (s.conn k).st.session = true) : exec (.wdXchk k) s = .next (s.wdXchk k) :=
  congrArg Host.Outcome.next (if_pos h)

/-- The CLOSE a lane accepts: inside the window, with nothing wrong. -/
theorem State.closeCheck_passes {s : State} {k : Nat} {d : ConnDecl} {f : Frame} (l : Lane) (hlo : 1 ≤ seqStep ((s.conn k).rx l) f)
    (hhi : seqStep ((s.conn k).rx l) f ≤ 128)
    (h : s.checkFrame l d (((s.conn k).rx l).eSeq + BitVec.ofNat 32 (seqStep ((s.conn k).rx l) f)) f none = none) :
    s.closeCheck l k d f true = (true, none) := by
  unfold State.closeCheck
  dsimp only
  rw [if_pos (by simp [hlo, hhi]), h]

/-- What waits for a mark says nothing of the connections. -/
theorem State.conn_withTrans (w : State) (ts : List Trans) (j : Nat) : ({ w with trans := ts } : State).conn j = w.conn j := rfl

section
variable {s : State} {l : Lane} {k : Fin 2048} {f : Frame} {d : ConnDecl} (hfront : s.rxFront l k f = true) (hlost : s.rxLost l = false)
  (hty : f.ftype = ftData) (hdecl : (s.conn k).decl = some d) (hses : (s.conn k).st.session = true) (hh : f.handle = d.rxHandle)
include hfront hlost hty hdecl hses hh

theorem exec_dataFrame_checked : exec (.dataFrame l k f) s = .next ((s.rxTake l).dataTaken l k d f) :=
  (exec_dataFrame_eq hfront hlost hty hdecl hses).trans (congrArg Host.Outcome.next (if_neg (not_not_intro hh)))

theorem exec_dataFrame_accepted (hlo : 1 ≤ seqStep ((s.conn k).rx l) f) (hhi : seqStep ((s.conn k).rx l) f ≤ 128) :
    let r := (s.conn k).rx l
    let n := seqStep r f
    let seq := r.eSeq + BitVec.ofNat 32 n
    let pts := unpackPoints f.payload d.rxPoints
    crcOk l d.connId seq f = true → s.cmacOk d seq f = true → ¬ lateFrame r.ts f → (s.trans.any fun t => t.waits l k seq) = false →
    ∃ (t : State) (x : Trans), exec (.dataFrame l k f) s = .next t ∧ t.trans = s.trans ++ [x] ∧
      x.body = .frame k seq f.tstamp (if l = .a then n - 1 else 0) (if l = .a then pts else []) (if l = .a then [] else pts.map (~~~ ·)) ∧
      (x.okA = true ↔ l = .a) ∧ (x.okB = true ↔ l = .b) ∧ ((t.conn k).rx l) = { r with eSeq := seq, ts := some f.tstamp } ∧
      ((t.conn k).rx (otherLane l)) = (s.conn k).rx (otherLane l) ∧ (∀ j : Nat, j ≠ k → t.conn j = s.conn j) ∧
      { t with conns := s.conns, trans := s.trans } = s.rxTake l := by
  intro r n seq pts hcrc hcmac hlate hnew
  rw [exec_dataFrame_checked hfront hlost hty hdecl hses hh]
  have honly := s.rxTake_only l
  have hconn := rxPart_conn honly
  have hcheck : (s.rxTake l).checkFrame l d seq f r.ts = none := (rxPart_checkFrame honly _ _ _ _ _).trans (s.checkFrame_passes l hcrc hcmac hlate)
  have htrans : (s.rxTake l).trans = s.trans := (congrArg State.trans honly).symm
  generalize s.rxTake l = u at *
  obtain ⟨x, ht, hbody, hokA, hokB⟩ := State.dataTaken_accepted (u := u) (l := l) (k := k) (d := d) (f := f) (by rwa [hconn]) (by rwa [hconn])
    (by rwa [hconn]) (by rwa [hconn, htrans])
  rw [hconn] at ht hbody
  have hself : (u.dataTaken l k d f).conn k = (s.conn k).setRx l { r with eSeq := seq, ts := some f.tstamp } := by
    rw [ht, State.conn_withTrans, State.updConn_conn_self, hconn]
  refine ⟨_, x, rfl, ?_, hbody, hokA, hokB, ?_, ?_, fun j hj => ?_, ?_⟩
  · rw [ht, ← htrans]
  · rw [hself, Conn.setRx_self]
  · rw [hself, Conn.setRx_other]
  · rw [ht, State.conn_withTrans, State.updConn_conn_ne _ _ _ _ hj, hconn]
  · rw [ht, ← honly]
    rfl

theorem exec_dataFrame_failed (hlo : 1 ≤ seqStep ((s.conn k).rx l) f) (hhi : seqStep ((s.conn k).rx l) f ≤ 128) :
    let r := (s.conn k).rx l
    crcOk l d.connId (r.eSeq + BitVec.ofNat 32 (seqStep r f)) f = false → r.errAt = [] → s.trans = [] →
    ∃ (t : State) (x : Trans), exec (.dataFrame l k f) s = .next t ∧ t.trans = [x] ∧ x.okA = false ∧ x.okB = false ∧
      (t.conn k).crcFail = satInc (s.conn k).crcFail 255 ∧ ((t.conn k).rx l) = { r with errAt := [s.now] } ∧
      (t.conn k).st = (s.conn k).st ∧ (∀ j : Nat, j ≠ k → t.conn j = s.conn j) ∧
      { t with conns := s.conns, trans := s.trans } = s.rxTake l := by
  intro r hcrc herr htr
  rw [exec_dataFrame_checked hfront hlost hty hdecl hses hh]
  have honly := s.rxTake_only l
  have hconn := rxPart_conn honly
  have hcheck : (s.rxTake l).checkFrame l d (r.eSeq + BitVec.ofNat 32 (seqStep r f)) f r.ts = some false :=
    (rxPart_checkFrame honly _ _ _ _ _).trans (s.checkFrame_crc l _ hcrc)
  have htrans : (s.rxTake l).trans = [] := (congrArg State.trans honly).symm.trans htr
  have hnow : (s.rxTake l).now = s.now := (congrArg State.now honly).symm
  generalize s.rxTake l = u at *
  obtain ⟨x, ht, hokA, hokB⟩ := State.dataTaken_failed (u := u) (l := l) (k := k) (d := d) (f := f) (by rwa [hconn]) (by rwa [hconn])
    (by rwa [hconn]) rfl (by rwa [hconn]) htrans (by rwa [hconn])
  rw [hconn, hnow] at ht
  have hself : (u.dataTaken l k d f).conn k =
      { (s.conn k).setRx l { r with errAt := [s.now] } with crcFail := satInc (s.conn k).crcFail 255 } := by
    rw [ht, State.conn_withTrans, State.updConn_conn_self, hconn]
  have hset (c : Conn) (r' : RxLane) (n : Nat) : (({ c.setRx l r' with crcFail := n } : Conn).rx l) = r' ∧
      ({ c.setRx l r' with crcFail := n } : Conn).st = c.st := by cases l <;> exact ⟨rfl, rfl⟩
  refine ⟨_, x, rfl, ?_, hokA, hokB, ?_, ?_, ?_, fun j hj => ?_, ?_⟩
  · rw [ht]
  · rw [hself]
  · rw [hself]
    exact (hset _ _ _).1
  · rw [hself]
    exact (hset _ _ _).2
  · rw [ht, State.conn_withTrans, State.updConn_conn_ne _ _ _ _ hj, hconn]
  · rw [ht, ← honly]
    rfl
end

/-- Settles O56: a frame acts by what a lane, or both, find in front of them, and a session that ends takes its points along. -/
theorem receivedFrames : Obligations.ReceivedFrames := by
  refine ⟨fun s l k f => ⟨exec_dataFrame_untaken, fun hfront hlost hty => ?_⟩, fun s k f => ?_, fun s k => ?_⟩
  · intro u
    refine ⟨exec_dataFrame_none hfront hlost hty, fun d hdecl hses => ?_⟩
    intro r n seq late passes pts
    refine ⟨fun hh => (exec_dataFrame_eq hfront hlost hty hdecl hses).trans (congrArg Host.Outcome.next (if_pos hh)), fun hh hn => ?_,
      fun hh hlo hhi hpass => exec_dataFrame_accepted hfront hlost hty hdecl hses hh hlo hhi hpass.1 hpass.2.1 hpass.2.2,
      fun hh hlo hhi => exec_dataFrame_failed hfront hlost hty hdecl hses hh hlo hhi⟩
    rw [exec_dataFrame_checked hfront hlost hty hdecl hses hh,
      State.dataTaken_dropped (by rwa [rxPart_conn (s.rxTake_only l)])]
    rfl
  · intro front u
    refine ⟨fun h => ⟨exec_openFrame_untaken (State.takeOpening_of_not_front h), fun rtt => exec_openAck_untaken rtt (State.takeOpening_of_not_front h),
      exec_openRefuse_untaken (State.takeOpening_of_not_front h)⟩, fun h => exec_openFrame_untaken (State.takeOpening_of_type h),
      fun h rtt => exec_openAck_untaken rtt (State.takeOpening_of_type h), fun h => exec_openRefuse_untaken (State.takeOpening_of_type h),
      fun d hfront hdecl => ⟨fun hty h => exec_openFrame_untaken (State.takeOpening_refused hfront hdecl hty h), fun h => ?_,
        fun hh ha hb hca hcb => ⟨fun hrole hty hidle => ?_, fun hrole hty hidle => ⟨fun hst hagree hver => ?_,
          fun hst hwake hagree hver hcmac => exec_openFrame_woken hfront hdecl hh ha hb hca hcb hrole hty hidle hst hwake hagree hver hcmac,
          fun hst hwake => exec_openFrame_closed hfront hdecl hh ha hb hca hcb hrole hty hidle hst hwake⟩,
          fun hrole hst hty rtt => exec_openAck_accepted hfront hdecl hh ha hb hca hcb rtt hrole hst hty,
          fun hrole hst hty hnonce => exec_openRefuse_accepted hfront hdecl hh ha hb hca hcb hrole hst hty hnonce⟩⟩⟩
    · have htakes : s.awaits k d = false ∨ f.handle ≠ d.rxHandle := by
        obtain h | h | h := h
        · exact .inl (by simp [State.awaits, h])
        · exact .inl (by simp [State.awaits, h])
        · exact .inr h
      exact ⟨fun hty rtt => exec_openAck_untaken rtt (State.takeOpening_refused hfront hdecl hty htakes),
        fun hty => exec_openRefuse_untaken (State.takeOpening_refused hfront hdecl hty htakes)⟩
    · exact (exec_openFrame_accepted hfront hdecl hh ha hb hca hcb hrole hty).trans (congrArg Host.Outcome.next (if_pos hidle))
    · obtain ⟨t, ht, hneg, hused, hother, honly⟩ := exec_openFrame_opening hfront hdecl hh ha hb hca hcb hrole hty hidle hst hagree hver
      have hexpA : (t.conn k).rxA.eSeq = (t.conn k).nonce - 1#32 := by rw [hneg.expectsA, hneg.keepsNonce]
      have hexpB : (t.conn k).rxB.eSeq = (t.conn k).nonce - 1#32 := by rw [hneg.expectsB, hneg.keepsNonce]
      exact ⟨t, ht, hneg.entersSession, hneg.hasVer, hneg.hasPeer, hneg.hasSeq, hneg.keepsNonce, hused, hexpA, hexpB, hother,
        (congrArg State.zones honly).symm, (congrArg State.pairs honly).symm, (congrArg State.ports honly).symm, (congrArg State.fl honly).symm⟩
  · refine ⟨fun f h => exec_close_untaken h, fun f ha hb hty h => exec_close_idle ⟨ha, hb⟩ hty h,
      fun e h => exec_watchdogExpiry_none e h, fun h => exec_wdXchk_idle h, fun d hdecl => ⟨fun f hfa hfb ha hb hh hses hty => ?_,
        fun hses e => exec_watchdogExpiry_ends hdecl hses e, fun hses => ?_⟩⟩
    · intro nA nB hA hA' hB hB' hca hcb
      obtain ⟨t, st, cause, ht, hl, hfault, hstale⟩ := exec_close_leaves hdecl hses ⟨hfa, hfb⟩ hty hh ha hb
        (State.closeCheck_passes .a hA hA' hca) (State.closeCheck_passes .b hB hB' hcb)
      refine ⟨t, ht, hl.gone, fun h => hl.enters.trans (hfault h), fun h1 h2 => ?_, hl.other, hl.zones, hl.pairs⟩
      obtain ⟨hst, hcause⟩ := hstale h1 h2
      exact ⟨hl.enters.trans hst, hl.why.trans hcause⟩
    · have hl := State.wdXchk_leaves hdecl hses
      exact ⟨_, exec_wdXchk_eq hses, hl.gone, hl.enters, hl.why, hl.other, hl.zones, hl.pairs⟩

end Sys2Proof.Machine
end


section
/-!
# Self-test during work: slots, slices, overdue pairs, analogue windows (R328 to R341)
-/
namespace Sys2Proof.Machine
open Sys2Proof

/-! ### What waits for a test -/

/-- The command rings and the requests that wait for a test. -/
abbrev askedPart (s t : State) : State := { s with rings := t.rings, hi := t.hi, bist := { s.bist with asked := t.bist.asked } }

theorem askedPart_part : Part askedPart := ⟨fun _ => rfl, fun _ _ _ => rfl⟩

theorem State.completeAsks_only (s : State) (item idx status res : Nat) : Only askedPart s (s.completeAsks item idx status res) :=
  Only.trans askedPart_part
    (t := { s with bist := { s.bist with asked := s.bist.asked.filter fun e =>
      !(decide (e.2.1.toNat = item) && decide (e.2.2.toNat = idx)) } }) rfl
    (Only.foldl (f := fun (t : State) (e : Origin × Byte × Byte) => t.complete e.1 0x30 status res) askedPart_part
      (fun t _ => (t.complete_only _ _ _ _).mono fun _ _ => rfl) _ _)

theorem State.keepClaim_only (s : State) (p : Nat) (prec : Option Nat) : Only queuePart s (s.keepClaim p prec) := by
  unfold State.keepClaim
  split
  · exact s.bistAsk_only p _
  · split
    · exact s.bistAsk_only p 3
    · rfl

/-! ### Repairs -/

/-- A pair but for the spare rows it uses. -/
def Pair.unspared (q : Pair) : Pair := { q with rowsA := [], rowsB := [], noSpare := false }

theorem Pair.useSpare_unspared (q : Pair) (l : Lane) (row : Nat) : (q.useSpare l row).unspared = q.unspared := by
  unfold Pair.useSpare
  split
  · cases l <;> rfl
  · rfl

theorem Pair.both_useSpare (q : Pair) (l : Lane) (row : Nat) : (Pair.both (·.useSpare l row) q).unspared = q.unspared := by
  have hself := Pair.useSpare_unspared q l row
  have hb := Pair.useSpare_unspared { q with role := q.roleB, shift := q.shiftB } l row
  have hrole : ((({ q with role := q.roleB, shift := q.shiftB } : Pair).useSpare l row)).role = q.roleB := congrArg Pair.role hb
  have hshift : ((({ q with role := q.roleB, shift := q.shiftB } : Pair).useSpare l row)).shift = q.shiftB := congrArg Pair.shift hb
  unfold Pair.both
  dsimp only
  rw [hrole, hshift]
  exact congrArg (fun x : Pair => { x with roleB := q.roleB, shiftB := q.shiftB }) hself

section
variable (s : State) (es : List BistEntry)

theorem State.applyRepairs_pair (j : Nat) : ((s.applyRepairs es).pair j).unspared = (s.pair j).unspared := by
  unfold State.applyRepairs
  induction es generalizing s with
  | nil => rfl
  | cons e es ih =>
    rw [List.foldl_cons, ih]
    split
    · by_cases hj : j = e.pair.toNat
      · rw [hj, State.updPair_pair_self, Pair.both_useSpare]
      · rw [State.updPair_pair_ne _ _ _ _ hj]
    · rfl

theorem State.applyRepairs_role (j : Nat) : ((s.applyRepairs es).pair j).role = (s.pair j).role := by
  have h := congrArg Pair.role (s.applyRepairs_pair es j)
  exact h

theorem State.applyRepairs_other {p j : Nat} (h : ∀ e ∈ es, e.pair.toNat = p) (hj : j ≠ p) : (s.applyRepairs es).pair j = s.pair j := by
  unfold State.applyRepairs
  induction es generalizing s with
  | nil => rfl
  | cons e es ih =>
    rw [List.foldl_cons, ih _ (fun x hx => h x (List.mem_cons_of_mem _ hx))]
    split
    · exact State.updPair_pair_ne _ _ _ _ (by rw [h e (List.mem_cons_self ..)]; exact hj)
    · rfl

abbrev pairPart (s t : State) : State := { s with pairs := t.pairs }

theorem pairPart_part : Part pairPart := ⟨fun _ => rfl, fun _ _ _ => rfl⟩

theorem State.applyRepairs_only : Only pairPart s (s.applyRepairs es) := by
  refine Only.foldl (f := fun (t : State) (e : BistEntry) => if e.pair.toNat < 36 then
    t.updPair e.pair.toNat fun q => q.useSpare e.lane e.row.toNat else t) pairPart_part (fun t e => ?_) es s
  split <;> rfl
end

/-! ### RETAINED versions of a pair -/

section
variable {s : State} {p : Nat}

theorem State.vacate_pair_ne {q : Nat} (h : p ≠ q) : (s.vacate q).pair p = s.pair p := by
  have hask (t : State) (n : Nat) : (t.bistAsk q n).pair p = t.pair p :=
    congrArg (tabGet Pair.init · p) (congrArg State.pairs (t.bistAsk_only q n)).symm
  unfold State.vacate
  dsimp only
  split
  · split <;> exact State.updPair_pair_ne _ _ _ _ h
  · split <;> exact State.updPair_pair_ne _ _ _ _ h
  · split
    · exact hask _ _
    · rfl
  · rfl

/-- A pair that has nothing to give up stays as it is. -/
theorem State.vacate_pair (hcarry : (s.pair p).role ≠ .carrying) (hload : (s.pair p).role ≠ .loading) (q : Nat) : (s.vacate q).pair p = s.pair p := by
  by_cases h : p = q
  · subst h
    have hask (t : State) (n : Nat) : (t.bistAsk p n).pair p = t.pair p :=
      congrArg (tabGet Pair.init · p) (congrArg State.pairs (t.bistAsk_only p n)).symm
    unfold State.vacate
    dsimp only
    split
    next h => exact absurd h hcarry
    next h => exact absurd h hload
    · split
      · exact hask _ _
      · rfl
    · rfl
  · exact State.vacate_pair_ne h

theorem State.dropRetained_pair (hcarry : (s.pair p).role ≠ .carrying) (hload : (s.pair p).role ≠ .loading) (z : Nat) :
    (s.dropRetained z).pair p = s.pair p := by
  unfold State.dropRetained
  split
  · exact State.vacate_pair (s := s.updZone z _) hcarry hload _
  · rfl

theorem State.dropRetainedOn_pair (hcarry : (s.pair p).role ≠ .carrying) (hload : (s.pair p).role ≠ .loading) (q : Nat) :
    (s.dropRetainedOn q).pair p = s.pair p := by
  have hfold (zs : List (Nat × Zone)) (t : State) (ht : t.pair p = s.pair p) : (zs.foldl (fun t e => match e.2.retained with
      | some v => if v.pair = q then t.dropRetained e.1 else t
      | none => t) t).pair p = s.pair p := by
    induction zs generalizing t with
    | nil => exact ht
    | cons e zs ih =>
      rw [List.foldl_cons]
      refine ih _ ?_
      split
      · split
        · exact (State.dropRetained_pair (by rwa [ht]) (by rwa [ht]) _).trans ht
        · exact ht
      · exact ht
  exact hfold s.zones s rfl

theorem State.dropRetainedOn_of_none (h : ∀ e ∈ s.zones, ∀ v, e.2.retained = some v → v.pair ≠ p) : s.dropRetainedOn p = s := by
  have hfold (zs : List (Nat × Zone)) (hzs : ∀ e ∈ zs, ∀ v, e.2.retained = some v → v.pair ≠ p) : zs.foldl (fun t e => match e.2.retained with
      | some v => if v.pair = p then t.dropRetained e.1 else t
      | none => t) s = s := by
    induction zs with
    | nil => rfl
    | cons e zs ih =>
      have hstep : (match e.2.retained with
          | some v => if v.pair = p then s.dropRetained e.1 else s
          | none => s) = s := by
        split
        next v hv => exact if_neg (hzs e (List.mem_cons_self ..) v hv)
        · rfl
      rw [List.foldl_cons, hstep]
      exact ih fun x hx => hzs x (List.mem_cons_of_mem _ hx)
  exact hfold s.zones h

end

/-! ### The end of a slice -/

section
variable {s : State} {p : Nat}

/-- A slice that is over: its pair notes how, no other pair moves. -/
theorem State.closeSlice_spec (last : Nat) (es : List BistEntry) : let t := s.closeSlice p last es
    t.pair p = { s.pair p with last := last } ∧ (∀ j, j ≠ p → t.pair j = s.pair j) ∧ t.bist.slice = none ∧ t.zones = s.zones := by
  obtain ⟨u, hu⟩ : ∃ u, u = s.updPair p fun q => { q with last := last } := ⟨_, rfl⟩
  obtain ⟨v, hv⟩ : ∃ v, v = ({ u with bist := { u.bist with slice := none, sliceRows := [] } } : State) := ⟨_, rfl⟩
  have honly := v.completeAsks_only 0 p stSuccess (v.sliceResult p last es)
  have heq : s.closeSlice p last es = v.completeAsks 0 p stSuccess (v.sliceResult p last es) := by
    rw [hv, hu]
    rfl
  intro t
  have ht : t = _ := heq
  have hpairs : t.pairs = u.pairs := by
    rw [ht, ← honly, hv]
  have hslice : t.bist.slice = none := by
    rw [ht, ← honly, hv]
  have hzones : t.zones = s.zones := by
    rw [ht, ← honly, hv, hu]
    rfl
  refine ⟨?_, fun j hj => ?_, hslice, hzones⟩
  · rw [State.pair, hpairs, hu]
    exact State.updPair_pair_self s p _
  · rw [State.pair, hpairs, hu]
    exact State.updPair_pair_ne s p _ j hj

/-- The pair of a slice that failed. -/
theorem State.failSlice_spec (es : List BistEntry) : let t := s.failSlice p es
    (t.pair p).role = .unusable ∧ (t.pair p).last = 3 ∧ t.bist.slice = none ∧
    ((∀ e ∈ s.zones, ∀ v, e.2.retained = some v → v.pair ≠ p) → (∀ j, j ≠ p → t.pair j = s.pair j) ∧ t.zones = s.zones) := by
  obtain ⟨u, hu⟩ : ∃ u, u = (s.failEntries p es).2 := ⟨_, rfl⟩
  have hpairs : u.pairs = s.pairs ∧ u.zones = s.zones := by
    rw [hu]
    unfold State.failEntries
    split <;> exact ⟨rfl, rfl⟩
  obtain ⟨v, hv⟩ : ∃ v, v = u.updPair p fun q => { q with role := .unusable } := ⟨_, rfl⟩
  obtain ⟨hself, hother, hslice, hzones⟩ := State.closeSlice_spec (s := v.dropRetainedOn p) (p := p) 3 (s.failEntries p es).1
  have heq : s.failSlice p es = (v.dropRetainedOn p).closeSlice p 3 (s.failEntries p es).1 := by
    rw [hv, hu]
    rfl
  rw [← heq] at hself hslice hzones
  rw [← heq] at hother
  have hrole : (v.pair p).role = .unusable := by rw [hv, State.updPair_pair_self]; rfl
  have hdrop : (v.dropRetainedOn p).pair p = v.pair p := State.dropRetainedOn_pair (by rw [hrole]; decide) (by rw [hrole]; decide) p
  refine ⟨?_, ?_, hslice, fun hret => ?_⟩
  · rw [hself]
    exact (congrArg Pair.role hdrop).trans hrole
  · rw [hself]
  · have hvz : v.zones = s.zones := by rw [hv]; exact hpairs.2
    have hsame : v.dropRetainedOn p = v := State.dropRetainedOn_of_none (by rwa [hvz])
    rw [hsame] at hother hzones
    refine ⟨fun j hj => (hother j hj).trans ?_, hzones.trans hvz⟩
    rw [hv, State.updPair_pair_ne _ _ _ _ hj, State.pair, hpairs.1]
    rfl

/-- The pair of a slice that passed, unless a fault keeps it STOPPED. -/
theorem State.passSlice_spec (again : Bool) (hback : (s.pair p).role = .testing ∨ s.commonFault = false) : let t := s.passSlice p again
    (t.pair p).role = .free ∧ (t.pair p).stopA = false ∧ (t.pair p).stopB = false ∧ (t.pair p).passedAt = some s.now ∧
    (t.pair p).last = (if again then 2 else 1) ∧ t.bist.slice = none := by
  have hb : (!((s.pair p).role == .stopped && s.commonFault)) = true := by
    obtain h | h := hback <;> simp [h]
  obtain ⟨u, hu⟩ : ∃ u, u = s.updPair p fun q => { q.freed with passedAt := some s.now } := ⟨_, rfl⟩
  have hup : (u.pair p).role = .free ∧ (u.pair p).stopA = false ∧ (u.pair p).stopB = false ∧ (u.pair p).passedAt = some s.now := by
    rw [hu, State.updPair_pair_self]
    exact ⟨rfl, rfl, rfl, rfl⟩
  obtain ⟨v, hv⟩ : ∃ v, v = if (s.pair p).role == .stopped then (u.dropRetainedOn p).softRepair s.bist.sliceRows else u.dropRetainedOn p := ⟨_, rfl⟩
  have hdrop : (u.dropRetainedOn p).pair p = u.pair p := State.dropRetainedOn_pair (by rw [hup.1]; decide) (by rw [hup.1]; decide) p
  have hvp : (v.pair p).unspared = (u.pair p).unspared := by
    rw [hv]
    split
    · exact (State.applyRepairs_pair _ _ p).trans (congrArg Pair.unspared hdrop)
    · exact congrArg Pair.unspared hdrop
  obtain ⟨w, hw⟩ : ∃ w, w = ({ v with bist := { v.bist with odueEv := setBit v.bist.odueEv p false } } : State) := ⟨_, rfl⟩
  have hwp : w.pair p = v.pair p := by rw [hw]; rfl
  obtain ⟨hself, -, hslice, -⟩ := State.closeSlice_spec (s := w) (p := p) (if again then 2 else 1) s.bist.sliceRows
  have heq : s.passSlice p again = w.closeSlice p (if again then 2 else 1) s.bist.sliceRows := by
    rw [hw, hv, hu]
    unfold State.passSlice
    dsimp only
    rw [hb]
    simp only [Bool.true_and, if_true]
  rw [← heq, hwp] at hself
  rw [← heq] at hslice
  intro t
  have ht : t.pair p = _ := hself
  rw [ht]
  exact ⟨(congrArg Pair.role hvp).trans hup.1, (congrArg Pair.stopA hvp).trans hup.2.1, (congrArg Pair.stopB hvp).trans hup.2.2.1,
    (congrArg Pair.passedAt hvp).trans hup.2.2.2, rfl, hslice⟩

theorem State.passSlice_alone (again : Bool) (hrole : (s.pair p).role = .testing) (hret : ∀ e ∈ s.zones, ∀ v, e.2.retained = some v → v.pair ≠ p) :
    (∀ j, j ≠ p → (s.passSlice p again).pair j = s.pair j) ∧ (s.passSlice p again).zones = s.zones := by
  obtain ⟨u, hu⟩ : ∃ u, u = s.updPair p fun q => { q.freed with passedAt := some s.now } := ⟨_, rfl⟩
  have huz : u.zones = s.zones := by rw [hu]; rfl
  have hdrop : u.dropRetainedOn p = u := State.dropRetainedOn_of_none (by rwa [huz])
  obtain ⟨w, hw⟩ : ∃ w, w = ({ u with bist := { u.bist with odueEv := setBit u.bist.odueEv p false } } : State) := ⟨_, rfl⟩
  obtain ⟨-, hother, -, hzones⟩ := State.closeSlice_spec (s := w) (p := p) (if again then 2 else 1) s.bist.sliceRows
  have heq : s.passSlice p again = w.closeSlice p (if again then 2 else 1) s.bist.sliceRows := by
    rw [hw, ← hdrop, hu]
    unfold State.passSlice
    dsimp only
    rw [hrole]
    rfl
  rw [heq]
  refine ⟨fun j hj => (hother j hj).trans ?_, hzones.trans ?_⟩
  · rw [hw, hu]
    exact State.updPair_pair_ne s p _ j hj
  · rw [hw]
    exact huz
end

section
variable {s : State} {p : Nat}

/-- A slice that begins, or runs again. -/
theorem State.startSlice_spec (again : Bool) : let t := s.startSlice p again
    t.bist.slice = some (p, again) ∧ t.bist.sliceRows = (if again then s.bist.sliceRows else []) ∧ t.bist.repairs = s.bist.repairs ∧
    (t.pair p).role = (if (s.pair p).role = .free then .testing else (s.pair p).role) ∧ (t.pair p).run = none ∧
    (t.pair p).rowsA = (s.pair p).rowsA ∧ (t.pair p).rowsB = (s.pair p).rowsB ∧ (∀ j, j ≠ p → t.pair j = s.pair j) ∧
    t.zones = s.zones ∧ t.chans = s.chans := by
  obtain ⟨u, hu⟩ : ∃ u, u = (s.forgetTile p).updPair p fun q =>
    { q with role := if q.role = .free then .testing else q.role, run := none, trig := false } := ⟨_, rfl⟩
  have hself : u.pair p = _ := hu ▸ State.updPair_pair_self (s.forgetTile p) p _
  have hother (j : Nat) (hj : j ≠ p) : u.pair j = s.pair j := hu ▸ State.updPair_pair_ne (s.forgetTile p) p _ j hj
  have hrest : u.zones = s.zones ∧ u.chans = s.chans ∧ u.bist = s.bist := by
    rw [hu]
    exact ⟨rfl, rfl, rfl⟩
  have heq : s.startSlice p again = { u with bist := { u.bist with
      slice := some (p, again), sliceRows := if again then u.bist.sliceRows else [], slicePoison := false
      zeroed := u.bist.zeroed &&& ~~~(1#36 <<< p), queue := u.bist.queue.filter fun e => decide (e.1 ≠ p) } } := by
    rw [hu]
    rfl
  have hpair (j : Nat) : (s.startSlice p again).pair j = u.pair j := by rw [heq]; rfl
  dsimp only
  rw [hpair, hself]
  refine ⟨by rw [heq], ?_, ?_, rfl, rfl, rfl, rfl, fun j hj => (hpair j).trans (hother j hj), ?_, ?_⟩
  · rw [heq, hrest.2.2]
  · rw [heq, hrest.2.2]
  · rw [heq]
    exact hrest.1
  · rw [heq]
    exact hrest.2.1

/-- What the result of a slice, alike in both lanes, makes of its pair. -/
def State.judgeSlice (s : State) (p : Nat) (again : Bool) (r : SliceResult) : State :=
  match r with
  | .pass => if s.bist.slicePoison then s.passSlice p again else s.failSlice p (s.bist.sliceRows ++ [delayFailed p])
  | .fail es => s.failSlice p (s.bist.sliceRows ++ uncovered false es)
  | .rows es =>
    if !s.bist.slicePoison then s.failSlice p (s.bist.sliceRows ++ uncovered false es ++ [delayFailed p])
    else if !again && s.sparesCover p es then
      let t := if (s.pair p).role == .testing then s.softRepair (Machine.repaired es) else s
      ({ t with bist := { t.bist with sliceRows := Machine.repaired es } } : State).startSlice p true
    else s.failSlice p (s.bist.sliceRows ++ uncovered (!s.sparesCover p es) es)

/-- The slice fails. -/
def State.sliceFails (s : State) (p : Nat) (again : Bool) (r : SliceResult) : Prop :=
  s.bist.slicePoison = false ∨ (∃ es, r = .fail es) ∨ ∃ es, r = .rows es ∧ (again = true ∨ s.sparesCover p es = false)

theorem State.judgeSlice_failed {again : Bool} {r : SliceResult} (h : s.sliceFails p again r) : ∃ es, s.judgeSlice p again r = s.failSlice p es := by
  cases r with
  | fail es => exact ⟨_, rfl⟩
  | pass =>
    obtain h | ⟨es, h⟩ | ⟨es, h, -⟩ := h
    · exact ⟨_, if_neg (by simp [h])⟩
    · cases h
    · cases h
  | rows es =>
    obtain h | ⟨es', h⟩ | ⟨es', hes, h⟩ := h
    · exact ⟨_, if_pos (by simp [h])⟩
    · cases h
    · cases hes
      by_cases hp : s.bist.slicePoison = false
      · exact ⟨_, if_pos (by simp [hp])⟩
      · refine ⟨_, (if_neg (by simpa using hp)).trans (if_neg ?_)⟩
        obtain h | h := h <;> simp [h]

theorem State.judgeSlice_passed (again : Bool) (h : s.bist.slicePoison = true) : s.judgeSlice p again .pass = s.passSlice p again := if_pos h

/-- A slice that found rows the spare rows cover runs again. -/
theorem State.judgeSlice_repaired {es : List BistEntry} (hpoison : s.bist.slicePoison = true) (hspare : s.sparesCover p es = true)
    (hrole : (s.pair p).role = .testing ∨ (s.pair p).role = .stopped) : let t := s.judgeSlice p false (.rows es)
    t.bist.slice = some (p, true) ∧ t.bist.sliceRows = Machine.repaired es ∧ (t.pair p).role = (s.pair p).role ∧
    ((s.pair p).role = .testing → t.bist.repairs = s.bist.repairs ++ Machine.repaired es) ∧
    ((s.pair p).role = .stopped → t.bist.repairs = s.bist.repairs ∧ (t.pair p).rowsA = (s.pair p).rowsA ∧ (t.pair p).rowsB = (s.pair p).rowsB) ∧
    (∀ j, j ≠ p → t.pair j = s.pair j) ∧ t.zones = s.zones := by
  obtain ⟨v, hv⟩ : ∃ v, v = if (s.pair p).role == .testing then s.softRepair (Machine.repaired es) else s := ⟨_, rfl⟩
  have heq : s.judgeSlice p false (.rows es) = ({ v with bist := { v.bist with sliceRows := Machine.repaired es } } : State).startSlice p true := by
    rw [hv]
    exact (if_neg (by simp [hpoison])).trans (if_pos (by simp [hspare]))
  obtain ⟨hslice, hrows, hrep, hrole', -, ha, hb, hother, hzones, -⟩ :=
    State.startSlice_spec (s := { v with bist := { v.bist with sliceRows := Machine.repaired es } }) (p := p) true
  have hall : ∀ e ∈ Machine.repaired es, e.pair.toNat = p := by
    intro e he
    obtain ⟨x, hx, rfl⟩ := List.mem_map.1 he
    have hcover : (es.all fun e => decide (e.pair.toNat = p)) = true := by
      simp only [State.sparesCover, Bool.and_eq_true] at hspare
      exact hspare.1.1
    exact of_decide_eq_true (List.all_eq_true.1 hcover x hx)
  have hsoft : Only pairPart { s with bist := { s.bist with repairs := s.bist.repairs ++ Machine.repaired es } } (s.softRepair (Machine.repaired es)) :=
    State.applyRepairs_only _ _
  have hvrole : (v.pair p).role = (s.pair p).role := by
    rw [hv]
    split
    · exact (State.applyRepairs_role { s with bist := { s.bist with repairs := s.bist.repairs ++ Machine.repaired es } } _ p)
    · rfl
  have hvother (j : Nat) (hj : j ≠ p) : v.pair j = s.pair j := by
    rw [hv]
    split
    · exact State.applyRepairs_other { s with bist := { s.bist with repairs := s.bist.repairs ++ Machine.repaired es } } _ hall hj
    · rfl
  have hvzones : v.zones = s.zones := by
    rw [hv]
    split
    · exact (congrArg State.zones hsoft).symm
    · rfl
  rw [← heq] at hslice hrows hrep hrole' ha hb hzones
  rw [← heq] at hother
  have hnot : (v.pair p).role ≠ .free := by
    rw [hvrole]
    obtain h | h := hrole <;> rw [h] <;> decide
  refine ⟨hslice, hrows, (hrole'.trans (if_neg hnot)).trans hvrole, fun h => hrep.trans ?_, fun h => ?_,
    fun j hj => (hother j hj).trans (hvother j hj), hzones.trans hvzones⟩
  · rw [hv, if_pos (by simp [h])]
    exact (congrArg (fun t => t.bist.repairs) hsoft).symm
  · have hsame : v = s := by rw [hv, if_neg (by simp [h])]
    rw [hsame] at hrep ha hb
    exact ⟨hrep, ha, hb⟩
end

section
variable {s : State} {p : Fin 36} {c : TestCond}

/-- Both stewards have folded the result, and noted that the conditions held. -/
def State.sliceFolded (s : State) (c : TestCond) (r : SliceResult) : State := (s.foldBoth (sliceWords r) (sliceWords r)).seeCond c

theorem State.sliceFolded_only (r : SliceResult) : Only condPart s (s.sliceFolded c r) := rfl

theorem exec_sliceEnd_idle (res : Found SliceResult) (h : s.bist.slice = none ∨ (∃ q b, s.bist.slice = some (q, b) ∧ q ≠ p.val) ∨
    ((s.pair p).role ≠ .testing ∧ (s.pair p).role ≠ .stopped)) : exec (.sliceEnd p c res) s = .next s := by
  change execSliceEnd p c res s = _
  unfold execSliceEnd
  cases hslice : s.bist.slice with
  | none => rfl
  | some e =>
    obtain ⟨q, b⟩ := e
    refine if_pos ?_
    obtain h | ⟨q', b', h, hq⟩ | ⟨ht, hs⟩ := h
    · rw [hslice] at h
      cases h
    · rw [hslice] at h
      cases h
      simp [hq]
    · simp [ht, hs]

variable {again : Bool} (hslice : s.bist.slice = some (p.val, again)) (hrole : (s.pair p).role = .testing ∨ (s.pair p).role = .stopped)
include hslice hrole

/-- The slice is over with no result. -/
def State.sliceOver (s : State) (p : Nat) : State :=
  ({ s with bist := { s.bist with slice := none, sliceRows := [] } } : State).updPair p fun q =>
    { q with role := if q.role = .testing then .free else q.role }

theorem exec_sliceEnd_deferred (res : Found SliceResult) (hcond : condOk c = false) : exec (.sliceEnd p c res) s =
    .next (((s.sliceOver p).keepClaim p (if (s.pair p).role == .stopped then some 1 else none)).defer c).settle := by
  change execSliceEnd p c res s = _
  unfold execSliceEnd
  rw [hslice]
  dsimp only
  have hr : ((s.pair p).role == .testing || (s.pair p).role == .stopped) = true := by
    obtain h | h := hrole <;> simp [h]
  rw [if_neg (by simp [hr]), if_pos (by simp [hcond])]
  rfl

theorem exec_sliceEnd_differs {ra rb : SliceResult} (hcond : condOk c = true) (h : ra ≠ rb) : exec (.sliceEnd p c ⟨ra, rb⟩) s =
    .next (((s.foldBoth (sliceWords ra) (sliceWords rb)).laneFault .a 0x2003#16 0).laneFault .b 0x2003#16 0).settle := by
  change execSliceEnd p c ⟨ra, rb⟩ s = _
  unfold execSliceEnd
  rw [hslice]
  dsimp only
  have hr : ((s.pair p).role == .testing || (s.pair p).role == .stopped) = true := by
    obtain h | h := hrole <;> simp [h]
  rw [if_neg (by simp [hr]), if_neg (by simp [hcond]), if_pos h]
  rfl

theorem exec_sliceEnd_judged (r : SliceResult) (hcond : condOk c = true) : exec (.sliceEnd p c ⟨r, r⟩) s =
    .next ((s.sliceFolded c r).judgeSlice p again r).settle := by
  change execSliceEnd p c ⟨r, r⟩ s = _
  unfold execSliceEnd
  rw [hslice]
  dsimp only
  have hr : ((s.pair p).role == .testing || (s.pair p).role == .stopped) = true := by
    obtain h | h := hrole <;> simp [h]
  rw [if_neg (by simp [hr]), if_neg (by simp [hcond]), if_neg (not_not_intro rfl)]
  cases r with
  | pass => rfl
  | fail es => rfl
  | rows es =>
    unfold State.judgeSlice
    dsimp only
    split
    next h => exact congrArg (fun t : State => Host.Outcome.next t.settle) (if_pos h).symm
    next h =>
      split
      next h' => exact congrArg (fun t : State => Host.Outcome.next t.settle) ((if_neg h).trans (if_pos h')).symm
      next h' => exact congrArg (fun t : State => Host.Outcome.next t.settle) ((if_neg h).trans (if_neg h')).symm
end

/-- What a wait for the conditions leaves of what a claim kept. -/
theorem State.keepClaim_defer {s : State} (p : Nat) (prec : Option Nat) (c : TestCond) : let t := (s.keepClaim p prec).defer c
    t.bist.deferCnt = satInc s.bist.deferCnt 65535 ∧ t.bist.slice = s.bist.slice ∧ t.bist.slot = s.bist.slot ∧
    t.bist.slotNext = s.bist.slotNext ∧ t.pairs = s.pairs ∧ t.zones = s.zones ∧ t.chans = s.chans := by
  have hclaim := s.keepClaim_only p prec
  obtain ⟨u, hu⟩ : ∃ u, u = s.keepClaim p prec := ⟨_, rfl⟩
  rw [← hu] at hclaim ⊢
  have hring := u.defer_evRings c
  have hcond := u.defer_only c
  have hcnt : (u.defer c).bist.deferCnt = satInc s.bist.deferCnt 65535 :=
    (congrArg (fun t => t.bist.deferCnt) hring).symm.trans (congrArg (fun t => satInc t.bist.deferCnt 65535) hclaim).symm
  exact ⟨hcnt, (congrArg (fun t => t.bist.slice) hcond).symm.trans (congrArg (fun t => t.bist.slice) hclaim).symm,
    (congrArg (fun t => t.bist.slot) hcond).symm.trans (congrArg (fun t => t.bist.slot) hclaim).symm,
    (congrArg (fun t => t.bist.slotNext) hcond).symm.trans (congrArg (fun t => t.bist.slotNext) hclaim).symm,
    (congrArg State.pairs hcond).symm.trans (congrArg State.pairs hclaim).symm,
    (congrArg State.zones hcond).symm.trans (congrArg State.zones hclaim).symm,
    (congrArg State.chans hcond).symm.trans (congrArg State.chans hclaim).symm⟩

/-! ### Slots -/

section
variable {s : State} {c : SlotCond} (htest : s.testing = true)

theorem exec_bistSlot_untested (h : s.testing = false) : exec (.bistSlot c) s = .next s := if_pos (by simp [h])

include htest

theorem exec_bistSlot_waits (h : s.slotWaits = true) : exec (.bistSlot c) s = .next { s with bist := { s.bist with slotDue := some c } } :=
  (if_neg (by simp [htest])).trans (if_pos h)

theorem exec_bistSlot_runs (h : s.slotWaits = false) : exec (.bistSlot c) s = .next (s.runSlot c).settle :=
  (if_neg (by simp [htest])).trans (if_neg (by simp [h]))

/-- The rolling position has moved on. -/
def State.rolled (s : State) : State :=
  { s with bist := { s.bist with
    slot := s.bist.slotNext, slotNext := (s.bist.slotNext + 1) % 40, shared := none
    cycles := if s.bist.slotNext = 0 && decide (s.bist.slot = 39) then s.bist.cycles + 1#16 else s.bist.cycles } }

omit htest in
/-- The slot of a pair that is FREE. -/
theorem State.runSlot_free {p : Fin 36} (hqueue : s.bist.queue = []) (hnext : s.bist.slotNext = p.val) (hfree : (s.pair p).role = .free)
    (hhalt : (s.pair p).haltBit = false) (hpart : s.partOf p = false) :
    s.runSlot c = if condOk c.start then (s.rolled.seeCond c.start).startSlice p false else (s.rolled.keepClaim p none).defer c.start := by
  have hturn : s.bist.outOfTurn = none := by
    unfold Bist.outOfTurn
    rw [hqueue]
    rfl
  have hrole : (s.rolled.pair p).role = .free := hfree
  have hpart' : s.rolled.partOf p = false := hpart
  have hhalt' : (s.rolled.pair p).haltBit = false := hhalt
  have hslot : s.runSlot c = s.rolled.slotPair p none c := by
    unfold State.runSlot
    rw [hturn, hnext]
    dsimp only
    rw [if_pos p.isLt, State.rolled, hnext]
  rw [hslot]
  generalize s.rolled = u at *
  unfold State.slotPair
  dsimp only
  rw [hrole]
  dsimp only
  rw [if_neg (by simp [hpart', hhalt']), if_neg (by decide)]
end

/-! ### Overdue pairs -/

theorem State.mayBeOverdue_iff {s : State} {p : Nat} : s.mayBeOverdue p = true ↔ (s.pair p).role ∉ [Role.unusable, .split, .halted] := by
  unfold State.mayBeOverdue
  simp [and_assoc]

section
variable {s : State} {p : Fin 36}

theorem exec_bistOverdue_idle (h : (s.pair p).role ∈ [Role.unusable, .split, .halted] ∨ s.bist.odueEv.getLsbD p = true) :
    exec (.bistOverdue p) s = .next s := by
  refine if_neg ?_
  rw [Bool.and_eq_true, State.mayBeOverdue_iff]
  rintro ⟨hrole, hev⟩
  obtain h | h := h
  · exact hrole h
  · rw [h] at hev
    cases hev

theorem exec_bistOverdue_reported (hrole : (s.pair p).role ∉ [Role.unusable, .split, .halted]) (hev : s.bist.odueEv.getLsbD p = false) :
    ∃ t, exec (.bistOverdue p) s = .next t ∧ t.bist.odueEv.getLsbD p = true ∧
      { t with bist := { t.bist with odueEv := s.bist.odueEv }, evRings := s.evRings, hi := s.hi } = s := by
  obtain ⟨u, hu⟩ : ∃ u, u = ({ s with bist := { s.bist with odueEv := setBit s.bist.odueEv p true } } : State) := ⟨_, rfl⟩
  have hexec : exec (.bistOverdue p) s = .next (u.postEvent 0x0B 3 (u.overduePairs.headD p)) := by
    rw [hu]
    exact if_pos (by rw [State.mayBeOverdue_iff.2 hrole, hev]; rfl)
  have honly := u.postEvent_hubPart 0x0B (u.overduePairs.headD p)
  refine ⟨_, hexec, ?_, ?_⟩
  · rw [← honly, hu]
    exact getLsbD_setBit_self _ true p.isLt
  · rw [← honly, hu]
end

/-! ### What the test of an item latches -/

section
variable {s : State}

/-- A fault FD latches on a channel. -/
theorem State.chanFault_spec (n : Nat) (code : BitVec 16) (f : Chan → Chan) : let t := s.chanFault n code f
    t.chan n = { f (s.chan n) with ret := (f (s.chan n)).ret || (f (s.chan n)).isOutput, pulse := none } ∧ (n, code) ∈ t.fd.reports ∧
    t.bist = s.bist ∧ t.zones = s.zones ∧ t.pairs = s.pairs := by
  have hnodup := s.unit_nodup n
  have hmem := s.mem_unit_self n
  refine ⟨?_, List.mem_append_right _ (List.mem_singleton.2 rfl), rfl, rfl, rfl⟩
  refine (State.holdChans_chan (s.updChans (s.unit n) fun _ c => f c) hnodup n).trans ?_
  rw [if_pos hmem, State.updChans_chan _ _ _ _ hnodup, if_pos hmem]

theorem State.grpFault_bist (g : Nat) (code v : BitVec 16) (f : Grp → Grp) : (s.grpFault g code v f).bist = s.bist := by
  obtain ⟨-, -, -, hlatch⟩ := State.grpLatch_rest (s := s) (g := g) f
  exact (congrArg State.bist ((s.grpLatch g f).raise_only code (BitVec.ofNat 12 (0x40 + g)) true true (v.toNat / 10) 0 [])).symm.trans
    (congrArg State.bist hlatch).symm

theorem State.grpFault_grp (g : Nat) (code v : BitVec 16) (f : Grp → Grp) : (s.grpFault g code v f).grp g = (s.grp g).latch f :=
  (congrArg (tabGet Grp.init · g) (State.grpFault_rest code v f).1).trans (State.grpLatch_rest f).1

/-- A lane that has detected a fault of its own. -/
theorem State.laneFault_rest (l : Lane) (code : BitVec 16) (d : Nat) : let t := s.laneFault l code d
    (t.lane l).withhold = true ∧ (∀ z, (t.zone z).stopped) ∧ t.bist = s.bist := by
  obtain ⟨-, -, hwithhold, -, hstopped, -⟩ := faultsAreRecordedAndStopZones.2 s l code d
  exact ⟨hwithhold, hstopped, (congrArg State.bist (s.laneFault_only l code d)).symm⟩

/-- What the result of an item's test leaves (R340, R341). -/
structure State.Tested (s t : State) (item : AnaItem) (i : Nat) (ok : Bool) : Prop where
  deferred : t.bist.deferred = s.bist.deferred
  channel : item = .thresholdLoopback → t.bist.chOk.getLsbD i = ok
  loopback : item = .thresholdLoopback ∨ item = .readback → ok = false → (t.chan i).loopbackFail = true ∧ (i, 0x300A#16) ∈ t.fd.reports
  current : item = .currentLimit → ok = false → (t.chan i).fltOver = true ∧ (i, 0x3005#16) ∈ t.fd.reports
  supply : item = .supplyXchk → (t.grp i).xchkFail = !ok ∧ (ok = false → (t.grp i).uvoffLatch = true)
  meter : item = .lmXchk → (if i = 0 then t.bist.lmAOk else t.bist.lmBOk) = ok
  lane : item = .lmXchk ∨ item = .timebaseRef → ok = false → (t.lane (laneOf i)).withhold = true ∧ ∀ z, (t.zone z).stopped
  serdes : item = .serdesLoopback → (t.port i).serdesFail = !ok
  rest : item = .thresholdLoopback ∨ item = .readback ∨ item = .currentLimit ∨ item = .supplyXchk ∨ item = .serdesLoopback ∨ ok = true →
    t.zones = s.zones ∧ t.pairs = s.pairs

/-- Which clauses of `State.Tested` an item has. -/
theorem State.anaResult_threshold {i : Nat} (hi : i < 64) (ok : Bool) : s.Tested (s.anaResult .thresholdLoopback i ok) .thresholdLoopback i ok := by
  obtain ⟨u, hu⟩ : ∃ u, u = ({ s with bist := { s.bist with chOk := setBit s.bist.chOk i ok } } : State) := ⟨_, rfl⟩
  have hok : u.bist.chOk.getLsbD i = ok := hu ▸ getLsbD_setBit_self _ ok hi
  have hrest : u.zones = s.zones ∧ u.pairs = s.pairs ∧ u.bist.deferred = s.bist.deferred := by
    rw [hu]
    exact ⟨rfl, rfl, rfl⟩
  obtain ⟨hzones, hpairs, hdef⟩ := hrest
  cases ok with
  | true =>
    have heq : s.anaResult .thresholdLoopback i true = u := hu ▸ rfl
    rw [heq]
    exact ⟨hdef, fun _ => hok, nofun, nofun, nofun, nofun, nofun, nofun, fun _ => ⟨hzones, hpairs⟩⟩
  | false =>
    obtain ⟨hchan, hrep, hbist, hz, hp⟩ := State.chanFault_spec (s := u) i 0x300A#16 fun c => { c with loopbackFail := true }
    have heq : s.anaResult .thresholdLoopback i false = u.chanFault i 0x300A#16 fun c => { c with loopbackFail := true } := hu ▸ rfl
    rw [heq]
    exact ⟨(congrArg Bist.deferred hbist).trans hdef, fun _ => by rw [hbist]; exact hok, fun _ _ => ⟨by rw [hchan], hrep⟩, nofun, nofun, nofun,
      nofun, nofun, fun _ => ⟨hz.trans hzones, hp.trans hpairs⟩⟩

theorem State.anaResult_readback (i : Nat) (ok : Bool) : s.Tested (s.anaResult .readback i ok) .readback i ok := by
  cases ok with
  | true => exact ⟨rfl, nofun, nofun, nofun, nofun, nofun, nofun, nofun, fun _ => ⟨rfl, rfl⟩⟩
  | false =>
    obtain ⟨hchan, hrep, hbist, hz, hp⟩ := State.chanFault_spec (s := s) i 0x300A#16 fun c => { c with loopbackFail := true }
    exact ⟨congrArg Bist.deferred hbist, nofun, fun _ _ => ⟨congrArg Chan.loopbackFail hchan, hrep⟩, nofun, nofun, nofun, nofun, nofun,
      fun _ => ⟨hz, hp⟩⟩

theorem State.anaResult_current (i : Nat) (ok : Bool) : s.Tested (s.anaResult .currentLimit i ok) .currentLimit i ok := by
  cases ok with
  | true => exact ⟨rfl, nofun, nofun, nofun, nofun, nofun, nofun, nofun, fun _ => ⟨rfl, rfl⟩⟩
  | false =>
    obtain ⟨hchan, hrep, hbist, hz, hp⟩ := State.chanFault_spec (s := s) i 0x3005#16 fun c => { c with fltOver := true }
    exact ⟨congrArg Bist.deferred hbist, nofun, nofun, fun _ _ => ⟨congrArg Chan.fltOver hchan, hrep⟩, nofun, nofun, nofun, nofun,
      fun _ => ⟨hz, hp⟩⟩

theorem State.anaResult_supply (i : Nat) (ok : Bool) : s.Tested (s.anaResult .supplyXchk i ok) .supplyXchk i ok := by
  obtain ⟨u, hu⟩ : ∃ u, u = s.updGrp i fun q => { q with xchkFail := !ok, xchkRaised := q.xchkRaised || !ok } := ⟨_, rfl⟩
  have hgrp : (u.grp i).xchkFail = !ok := by rw [hu, State.updGrp_grp_self]
  have hrest : u.zones = s.zones ∧ u.pairs = s.pairs ∧ u.bist = s.bist := by
    rw [hu]
    exact ⟨rfl, rfl, rfl⟩
  obtain ⟨hzones, hpairs, hbist⟩ := hrest
  cases ok with
  | true =>
    have heq : s.anaResult .supplyXchk i true = u := hu ▸ rfl
    rw [heq]
    exact ⟨congrArg Bist.deferred hbist, nofun, nofun, nofun, fun _ => ⟨hgrp, nofun⟩, nofun, nofun, nofun, fun _ => ⟨hzones, hpairs⟩⟩
  | false =>
    obtain ⟨v, hv⟩ : ∃ v, v = (u.grp i).vfs := ⟨_, rfl⟩
    have heq : s.anaResult .supplyXchk i false = u.grpFault i 0x3010#16 v fun q => { q with uvoffLatch := true } := by
      rw [hv, hu]
      rfl
    have hself := State.grpFault_grp (s := u) i 0x3010#16 v fun q => { q with uvoffLatch := true }
    have hb := State.grpFault_bist (s := u) i 0x3010#16 v fun q => { q with uvoffLatch := true }
    obtain ⟨-, -, hz, hp⟩ := State.grpFault_rest (s := u) (g := i) 0x3010#16 v fun q => { q with uvoffLatch := true }
    rw [heq]
    exact ⟨congrArg Bist.deferred (hb.trans hbist), nofun, nofun, nofun,
      fun _ => ⟨(congrArg Grp.xchkFail hself).trans hgrp, fun _ => congrArg Grp.uvoffLatch hself⟩, nofun, nofun, nofun,
      fun _ => ⟨hz.trans hzones, hp.trans hpairs⟩⟩

theorem State.anaResult_meter (i : Nat) (ok : Bool) : s.Tested (s.anaResult .lmXchk i ok) .lmXchk i ok := by
  obtain ⟨u, hu⟩ : ∃ u, u = ({ s with bist := match laneOf i with
      | .a => { s.bist with lmAOk := ok }
      | .b => { s.bist with lmBOk := ok } } : State) := ⟨_, rfl⟩
  have hmeter : (if i = 0 then u.bist.lmAOk else u.bist.lmBOk) = ok := by
    rw [hu]
    by_cases h : i = 0 <;> simp [laneOf, h]
  have hrest : u.zones = s.zones ∧ u.pairs = s.pairs ∧ u.bist.deferred = s.bist.deferred := by
    rw [hu]
    cases laneOf i <;> exact ⟨rfl, rfl, rfl⟩
  obtain ⟨hzones, hpairs, hdef⟩ := hrest
  cases ok with
  | true =>
    have heq : s.anaResult .lmXchk i true = u := by
      rw [hu]
      unfold State.anaResult
      cases laneOf i <;> rfl
    rw [heq]
    exact ⟨hdef, nofun, nofun, nofun, nofun, fun _ => hmeter, nofun, nofun, fun _ => ⟨hzones, hpairs⟩⟩
  | false =>
    obtain ⟨n, hn⟩ : ∃ n, n = (u.lane (laneOf i)).laps := ⟨_, rfl⟩
    have heq : s.anaResult .lmXchk i false = u.laneFault (laneOf i) 0x2001#16 n := by
      rw [hn, hu]
      unfold State.anaResult
      cases laneOf i <;> rfl
    obtain ⟨hwithhold, hstopped, hbist⟩ := State.laneFault_rest (s := u) (laneOf i) 0x2001#16 n
    rw [heq]
    exact ⟨(congrArg Bist.deferred hbist).trans hdef, nofun, nofun, nofun, nofun, fun _ => by rw [hbist]; exact hmeter,
      fun _ _ => ⟨hwithhold, hstopped⟩, nofun, by simp⟩

theorem State.anaResult_reference (i : Nat) (ok : Bool) : s.Tested (s.anaResult .timebaseRef i ok) .timebaseRef i ok := by
  cases ok with
  | true => exact ⟨rfl, nofun, nofun, nofun, nofun, nofun, nofun, nofun, fun _ => ⟨rfl, rfl⟩⟩
  | false =>
    obtain ⟨hwithhold, hstopped, hbist⟩ := State.laneFault_rest (s := s) (laneOf i) 0x2005#16 0
    exact ⟨congrArg Bist.deferred hbist, nofun, nofun, nofun, nofun, nofun, fun _ _ => ⟨hwithhold, hstopped⟩, nofun, by simp⟩

theorem State.anaResult_serdes (i : Nat) (ok : Bool) : s.Tested (s.anaResult .serdesLoopback i ok) .serdesLoopback i ok :=
  ⟨rfl, nofun, nofun, nofun, nofun, nofun, nofun, fun _ => congrArg Port.serdesFail (s.updPort_port_self i _), fun _ => ⟨rfl, rfl⟩⟩

theorem State.anaResult_tested {item : AnaItem} {i : Nat} (hi : i < itemCount (anaCode item)) (ok : Bool) :
    s.Tested (s.anaResult item i ok) item i ok := by
  cases item with
  | thresholdLoopback => exact State.anaResult_threshold hi ok
  | readback => exact State.anaResult_readback i ok
  | currentLimit => exact State.anaResult_current i ok
  | supplyXchk => exact State.anaResult_supply i ok
  | lmXchk => exact State.anaResult_meter i ok
  | timebaseRef => exact State.anaResult_reference i ok
  | serdesLoopback => exact State.anaResult_serdes i ok
end

/-! ### Analogue windows -/

section
variable {s : State} {item : AnaItem} {i : Nat} {w : WindowRead}

theorem State.defer_counted (c : TestCond) : (s.defer c).bist.deferCnt = satInc s.bist.deferCnt 65535 ∧
    { s.defer c with bist := s.bist, evRings := s.evRings, hi := s.hi } = s := by
  have honly := s.defer_evRings c
  constructor
  · exact (congrArg (fun t => t.bist.deferCnt) honly).symm
  · rw [← honly]
    rfl

theorem State.runWindow_deferred (passed : Found Bool) (h : ¬ (condOk w.start = true ∧ condOk w.fin = true)) :
    ∃ c, s.runWindow item i w passed = s.defer c := by
  by_cases hstart : condOk w.start = true
  · exact ⟨w.fin, (if_neg (by simp [hstart])).trans (if_pos (by simpa using fun hf => h ⟨hstart, hf⟩))⟩
  · exact ⟨w.start, if_pos (by simpa using hstart)⟩

/-- The words a steward folds of a window's result. -/
def windowWords (item : AnaItem) (i : Nat) (b : Bool) : List Word := [word (anaCode item), word i, word (flag b 0)]

theorem State.runWindow_differs {ok ok' : Bool} (hstart : condOk w.start = true) (hfin : condOk w.fin = true) (h : ok ≠ ok') :
    s.runWindow item i w ⟨ok, ok'⟩ =
      (((s.foldBoth (windowWords item i ok) (windowWords item i ok')).laneFault .a 0x2003#16 0).laneFault .b 0x2003#16 0).settle :=
  (if_neg (by simp [hstart])).trans ((if_neg (by simp [hfin])).trans (if_pos (by simpa using h)))

/-- Both stewards have folded the result of a window, and noted that its conditions held. -/
def State.windowFolded (s : State) (item : AnaItem) (i : Nat) (w : WindowRead) (ok : Bool) : State :=
  (s.foldBoth (windowWords item i ok) (windowWords item i ok)).seeCond w.fin

theorem State.runWindow_agrees (ok : Bool) (hstart : condOk w.start = true) (hfin : condOk w.fin = true) :
    s.runWindow item i w ⟨ok, ok⟩ =
      (((s.windowFolded item i w ok).anaResult item i ok).completeAsks (anaCode item) i stSuccess (if ok then 1 else 3)).settle :=
  (if_neg (by simp [hstart])).trans ((if_neg (by simp [hfin])).trans (if_neg (by simp)))

/-- What completing the requests for an item leaves of its test. -/
theorem State.Tested.asked {t u : State} {ok : Bool} (h : s.Tested t item i ok) (hu : Only askedPart t u) : s.Tested u item i ok := by
  obtain ⟨hdef, hch, hloop, hcur, hsup, hmeter, hlane, hser, hrest⟩ := h
  have hzone (z : Nat) : u.zone z = t.zone z := congrArg (tabGet Zone.init · z) (congrArg State.zones hu).symm
  have hchan : u.chan i = t.chan i := congrArg (tabGet Chan.init · i) (congrArg State.chans hu).symm
  have hgrp : u.grp i = t.grp i := congrArg (tabGet Grp.init · i) (congrArg State.grps hu).symm
  have hport : u.port i = t.port i := congrArg (tabGet Port.init · i) (congrArg State.ports hu).symm
  have hfd : u.fd = t.fd := (congrArg State.fd hu).symm
  have hlanes (l : Lane) : u.lane l = t.lane l := by
    rw [← hu]
    cases l <;> rfl
  have hbist : (fun b : Bist => (b.deferred, b.chOk, b.lmAOk, b.lmBOk)) u.bist = (fun b : Bist => (b.deferred, b.chOk, b.lmAOk, b.lmBOk)) t.bist :=
    (congrArg (fun x : State => (fun b : Bist => (b.deferred, b.chOk, b.lmAOk, b.lmBOk)) x.bist) hu).symm
  simp only [Prod.mk.injEq] at hbist
  obtain ⟨hd, hc, hla, hlb⟩ := hbist
  refine ⟨hd.trans hdef, fun h => ?_, fun h h' => ?_, fun h h' => ?_, fun h => ?_, fun h => ?_, fun h h' => ?_, fun h => ?_, fun h => ?_⟩
  · rw [hc]
    exact hch h
  · rw [hchan, hfd]
    exact hloop h h'
  · rw [hchan, hfd]
    exact hcur h h'
  · rw [hgrp]
    exact hsup h
  · rw [hla, hlb]
    exact hmeter h
  · rw [hlanes]
    exact ⟨(hlane h h').1, fun z => by rw [hzone]; exact (hlane h h').2 z⟩
  · rw [hport]
    exact hser h
  · exact ⟨(congrArg State.zones hu).symm.trans (hrest h).1, (congrArg State.pairs hu).symm.trans (hrest h).2⟩

/-- What a window with a result that both stewards record leaves. -/
theorem State.windowFolded_tested (ok : Bool) (hi : i < itemCount (anaCode item)) (hfin : condOk w.fin = true) :
    let u := ((s.windowFolded item i w ok).anaResult item i ok).completeAsks (anaCode item) i stSuccess (if ok then 1 else 3)
    (s.windowFolded item i w ok).Tested u item i ok ∧ u.bist.deferred = false := by
  have htested := (State.anaResult_tested (s := s.windowFolded item i w ok) hi ok).asked
    (State.completeAsks_only _ (anaCode item) i stSuccess (if ok then 1 else 3))
  refine ⟨htested, htested.deferred.trans ?_⟩
  exact congrArg not hfin
end

section
variable {s : State} {item : AnaItem} {i : BitVec 6} {w : WindowRead} {passed : Found Bool}

theorem exec_analogueWindow_idle (h : s.testing = false ∨ itemCount (anaCode item) ≤ i.toNat ∨ s.windowDue item i.toNat = false) :
    exec (.analogueWindow item i w passed) s = .next s := by
  refine if_pos ?_
  obtain h | h | h := h <;> simp [h]

theorem exec_analogueWindow_busyPort (hitem : item = .serdesLoopback) (h : s.portMax ≤ i.toNat ∨ (s.port i.toNat).st ≠ .disabled) :
    exec (.analogueWindow item i w passed) s = .next s := by
  subst hitem
  refine if_pos ?_
  obtain h | h := h <;> simp [h, anaCode]

variable (htest : s.testing = true) (hi : i.toNat < itemCount (anaCode item)) (hdue : s.windowDue item i.toNat = true)
include htest hi hdue

theorem State.windowTaken (hport : item = .serdesLoopback → i.toNat < s.portMax ∧ (s.port i.toNat).st = .disabled) :
    ¬ (!s.testing || itemCount (anaCode item) ≤ i.toNat || !s.windowDue item i.toNat ||
      (anaCode item = 7 && (decide (s.portMax ≤ i.toNat) || decide ((s.port i.toNat).st ≠ .disabled)))) = true := by
  simp only [Bool.or_eq_true, Bool.and_eq_true, decide_eq_true_eq, Bool.not_eq_true']
  rintro (((h | h) | h) | ⟨h7, h⟩)
  · rw [htest] at h
    cases h
  · omega
  · rw [hdue] at h
    cases h
  · have hitem : item = .serdesLoopback := by cases item <;> simp_all [anaCode]
    obtain ⟨hlt, hdis⟩ := hport hitem
    obtain h | h := h
    · omega
    · exact h hdis

theorem exec_analogueWindow_waits (hsched : inSchedule item = true) (hwin : s.fd.pulseWin ≠ none) : exec (.analogueWindow item i w passed) s =
    .next (s.updFd fun f => { f with pulseWait := f.pulseWait ++ [.window item i.toNat w passed] }) := by
  have hport : item = .serdesLoopback → i.toNat < s.portMax ∧ (s.port i.toNat).st = .disabled := fun h => by
    rw [h] at hsched
    cases hsched
  refine (if_neg (State.windowTaken htest hi hdue hport)).trans ((if_neg (by simp [hsched])).trans ?_)
  exact congrArg Host.Outcome.next (if_pos (Option.isSome_iff_ne_none.2 hwin))

theorem exec_analogueWindow_runs (hport : item = .serdesLoopback → i.toNat < s.portMax ∧ (s.port i.toNat).st = .disabled)
    (hfree : inSchedule item = false ∨ (s.fd.pulseWin = none ∧ s.fd.pulseWait = [] ∧ w.due = [])) :
    exec (.analogueWindow item i w passed) s = .next (s.runWindow item i.toNat w passed) := by
  refine (if_neg (State.windowTaken htest hi hdue hport)).trans ?_
  by_cases hsched : inSchedule item = true
  · obtain ⟨hwin, hwait, hnone⟩ := hfree.resolve_left (by simp [hsched])
    refine (if_neg (by simp [hsched])).trans (congrArg Host.Outcome.next ?_)
    have hback : (s.updFd fun f => { f with pulseWait := [] }) = s := by
      have hfd : ({ s.fd with pulseWait := [] } : Fd) = s.fd := by rw [← hwait]
      exact congrArg (fun x => { s with fd := x }) hfd
    have hfuel : (s.updFd fun f => { f with pulseWait := f.pulseWait ++ [.window item i.toNat w passed] }).waitFuel = 1 := by
      simp [State.waitFuel, State.updFd, hwait, hnone]
    rw [hfuel, if_neg (by simp [State.updFd, hwin])]
    unfold State.nextWait
    simp only [State.updFd, hwait, List.nil_append]
    have hback' : ({ s with fd := { s.fd with pulseWait := [] } } : State) = s := hback
    rw [hback', hnone]
    rfl
  · exact if_pos (by simpa using hsched)
end

/-! ### The obligation -/

section
variable {s : State}

theorem exec_bistSlot_spec (c : SlotCond) (p : Fin 36) (htest : s.testing = true) (hop : s.op = none) (hslice : s.bist.slice = none)
    (hqueue : s.bist.queue = []) (hnext : s.bist.slotNext = p.val) (hfree : (s.pair p).role = .free) (hhalt : (s.pair p).haltBit = false)
    (hpart : s.partOf p = false) : ∃ u : State,
      exec (.bistSlot c) s = .next u.settle ∧ u.bist.slot = p.val ∧ u.bist.slotNext = (p.val + 1) % 40 ∧
      (condOk c.start = true → u.bist.slice = some (p.val, false) ∧ (u.pair p).role = .testing ∧ (u.pair p).run = none) ∧
      (condOk c.start = false → u.bist.deferCnt = satInc s.bist.deferCnt 65535 ∧ u.bist.slice = none ∧ u.pair p = s.pair p) ∧
      (∀ q : Nat, q ≠ p → u.pair q = s.pair q) ∧ u.zones = s.zones ∧ u.chans = s.chans := by
  have hwaits : s.slotWaits = false := by
    unfold State.slotWaits
    rw [hop, hslice]
    rfl
  refine ⟨s.runSlot c, exec_bistSlot_runs htest hwaits, ?_⟩
  rw [State.runSlot_free hqueue hnext hfree hhalt hpart]
  split
  next hcond =>
    obtain ⟨hs, -, -, hrole, hrun, -, -, hother, hzones, hchans⟩ := State.startSlice_spec (s := s.rolled.seeCond c.start) (p := p) false
    have hslot : ((s.rolled.seeCond c.start).startSlice p false).bist.slot = s.bist.slotNext ∧
        ((s.rolled.seeCond c.start).startSlice p false).bist.slotNext = (s.bist.slotNext + 1) % 40 := ⟨rfl, rfl⟩
    rw [hnext] at hslot
    exact ⟨hslot.1, hslot.2, fun _ => ⟨hs, hrole.trans (if_pos hfree), hrun⟩, fun h => absurd (hcond.symm.trans h) (by decide), hother, hzones, hchans⟩
  next hcond =>
    obtain ⟨hcnt, hs, hslot, hslotNext, hpairs, hzones, hchans⟩ := State.keepClaim_defer (s := s.rolled) p none c.start
    have hpair (q : Nat) : ((s.rolled.keepClaim p none).defer c.start).pair q = s.pair q := congrArg (tabGet Pair.init · q) hpairs
    refine ⟨hslot.trans hnext, hslotNext.trans ?_, fun h => absurd h hcond, fun _ => ⟨hcnt, hs.trans hslice, hpair p⟩, fun q _ => hpair q, hzones, hchans⟩
    exact congrArg (fun n => (n + 1) % 40) hnext

variable {p : Fin 36} {c : TestCond} {again : Bool} (hslice : s.bist.slice = some (p.val, again))
  (hrole : (s.pair p).role = .testing ∨ (s.pair p).role = .stopped)
include hslice hrole

theorem exec_sliceEnd_deferred_spec (res : Found SliceResult) (hcond : condOk c = false) : ∃ u : State,
    exec (.sliceEnd p c res) s = .next u.settle ∧ u.bist.slice = none ∧ u.bist.deferCnt = satInc s.bist.deferCnt 65535 ∧
    (u.pair p).role = (if (s.pair p).role = .testing then .free else (s.pair p).role) ∧
    (∀ q : Nat, q ≠ p → u.pair q = s.pair q) ∧ u.zones = s.zones := by
  refine ⟨_, exec_sliceEnd_deferred hslice hrole res hcond, ?_⟩
  obtain ⟨hcnt, hs, -, -, hpairs, hzones, -⟩ := State.keepClaim_defer (s := s.sliceOver p) p
    (if (s.pair p).role == .stopped then some 1 else none) c
  have hself : (s.sliceOver p).pair p = _ := State.updPair_pair_self _ _ _
  refine ⟨hs, hcnt, ?_, fun q hq => (congrArg (tabGet Pair.init · q) hpairs).trans (State.updPair_pair_ne _ _ _ _ hq), hzones⟩
  refine (congrArg (fun t => (tabGet Pair.init t p).role) hpairs).trans ?_
  exact congrArg Pair.role hself

theorem exec_sliceEnd_agrees (r : SliceResult) (hcond : condOk c = true) : ∃ u : State, exec (.sliceEnd p c ⟨r, r⟩) s = .next u.settle ∧
    (r = .pass → s.bist.slicePoison = true → (s.pair p).role = .testing ∨ s.commonFault = false → (u.pair p).role = .free ∧ (u.pair p).stopA = false ∧
      (u.pair p).stopB = false ∧ (u.pair p).passedAt = some s.now ∧ (u.pair p).last = (if again then 2 else 1) ∧ u.bist.slice = none) ∧
    (s.sliceFails p again r → (u.pair p).role = .unusable ∧ (u.pair p).last = 3 ∧ u.bist.slice = none) ∧
    (∀ es, s.bist.slicePoison = true → again = false → r = .rows es → s.sparesCover p es = true → u.bist.slice = some (p.val, true) ∧
      u.bist.sliceRows = repaired es ∧ (u.pair p).role = (s.pair p).role ∧
      ((s.pair p).role = .testing → u.bist.repairs = s.bist.repairs ++ repaired es) ∧
      ((s.pair p).role = .stopped → u.bist.repairs = s.bist.repairs ∧ (u.pair p).rowsA = (s.pair p).rowsA ∧
        (u.pair p).rowsB = (s.pair p).rowsB)) ∧
    ((s.pair p).role = .testing → (∀ e ∈ s.zones, ∀ v, e.2.retained = some v → v.pair ≠ p) →
      (∀ q : Nat, q ≠ p → u.pair q = s.pair q) ∧ u.zones = s.zones) := by
  obtain ⟨v, hv⟩ : ∃ v, v = s.sliceFolded c r := ⟨_, rfl⟩
  have hpoison : v.bist.slicePoison = s.bist.slicePoison := hv ▸ rfl
  have hpair (q : Nat) : v.pair q = s.pair q := hv ▸ rfl
  have hzones : v.zones = s.zones := hv ▸ rfl
  have hrepairs : v.bist.repairs = s.bist.repairs := hv ▸ rfl
  have hcommon : v.commonFault = s.commonFault := hv ▸ rfl
  have hnow : v.now = s.now := hv ▸ rfl
  have hcover (es : List BistEntry) : v.sparesCover p es = s.sparesCover p es := hv ▸ rfl
  have hfails : v.sliceFails p again r ↔ s.sliceFails p again r := by simp only [State.sliceFails, hpoison, hcover]
  refine ⟨_, exec_sliceEnd_judged hslice hrole r hcond, ?_⟩
  rw [← hv]
  refine ⟨?_, fun hf => ?_, ?_, fun htesting hret => ?_⟩
  · rintro rfl hp hback
    rw [State.judgeSlice_passed again (hpoison.trans hp)]
    have hpass := State.passSlice_spec (s := v) (p := p) again (by rwa [hpair, hcommon])
    rwa [hnow] at hpass
  · obtain ⟨es, hes⟩ := State.judgeSlice_failed (hfails.2 hf)
    rw [hes]
    obtain ⟨hr, hl, hs, -⟩ := State.failSlice_spec (s := v) (p := p) es
    exact ⟨hr, hl, hs⟩
  · rintro es hp rfl rfl hspare
    obtain ⟨hs, hrows, hr, htest, hstop, -, -⟩ := State.judgeSlice_repaired (s := v) (p := p) (hpoison.trans hp) ((hcover es).trans hspare)
      (by rwa [hpair])
    rw [hpair, hrepairs] at hstop
    rw [hpair, hrepairs] at htest
    rw [hpair] at hr
    exact ⟨hs, hrows, hr, htest, hstop⟩
  · rw [← hzones] at hret ⊢
    have hothers : (∀ q : Nat, q ≠ p → (v.judgeSlice p again r).pair q = v.pair q) ∧ (v.judgeSlice p again r).zones = v.zones := by
      by_cases hf : v.sliceFails p again r
      · obtain ⟨es, hes⟩ := State.judgeSlice_failed hf
        rw [hes]
        exact (State.failSlice_spec (s := v) (p := p) es).2.2.2 hret
      · have hp : v.bist.slicePoison = true := by
          by_contra h
          exact hf (.inl (by simpa using h))
        cases r with
        | fail es => exact absurd (.inr (.inl ⟨es, rfl⟩)) hf
        | pass =>
          rw [State.judgeSlice_passed again hp]
          exact State.passSlice_alone again (by rwa [hpair]) hret
        | rows es =>
          have hfirst : again = false := by
            by_contra h
            exact hf (.inr (.inr ⟨es, rfl, .inl (by simpa using h)⟩))
          have hspare : v.sparesCover p es = true := by
            by_contra h
            exact hf (.inr (.inr ⟨es, rfl, .inr (by simpa using h)⟩))
          subst hfirst
          obtain ⟨-, -, -, -, -, hother, hz⟩ := State.judgeSlice_repaired (s := v) (p := p) hp hspare (by rwa [hpair])
          exact ⟨hother, hz⟩
    exact ⟨fun q hq => (hothers.1 q hq).trans (hpair q), hothers.2⟩
end

theorem exec_analogueWindow_spec (s : State) (item : AnaItem) (i : BitVec 6) (c : WindowRead) (ok ok' : Bool) (htest : s.testing = true)
    (hi : i.toNat < itemCount (anaCode item)) (hdue : s.windowDue item i.toNat = true)
    (hport : item = .serdesLoopback → i.toNat < s.portMax ∧ (s.port i.toNat).st = .disabled)
    (hfree : inSchedule item = false ∨ (s.fd.pulseWin = none ∧ s.fd.pulseWait = [] ∧ c.due = [])) :
    let conds := condOk c.start = true ∧ condOk c.fin = true
    (¬ conds → ∃ u : State, exec (.analogueWindow item i c ⟨ok, ok'⟩) s = .next u ∧
      u.bist.deferCnt = satInc s.bist.deferCnt 65535 ∧ { u with bist := s.bist, evRings := s.evRings, hi := s.hi } = s) ∧
    (conds → ok ≠ ok' → exec (.analogueWindow item i c ⟨ok, ok'⟩) s = .next (((s.foldBoth (windowWords item i.toNat ok)
      (windowWords item i.toNat ok')).laneFault .a 0x2003#16 0).laneFault .b 0x2003#16 0).settle) ∧
    (conds → ok = ok' → ∃ u : State, exec (.analogueWindow item i c ⟨ok, ok'⟩) s = .next u.settle ∧ u.bist.deferred = false ∧
      s.Tested { u with bist := { u.bist with deferred := s.bist.deferred } } item i.toNat ok) := by
  intro conds
  rw [exec_analogueWindow_runs htest hi hdue hport hfree]
  refine ⟨fun h => ?_, fun ⟨hstart, hfin⟩ h => congrArg Host.Outcome.next (State.runWindow_differs hstart hfin h), fun ⟨hstart, hfin⟩ h => ?_⟩
  · obtain ⟨c', hc⟩ := State.runWindow_deferred (s := s) (item := item) (i := i.toNat) ⟨ok, ok'⟩ h
    rw [hc]
    obtain ⟨hcnt, hrest⟩ := State.defer_counted (s := s) c'
    exact ⟨_, rfl, hcnt, hrest⟩
  · subst h
    rw [State.runWindow_agrees ok hstart hfin]
    obtain ⟨⟨-, hch, hloop, hcur, hsup, hmeter, hlane, hser, hrest⟩, hdef⟩ := State.windowFolded_tested (s := s) (w := c) ok hi hfin
    exact ⟨_, rfl, hdef, ⟨rfl, hch, hloop, hcur, hsup, hmeter, hlane, hser, hrest⟩⟩

/-- Settles O59: slots, slices and windows, each by what its conditions and its two results leave. -/
theorem selfTestDuringWork : Obligations.SelfTestDuringWork := by
  refine ⟨⟨fun s c h => exec_bistSlot_untested h, fun s c h hw => exec_bistSlot_waits h hw,
    fun s c p h hop hs hq hn hf hh hp => exec_bistSlot_spec c p h hop hs hq hn hf hh hp, fun s p c ra rb => ⟨exec_sliceEnd_idle _, fun again hs hr =>
      ⟨fun hc => exec_sliceEnd_deferred_spec hs hr _ hc, fun hc h => exec_sliceEnd_differs hs hr hc h, fun hc h => ?_⟩⟩,
    fun s p => ⟨exec_bistOverdue_idle, exec_bistOverdue_reported⟩⟩, fun s item i c ok ok' => ⟨exec_analogueWindow_idle,
      exec_analogueWindow_busyPort, fun ht hi hd hsc hw => exec_analogueWindow_waits ht hi hd hsc hw, fun ht hi hd hp hf => ?_⟩⟩
  · subst h
    exact exec_sliceEnd_agrees hs hr ra hc
  · intro conds ws
    obtain ⟨hdefer, hdiff, hok⟩ := exec_analogueWindow_spec s item i c ok ok' ht hi hd hp hf
    refine ⟨hdefer, hdiff, fun hc h => ?_⟩
    obtain ⟨u, hu, hdef, htested⟩ := hok hc h
    exact ⟨u, hu, hdef, htested.channel, htested.loopback, htested.current, htested.supply, htested.meter, htested.lane, htested.serdes,
      htested.rest⟩

end Sys2Proof.Machine
end


section
/-!
# Debug access to tiles, replays, test port instructions (R469 to R478)
-/
namespace Sys2Proof.Machine
open Sys2Proof

/-! ### What a word reads -/

section
variable (s : State) (k idx : Nat)

/-- The word of a memory no register names: one an access has named, one a block has a part in, or a free one. -/
def State.heldWord : Word :=
  ((s.knownWord k idx).orElse fun _ => (s.placeBlock k idx).map (Config.blockWord idx)).getD
    (if k / 64 = 0 && s.zeroed (k % 64) then 0#32 else Config.freeTileWord s.freeCtr)

/-- The word a debug read shows. -/
def State.tileWord : Word :=
  match k / 64 with
  | 1 => Config.slotWord (k % 64) idx ((s.activeOn (k % 64)).map fun e => e.2.sec)
  | 2 => (wordAt s.db.inA idx).getD (s.imageWord (k % 64) idx)
  | 3 => Config.outputWord (k % 64) idx ((s.activeOn (k % 64)).map fun e => (e.2.sec, e.2.rt))
  | _ => s.heldWord k idx

theorem State.tileWord_held (h1 : k / 64 ≠ 1) (h2 : k / 64 ≠ 2) (h3 : k / 64 ≠ 3) : s.tileWord k idx = s.heldWord k idx := by
  unfold State.tileWord
  split
  next h => exact absurd h h1
  next h => exact absurd h h2
  next h => exact absurd h h3
  · rfl

theorem State.readTile_fst : (s.readTile k idx).1 = s.tileWord k idx := by
  unfold State.readTile
  dsimp only
  split
  next h =>
    unfold State.tileWord
    generalize k / 64 = n at h ⊢
    subst h
    rfl
  next h =>
    unfold State.tileWord
    generalize k / 64 = n at h ⊢
    subst h
    rfl
  next h =>
    unfold State.tileWord
    generalize k / 64 = n at h ⊢
    subst h
    rfl
  next h1 h2 h3 =>
    rw [State.tileWord_held s k idx h1 h2 h3, State.heldWord]
    cases hknown : s.knownWord k idx with
    | some v => rfl
    | none =>
      cases hblock : s.placeBlock k idx with
      | some r => rfl
      | none =>
        dsimp only [Option.orElse, Option.map, Option.getD]
        split <;> rfl

/-- A read leaves the state, or knows the word from then on. -/
theorem State.readTile_snd : (s.readTile k idx).2 = s ∨ (k / 64 ≠ 1 ∧ k / 64 ≠ 2 ∧ k / 64 ≠ 3 ∧
    (s.readTile k idx).2 = ({ s with freeCtr := s.freeCtr + 1 } : State).setKnown k idx (s.tileWord k idx)) := by
  rw [← s.readTile_fst k idx]
  unfold State.readTile
  dsimp only
  split
  · exact .inl rfl
  · exact .inl rfl
  · exact .inl rfl
  next h1 h2 h3 =>
    cases hknown : s.knownWord k idx with
    | some v => exact .inl rfl
    | none =>
      cases hblock : s.placeBlock k idx with
      | some r => exact .inl rfl
      | none =>
        dsimp only
        split
        · exact .inl rfl
        · exact .inr ⟨h1, h2, h3, rfl⟩

theorem State.knownWord_setKnown (v : Word) : (s.setKnown k idx v).knownWord k idx = some v := by
  have hblock : (s.setKnown k idx v).placeBlock k idx = s.placeBlock k idx := rfl
  unfold State.knownWord
  rw [hblock]
  unfold State.setKnown
  dsimp only
  rw [tabGet_tabSet_self, List.findSome?_cons]
  simp

theorem State.tileWord_setKnown (v : Word) (h1 : k / 64 ≠ 1) (h2 : k / 64 ≠ 2) (h3 : k / 64 ≠ 3) :
    (s.setKnown k idx v).tileWord k idx = v := by
  rw [State.tileWord_held _ k idx h1 h2 h3, State.heldWord, State.knownWord_setKnown]
  rfl

/-- A word read twice reads the same. -/
theorem State.readTile_again : (s.readTile k idx).2.tileWord k idx = s.tileWord k idx := by
  obtain h | ⟨h1, h2, h3, h⟩ := s.readTile_snd k idx
  · rw [h]
  · rw [h]
    exact State.tileWord_setKnown _ k idx _ h1 h2 h3

/-- What the debugger knows of the words, and the free values drawn. -/
abbrev knownPart (s t : State) : State := { s with db := { s.db with tile := t.db.tile }, freeCtr := t.freeCtr }

theorem State.readTile_only : Only knownPart s (s.readTile k idx).2 := by
  obtain h | ⟨-, -, -, h⟩ := s.readTile_snd k idx
  · rw [h]
    rfl
  · rw [h]
    rfl
end

/-! ### What a write changes -/

section
variable (s : State) (k idx : Nat) (w : Word)

/-- A word of state memory has gone into the block it belongs to. -/
def State.blockPut (l : Lane) : State :=
  match s.blockAt (k % 64) idx with
  | none => s
  | some (z, n, ra, rb) => s.updZone z fun y => { y with active := y.active.map fun v => match l with
      | .a => { v with rt := setPad {} n ((Config.blockWritten idx w ra).getD ra) v.rt }
      | .b => { v with rtB := setPad (BlockRt.neg {}) n ((Config.blockWritten idx w rb).getD rb).neg v.rtB } }

theorem State.blockPut_kept {α : Type} (l : Lane) (φ : ZoneVer → α) (hφ : ∀ (v : ZoneVer) (rs : List BlockRt), φ (match l with
    | .a => { v with rt := rs }
    | .b => { v with rtB := rs }) = φ v) (z : Nat) :
    ((s.blockPut k idx w l).zone z).st = (s.zone z).st ∧ ((s.blockPut k idx w l).zone z).active.map φ = (s.zone z).active.map φ := by
  unfold State.blockPut
  split
  · exact ⟨rfl, rfl⟩
  next y n ra rb _ =>
    by_cases hz : z = y
    · rw [hz, State.updZone_zone_self]
      refine ⟨rfl, ?_⟩
      cases (s.zone y).active with
      | none => rfl
      | some v =>
        refine congrArg some ?_
        cases l with
        | a => exact hφ v _
        | b => exact hφ v _
    · rw [State.updZone_zone_ne _ _ _ _ hz]
      exact ⟨rfl, rfl⟩

theorem State.blockPut_only (l : Lane) : Only (fun s t => { s with zones := t.zones }) s (s.blockPut k idx w l) := by
  unfold State.blockPut
  split <;> rfl

theorem State.writeTile_state (l : Lane) (h : k / 64 = 0) : s.writeTile l k idx w = match l with
    | .a => (s.blockPut k idx w .a).setKnown k idx w
    | .b => s.blockPut k idx w .b := by
  unfold State.writeTile
  generalize k / 64 = n at h ⊢
  subst h
  cases l <;> rfl

theorem State.writeTile_image (l : Lane) (h : k / 64 = 2) : s.writeTile l k idx w = if (s.pair (k % 64)).role ≠ .halted then s else
    { s with db := match l with
      | .a => { s.db with inA := putWord s.db.inA idx w }
      | .b => { s.db with inB := putWord s.db.inB idx (~~~w) } } := by
  unfold State.writeTile
  generalize k / 64 = n at h ⊢
  subst h
  rfl

theorem State.writeTile_other (l : Lane) (h0 : k / 64 ≠ 0) (h2 : k / 64 ≠ 2) : s.writeTile l k idx w = s.setKnown k idx w := by
  unfold State.writeTile
  dsimp only
  split
  next h => exact absurd h h0
  next h => exact absurd h h2
  · rfl

/-- The debugger's own part, and the zones. -/
abbrev tilePart (s t : State) : State := { s with db := t.db, zones := t.zones }

theorem State.writeTile_only (l : Lane) : Only tilePart s (s.writeTile l k idx w) ∧ (k / 64 ≠ 0 → (s.writeTile l k idx w).zones = s.zones) ∧
    (s.writeTile l k idx w).db.replayPend = s.db.replayPend ∧ (s.writeTile l k idx w).db.replayAt = s.db.replayAt ∧
    (s.writeTile l k idx w).db.data = s.db.data := by
  by_cases h0 : k / 64 = 0
  · rw [State.writeTile_state s k idx w l h0]
    have honly := s.blockPut_only k idx w l
    cases l with
    | a =>
      generalize s.blockPut k idx w .a = u at *
      rw [← honly]
      exact ⟨rfl, fun h => absurd h0 h, rfl, rfl, rfl⟩
    | b =>
      dsimp only
      rw [← honly]
      exact ⟨rfl, fun h => absurd h0 h, rfl, rfl, rfl⟩
  · by_cases h2 : k / 64 = 2
    · rw [State.writeTile_image s k idx w l h2]
      split
      · exact ⟨rfl, fun _ => rfl, rfl, rfl, rfl⟩
      · cases l <;> exact ⟨rfl, fun _ => rfl, rfl, rfl, rfl⟩
    · rw [State.writeTile_other s k idx w l h0 h2]
      exact ⟨rfl, fun _ => rfl, rfl, rfl, rfl⟩

/-- What a write of one lane leaves of the versions' blocks in the other. -/
theorem State.writeTile_otherLane {α : Type} (l : Lane) (φ : ZoneVer → α) (hφ : ∀ (v : ZoneVer) (rs : List BlockRt), φ (match l with
    | .a => { v with rt := rs }
    | .b => { v with rtB := rs }) = φ v) (z : Nat) : ((s.writeTile l k idx w).zone z).st = (s.zone z).st ∧
    ((s.writeTile l k idx w).zone z).active.map φ = (s.zone z).active.map φ := by
  by_cases h0 : k / 64 = 0
  · rw [State.writeTile_state s k idx w l h0]
    cases l with
    | a => exact s.blockPut_kept k idx w .a φ hφ z
    | b => exact s.blockPut_kept k idx w .b φ hφ z
  · have hzone : (s.writeTile l k idx w).zone z = s.zone z := congrArg (tabGet Zone.init · z) ((s.writeTile_only k idx w l).2.1 h0)
    rw [hzone]
    exact ⟨rfl, rfl⟩

/-- A word written reads as written. -/
theorem State.writeTile_reads (h1 : k / 64 ≠ 1) (h3 : k / 64 ≠ 3) (hhalt : k / 64 = 2 → (s.pair (k % 64)).role = .halted) :
    (s.writeTile .a k idx w).tileWord k idx = w := by
  by_cases h0 : k / 64 = 0
  · rw [State.writeTile_state s k idx w .a h0]
    exact State.tileWord_setKnown _ k idx w h1 (by omega) h3
  · by_cases h2 : k / 64 = 2
    · rw [State.writeTile_image s k idx w .a h2, if_neg (not_not_intro (hhalt h2))]
      unfold State.tileWord
      rw [h2]
      simp [wordAt, putWord]
    · rw [State.writeTile_other s k idx w .a h0 h2]
      exact State.tileWord_setKnown _ k idx w h1 h2 h3
end

/-! ### Accesses -/

section
variable (s : State) (v : Word)

/-- The number of words of a space. -/
def tileTop (space : Nat) : Nat :=
  match space with
  | 0 => 4352
  | 1 => 1024
  | 2 => 256
  | 3 => 8
  | 4 => 8192
  | _ => 0

theorem tileTop_of_ge {space : Nat} (h : 5 ≤ space) : tileTop space = 0 := by
  unfold tileTop
  split
  all_goals omega

theorem State.dbPlace_eq (space idx : Nat) : s.dbPlace space idx = if tileTop space ≤ idx then none
    else if space = 4 then (if s.db.broken then some 256 else none) else s.haltedPair.map fun p => 64 * space + p := rfl

/-- A place of debug access: the steward's memory, or a memory of the halted pair. -/
theorem State.dbPlace_some {space idx i : Nat} (h : s.dbPlace space idx = some i) :
    (space = 4 ∧ i = 256) ∨ (space < 4 ∧ i / 64 = space ∧ (s.pair (i % 64)).role = .halted) := by
  rw [State.dbPlace_eq] at h
  split at h
  · cases h
  next htop =>
    split at h
    next h4 =>
      split at h
      · cases h
        exact .inl ⟨h4, rfl⟩
      · cases h
    next h4 =>
      obtain ⟨p, hp, rfl⟩ := Option.map_eq_some_iff.1 h
      have hmem : p ∈ below 36 fun p => (s.pair p).role == .halted := List.mem_of_mem_head? hp
      obtain ⟨hlt, hhalt⟩ := mem_below.1 hmem
      have hspace : space < 4 := by
        by_contra hge
        exact htop (by rw [tileTop_of_ge (by omega)]; exact Nat.zero_le _)
      exact .inr ⟨hspace, by omega, by rw [show (64 * space + p) % 64 = p by omega]; simpa using hhalt⟩

theorem State.dbPlace_none (hhalt : s.haltedPair = none) (hbroken : s.db.broken = false) (space idx : Nat) : s.dbPlace space idx = none := by
  rw [State.dbPlace_eq, hhalt, hbroken]
  split
  · rfl
  · split <;> rfl

theorem exec_debugAccess_off (hen : s.db.en = false) : exec (.debugAccess v) s = .next (s.wrej 3 0 0x1B008) :=
  congrArg Host.Outcome.next (if_pos (by simp [hen]))

variable {s v} (hen : s.db.en = true)
include hen

theorem exec_debugAccess_refused (hk : s.dbPlace (bits v 31 29) (bits v 12 0) = none) : exec (.debugAccess v) s =
    .next { s with db := { s.db with addr := v &&& 0xF0001FFF#32, refused := true } } := by
  refine congrArg Host.Outcome.next ((if_neg (by simp [hen])).trans ?_)
  have hk' : ({ s with db := { s.db with addr := v &&& 0xF0001FFF#32 } } : State).dbPlace (bits v 31 29) (bits v 12 0) = none := hk
  dsimp only
  rw [hk']
  rfl

variable {i : Nat} (hk : s.dbPlace (bits v 31 29) (bits v 12 0) = some i)
include hk

theorem exec_debugAccess_readOnly (hwr : bit v 28 = true) (hspace : bits v 31 29 = 1 ∨ bits v 31 29 = 3) : exec (.debugAccess v) s =
    .next { s with db := { s.db with addr := v &&& 0xF0001FFF#32, refused := true } } := by
  refine congrArg Host.Outcome.next ((if_neg (by simp [hen])).trans ?_)
  have hk' : ({ s with db := { s.db with addr := v &&& 0xF0001FFF#32 } } : State).dbPlace (bits v 31 29) (bits v 12 0) = some i := hk
  dsimp only
  rw [hk', hwr]
  exact (if_pos rfl).trans (if_pos (by simpa using hspace))

theorem exec_debugAccess_write (hwr : bit v 28 = true) (h1 : bits v 31 29 ≠ 1) (h3 : bits v 31 29 ≠ 3) : ∃ t,
    exec (.debugAccess v) s = .next t ∧ t.db.accDone = true ∧ (t.readTile i (bits v 12 0)).1 = s.db.data ∧
    t.db.replayPend = s.db.replayPend ++ (if bits v 31 29 = 4 then [] else [(i, bits v 12 0, s.db.data)]) ∧
    (∀ z, (t.zone z).st = (s.zone z).st ∧ (t.zone z).active.map (fun w => w.rtB) = (s.zone z).active.map fun w => w.rtB) ∧
    (bits v 31 29 ≠ 0 → t.zones = s.zones) ∧ { t with db := s.db, zones := s.zones } = s := by
  obtain ⟨u, hu⟩ : ∃ u, u = ({ s with db := { s.db with addr := v &&& 0xF0001FFF#32 } } : State) := ⟨_, rfl⟩
  obtain ⟨w, hw⟩ : ∃ w, w = u.writeTile .a i (bits v 12 0) s.db.data := ⟨_, rfl⟩
  have hexec : exec (.debugAccess v) s = .next { w with db := { w.db with accDone := true, replayPend := w.db.replayPend ++
      (if bits v 31 29 = 4 then [] else [(i, bits v 12 0, w.db.data)]) } } := by
    refine congrArg Host.Outcome.next ((if_neg (by simp [hen])).trans ?_)
    have hk' : u.dbPlace (bits v 31 29) (bits v 12 0) = some i := by rw [hu]; exact hk
    dsimp only
    rw [← hu, hk', hwr, hw]
    refine (if_pos rfl).trans (if_neg ?_)
    simp [h1, h3]
  obtain ⟨honly, hzones, hpend, -, hdata⟩ := u.writeTile_only i (bits v 12 0) s.db.data .a
  have hother := u.writeTile_otherLane i (bits v 12 0) s.db.data .a (fun x => x.rtB) (fun _ _ => rfl)
  have hplace := s.dbPlace_some hk
  have hreads := u.writeTile_reads i (bits v 12 0) s.db.data (by omega) (by omega) (fun h2 => by
    obtain ⟨-, h⟩ | ⟨-, -, h⟩ := hplace
    · omega
    · rw [hu]
      exact h)
  rw [← hw] at honly hzones hpend hdata hreads
  rw [← hw] at hother
  have hudata : u.db.data = s.db.data := by rw [hu]
  rw [hudata] at hdata
  refine ⟨_, hexec, rfl, (State.readTile_fst _ i _).trans hreads, ?_, ?_, fun h0 => ?_, ?_⟩
  · rw [hdata, hpend, hu]
  · rw [hu] at hother
    exact hother
  · rw [hu] at hzones
    exact hzones (by omega)
  · rw [← honly, hu]

theorem exec_debugAccess_read (hwr : bit v 28 = false) : ∃ t, exec (.debugAccess v) s = .next t ∧ t.db.accDone = true ∧
    t.db.data = (s.readTile i (bits v 12 0)).1 ∧ (t.readTile i (bits v 12 0)).1 = t.db.data ∧
    { t with db := s.db, freeCtr := s.freeCtr } = s := by
  obtain ⟨u, hu⟩ : ∃ u, u = ({ s with db := { s.db with addr := v &&& 0xF0001FFF#32 } } : State) := ⟨_, rfl⟩
  obtain ⟨r, hr⟩ : ∃ r, r = u.readTile i (bits v 12 0) := ⟨_, rfl⟩
  have hexec : exec (.debugAccess v) s = .next { r.2 with db := { r.2.db with accDone := true, data := r.1 } } := by
    refine congrArg Host.Outcome.next ((if_neg (by simp [hen])).trans ?_)
    have hk' : u.dbPlace (bits v 31 29) (bits v 12 0) = some i := by rw [hu]; exact hk
    dsimp only
    rw [← hu, hk', hwr]
    dsimp only
    rw [← hr]
    exact if_neg (by decide)
  have hword : r.1 = s.tileWord i (bits v 12 0) := by
    rw [hr, State.readTile_fst, hu]
    rfl
  have hagain : r.2.tileWord i (bits v 12 0) = r.1 := by
    rw [hr, State.readTile_again, State.readTile_fst]
  have honly : Only knownPart u r.2 := hr ▸ u.readTile_only i _
  refine ⟨_, hexec, rfl, hword.trans (State.readTile_fst _ _ _).symm, (State.readTile_fst _ _ _).trans hagain, ?_⟩
  rw [← honly, hu]
end

/-! ### Replays -/

section
variable {s : State}

theorem exec_replayFail_none (h : s.db.replayPend = []) : exec .replayFail s = .next s := by
  change execReplayFail s = _
  unfold execReplayFail
  rw [h]
  rfl

theorem exec_replayFail_front {k i : Nat} {w : Word} {r : List (Nat × Nat × Word)} (h : s.db.replayPend = (k, i, w) :: r) : ∃ t,
    exec .replayFail s = .next t ∧ t.db.replayFail = true ∧ t.db.replayPend = r ∧ (k, i) ∈ t.db.replayAt ∧
    (∀ z, (t.zone z).st = (s.zone z).st ∧ (t.zone z).active.map (fun w => w.rt) = (s.zone z).active.map fun w => w.rt) ∧
    { t with db := s.db, zones := s.zones, freeCtr := s.freeCtr } = s := by
  obtain ⟨u, hu⟩ : ∃ u, u = ({ s with freeCtr := s.freeCtr + 1 } : State) := ⟨_, rfl⟩
  obtain ⟨x, hx⟩ : ∃ x, x = if (Config.freeMeasure s.freeCtr).getLsbD 0 then u.writeTile .b k i w else u := ⟨_, rfl⟩
  have hexec : exec .replayFail s = .next { x with db := { x.db with
      replayFail := true, replayPend := r, replayAt := if x.db.replayAt.contains (k, i) then x.db.replayAt else (k, i) :: x.db.replayAt } } := by
    change execReplayFail s = _
    unfold execReplayFail
    rw [h, hx, hu]
    rfl
  have honly : Only tilePart u x := by
    rw [hx]
    split
    · exact (u.writeTile_only k i w .b).1
    · rfl
  have hother (z : Nat) : (x.zone z).st = (u.zone z).st ∧ (x.zone z).active.map (fun w => w.rt) = (u.zone z).active.map fun w => w.rt := by
    rw [hx]
    split
    · exact u.writeTile_otherLane k i w .b (fun x => x.rt) (fun _ _ => rfl) z
    · exact ⟨rfl, rfl⟩
  refine ⟨_, hexec, rfl, rfl, ?_, ?_, ?_⟩
  · by_cases hc : x.db.replayAt.contains (k, i) = true
    · rw [if_pos hc]
      simpa using hc
    · rw [if_neg hc]
      exact List.mem_cons_self
  · rw [hu] at hother
    exact hother
  · rw [← honly, hu]
end

/-! ### The test port -/

section
variable (s : State)

theorem State.idcode_eq : s.idcode = (if s.rlOn 0 then 0#32 else ((s.otpWord 1).shadow >>> (32 : Nat)).setWidth 32) ||| 1#32 := by
  unfold State.idcode State.shadowWord setBit
  rw [if_pos rfl]
  refine congrArg (· ||| 1#32) ?_
  split
  · rfl
  · apply BitVec.eq_of_toNat_eq
    rw [word, BitVec.toNat_ofNat, BitVec.toNat_setWidth, BitVec.toNat_ushiftRight, Nat.shiftRight_eq_div_pow]

theorem State.cellDriven_of_ne (p : ScanPin) (h : s.db.ir ≠ .extest) : s.cellDriven p = none := if_neg (by simp [h])

theorem exec_jtag_samplePreload : exec (.jtagInstruction .samplePreload) s = .next { s with
    freeCtr := s.freeCtr + 1, db := { s.db with ir := .samplePreload, cells := Config.freePins s.freeCtr } } := by
  change execJtagInstruction .samplePreload s = _
  unfold execJtagInstruction
  have hir : (if s.pm.bench then JtagOp.samplePreload else irKept .samplePreload) = .samplePreload := by split <;> rfl
  dsimp only
  rw [hir]
  rfl

theorem exec_jtagInstruction (op : JtagOp) (h : op ≠ .samplePreload) :
    let ir := if s.pm.bench = true ∨ op = .idcode then op else .bypass
    exec (.jtagInstruction op) s = .next { s with db := { s.db with
      ir := ir, dr := if ir = .idcode then s.idcode else if ir = .bypass then 0#32 else s.db.dr } } := by
  intro ir
  have hir : (if s.pm.bench then op else irKept op) = ir := by
    cases hb : s.pm.bench with
    | true => simp [ir, hb]
    | false =>
      simp only [ir, hb]
      cases op <;> simp_all [irKept]
  have hne : ir ≠ .samplePreload := by
    simp only [ir]
    split
    · exact h
    · decide
  change execJtagInstruction op s = _
  unfold execJtagInstruction
  dsimp only
  rw [hir, if_neg hne, if_neg hne]
  generalize ir = j at *
  cases j <;> rfl
end

/-- Settles O37: an access goes to the word its place names, a replay to lane B alone. -/
theorem debugAccesses : Obligations.DebugAccesses := fun s =>
  ⟨fun v => ⟨fun hen => exec_debugAccess_off s v hen, fun hen hk => exec_debugAccess_refused hen hk,
      fun _ hen hk hwr hspace => exec_debugAccess_readOnly hen hk hwr hspace, fun _ hen hk hwr h1 h3 => exec_debugAccess_write hen hk hwr h1 h3,
      fun _ hen hk hwr => exec_debugAccess_read hen hk hwr⟩,
    fun space idx hhalt hbroken => s.dbPlace_none hhalt hbroken space idx, exec_replayFail_none, fun _ _ _ _ h => exec_replayFail_front h,
    s.idcode_eq, s.cellDriven_of_ne, exec_jtag_samplePreload s, exec_jtagInstruction s⟩

end Sys2Proof.Machine
end


section
/-!
# Commands of images, inputs, passes and transmission complete (O60)
-/
namespace Sys2Proof.Machine
open Sys2Proof

/-! ### Images -/

theorem exec_imgLoad_first {s0 : State} {o : Origin} {total len : Word} {a b : Image} (hlo : 1 ≤ total.toNat) (hhi : total.toNat ≤ 2097152)
    (hlen : 4 ≤ len.toNat) (hlen' : len.toNat ≤ 65536) (hword : len.toNat % 4 = 0) (hfit : len.toNat ≤ total.toNat + 3)
    (htakes : s0.takes o (.imgLoad o 0#32 total len true a b) = true) : exec (.imgLoad o 0#32 total len true a b) s0 =
      .next (({ s0.begun o with buf := { total := total.toNat } } : State).startMove o 0x01
        { kind := .load 0 total.toNat a b, bytes := len.toNat, busOk := true }) := by
  change execImgLoad o 0#32 total len true a b s0 = _
  rw [execImgLoad, State.command_of_takes htakes]
  have hgood : ¬ (decide (total.toNat = 0) || decide (2097152 < total.toNat) || !inRange 4 65536 len.toNat || decide (len.toNat % 4 ≠ 0) ||
      decide (total.toNat + 3 < (0#32).toNat + len.toNat)) = true := by
    simp [inRange]
    omega
  refine (if_neg hgood).trans ((if_neg (by simp)).trans ((if_neg (by simp)).trans ?_))
  rfl

section
variable {s : State} {op : LongOp} {boot : Bool}

/-- Where no command of the host makes a step, none is counted. -/
theorem State.countOthers_none (h : ∀ (r : Fin 16) (t : Taken), t ∈ (s.ring r).outs → s.stepping r t = false) : s.countOthers = s := by
  refine foldl_stays (fun r => ?_) _
  have hnone : (s.ring r).outs.filter (s.stepping r) = [] := List.filter_eq_nil_iff.2 fun t ht => by rw [h r t ht]; decide
  rw [hnone]
  rfl

variable (hop : s.op = some op) (hkind : op.kind = .verify boot)
include hop hkind

theorem State.opCheck_verify (h : s.commonFault = true → op.req0 = true) : s.opCheck = s := by
  unfold State.opCheck
  rw [hop]
  dsimp only
  rw [hkind]
  refine if_neg ?_
  cases hc : s.commonFault with
  | false => simp
  | true => simp [h hc]

omit hop in
theorem State.countStep_verify (h : ∀ o, op.o = some o → o.progress = false) : s.countStep op = { s with op := some { op with steps := op.steps + 1 } } := by
  have hfold : s.foldStep op = s := by
    unfold State.foldStep
    rw [hkind]
  unfold State.countStep
  dsimp only
  rw [hfold]
  cases ho : op.o with
  | none => rfl
  | some o =>
    dsimp only
    rw [h o ho]
    rfl

theorem exec_longOperationStep_verify (hdormant : s.pm.dstate ≠ .dormant) (hoff : s.pm.dstate ≠ .off)
    (hstep : ∀ (r : Fin 16) (t : Taken), t ∈ (s.ring r).outs → s.stepping r t = false) (hreq : s.commonFault = true → op.req0 = true)
    (hprog : ∀ o, op.o = some o → o.progress = false) :
    exec (.longOperationStep ⟨false, []⟩) s = .next ({ s with op := some { op with steps := op.steps + 1 } } : State).settle := by
  change execLongOperationStep ⟨false, []⟩ s = _
  unfold execLongOperationStep
  rw [if_neg hoff]
  dsimp only
  rw [State.moveAll_nil, if_neg hdormant, State.opCheck_verify hop hkind hreq, State.countOthers_none hstep, hop]
  dsimp only
  rw [State.countStep_verify hkind hprog]
  rfl
end

/-! ### Inputs -/

section
variable {s : State} {n : Fin 64}

theorem exec_wireBreak_reads (mv vfs ua : Nat) (hmode : (s.chan n).mode = 1#2) (hwb : (s.chan n).wbEn = true) : ∃ t,
    exec (.wireBreak n ⟨mv, vfs, ua⟩) s = .next t ∧ (t.chan n).raw = (s.chan n).rawLevel n mv vfs ∧
    ((t.chan n).wireBreak = true ↔ (s.chan n).rawLevel n mv vfs = false ∧ ua < breakUa n) ∧
    (∀ j, j ≠ n.val → t.chan j = s.chan j) ∧ { t with chans := s.chans, evRings := s.evRings, hi := s.hi } = s := by
  by_cases hnew : ((s.chan n).rawLevel n mv vfs = false ∧ ua < breakUa n) ∧ (s.chan n).wireBreak = false
  · obtain ⟨⟨hoff, hua⟩, hwas⟩ := hnew
    obtain ⟨t, ht, hbreak, hraw, -, -, -, hother, hrest⟩ := exec_wireBreak_new hmode hwb hoff hua hwas
    exact ⟨t, ht, hraw.trans hoff.symm, by simp [hbreak, hoff, hua], hother, hrest⟩
  · have hexec := exec_wireBreak (mv := mv) (vfs := vfs) (ua := ua) hmode hwb
    dsimp only at hexec
    rw [if_neg (by simpa using hnew)] at hexec
    refine ⟨_, hexec, ?_, ?_, fun j hj => State.updChan_chan_ne _ _ _ _ hj, rfl⟩
    · rw [State.updChan_chan_self]
    · rw [State.updChan_chan_self]
      simp

theorem exec_inputOv_reads (mv : Nat) (hmode : (s.chan n).mode = 1#2) (hmv : 42000 < mv ∨ mv < 40000) : ∃ t, exec (.inputOv n mv) s = .next t ∧
    (t.chan n).ov = decide (42000 < mv) ∧ (t.chan n).restoring = ((s.chan n).restoring || decide (42000 < mv)) ∧
    (∀ j, j ≠ n.val → t.chan j = s.chan j) ∧ { t with chans := s.chans } = s := by
  have hfree := Nat.mod_lt (Config.freeThreshold (n + 1024)) (show 1001 > 0 by decide)
  have habove : (if 41000 + Config.freeThreshold (n + 1024) % 1001 < mv then true else if mv < 40000 then false else (s.chan n).ov) = decide (42000 < mv) := by
    obtain h | h := hmv
    · rw [if_pos (by omega), decide_eq_true h]
    · rw [if_neg (by omega), if_pos h, decide_eq_false (by omega)]
  have hexec := exec_inputOv (s := s) (n := n) mv hmode
  dsimp only at hexec
  rw [habove] at hexec
  refine ⟨_, hexec, ?_, ?_, fun j hj => State.updChan_chan_ne _ _ _ _ hj, rfl⟩
  · rw [State.updChan_chan_self]
  · rw [State.updChan_chan_self]

theorem exec_inputRestore_good (hgood : s.inputBad n = false) : ∃ t, exec (.inputRestore n) s = .next t ∧
    t.chan n = { s.chan n with restoring := false } ∧ t.inputPt n = (if (s.chan n).level then 3#2 else 2#2) ∧
    (∀ j, j ≠ n.val → t.chan j = s.chan j) ∧ { t with chans := s.chans } = s := by
  have hself := State.updChan_chan_self s n.val fun c => { c with restoring := false }
  refine ⟨_, congrArg Host.Outcome.next (if_neg (by simp [hgood])), hself, ?_, fun j hj => State.updChan_chan_ne _ _ _ _ hj, rfl⟩
  rw [State.inputPt_of_good (State.inputBad_restored.trans hgood) (by rw [hself]), hself]
end

/-! ### Passes and timers -/

section
variable (s : State)

theorem State.foldl_markNum {α : Type} {f : State → α → State} (h : ∀ t x, (f t x).markNum = t.markNum) (xs : List α) :
    (xs.foldl f s).markNum = s.markNum := by
  induction xs generalizing s with
  | nil => rfl
  | cons x xs ih => rw [List.foldl_cons, ih, h]

theorem State.putPt_markNum (l : Lane) (a : Nat) (p : Pt) : (s.putPt l a p).markNum = s.markNum := by cases l <;> rfl

theorem State.putPts_markNum (l : Lane) (n : Nat) (g : Nat → Nat) (p : Nat → Pt) :
    ((List.range n).foldl (fun t i => t.putPt l (g i) (p i)) s).markNum = s.markNum :=
  s.foldl_markNum (fun t _ => t.putPt_markNum _ _ _) _

theorem State.setConn_markNum (k : Nat) (st : ConnSt) (cause : Option Nat) : (s.setConn k st cause).markNum = s.markNum :=
  (congrArg State.markNum (s.setConn_only k st cause)).symm

theorem State.stale_markNum (k cause : Nat) : (s.stale k cause).markNum = s.markNum := s.setConn_markNum _ _ _

theorem State.nameFrame_markNum (k : Nat) (ts : Word) (n : Nat) (xs ys : List Pt) (okA okB : Bool) :
    (s.nameFrame k ts n xs ys okA okB).markNum = s.markNum := by
  unfold State.nameFrame
  dsimp only
  split
  · rfl
  · simp only [apply_ite State.markNum, State.updConn_markNum, State.stale_markNum, State.setConn_markNum, State.putPts_markNum, ite_self]

theorem State.seeOff_markNum (num : Word) (pts : List (Nat × Pt)) (off : List Nat) : (s.seeOff num pts off).markNum = s.markNum := by
  unfold State.seeOff
  extract_lets later s1
  have h1 : s1.markNum = s.markNum := by
    refine s.foldl_markNum (fun t e => ?_) s.zones
    split
    · split <;> rfl
    · rfl
  split
  · split
    · exact (apply_ite State.markNum _ _ _).trans ((ite_self _).trans h1)
    · exact h1
  · exact h1

theorem State.applyTrans_markNum (t : Trans) : (s.applyTrans t).markNum = s.markNum := by
  unfold State.applyTrans
  split
  · exact s.nameFrame_markNum _ _ _ _ _ _ _
  · refine (State.seeOff_markNum _ _ _ _).trans ?_
    exact (State.foldl_markNum _ (fun u (e : Nat × Pt) => u.putPt_markNum .b e.1 e.2) _).trans (s.foldl_markNum (fun u (e : Nat × Pt) => u.putPt_markNum .a e.1 e.2) _)
  · exact (State.foldl_markNum _ (fun u (e : Nat × Pt) => u.putPt_markNum .b e.1 e.2) _).trans (s.foldl_markNum (fun u (e : Nat × Pt) => u.putPt_markNum .a e.1 e.2) _)

theorem State.startPass_markNum (p : Nat) (coupled : Bool) : (s.startPass p coupled).markNum = s.markNum := by
  have hzones : ((s.zonesOn p).foldl (fun t z => t.updZone z fun y => { y with active := y.active.map ZoneVer.due }) s).markNum = s.markNum :=
    s.foldl_markNum (f := fun t z => t.updZone z fun y => { y with active := y.active.map ZoneVer.due }) (fun _ _ => rfl) _
  unfold State.startPass
  dsimp only [State.updPair]
  split <;> exact hzones

theorem State.startPasses_markNum : s.startPasses.markNum = s.markNum := by
  have hfold (inCp : Nat → Bool) : ((List.range 36).foldl (fun t p => if (t.pair p).mayPass && (t.pair p).trig && (t.pair p).run.isNone && !inCp p then
      t.startPass p false else t) s).markNum = s.markNum := by
    refine s.foldl_markNum (fun t p => ?_) _
    split
    · exact t.startPass_markNum p false
    · rfl
  unfold State.startPasses
  cases s.coupledPairs with
  | none => exact hfold _
  | some e =>
    dsimp only
    split
    · exact (State.startPass_markNum _ _ _).trans ((State.startPass_markNum _ _ _).trans (hfold _))
    · exact hfold _

theorem State.triggerReaders_markNum : s.triggerReaders.markNum = s.markNum := by
  refine s.foldl_markNum (fun t p => ?_) _
  split <;> rfl

/-- What a mark sends and reports. -/
abbrev sheetPart (s t : State) : State := { s with
  conns := t.conns, owed := t.owed, snap := t.snap, rings := t.rings, evRings := t.evRings, evqA := t.evqA, evqB := t.evqB, hi := t.hi, fl := t.fl }

theorem sheetPart_part : Part sheetPart := ⟨fun _ => rfl, fun _ _ _ => rfl⟩

theorem State.buildFrame_sheet (k : Nat) : Only sheetPart s (s.buildFrame k) := by
  unfold State.buildFrame
  dsimp only
  split
  · rfl
  · split
    · rfl
    · split
      · rfl
      · split <;> rfl

theorem State.buildAll_sheet : Only sheetPart s s.buildAll :=
  Only.foldl (f := fun (t : State) (e : Nat × Conn) => t.buildFrame e.1) sheetPart_part (fun t e => t.buildFrame_sheet e.1) s.conns s

theorem State.takeSheet_sheet : Only sheetPart s s.takeSheet := by
  unfold State.takeSheet
  split
  · rfl
  · split <;> rfl
end

theorem exec_releaseMark_images {s : State} (h : s.lanesRun = true) : ∃ u : State, exec .releaseMark s = .next u.settle ∧
    u.markNum = s.markNum + 1#32 ∧ u.imgA = u.ptsA ∧ u.imgB = u.ptsB ∧ u.imgCaps = u.caps := by
  obtain ⟨s1, h1⟩ : ∃ s1, s1 = ({ s with markNum := s.markNum + 1#32 } : State) := ⟨_, rfl⟩
  obtain ⟨s2, h2⟩ : ∃ s2, s2 = ({ s1 with trans := s1.trans.filter fun t => !s1.names t } : State) := ⟨_, rfl⟩
  obtain ⟨s3, h3⟩ : ∃ s3, s3 = (s1.trans.filter s1.names).foldl State.applyTrans s2 := ⟨_, rfl⟩
  obtain ⟨s4, h4⟩ : ∃ s4, s4 = s3.startPasses.triggerReaders := ⟨_, rfl⟩
  obtain ⟨s5, h5⟩ : ∃ s5, s5 = ({ s4 with imgA := s4.ptsA, imgB := s4.ptsB, imgCaps := s4.caps } : State) := ⟨_, rfl⟩
  have hexec : exec .releaseMark s = .next s5.buildAll.takeSheet.flushRecs.settle := by
    rw [h5, h4, h3, h2, h1]
    exact if_neg (by simp [h])
  have hmark : s5.markNum = s.markNum + 1#32 := by
    rw [h5]
    dsimp only
    rw [h4, State.triggerReaders_markNum, State.startPasses_markNum, h3, State.foldl_markNum _ fun t x => t.applyTrans_markNum x, h2, h1]
  have hsheet : Only sheetPart s5 s5.buildAll.takeSheet.flushRecs :=
    Only.trans sheetPart_part s5.buildAll_sheet (Only.trans sheetPart_part (State.takeSheet_sheet _) ((State.flushRecs_only _).mono fun _ _ => rfl))
  refine ⟨_, hexec, ?_⟩
  generalize s5.buildAll.takeSheet.flushRecs = u at hsheet
  have himg : s5.imgA = s5.ptsA ∧ s5.imgB = s5.ptsB ∧ s5.imgCaps = s5.caps := by
    rw [h5]
    exact ⟨rfl, rfl, rfl⟩
  rw [← hsheet]
  exact ⟨hmark, himg⟩

section
variable {s : State} {p : Fin 36} {z : BitVec 8} {b c us : Nat}

theorem BlockRt.timer_default (c : Nat) : ({} : BlockRt).timer c = .stopped := by
  unfold BlockRt.timer
  split
  · rfl
  · split <;> rfl

theorem BlockRt.timer_setTimer (r : BlockRt) (c : Nat) (t : Timer) : (r.setTimer c t).timer c = t := by
  unfold BlockRt.setTimer BlockRt.timer
  by_cases h0 : c = 0
  · simp [h0]
  · by_cases h1 : c = 1
    · simp [h1]
    · simp [h0, h1]

/-- A timer that runs has expired: for the pass that saw it, or for the next one. -/
theorem expireAt_timer {rts : List BlockRt} (now : Bool) (h : (rts.getD b {}).timer c = .running us) :
    ((expireAt now rts b c).getD b {}).timer c = if now then .expired us else .late us := by
  have hlt : b < rts.length := by
    by_contra hge
    rw [List.getD_eq_default _ _ (by omega), BlockRt.timer_default] at h
    cases h
  have hget : rts.getD b {} = rts[b] := List.getD_eq_getElem _ _ hlt
  rw [hget] at h
  have hexp : (rts[b].expire c) = rts[b].setTimer c (.late us) := by rw [BlockRt.expire, h]
  have hseen : (rts[b].expire c).seen c = (rts[b].expire c).setTimer c (.expired us) := by
    rw [BlockRt.seen, hexp, BlockRt.timer_setTimer]
  unfold expireAt
  rw [List.getElem?_eq_getElem hlt]
  dsimp only
  rw [List.getD_eq_getElem _ _ (by rwa [List.length_set]), List.getElem_set_self]
  cases now with
  | true => rw [if_pos rfl, hseen, BlockRt.timer_setTimer, if_pos rfl]
  | false => rw [if_neg (by decide), hexp, BlockRt.timer_setTimer, if_neg (by decide)]

variable (hrun : s.runningTimer p z.toNat b c = some us)
include hrun

/-- A timer that runs is one of an ACTIVE version. -/
theorem State.runningTimer_active : ∃ x, (s.zone z.toNat).active = some x ∧ (x.pair = p → (x.rt.getD b {}).timer c = .running us) := by
  have htimer : ((s.rtOn p z.toNat).getD b {}).timer c = .running us := by
    unfold State.runningTimer at hrun
    split at hrun
    · cases hrun
    · split at hrun
      next u hu =>
        cases hrun
        exact hu
      · cases hrun
  cases hact : (s.zone z.toNat).active with
  | none =>
    have hnil : s.rtOn p z.toNat = [] := by
      unfold State.rtOn
      rw [hact]
    rw [hnil, List.getD_nil, BlockRt.timer_default] at htimer
    cases htimer
  | some x =>
    refine ⟨x, rfl, fun hpair => ?_⟩
    have hrt : s.rtOn p z.toNat = x.rt := by
      unfold State.rtOn
      rw [hact]
      exact if_pos hpair
    rwa [hrt] at htimer

theorem exec_timerXchk_running : exec (.timerXchk p z b c) s =
    .next ((s.updPair p fun q => { q with timerLost := true }).updPair p fun q => { q with trig := true }) := by
  change execTimerXchk p z b c s = _
  unfold execTimerXchk
  rw [hrun]
  rfl

theorem exec_timerExpiry_running (e : ExpiryRead) : ∃ (t : State) (x v : ZoneVer), exec (.timerExpiry p z b c e) s = .next t ∧
    (s.zone z.toNat).active = some x ∧ (t.zone z.toNat).active = some v ∧
    (x.pair = p → (v.rt.getD b {}).timer c = if e.atMark = true ∧ s.atMark p = true then .expired us else .late us) ∧
    (t.pair p).trig = true ∧ (s.op = none → ∀ q : Nat, q ≠ p → t.pair q = s.pair q) ∧ (∀ y, y ≠ z.toNat → t.zone y = s.zone y) := by
  obtain ⟨x, hact, htimer⟩ := State.runningTimer_active hrun
  obtain ⟨now, hnow⟩ : ∃ now, now = (e.atMark && s.atMark p) := ⟨_, rfl⟩
  obtain ⟨u, hu⟩ : ∃ u, u = s.updZone z.toNat fun y => { y with active := y.active.map fun v =>
    { v with rt := expireAt now v.rt b c, rtB := expireAt now v.rtB b c } } := ⟨_, rfl⟩
  obtain ⟨v, hv⟩ : ∃ v, v = u.updCopies fun cs => cs.map fun x =>
    if x.zone = z.toNat then { x with rt := expireAt now x.rt b c, rtB := expireAt now x.rtB b c } else x := ⟨_, rfl⟩
  obtain ⟨w, hw⟩ : ∃ w, w = if decide (e.elapsedB * 10000 + 10000000 < us * 1000 * 9995) then
    (v.timerPairs p z.toNat).foldl (fun t p => t.updPair p fun q =>
      { q with timerLate := q.timerLate || !now, timerLost := q.timerLost || now }) v else v := ⟨_, rfl⟩
  have hexec : exec (.timerExpiry p z b c e) s = .next (w.trigger p) := by
    change execTimerExpiry p z b c e s = _
    unfold execTimerExpiry
    extract_lets zn
    have hrun' : s.runningTimer p zn b c = some us := hrun
    rw [hrun', hw, hv, hu, hnow]
    rfl
  have hwz : w.zones = u.zones := by
    rw [hw]
    have hfold (ps : List Nat) (t : State) : (ps.foldl (fun t p => t.updPair p fun q =>
        { q with timerLate := q.timerLate || !now, timerLost := q.timerLost || now }) t).zones = t.zones := by
      induction ps generalizing t with
      | nil => rfl
      | cons q ps ih => exact ih _
    split
    · rw [hfold, hv]
      rfl
    · rw [hv]
      rfl
  have hzone (y : Nat) : (w.trigger p).zone y = u.zone y := congrArg (tabGet Zone.init · y) hwz
  refine ⟨_, x, { x with rt := expireAt now x.rt b c, rtB := expireAt now x.rtB b c }, hexec, hact, ?_, fun hpair => ?_, ?_, fun hop q hq => ?_, fun y hy => ?_⟩
  · rw [hzone, hu, State.updZone_zone_self, hact]
    rfl
  · rw [expireAt_timer now (htimer hpair), hnow]
    simp
  · exact congrArg Pair.trig (State.updPair_pair_self w p _)
  · have hpairs : v.timerPairs p z.toNat = [p.val] := by
      unfold State.timerPairs State.coupledPairs
      rw [hv, State.updCopies, hu]
      simp [State.updZone, hop]
    have hvp : v.pair q = s.pair q := by
      rw [hv, hu]
      rfl
    refine (State.updPair_pair_ne w p _ q hq).trans (Eq.trans ?_ hvp)
    rw [hw]
    split
    · rw [hpairs]
      exact State.updPair_pair_ne v p _ q hq
    · rfl
  · rw [hzone, hu, State.updZone_zone_ne _ _ _ _ hy]
end

/-! ### Category 1 delays -/

section
variable (s : State) (l : Lane) (out : Target)

theorem State.commandLane_off_kept : (s.commandLane l out false).cat1 = s.cat1 ∧ (s.commandLane l out false).zones = s.zones := by
  unfold State.commandLane
  cases out with
  | chan n =>
    have honly := s.pushFd_only l (.switch n false)
    exact ⟨(congrArg State.cat1 honly).symm, (congrArg State.zones honly).symm⟩
  | point a =>
    have howe : (s.owe l a).cat1 = s.cat1 ∧ (s.owe l a).zones = s.zones := by
      unfold State.owe
      split <;> exact ⟨rfl, rfl⟩
    cases l <;> exact howe

theorem State.pushFd_on (c : FdCmd) (hon : s.pm.dstate ≠ .off) : ((s.pushFd l c).lane l).toFd = (s.lane l).toFd ++ [c.inLane l] := by
  unfold State.pushFd
  rw [if_neg hon]
  cases l <;> rfl

theorem exec_cat1DelayExpiry_a (h : (tabGet (false, false) s.cat1 (targetKey out)).1 = true) : exec (.cat1DelayExpiry .a out) s =
    .next (({ s with cat1 := tabSet (false, false) s.cat1 (targetKey out) (false, (tabGet (false, false) s.cat1 (targetKey out)).2) } : State).commandLane
      .a out false) := if_pos h

theorem exec_cat1DelayExpiry_b (h : (tabGet (false, false) s.cat1 (targetKey out)).2 = true) : exec (.cat1DelayExpiry .b out) s =
    .next (({ s with cat1 := tabSet (false, false) s.cat1 (targetKey out) ((tabGet (false, false) s.cat1 (targetKey out)).1, false) } : State).commandLane
      .b out false) := if_pos h

/-- What a lane's delay leaves as it expires. -/
theorem State.delayExpired (f : Bool × Bool) : let u : State := { s with cat1 := tabSet (false, false) s.cat1 (targetKey out) f }
    tabGet (false, false) (u.commandLane l out false).cat1 (targetKey out) = f ∧
    (∀ n, out = .chan n → s.pm.dstate ≠ .off → ((u.commandLane l out false).lane l).toFd = (s.lane l).toFd ++ [(FdCmd.switch n false).inLane l]) ∧
    (u.commandLane l out false).zones = s.zones := by
  intro u
  obtain ⟨hcat, hzones⟩ := u.commandLane_off_kept l out
  refine ⟨by rw [hcat]; exact tabGet_tabSet_self, ?_, hzones⟩
  rintro n rfl hon
  refine (u.pushFd_on l (.switch n false) hon).trans ?_
  cases l <;> rfl
end

/-! ### Transmission -/

section
variable {s : State} {k : Fin 2048} {b : TxBuild} {rest : List TxBuild}

theorem State.enqueue_conn (p : Nat) (f : TxFrame) : ((s.enqueue p f).conn f.slot).txBuilt = (s.conn f.slot).txBuilt ∧
    ∀ j, j ≠ f.slot → (s.enqueue p f).conn j = s.conn j := by
  have hkick (t : State) (j : Nat) : (t.kick p).conn j = t.conn j := congrArg (tabGet Conn.init · j) (congrArg State.conns (t.kick_only p)).symm
  unfold State.enqueue
  extract_lets q
  split
  · exact ⟨rfl, fun _ _ => rfl⟩
  next old ahead u v _ =>
    have hv : (v.conn f.slot).txBuilt = (s.conn f.slot).txBuilt ∧ ∀ j, j ≠ f.slot → v.conn j = s.conn j := by
      simp only [v]
      split
      · exact ⟨by rw [State.updConn_conn_self]; rfl, fun j hj => State.updConn_conn_ne _ _ _ _ hj⟩
      · exact ⟨rfl, fun _ _ => rfl⟩
    split
    · exact hv
    · exact ⟨by rw [hkick]; exact hv.1, fun j hj => (hkick v j).trans (hv.2 j hj)⟩

theorem State.txLost_conn (p j : Nat) : (s.txLost p).conn j = s.conn j := rfl

variable (hb : (s.conn k).txBuilt = b :: rest)
include hb

theorem exec_txMerge_pops : ∃ t, exec (.txMerge k) s = .next t ∧ (t.conn k).txBuilt = rest ∧ ∀ j : Nat, j ≠ k → t.conn j = s.conn j := by
  by_cases heq : b.frameA.payload = negBytes b.frameB.payload
  · obtain ⟨f, hf⟩ : ∃ f : TxFrame, f = { slot := k, mac := b.mac, ip := b.ip, frame := { b.frameA with crcB := ~~~b.frameB.crcB } } := ⟨_, rfl⟩
    obtain ⟨u, hu⟩ : ∃ u, u = (s.updConn k fun c => { c with txBuilt := rest }).handPoints k { b.frameA with crcB := ~~~b.frameB.crcB } := ⟨_, rfl⟩
    have hexec := exec_txMerge_sent hb heq
    rw [← hu, ← hf] at hexec
    have hslot : f.slot = k := by rw [hf]
    obtain ⟨hself, hother⟩ := State.enqueue_conn (s := u) b.port f
    rw [hslot] at hself hother
    have hconn (j : Nat) : u.conn j = (s.updConn k fun c => { c with txBuilt := rest }).conn j := by
      rw [hu]
      exact congrArg (tabGet Conn.init · j) (congrArg State.conns (State.handPoints_only _)).symm
    refine ⟨_, hexec, ?_, fun j hj => ?_⟩
    · rw [hself, hconn, State.updConn_conn_self]
    · rw [hother j hj, hconn, State.updConn_conn_ne _ _ _ _ hj]
  · refine ⟨_, exec_txMerge_lost hb heq, ?_, fun j hj => ?_⟩
    · rw [State.txLost_conn, State.updConn_conn_self]
    · rw [State.txLost_conn, State.updConn_conn_ne _ _ _ _ hj]

theorem exec_txMergeTimeout_pops : ∃ t, exec (.txMergeTimeout k) s = .next t ∧ (t.conn k).txBuilt = rest ∧
    (t.port b.port).txMismatch = satInc (s.port b.port).txMismatch 65535 ∧ ∀ j : Nat, j ≠ k → t.conn j = s.conn j := by
  refine ⟨_, exec_txMergeTimeout_lost hb, ?_, ?_, fun j hj => ?_⟩
  · rw [State.txLost_conn, State.updConn_conn_self]
  · exact congrArg Port.txMismatch (State.updPort_port_self _ b.port _)
  · rw [State.txLost_conn, State.updConn_conn_ne _ _ _ _ hj]
end

section
variable {s : State} {k : Nat} {d : ConnDecl}

/-- An OPEN that is sent joins the frames its connection has built. -/
theorem State.sendOpen_built (hdecl : (s.conn k).decl = some d) (hidle : s.txIdle = false) :
    ((s.sendOpen k).conn k).txBuilt.length = (s.conn k).txBuilt.length + 1 := by
  obtain ⟨b, hsent⟩ := State.sendFrame_built (s := s) (k := k) (d := d) ftOpen 0 0#32 (payOpen (s.offer d) d (s.conn k).nonce) hdecl hidle
  unfold State.sendOpen
  rw [hdecl]
  dsimp only
  rw [State.updConn_conn_self, hsent]
  refine (congrArg (fun c : Conn => c.txBuilt.length) (State.updConn_conn_self s k _)).trans ?_
  exact List.length_append

theorem State.firstOpen_built (hdecl : (s.conn k).decl = some d) (hidle : s.txIdle = false) (hst : (s.conn k).st = .opening)
    (hrole : d.listener = false) : ((s.firstOpen k).conn k).txBuilt.length = (s.conn k).txBuilt.length + 1 := by
  have hfirst : s.firstOpen k = s.sendOpen k := by
    unfold State.firstOpen
    dsimp only
    rw [hdecl]
    exact if_pos (by simp [hst, hrole])
  rw [hfirst]
  exact State.sendOpen_built hdecl hidle
end

/-! ### The obligation -/

theorem exec_imgVerify_taken {s0 : State} {o : Origin} (hready : (s0.begun o).Ready) (htakes : s0.takes o (.imgVerify o) = true) :
    ∃ (t : State) (op : LongOp), exec (.imgVerify o) s0 = .next t ∧ t.op = some op ∧ op.kind = .verify false ∧ op.o = some o ∧ op.steps = 0 ∧
      { t with op := (s0.begun o).op } = s0.begun o :=
  ⟨_, _, hready.exec rfl htakes, rfl, rfl, rfl, rfl, rfl⟩

theorem exec_sample_spec {s : State} (h : s.pm.dstate ≠ .dormant) : ∃ t, exec .sample s = .next t ∧ exec .periodicSample s = .next t ∧
    t.fd = { s.fd with sampleNum := s.fd.sampleNum + 1#32 } ∧ t.trans.length = s.trans.length + 1 ∧
    (∀ n : Fin 64, (t.chan n).inPoint = s.inputPt n ∧ (t.chan n).outPoint = s.feedbackPt n) ∧
    { t with fd := s.fd, trans := s.trans, chans := s.chans } = s := by
  obtain ⟨hfd, htrans, hrest⟩ := s.sendSample_rest
  refine ⟨s.sendSample, congrArg Host.Outcome.next (if_neg h), congrArg Host.Outcome.next (if_neg h), hfd, ?_, fun n => ?_, hrest⟩
  · rw [htrans, List.length_append]
    rfl
  · rw [State.sendSample_chan]
    exact ⟨rfl, rfl⟩

section
variable {s : State} {k : Fin 2048} {d : ConnDecl} (hdecl : (s.conn k).decl = some d) (hrole : d.listener = false)
include hdecl hrole

theorem exec_openStagger_sends (hidle : s.txIdle = false) (hst : (s.conn k).st = .opening) (hstag : (s.conn k).stagger = true) :
    ∃ t, exec (.openStagger k) s = .next t ∧ (t.conn k).stagger = false ∧ (t.conn k).txBuilt.length = (s.conn k).txBuilt.length + 1 := by
  obtain ⟨-, -, hopener⟩ := openersAndTransmit.2 s k
  obtain ⟨t, ht, hstag', -⟩ := (hopener d hdecl).1 hst hstag
  obtain ⟨u, hu⟩ : ∃ u, u = s.updConn k fun c => { c with stagger := false } := ⟨_, rfl⟩
  have hself : u.conn k = { s.conn k with stagger := false } := by rw [hu, State.updConn_conn_self]
  have hexec : exec (.openStagger k) s = .next (u.firstOpen k) := by
    rw [hu]
    exact congrArg Host.Outcome.next (if_pos (by simp [hst, hstag]))
  rw [hexec] at ht
  cases ht
  refine ⟨_, hexec, hstag', ?_⟩
  rw [State.firstOpen_built (d := d) (by rw [hself]; exact hdecl) (by rw [hu]; exact hidle) (by rw [hself]; exact hst) hrole, hself]

theorem exec_openRetry_sends (hidle : s.txIdle = false) (hst : (s.conn k).st = .opening) (hstag : (s.conn k).stagger = false) :
    ∃ t, exec (.openRetry k) s = .next t ∧ (t.conn k).backoff = min 8 ((s.conn k).backoff + 1) ∧
      (t.conn k).txBuilt.length = (s.conn k).txBuilt.length + 1 := by
  obtain ⟨u, hu⟩ : ∃ u, u = s.updConn k fun c => { c with backoff := min 8 (c.backoff + 1) } := ⟨_, rfl⟩
  have hself : u.conn k = { s.conn k with backoff := min 8 ((s.conn k).backoff + 1) } := by rw [hu, State.updConn_conn_self]
  obtain ⟨-, -, hback, -⟩ := Conn.unsent_eq (u.sendOpen_sends k).same
  refine ⟨u.sendOpen k, ?_, by rw [hback, hself], ?_⟩
  · rw [exec_openRetry_eq hdecl, if_pos (by simp [hst, hrole, hstag]), hu]
  · rw [State.sendOpen_built (d := d) (by rw [hself]; exact hdecl) (by rw [hu]; exact hidle), hself]
end

/-- Settles O60: each command with its effect, by the lemmas about what it does in every state. -/
theorem imageInputPassAndTransmitCommandsComplete : Obligations.ImageInputPassAndTransmitCommandsComplete := by
  refine ⟨⟨fun s0 o total len a b => ?_, fun s0 o hready ht => exec_imgVerify_taken hready ht,
    fun s op boot hd ho hstep hop hkind hreq hprog => exec_longOperationStep_verify hop hkind hd ho hstep hreq hprog,
    fun s n mv vfs stood hmode => ?_, fun s n h => exec_inputRestore_good h, fun s n mv vfs ua hm hw => exec_wireBreak_reads mv vfs ua hm hw,
    fun s n mv hm hmv => exec_inputOv_reads mv hm hmv, fun s h => exec_sample_spec h⟩, fun s h => exec_releaseMark_images h, fun s p hrun hmay => ?_,
    fun s p z b c us e h => ⟨exec_timerExpiry_running h e, _, exec_timerXchk_running h, ?_, fun q hq => ?_, rfl⟩, fun s out => ⟨fun h => ?_, fun h => ?_⟩,
    fun s op z rb boot hop hkind hstage => ?_, fun s z v w hv hw => ?_, fun s p l x hsec hrun hsplit hgoes => ?_,
    fun s k h => congrArg Host.Outcome.next (if_pos h), fun s k b rest hb => ⟨exec_txMerge_pops hb, exec_txMergeTimeout_pops hb⟩,
    fun s k d hdecl hrole hidle => ⟨exec_openStagger_sends hdecl hrole hidle, exec_openRetry_sends hdecl hrole hidle, fun hst hport hcmac => ?_⟩⟩
  · intro s hlo hhi hlen hlen' hword hfit ht
    exact exec_imgLoad_first hlo hhi hlen hlen' hword hfit ht
  · refine ⟨_, exec_inputDebounce mv vfs stood hmode, ?_, ?_, fun j hj => State.updChan_chan_ne _ _ _ _ hj, rfl⟩
    · rw [State.updChan_chan_self]
    · rw [State.updChan_chan_self]
  · have hwatched : (s.pair p).watched = true := by
      unfold Pair.mayPass at hmay
      exact (Bool.and_eq_true_iff.1 hmay).1
    exact ⟨congrArg Host.Outcome.next (if_pos (by simp [hrun, hmay])), congrArg Host.Outcome.next (if_pos (by simp [hrun, hwatched])),
      congrArg Host.Outcome.next (if_pos (by simp [hrun, hwatched]))⟩
  · rw [State.updPair_pair_self, State.updPair_pair_self]
    rfl
  · rw [State.updPair_pair_ne _ _ _ _ hq, State.updPair_pair_ne _ _ _ _ hq]
  · exact ⟨_, exec_cat1DelayExpiry_a s out h, s.delayExpired .a out _⟩
  · exact ⟨_, exec_cat1DelayExpiry_b s out h, s.delayExpired .b out _⟩
  · obtain ⟨u, hu, hidle, hzone, -⟩ := (timeoutsAndTilePasses.1.2.1 s op z rb boot hop hkind).2 hstage
    exact ⟨u, hu, hidle, hzone⟩
  · obtain ⟨u, hu, hzone, -⟩ := (timeoutsAndTilePasses.1.2.2 s z).2 v w hv hw
    exact ⟨u, hu, hzone⟩
  · obtain ⟨t, ht, -, hsteps, -, hzones, hpairs, -⟩ := (timeoutsAndTilePasses.2 s p l false).2 x hsec hrun hsplit hgoes
    obtain ⟨-, hfirst, hrt⟩ := hsteps rfl
    exact ⟨t, ht, hrt, hfirst, hzones, hpairs⟩
  · obtain ⟨-, -, hopener⟩ := openersAndTransmit.2 s k
    obtain ⟨t, ht, hst', -, hnew, -⟩ := (hopener d hdecl).2.2.2.2 hst hrole hport hcmac
    exact ⟨t, ht, hst', hnew⟩

end Sys2Proof.Machine
end


section
/-!
# What a verified image leaves in the two lanes (R168, R169)
-/
namespace Sys2Proof.Machine
open Sys2Proof

/-- An image that declares one internal point and nothing else. -/
def internalPointImage : Image where
  major := 1
  minor := 0
  size := 0
  bytes := []
  crcA := crcA []
  crcB := crcB []
  imageId := 1#32
  splitMask := 0#36
  ack := none
  chans := []
  conns := []
  internals := [(0x21000, .safety)]
  zones := []
  tiles := []
  boot := []

/-- A device in RUN, nothing in progress, both lanes' load buffers holding the whole image. -/
def imageLoaded : State := { State.reset with
  pm := { State.reset.pm with dstate := .run }
  buf := { imgA := some internalPointImage, imgB := some internalPointImage } }

/-- The same device as the IMG_VERIFY of a ring that is disabled since runs. -/
def verifyRuns : State := { imageLoaded with
  op := some { kind := .verify false, o := some ⟨0, 0#16, false⟩, stage := 0, start := 0#64, req0 := false } }

/-- Nothing is wrong with the image. -/
theorem imageBad_imageLoaded : verifyRuns.imageBad internalPointImage = none := rfl

/-- Taken over into both copies of the declarations, by the definition of the model. -/
theorem applyImage_internalsB :
    (imageLoaded.applyImage internalPointImage internalPointImage false).internalsB = [(0x21000, some .safety)] := rfl

/-- Nothing follows an event in the loaded device. -/
theorem quiet_of_imageLoaded {t : State} (hop : t.op = none) (hwait : t.waiting = []) (hzones : t.zones = []) (hbist : t.bist = State.reset.bist)
    (hpm : t.pm = imageLoaded.pm) (hdb : t.db = State.reset.db) : t.Quiet where
  idle := hop
  served := hwait
  noRestart := fun z => by
    unfold State.zone
    rw [hzones]
    exact ⟨rfl, rfl⟩
  noWithdrawal := fun z => by
    unfold State.zone
    rw [hzones]
    rfl
  noSlice := by rw [hbist]; rfl
  noSlot := by rw [hbist]; rfl
  noSliceDue := by rw [hbist]; rfl
  noShutdown := by rw [hpm]; decide
  noHalt := by rw [hdb]; rfl

theorem quiet_applied : (imageLoaded.applyImage internalPointImage internalPointImage false).Quiet :=
  quiet_of_imageLoaded rfl rfl rfl rfl rfl rfl

/-- The step that ends the IMG_VERIFY applies the image; its ring takes no completion. -/
theorem exec_verifyRuns : exec (.longOperationStep ⟨true, []⟩) verifyRuns =
    .next (imageLoaded.applyImage internalPointImage internalPointImage false).settle := rfl

/-- Refutes O25: a verified image is declared in lane B's copy of the declarations too (R481), which the statement leaves as it was. -/
theorem not_imageLoadAndVerify : ¬ Obligations.ImageLoadAndVerify := by
  intro h
  obtain ⟨-, -, hverify⟩ := h
  obtain ⟨-, -, -, -, -, -, hsucceeds⟩ := hverify verifyRuns _ ⟨0, 0#16, false⟩ rfl rfl rfl rfl (fun h => absurd h (by decide)) (by decide)
    (by decide) (fun r t ht => absurd ht (List.not_mem_nil))
  have hends := hsucceeds internalPointImage rfl rfl (Nat.le_refl 0) rfl (Nat.zero_le 3) (Nat.zero_le _) rfl rfl rfl rfl rfl rfl rfl
    imageBad_imageLoaded
  have hsame := exec_verifyRuns.symm.trans hends
  have happlied := quiet_applied.settle.symm.trans (Host.Outcome.next.inj hsame)
  have hdeclared := happlied.trans (State.Quiet.settle (by exact quiet_of_imageLoaded rfl rfl rfl rfl rfl rfl))
  have hcopies := congrArg (fun t : State => t.internalsB) hdeclared
  rw [applyImage_internalsB] at hcopies
  exact absurd hcopies (by decide)

end Sys2Proof.Machine
end


section
/-!
# What follows an event keeps

Nothing that `State.settle` does starts a pass, drops the trigger of a pair whose pass goes on, or brings a zone a version. A property of
`State.core` that this leaves alone is `State.Lasting`; what follows an event keeps it.
-/
namespace Sys2Proof.Machine
open Sys2Proof

/-- The part of a state in which an operation, a zone, a pair or a fault shows. -/
def State.core (s : State) : Tab Pair × Tab Zone × Option LongOp × Nat × Fl := (s.pairs, s.zones, s.op, s.mig.stage, s.fl)

theorem State.foldl_core {α : Type} {f : State → α → State} (h : ∀ t x, (f t x).core = t.core) (xs : List α) (s : State) :
    (xs.foldl f s).core = s.core := by
  induction xs generalizing s with
  | nil => rfl
  | cons x xs ih => rw [List.foldl_cons, ih, h]

theorem State.updChan_core (s : State) (n : Nat) (f : Chan → Chan) : (State.updChan s n f).core = s.core := rfl

theorem State.updConn_core (s : State) (k : Nat) (f : Conn → Conn) : (State.updConn s k f).core = s.core := rfl

theorem State.updPm_core (s : State) (f : Pm → Pm) : (State.updPm s f).core = s.core := rfl

theorem State.updLane_core (s : State) (l : Lane) (f : LaneDie → LaneDie) : (State.updLane s l f).core = s.core := by
  cases l <;> rfl

theorem State.dropPts_core (s : State) (as : List Nat) : (State.dropPts s as).core = s.core :=
  (congrArg State.core (State.dropPts_only s as)).symm

theorem State.commandLane_core (s : State) (l : Lane) (t : Target) (on : Bool) : (State.commandLane s l t on).core = s.core :=
  (congrArg State.core (State.commandLane_only s l t on)).symm

theorem State.postEvent_core (s : State) (type src payload : Nat) : (State.postEvent s type src payload).core = s.core :=
  (congrArg State.core (State.postEvent_only s type src payload)).symm

theorem State.completion_core (s : State) (ring cid opcode status : Nat) (interm : Bool) (res : Nat) :
    (State.completion s ring cid opcode status interm res).core = s.core :=
  (congrArg State.core (State.completion_only s ring cid opcode status interm res)).symm

theorem State.complete_core (s : State) (o : Origin) (opcode status res : Nat) : (State.complete s o opcode status res).core = s.core :=
  (congrArg State.core (State.complete_only s o opcode status res)).symm

theorem State.completeOpt_core (s : State) (o : Option Origin) (op st res : Nat) : (s.completeOpt o op st res).core = s.core :=
  (congrArg State.core (State.completeOpt_only s o op st res)).symm

theorem State.dropPairPts_core (s : State) (l : Lane) (p : Nat) : (State.dropPairPts s l p).core = s.core :=
  (congrArg State.core (State.dropPairPts_only s l p)).symm

theorem State.bistAsk_core (s : State) (p prec : Nat) : (State.bistAsk s p prec).core = s.core :=
  (congrArg State.core (State.bistAsk_only s p prec)).symm

theorem State.draw_core (s : State) : (State.draw s).2.core = s.core := rfl

theorem State.holdChans_core (s : State) (ns : List Nat) : (State.holdChans s ns).core = s.core :=
  (congrArg State.core (State.holdChans_only s ns)).symm

theorem State.toMerge_core (s : State) (slot : Nat) (d : ConnDecl) (fa fb : Frame) : (State.toMerge s slot d fa fb).core = s.core := rfl

theorem State.sendFrame_core (s : State) (slot : Nat) (ft : BitVec 4) (ver : Nat) (seq : Word) (payload : List Byte) :
    (State.sendFrame s slot ft ver seq payload).core = s.core := by
  grind [State.sendFrame, State.core, State.toMerge_core]

theorem State.storeAdm_core (s : State) (r rB : AdmRec) (reused : Bool) : (State.storeAdm s r rB reused).core = s.core := rfl

theorem State.setConn_core (s : State) (k : Nat) (st : ConnSt) (cause : Option Nat) : (State.setConn s k st cause).core = s.core :=
  (congrArg State.core (State.setConn_only s k st cause)).symm

theorem State.sendClose_core (s : State) (k reason : Nat) : (State.sendClose s k reason).core = s.core := by
  grind [State.sendClose, State.core, State.sendFrame_core, State.updConn_core]

theorem State.closeIfOn_core (s : State) (k reason : Nat) : (State.closeIfOn s k reason).core = s.core := by
  grind [State.closeIfOn, State.core, State.sendClose_core]

theorem State.newNonce_core (s : State) (k : Nat) : (State.newNonce s k).core = s.core := rfl

theorem State.sendOpen_core (s : State) (k : Nat) : (State.sendOpen s k).core = s.core := by
  grind [State.sendOpen, State.core, State.sendFrame_core, State.updConn_core]

theorem State.firstOpen_core (s : State) (k : Nat) : (State.firstOpen s k).core = s.core := by
  grind [State.firstOpen, State.core, State.sendOpen_core]

theorem State.closeAllConns_core (s : State) : (State.closeAllConns s).core = s.core :=
  (congrArg State.core (State.closeAllConns_only s)).symm

theorem State.dropOthers_core (s : State) : (State.dropOthers s).core = s.core :=
  (congrArg State.core (State.dropOthers_only s)).symm

theorem State.startConnClose_core (s : State) (o : Origin) (slot : BitVec 16) : (State.startConnClose s o slot).core = s.core := by
  grind [State.startConnClose, State.core, State.closeIfOn_core, State.complete_core, State.setConn_core]

theorem State.parked_core (s : State) (o : Origin) (op : Nat) : (State.parked s o op).core = s.core := rfl

theorem State.abortMoves_core (s : State) : s.abortMoves.core = s.core := by
  refine State.foldl_core (fun t r => ?_) _ _
  grind [State.completion_core]

theorem State.sendOwner_core (s : State) (chs : List Nat) (old new : Nat) (boundary : Word) :
    (State.sendOwner s chs old new boundary).core = s.core :=
  (congrArg State.core (State.sendOwner_only s chs old new boundary)).symm

theorem State.sendBoundary_core (s : State) (chs : List Nat) (boundary : Word) : (State.sendBoundary s chs boundary).core = s.core :=
  (congrArg State.core (State.sendBoundary_only s chs boundary)).symm

theorem State.ownPoints_core (s : State) (as : List Nat) (p : Nat) : (State.ownPoints s as p).core = s.core := rfl

theorem State.bootFail_core (s : State) (err st : Nat) : (State.bootFail s err st).core = s.core := by
  grind [State.bootFail, State.core, State.updPm_core]

theorem State.completeAsks_core (s : State) (item idx status res : Nat) : (State.completeAsks s item idx status res).core = s.core :=
  (congrArg State.core (State.completeAsks_only s item idx status res)).symm

theorem State.skipSlot_core (s : State) : (State.skipSlot s).core = s.core := rfl

theorem State.sliceLost_core (s : State) (k : OpKind) (st : Nat) : (State.sliceLost s k st).core = s.core := by
  grind [State.sliceLost, State.core, State.completeAsks_core, State.skipSlot_core]

theorem State.seeCond_core (s : State) (c : TestCond) : (State.seeCond s c).core = s.core := rfl

theorem State.defer_core (s : State) (c : TestCond) : (State.defer s c).core = s.core :=
  (congrArg State.core (State.defer_only s c)).symm

theorem State.failEntries_core (s : State) (p : Nat) (es : List BistEntry) : (State.failEntries s p es).2.core = s.core := by
  grind [State.failEntries, State.core, State.draw_core]

theorem State.keepClaim_core (s : State) (p : Nat) (prec : Option Nat) : (State.keepClaim s p prec).core = s.core :=
  (congrArg State.core (State.keepClaim_only s p prec)).symm

theorem State.askBist_core (s : State) (o : Origin) (item index : Byte) : (State.askBist s o item index).core = s.core :=
  (State.parked_core _ _ _).trans rfl

theorem State.startCal_core (s : State) (o : Origin) (index : Nat) : (State.startCal s o index).core = s.core := by
  grind [State.startCal, State.core, State.complete_core, State.holdChans_core, State.updChan_core]

theorem State.startBist_core (s : State) (o : Origin) (item index : Byte) : (State.startBist s o item index).core = s.core := by
  grind [State.startBist, State.core, State.askBist_core, State.bistAsk_core, State.complete_core, State.startCal_core]

theorem State.refuseWaiting_core (s : State) (i : Instr) : (State.refuseWaiting s i).core = s.core := by
  grind [State.refuseWaiting, State.core, State.complete_core]

/-- An operation runs, or one has ended or changed its stage. -/
def State.Busy (s : State) : Prop := s.op.isSome = true ∨ s.mig.stage ≤ 6

/-- The pairs, the operation and its stage are the same. -/
structure State.SameOp (s t : State) : Prop where
  pairs : t.pairs = s.pairs
  op : t.op = s.op
  stage : t.mig.stage = s.mig.stage

/-- A change of a pair that ends its pass, or leaves the pass and drops no trigger. -/
def Pair.Tame (f : Pair → Pair) : Prop := ∀ q, (f q).run = none ∨ (f q).run = q.run ∧ (q.trig = true → (f q).trig = true)

/-- A property of the core that what follows an event keeps: no zone is given a version, nothing is raised but what a lane or a
connection detects, and while an operation runs its zones and the records are its own. -/
structure State.Lasting (Q : State → Prop) : Prop where
  core : ∀ {s t : State}, t.core = s.core → Q s → Q t
  pair : ∀ {s : State} (p : Nat) {f : Pair → Pair}, Pair.Tame f → Q s → Q (s.updPair p f)
  zone : ∀ {s : State} (z : Nat) {f : Zone → Zone}, (∀ y, (f y).active = y.active ∨ (f y).active = none) → Q s → Q (s.updZone z f)
  op : ∀ {s : State} (x : LongOp), Q s → Q { s with op := some x }
  mig : ∀ {s : State} {m : Mig}, m.stage = s.mig.stage ∨ m.stage ≤ 6 → Q s → Q { s with mig := m }
  closed : ∀ {s : State}, Q s → Q { s with op := none, mig := { s.mig with stage := 0 } }
  busy : ∀ {s t : State}, s.Busy → s.SameOp t → Q s → Q t
  raise : ∀ {s : State} {code : BitVec 16} (loc : BitVec 12) (la lb : Bool) (detail passLo : Nat) (scope : List Nat),
    0x2000 ≤ code.toNat → Q s → Q (s.raise code loc la lb detail passLo scope)

section
variable {Q : State → Prop} (hQ : State.Lasting Q)
include hQ

omit hQ in
theorem State.foldl_lasts {α : Type} {f : State → α → State} (hf : ∀ t x, Q t → Q (f t x)) (xs : List α) {s : State} (h : Q s) :
    Q (xs.foldl f s) := by
  induction xs generalizing s with
  | nil => exact h
  | cons x xs ih => exact ih (hf s x h)

theorem State.trigger_lasts {s : State} (p : Nat) (h : Q s) : Q (s.trigger p) := hQ.pair p (fun _ => .inr ⟨rfl, fun _ => rfl⟩) h

theorem State.setZoneSt_lasts {s : State} (z : Nat) (st : ZoneSt) (h : Q s) : Q (s.setZoneSt z st) := by
  unfold State.setZoneSt
  dsimp only
  split
  · exact h
  · exact hQ.core (State.postEvent_core _ _ _ _) (hQ.zone z (fun _ => .inl rfl) h)

theorem State.unload_lasts {s : State} (p : Nat) (h : Q s) : Q (s.unload p) := by
  refine State.foldl_lasts (fun t e ht => ?_) _ h
  split
  · split
    · exact hQ.zone _ (fun _ => .inl rfl) ht
    · exact ht
  · exact ht

theorem State.latchBit_lasts {s : State} (l : Lane) (p : Nat) (h : Q s) : Q (s.latchBit l p) := by
  unfold State.latchBit
  split
  · exact h
  · exact hQ.core (State.dropPairPts_core _ _ _) (hQ.pair p (fun _ => .inl rfl) (State.unload_lasts hQ p h))

theorem State.latchAll_lasts {s : State} (l : Lane) (h : Q s) : Q (s.latchAll l) :=
  State.foldl_lasts (fun _ p ht => State.latchBit_lasts hQ l p ht) _ h

theorem State.laneFault_lasts {s : State} (l : Lane) {code : BitVec 16} (detail : Nat) (hcode : 0x2000 ≤ code.toNat) (h : Q s) :
    Q (s.laneFault l code detail) :=
  hQ.raise _ _ _ _ _ _ hcode (hQ.core (State.updLane_core _ _ _) (State.latchAll_lasts hQ l h))

theorem State.connFault_lasts {s : State} (k : Nat) {code : BitVec 16} (cause : Nat) (hcode : 0x2000 ≤ code.toNat) (h : Q s) :
    Q (s.connFault k code cause) := by
  unfold State.connFault
  split
  · exact h
  · exact hQ.raise _ _ _ _ _ _ hcode (hQ.core (State.setConn_core _ _ _ _) h)

theorem State.enterOpening_lasts {s : State} (k : Nat) (cause backoff : Option Nat) (h : Q s) : Q (s.enterOpening k cause backoff) := by
  have hopening : Q (s.setConn k .opening cause) := hQ.core (State.setConn_core _ _ _ _) h
  unfold State.enterOpening
  dsimp only
  split
  · exact hopening
  · split
    · exact State.connFault_lasts hQ k _ (by decide) hopening
    · exact hQ.core ((State.updConn_core _ _ _).trans (State.newNonce_core _ _)) hopening

theorem State.startConnOpen_lasts {s : State} (o : Origin) (slot : BitVec 16) (h : Q s) : Q (s.startConnOpen o slot) := by
  have hrefused : ∀ st res, Q (s.complete o 0x20 st res) := fun st res => hQ.core (State.complete_core _ _ _ _ _) h
  unfold State.startConnOpen
  dsimp only
  split
  · exact hrefused _ _
  · split
    · exact hrefused _ _
    · split
      · exact hrefused _ _
      · split
        · exact hrefused _ _
        · exact hQ.core ((State.complete_core _ _ _ _ _).trans (State.firstOpen_core _ _)) (State.enterOpening_lasts hQ _ _ _ h)

/-! ### Pairs and zones -/

theorem State.rebound_lasts {s : State} (p : Nat) (h : Q s) : Q (s.rebound p) := hQ.pair p (fun _ => .inr ⟨rfl, id⟩) h

theorem State.freed_lasts {s : State} (p : Nat) (h : Q s) : Q (s.updPair p Pair.freed) := hQ.pair p (fun _ => .inl rfl) h

theorem State.load_lasts {s : State} (p : Nat) (h : Q s) : Q (s.load p) := hQ.pair p (fun _ => .inl rfl) h

theorem State.bistAsk_lasts {s : State} (p prec : Nat) (h : Q s) : Q (s.bistAsk p prec) := hQ.core (State.bistAsk_core _ _ _) h

theorem State.vacate_lasts {s : State} (p : Nat) (h : Q s) : Q (s.vacate p) := by
  have hcleared : Q { s with bist := { s.bist with zeroed := s.bist.zeroed &&& ~~~(1#36 <<< p) } } := hQ.core (s := s) rfl h
  unfold State.vacate
  dsimp only
  split
  · split
    · exact State.freed_lasts hQ p hcleared
    · exact State.rebound_lasts hQ p hcleared
  · split
    · exact State.freed_lasts hQ p hcleared
    · exact State.rebound_lasts hQ p hcleared
  · split
    · exact State.bistAsk_lasts hQ p 1 hcleared
    · exact hcleared
  · exact hcleared

theorem State.completeAll_lasts {α : Type} {s : State} (xs : List α) (o : α → Origin) (op st res : Nat) (h : Q s) :
    Q (xs.foldl (fun t x => t.complete (o x) op st res) s) :=
  State.foldl_lasts (fun _ _ ht => hQ.core (State.complete_core _ _ _ _ _) ht) xs h

theorem State.endWithdraw_lasts {s : State} (z : Nat) (h : Q s) : Q (s.endWithdraw z) := by
  unfold State.endWithdraw
  dsimp only
  split
  · refine State.completeAll_lasts hQ _ id _ _ _ (State.foldl_lasts (fun _ p ht => State.vacate_lasts hQ p ht) _ ?_)
    refine hQ.zone z (fun _ => .inr rfl) (State.setZoneSt_lasts hQ z _ (hQ.core ?_ h))
    exact (State.dropPts_core _ _).trans ((State.ownPoints_core _ _ _).trans
      ((State.sendBoundary_core _ _ _).trans (State.sendOwner_core _ _ _ _ _)))
  · exact h

theorem State.startWithdraw_lasts {s : State} (z : Nat) (os : List Origin) (cut : Bool) (h : Q s) : Q (s.startWithdraw z os cut) := by
  unfold State.startWithdraw
  dsimp only
  split
  · exact h
  · refine State.trigger_lasts hQ _ ?_
    split
    · refine State.foldl_lasts (fun t k ht => hQ.core ?_ ht) _ (hQ.zone z (fun _ => .inl rfl) h)
      grind [State.core, State.commandLane_core]
    · exact hQ.zone z (fun _ => .inl rfl) h

theorem State.discardStaged_lasts {s : State} (z : Nat) (h : Q s) : Q (s.discardStaged z) := by
  have hwithdrawn : Q (if (s.zone z).active.isNone = true then s.setZoneSt z .withdrawn else s) := by
    split
    · exact State.setZoneSt_lasts hQ z _ h
    · exact h
  unfold State.discardStaged
  dsimp only
  split
  · split
    · exact State.vacate_lasts hQ _ (hQ.zone z (fun _ => .inl rfl) hwithdrawn)
    · exact hQ.zone z (fun _ => .inl rfl) hwithdrawn
  · exact h

theorem State.dropRetained_lasts {s : State} (z : Nat) (h : Q s) : Q (s.dropRetained z) := by
  unfold State.dropRetained
  split
  · exact State.vacate_lasts hQ _ (hQ.zone z (fun _ => .inl rfl) h)
  · exact h

theorem State.dropRetainedOn_lasts {s : State} (p : Nat) (h : Q s) : Q (s.dropRetainedOn p) := by
  refine State.foldl_lasts (fun t e ht => ?_) _ h
  split
  · split
    · exact State.dropRetained_lasts hQ _ ht
    · exact ht
  · exact ht

theorem State.releaseRetained_lasts {s : State} (p : Nat) (h : Q s) : Q (s.releaseRetained p) := by
  refine State.foldl_lasts (fun t e ht => ?_) _ h
  split
  · split
    · exact hQ.core (State.postEvent_core _ _ _ _) (State.dropRetained_lasts hQ _ ht)
    · exact ht
  · exact ht

/-! ### Slices -/

theorem State.startSlice_lasts {s : State} (p : Nat) (again : Bool) (h : Q s) : Q (s.startSlice p again) := by
  have hforgot : Q (s.forgetTile p) := hQ.core (s := s) rfl h
  have hstarted := hQ.pair p (f := fun q => { q with role := if q.role = .free then .testing else q.role, run := none, trig := false })
    (fun _ => .inl rfl) hforgot
  refine hQ.core ?_ hstarted
  rfl

theorem State.closeSlice_lasts {s : State} (p last : Nat) (es : List BistEntry) (h : Q s) : Q (s.closeSlice p last es) := by
  have hlast : Q (s.updPair p fun q => { q with last := last }) := hQ.pair p (fun _ => .inr ⟨rfl, id⟩) h
  exact hQ.core (s := s.updPair p fun q => { q with last := last }) (State.completeAsks_core _ _ _ _ _) hlast

theorem State.failSlice_lasts {s : State} (p : Nat) (es : List BistEntry) (h : Q s) : Q (s.failSlice p es) :=
  State.closeSlice_lasts hQ p 3 _ (State.dropRetainedOn_lasts hQ p (hQ.pair p (fun _ => .inr ⟨rfl, id⟩)
    (hQ.core (State.failEntries_core _ _ _) h)))

theorem State.stopSlice_lasts {s : State} (p : Nat) (h : Q s) : Q (s.stopSlice p) := by
  unfold State.stopSlice
  split
  · exact hQ.pair p (fun _ => .inr ⟨rfl, id⟩) (hQ.core (s := s) rfl h)
  · exact h

theorem State.abortSlice_lasts {s : State} (p : Nat) (h : Q s) : Q (s.abortSlice p) := by
  unfold State.abortSlice
  split
  · exact State.bistAsk_lasts hQ p 4 (State.stopSlice_lasts hQ p (hQ.core (State.skipSlot_core _) h))
  · exact h

/-! ### The operation -/

theorem State.closeOp_lasts {s : State} (status res : Nat) (h : Q s) : Q (s.closeOp status res) := by
  unfold State.closeOp
  split
  · exact h
  · exact hQ.core (State.completeOpt_core _ _ _ _ _) (hQ.closed h)

theorem State.setStage_lasts {s : State} {n : Nat} (hn : n ≤ 6) (h : Q s) : Q (s.setStage n) := by
  unfold State.setStage
  split
  · exact h
  · next op hop =>
    refine hQ.mig (s := { s with op := some { op with stage := n, armed := false, half := none } }) ?_ (hQ.op _ h)
    dsimp only
    rw [if_neg (by omega : ¬ n = 7)]
    split <;> simp [hn]

theorem State.dropLoad_lasts {s : State} (op : LongOp) (h : Q s) : Q (s.dropLoad op) := by
  unfold State.dropLoad
  split
  · split
    · exact State.freed_lasts hQ _ h
    · exact h
  · exact State.vacate_lasts hQ _ h
  · exact State.rebound_lasts hQ _ h
  · exact h

theorem State.moveResulted_lasts {s : State} (b : Bool) (code : Nat) (h : Q s) :
    Q (if b = true then { s with mig := { s.mig with result := code } } else s) := by
  split
  · exact hQ.mig (.inl rfl) h
  · exact h

theorem State.bootFailed_lasts {s : State} (b : Bool) (err st : Nat) (h : Q s) : Q (if b = true then s.bootFail err st else s) := by
  split
  · exact hQ.core (State.bootFail_core _ _ _) h
  · exact h

theorem State.refuseAs_lasts {s : State} (r : AdmRec) (code status : Nat) (h : Q s) : Q (s.refuseAs r code status) := by
  unfold State.refuseAs
  split
  · exact h
  · next op hop =>
    have hfailed := State.bootFailed_lasts hQ op.kind.isBoot 4 stRefused (State.moveResulted_lasts hQ op.kind.moves code
      (State.dropLoad_lasts hQ op (hQ.core (State.storeAdm_core s r r op.reused) h)))
    refine State.closeOp_lasts hQ _ _ (hQ.core (State.sliceLost_core _ _ _) ?_)
    split
    · exact hQ.zone _ (fun _ => .inl rfl) hfailed
    · exact hfailed

theorem State.opAbort_lasts {s : State} (code status : Nat) (h : Q s) : Q (s.opAbort code status) := by
  unfold State.opAbort
  split
  · exact h
  · next op hop =>
    have hkept : Q (op.kind.copies.foldl (fun t z => t.updZone z fun y => { y with migrating := false }) s) :=
      by
      refine State.foldl_lasts (fun _ z ht => ?_) _ h
      exact hQ.zone z (fun _ => .inl rfl) ht
    have hunplaced := State.foldl_lasts (f := State.unplace) (fun _ z ht => hQ.zone z (fun _ => .inl rfl) ht) op.kind.set hkept
    have hdropped := State.dropLoad_lasts hQ op (hQ.op { op with stage := 1 } hunplaced)
    refine State.closeOp_lasts hQ _ _ (hQ.core (State.sliceLost_core _ _ _) ?_)
    split
    · exact State.bistAsk_lasts hQ _ 2 (hQ.mig (.inl rfl) hdropped)
    · exact hQ.mig (.inl rfl) hdropped

theorem State.chooseTarget_lasts {s : State} (src : Nat) (h : Q s) : Q (s.chooseTarget src).1 := by
  unfold State.chooseTarget
  split
  · exact h
  · split
    · exact State.releaseRetained_lasts hQ _ h
    · exact h

theorem State.beginAdmission_lasts {s : State} (k : OpKind) (o : Option Origin) (named : Nat) (h : Q s) :
    Q (s.beginAdmission k o named) := by
  have hshown : Q (if k.moves = true then { s with mig := { s.mig with src := k.src, tgt := 0x3F, agree := 0 } } else s) := by
    split
    · exact hQ.mig (.inl rfl) h
    · exact h
  unfold State.beginAdmission
  extract_lets m u
  have hchosen : Q (if named = 0x3F then u.chooseTarget k.src else (u, some named)).1 := by
    split
    · exact State.chooseTarget_lasts hQ _ hshown
    · exact hshown
  split
  next t tgt ht =>
  rw [ht] at hchosen
  split
  · exact State.refuseAs_lasts hQ _ _ _ (hQ.op _ hchosen)
  · next p =>
    have hstaged (op : LongOp) :
        Q (({ t with op := some op, mig := if k.moves = true then { t.mig with tgt := p } else t.mig } : State).setStage 1) := by
      refine State.setStage_lasts hQ (by decide) (hQ.mig (s := { t with op := some op }) ?_ (hQ.op op hchosen))
      split
      · exact .inl rfl
      · exact .inl rfl
    extract_lets
    split
    · exact State.load_lasts hQ p (hstaged _)
    · split
      · exact hstaged _
      · exact State.refuseAs_lasts hQ _ _ _ (hstaged _)

theorem State.commitFail_lasts {s : State} (status : Nat) (h : Q s) : Q (s.commitFail status) := by
  unfold State.commitFail
  split
  · exact h
  · split
    · exact State.closeOp_lasts hQ _ _ (State.rebound_lasts hQ _ (State.bootFailed_lasts hQ _ _ _ (hQ.zone _ (fun _ => .inl rfl) h)))
    · exact h

theorem State.opMapped_lasts {s : State} (f : LongOp → LongOp) (h : Q s) : Q { s with op := s.op.map f } := by
  cases hop : s.op with
  | none => exact hQ.core (by simp [State.core, hop]) h
  | some op => exact hQ.op (f op) h

theorem State.commitWait_lasts {s : State} (z tgt : Nat) (h : Q s) : Q (s.commitWait z tgt) :=
  State.opMapped_lasts hQ _ (State.setStage_lasts hQ (by decide) (hQ.zone z (fun _ => .inl rfl) h))

theorem State.commitDone_lasts {s : State} (op : LongOp) (z : Nat) (boot : Bool) (h : Q s) : Q (s.commitDone op z boot) := by
  unfold State.commitDone
  dsimp only
  have hheld : Q ((s.sendBoundary op.sent op.boundary).updZone z fun y => { y with holdRestart := false }) :=
    hQ.zone z (fun _ => .inl rfl) (hQ.core (State.sendBoundary_core _ _ _) h)
  refine State.closeOp_lasts hQ _ _ ?_
  split
  · exact hQ.core (State.updPm_core _ _) hheld
  · exact hheld

theorem State.release_lasts {s : State} (op : LongOp) (status : Nat) (h : Q s) : Q (s.release op status) := by
  have hclosed (u : State) (hu : Q u) (res : Nat) : Q (u.closeOp status res) := State.closeOp_lasts hQ _ _ hu
  unfold State.release
  extract_lets u us m v res w
  have hw : Q w := hclosed v (hQ.mig (.inl rfl) (State.vacate_lasts hQ _ h)) res
  split
  · exact hQ.core (s := w) rfl hw
  · exact hw

theorem State.abortVerify_lasts {s : State} (boot : Bool) (h : Q s) : Q (s.abortVerify boot) := by
  refine State.closeOp_lasts hQ _ _ ?_
  split
  · exact hQ.core (t := { s.bootFail 3 stAborted with boot := [] }) (State.bootFail_core s 3 stAborted) h
  · exact h

theorem State.cancelOp_lasts {s : State} (admitted : Nat) (h : Q s) : Q (s.cancelOp admitted) := by
  unfold State.cancelOp
  split
  · exact h
  · split
    · exact State.abortVerify_lasts hQ _ h
    · exact State.refuseAs_lasts hQ _ _ _ h
    · exact State.opAbort_lasts hQ _ _ h
    · exact State.opAbort_lasts hQ _ _ h
    · exact State.release_lasts hQ _ _ h
    · exact State.commitFail_lasts hQ _ h
    · exact h

/-! ### What falls due of an operation -/

theorem State.checkAdmit_lasts {s : State} (op : LongOp) (h : Q s) : Q (s.checkAdmit op) := by
  have hrefused : ∀ r code, Q (s.refuse r code) := fun r code => State.refuseAs_lasts hQ _ _ _ h
  unfold State.checkAdmit
  split
  · exact hrefused _ _
  · split
    · exact hrefused _ _
    · split
      · exact hrefused _ _
      · split
        · exact hrefused _ _
        · exact h

theorem State.checkMove_lasts {s : State} (op : LongOp) (h : Q s) : Q (s.checkMove op) := by
  have haborted : ∀ code status, Q (s.opAbort code status) := fun code status => State.opAbort_lasts hQ _ _ h
  unfold State.checkMove
  split
  · exact haborted _ _
  · split
    · exact haborted _ _
    · split
      · exact haborted _ _
      · split
        · exact haborted _ _
        · exact h

theorem State.checkCommit_lasts {s : State} (op : LongOp) (z : Nat) (rb : Bool) (h : Q s) : Q (s.checkCommit op z rb) := by
  have hfailed : ∀ status, Q (s.commitFail status) := fun status => State.commitFail_lasts hQ _ h
  unfold State.checkCommit
  extract_lets y here
  split
  · exact hfailed _
  · split
    · exact hfailed _
    · split
      · exact hfailed _
      · split
        · exact State.trigger_lasts hQ _ (hQ.op _ h)
        · exact h

omit hQ in
theorem State.SameOp.refl (s : State) : s.SameOp s := ⟨rfl, rfl, rfl⟩

omit hQ in
theorem State.SameOp.faultZone {s t : State} (z : Nat) (h : s.SameOp t) : s.SameOp (t.faultZone z) where
  pairs := (congrArg State.pairs (State.faultZone_only t z)).symm.trans h.pairs
  op := (congrArg State.op (State.faultZone_only t z)).symm.trans h.op
  stage := (congrArg (fun u : State => u.mig.stage) (State.faultZone_only t z)).symm.trans h.stage

omit hQ in
theorem State.SameOp.faultSet {s t : State} (zs : List Nat) (p : Nat) (h : s.SameOp t) : s.SameOp (t.faultSet zs p) := by
  have hfaulted := State.foldl_lasts (Q := s.SameOp) (fun _ z hu => State.SameOp.faultZone z hu) (t.toFault zs) h
  unfold State.faultSet
  dsimp only
  split
  · exact ⟨hfaulted.pairs, hfaulted.op, hfaulted.stage⟩
  · exact hfaulted

omit hQ in
theorem State.SameOp.isBusy {s t : State} (h : s.SameOp t) (hbusy : s.Busy) : t.Busy := by
  unfold State.Busy
  rw [h.op, h.stage]
  exact hbusy

omit hQ in
theorem State.setStage_busy {s : State} (hbusy : s.Busy) (n : Nat) : (s.setStage n).Busy := by
  unfold State.setStage
  split
  · exact hbusy
  · exact .inl rfl

omit hQ in
theorem State.SameOp.handedOver {s t : State} (op : LongOp) (h : s.SameOp t) :
    s.SameOp (op.kind.copies.foldl (fun t z => t.updZone z fun y =>
      { y with migrating := false, active := y.active.map fun v => { (t.handOver op z v).takeFigs op.figs with pair := op.tgt } }) t) := by
  refine State.foldl_lasts (Q := s.SameOp) (fun _ _ hu => ?_) _ h
  exact ⟨hu.pairs, hu.op, hu.stage⟩

theorem State.transferEnd_lasts {s : State} (op : LongOp) (hbusy : s.Busy) (h : Q s) :
    Q (s.transferEnd op) ∧ (s.transferEnd op).Busy := by
  unfold State.transferEnd
  extract_lets src u v w x
  have hcore : u.core = s.core := (State.ownPoints_core _ _ _).trans (State.sendBoundary_core _ _ _)
  have hu : s.SameOp u :=
    ⟨congrArg (fun c => c.1) hcore, congrArg (fun c => c.2.2.1) hcore, congrArg (fun c => c.2.2.2.1) hcore⟩
  have hv : s.SameOp v := hu.handedOver op
  have hw : s.SameOp w := by
    unfold w
    split
    · refine State.foldl_lasts (Q := s.SameOp) (fun _ _ ht => ?_) _ hv
      exact ⟨ht.pairs, ht.op, ht.stage⟩
    · exact hv
  have hx : Q x := hQ.pair op.tgt (fun _ => .inr ⟨rfl, id⟩) (hQ.busy hbusy hw h)
  exact ⟨State.setStage_lasts hQ (by decide) (State.rebound_lasts hQ _ hx),
    State.setStage_busy (s := x.rebound op.tgt) (hw.isBusy hbusy) 5⟩

theorem State.faultSet_lasts {s : State} (zs : List Nat) (p : Nat) (hbusy : s.Busy) (h : Q s) : Q (s.faultSet zs p) :=
  hQ.busy hbusy ((State.SameOp.refl s).faultSet zs p) h

theorem State.checkTransfer_lasts {s : State} (op : LongOp) (hbusy : s.Busy) (h : Q s) : Q (s.checkTransfer op) := by
  obtain ⟨hended, hstill⟩ := State.transferEnd_lasts hQ op hbusy h
  unfold State.checkTransfer
  split
  · exact State.faultSet_lasts hQ _ _ hstill hended
  · split
    · exact State.faultSet_lasts hQ _ _ hstill hended
    · exact h

theorem State.checkCommitted_lasts {s : State} (op : LongOp) (z : Nat) (boot : Bool) (hbusy : s.Busy) (h : Q s) :
    Q (s.checkCommitted op z boot) := by
  unfold State.checkCommitted
  extract_lets old
  split
  · exact State.commitDone_lasts hQ _ _ _ (State.faultSet_lasts hQ _ _ hbusy h)
  · split
    · exact hQ.op _ (State.faultSet_lasts hQ _ _ hbusy h)
    · exact h

theorem State.opCheck_lasts {s : State} (h : Q s) : Q s.opCheck := by
  unfold State.opCheck
  split
  · exact h
  · next op hop =>
    have hbusy : s.Busy := .inl (by rw [hop]; rfl)
    split
    · split
      · exact State.abortVerify_lasts hQ _ h
      · exact h
    · exact State.checkAdmit_lasts hQ op h
    · exact State.checkMove_lasts hQ op h
    · exact State.checkMove_lasts hQ op h
    · exact State.checkTransfer_lasts hQ op hbusy h
    · exact State.checkCommit_lasts hQ op _ _ h
    · exact State.checkCommitted_lasts hQ op _ _ hbusy h
    · exact h

/-! ### Slots -/

theorem State.claimKept_lasts {s : State} (p : Nat) (prec : Option Nat) (h : Q s) : Q (s.keepClaim p prec) :=
  hQ.core (State.keepClaim_core _ _ _) h

theorem State.slotPair_lasts {s : State} (p : Nat) (prec : Option Nat) (c : SlotCond) (h : Q s) : Q (s.slotPair p prec c) := by
  have hskipped : Q (s.keepClaim p prec).skipSlot := hQ.core (State.skipSlot_core _) (State.claimKept_lasts hQ p prec h)
  have hdeferred (d : TestCond) : Q ((s.keepClaim p prec).defer d) := hQ.core (State.defer_core _ d) (State.claimKept_lasts hQ p prec h)
  unfold State.slotPair
  extract_lets q
  split
  · exact hQ.core (State.completeAsks_core _ _ _ _ _) h
  · exact hQ.core (State.completeAsks_core _ _ _ _ _) h
  · exact hQ.core (State.completeAsks_core _ _ _ _ _) h
  · exact hskipped
  · exact hskipped
  · split
    · exact hskipped
    · split
      · split
        · exact State.beginAdmission_lasts hQ _ _ _ (hQ.core (s := s) rfl h)
        · exact hdeferred _
      · split
        · exact State.startSlice_lasts hQ p false (hQ.core (State.seeCond_core _ _) h)
        · exact hdeferred _

theorem State.runSlot_lasts {s : State} (c : SlotCond) (h : Q s) : Q (s.runSlot c) := by
  unfold State.runSlot
  split
  · exact State.slotPair_lasts hQ _ _ c (hQ.core (s := s) rfl h)
  · dsimp only
    split
    · exact State.slotPair_lasts hQ _ _ c (hQ.core (s := s) rfl h)
    · split
      · exact hQ.core (s := s) rfl h
      · exact hQ.core (State.defer_core _ _) (hQ.core (s := s) rfl h)

theorem State.emptiedSlice_lasts {s : State} (h : Q s) : Q s.emptiedSlice := by
  unfold State.emptiedSlice
  split
  · next p c _ _ =>
    extract_lets b u
    have hu : Q u := hQ.core (s := s) rfl h
    split
    · exact hu
    · split
      · exact State.startSlice_lasts hQ p false (hQ.core (State.seeCond_core _ _) hu)
      · exact hQ.core (State.defer_core _ _) (State.claimKept_lasts hQ p none hu)
  · exact h

theorem State.slotProgress_lasts {s : State} (h : Q s) : Q s.slotProgress := by
  unfold State.slotProgress
  extract_lets u v
  have hu : Q u := by
    unfold u
    split
    · split
      · exact State.failSlice_lasts hQ _ _ h
      · exact h
    · exact h
  have hv : Q v := State.emptiedSlice_lasts hQ hu
  split
  · split
    · exact hv
    · exact State.runSlot_lasts hQ _ (hQ.core (s := v) rfl hv)
  · exact hv

/-! ### Restarts, withdrawals and the ends of work -/

theorem State.fdGlobal_lasts {s : State} {code : BitVec 16} (detail : Nat) (hcode : 0x2000 ≤ code.toNat) (h : Q s) :
    Q (s.fdGlobal code detail) :=
  hQ.raise _ _ _ _ _ _ hcode (hQ.core (State.holdChans_core _ _)
    (State.latchAll_lasts hQ .b (State.latchAll_lasts hQ .a h)))

theorem State.sbLost_lasts {s : State} (l : Lane) (h : Q s) : Q (s.sbLost l) := by
  unfold State.sbLost
  exact State.fdGlobal_lasts hQ 0 (by decide) (hQ.core (s := s) rfl h)

theorem State.askRestart_lasts {s : State} (z : Nat) (os : List Origin) (h : Q s) : Q (s.askRestart z os) :=
  State.trigger_lasts hQ _ (hQ.zone z (fun _ => .inl rfl) h)

theorem State.completed_lasts {s : State} (o : Origin) (op st res : Nat) (h : Q s) : Q (s.complete o op st res) :=
  hQ.core (State.complete_core _ _ _ _ _) h

theorem State.startRestart_lasts {s : State} (o : Origin) (z : Nat) (h : Q s) : Q (s.startRestart o z) := by
  unfold State.startRestart
  dsimp only
  split
  · exact State.completed_lasts hQ _ _ _ _ h
  · split
    · exact State.completed_lasts hQ _ _ _ _ h
    · split
      · exact State.completed_lasts hQ _ _ _ _ h
      · exact State.askRestart_lasts hQ _ _ h

theorem State.finishRestart_lasts {s : State} (z : Nat) (h : Q s) : Q (s.finishRestart z) := by
  unfold State.finishRestart
  dsimp only
  split
  · exact State.completeAll_lasts hQ _ id _ _ _ (hQ.zone z (fun _ => .inl rfl) h)
  · exact h

theorem State.finishRestarts_lasts {s : State} (h : Q s) : Q s.finishRestarts := by
  unfold State.finishRestarts
  refine State.foldl_lasts (fun _ e ht => ?_) _ h
  exact State.finishRestart_lasts hQ e.1 ht

theorem State.endWithdraws_lasts {s : State} (h : Q s) : Q s.endWithdraws := by
  unfold State.endWithdraws
  refine State.foldl_lasts (fun t e ht => ?_) _ h
  split
  · exact State.endWithdraw_lasts hQ _ ht
  · exact ht

theorem State.beginWithdraw_lasts {s : State} (o : Origin) (z : Nat) (h : Q s) : Q (s.beginWithdraw o z) := by
  unfold State.beginWithdraw
  dsimp only
  split
  · exact State.startWithdraw_lasts hQ _ _ _ h
  · split
    · exact State.completed_lasts hQ _ _ _ _ (State.discardStaged_lasts hQ z h)
    · exact State.completed_lasts hQ _ _ _ _ h

theorem State.withdrawAll_lasts {s : State} (cut : Bool) (h : Q s) : Q (s.withdrawAll cut) := by
  refine State.foldl_lasts (fun t e ht => ?_) _ h
  dsimp only
  split
  · split
    · exact State.startWithdraw_lasts hQ _ _ _ ht
    · exact ht
  · exact State.startWithdraw_lasts hQ _ _ _ ht
  · exact State.discardStaged_lasts hQ _ ht

theorem State.shutProgress_lasts {s : State} (h : Q s) : Q s.shutProgress := by
  have hwithdrawn := State.withdrawAll_lasts hQ s.pm.shutCut h
  unfold State.shutProgress
  split
  · dsimp only
    split
    · exact hQ.core ((State.updPm_core _ _).trans ((State.dropOthers_core _).trans (State.closeAllConns_core _))) hwithdrawn
    · exact hwithdrawn
  · exact h

theorem State.opHalted_lasts {s : State} (h : Q s) : Q s.opHalted := by
  have hclosed : Q (if s.op.isSome = true then s.closeOp stBadState 0 else s) := by
    split
    · exact State.closeOp_lasts hQ _ _ h
    · exact h
  unfold State.opHalted
  extract_lets u b v
  have hv : Q v := State.completeAll_lasts hQ _ (fun e : Origin × Byte × Byte => e.1) _ _ _ (hQ.core (s := u) rfl hclosed)
  split
  · exact State.completed_lasts hQ _ _ _ _ (hQ.core (State.updPm_core _ _) hv)
  · exact hv

theorem State.haltProgress_lasts {s : State} (h : Q s) : Q s.haltProgress := by
  have hwithdrawn := State.withdrawAll_lasts hQ false h
  unfold State.haltProgress
  split
  · extract_lets u o tb d v w
    split
    · have hv : Q v := hQ.core (s := u.opHalted) rfl (State.opHalted_lasts hQ hwithdrawn)
      have hw : Q w := State.laneFault_lasts hQ _ _ (by decide) (State.laneFault_lasts hQ _ _ (by decide) hv)
      have hlost : Q (w.laneFault .b 0x2004#16 0) := State.laneFault_lasts hQ _ _ (by decide) hw
      exact State.sbLost_lasts hQ .a (State.laneFault_lasts hQ _ _ (by decide) hlost)
    · exact hwithdrawn
  · exact h

/-! ### Commands taken up -/

theorem State.startAdmit_lasts {s : State} (o : Origin) (zones : BitVec 256) (pair : Byte) (h : Q s) : Q (s.startAdmit o zones pair) := by
  have hrefused (st : Nat) : Q (s.complete o 0x10 st 0) := State.completed_lasts hQ _ _ _ _ h
  unfold State.startAdmit
  dsimp only
  split
  · exact hrefused _
  · split
    · exact hrefused _
    · split
      · exact State.beginAdmission_lasts hQ _ _ _ h
      · split
        · exact hrefused _
        · exact State.beginAdmission_lasts hQ _ _ _ h
      · exact hrefused _

theorem State.startMigrate_lasts {s : State} (o : Origin) (zones : BitVec 256) (src tgt : Byte) (h : Q s) :
    Q (s.startMigrate o zones src tgt) := by
  unfold State.startMigrate
  extract_lets
  split
  · exact State.completed_lasts hQ _ _ _ _ h
  · split
    · exact State.completed_lasts hQ _ _ _ _ h
    · exact State.beginAdmission_lasts hQ _ _ _ (State.abortSlice_lasts hQ _ h)

theorem State.completedOpt_lasts {s : State} (o : Option Origin) (op st res : Nat) (h : Q s) : Q (s.completeOpt o op st res) :=
  hQ.core (State.completeOpt_core _ _ _ _ _) h

theorem State.startCommit_lasts {s : State} (o : Option Origin) (z : Nat) (accept : Word) (boot : Bool) (h : Q s) :
    Q (s.startCommit o z accept boot) := by
  unfold State.startCommit
  split
  · exact State.completedOpt_lasts hQ _ _ _ _ h
  · split
    · exact State.completedOpt_lasts hQ _ _ _ _ h
    · split
      · refine State.completedOpt_lasts hQ _ _ _ _ ?_
        split
        · exact hQ.core (State.bootFail_core _ _ _) h
        · split
          · exact State.discardStaged_lasts hQ z h
          · exact hQ.zone z (fun _ => .inl rfl) h
      · exact State.opCheck_lasts hQ (State.commitWait_lasts hQ _ _ (hQ.op _ (hQ.zone z (fun _ => .inl rfl) h)))

theorem State.startRollback_lasts {s : State} (o : Origin) (z : Nat) (accept : Word) (h : Q s) : Q (s.startRollback o z accept) := by
  unfold State.startRollback
  split
  · exact State.completed_lasts hQ _ _ _ _ h
  · split
    · exact State.completed_lasts hQ _ _ _ _ h
    · split
      · exact State.completed_lasts hQ _ _ _ _ h
      · exact State.beginAdmission_lasts hQ _ _ _ (hQ.zone z (fun _ => .inl rfl) h)

theorem State.abortAll_lasts {s : State} (h : Q s) : Q s.abortAll := by
  unfold State.abortAll
  extract_lets u v b w m x
  have hv : Q v := by
    refine State.foldl_lasts (fun t i ht => ?_) _ (hQ.core (s := u) rfl (State.cancelOp_lasts hQ _ h))
    split
    · exact State.completed_lasts hQ _ _ _ _ ht
    · exact ht
  have hw : Q w := State.completeAll_lasts hQ _ (fun e : Origin × Byte × Byte => e.1) _ _ _ (hQ.core (s := v) rfl hv)
  have hx : Q x := hQ.core (s := w) (State.abortMoves_core _) hw
  refine State.foldl_lasts (fun t e ht => ?_) _ hx
  have hrestarts := State.completeAll_lasts hQ (t.zone e.1).restartO id 0x14 stAborted (t.zone e.1).st.code
    (hQ.zone e.1 (f := fun y => { y with restartReq := false, restartO := [], wd := y.wd.map fun w => { w with os := [] } })
      (fun _ => .inl rfl) ht)
  dsimp only
  split
  · exact State.completeAll_lasts hQ _ id _ _ _ hrestarts
  · exact hrestarts

theorem State.startShutdown_lasts {s : State} (o : Option Origin) (cut : Bool) (h : Q s) : Q (s.startShutdown o cut) := by
  have haborted : Q s.abortAll := State.abortAll_lasts hQ h
  unfold State.startShutdown
  generalize s.abortAll = u at haborted
  exact hQ.core (State.updPm_core _ _) haborted

theorem State.takeUp_lasts {s : State} (i : Instr) (h : Q s) : Q (s.takeUp i) := by
  unfold State.takeUp
  split
  · exact hQ.op _ h
  · exact State.startAdmit_lasts hQ _ _ _ h
  · exact State.startCommit_lasts hQ _ _ _ _ h
  · exact State.startRollback_lasts hQ _ _ _ h
  · exact State.beginWithdraw_lasts hQ _ _ h
  · exact State.startMigrate_lasts hQ _ _ _ _ h
  · exact State.startRestart_lasts hQ _ _ h
  · exact State.startConnOpen_lasts hQ _ _ h
  · exact hQ.core (State.startConnClose_core _ _ _) h
  · exact hQ.core (State.startBist_core _ _ _ _) h
  · exact hQ.core (State.startCal_core _ _ _) h
  · exact State.startShutdown_lasts hQ _ _ h
  · exact h

theorem State.serve_lasts (n : Nat) {s : State} (h : Q s) : Q (State.serve n s) := by
  induction n generalizing s with
  | zero => exact h
  | succ n ih =>
    unfold State.serve
    split
    · exact h
    · next i r _ =>
      have hrest : Q { s with waiting := r } := hQ.core (s := s) rfl h
      split
      · exact ih (hQ.core (State.refuseWaiting_core _ _) hrest)
      · split
        · exact h
        · exact ih (State.takeUp_lasts hQ i hrest)

/-- What follows an event keeps every lasting property. -/
theorem State.settle_lasts {s : State} (h : Q s) : Q s.settle :=
  State.serve_lasts hQ _ (State.haltProgress_lasts hQ (State.shutProgress_lasts hQ (State.slotProgress_lasts hQ
    (State.endWithdraws_lasts hQ (State.finishRestarts_lasts hQ (State.opCheck_lasts hQ h))))))
end

end Sys2Proof.Machine
end


section
/-!
# The trigger of a pass that a release mark has started (R66, R76)
-/
namespace Sys2Proof.Machine
open Sys2Proof

/-- A pair has no pass running, or a trigger for the next. -/
def State.Prompted (p : Nat) (s : State) : Prop := (s.pair p).run = none ∨ (s.pair p).trig = true

theorem State.prompted_of_pairs {s t : State} {p : Nat} (h : t.pairs = s.pairs) (hs : s.Prompted p) : t.Prompted p := by
  unfold State.Prompted State.pair at *
  rw [h]
  exact hs

/-- What follows an event starts no pass, and drops no trigger of a pair whose pass goes on. -/
theorem State.prompted_lasting (p : Nat) : State.Lasting (State.Prompted p) where
  core h hs := State.prompted_of_pairs (congrArg (fun c => c.1) h) hs
  pair {s} q f hf hs := by
    unfold State.Prompted
    rw [State.updPair_pair]
    split
    · next hq =>
      rcases hf (s.pair q) with hends | ⟨hrun, htrig⟩
      · exact .inl hends
      · rw [hq] at hs
        exact hs.imp (fun hnone => hrun.trans hnone) htrig
    · exact hs
  zone _ _ _ hs := State.prompted_of_pairs rfl hs
  op _ hs := hs
  mig _ hs := hs
  closed hs := hs
  busy _ hsame hs := State.prompted_of_pairs hsame.pairs hs
  raise _ _ _ _ _ _ _ hs := State.prompted_of_pairs (congrArg State.pairs (State.raise_only _ _ _ _ _ _ _ _)).symm hs

/-- A version on pair 0 whose one block reads a point. -/
def pointReader : ZoneVer where
  imageId := 0#32
  sec := { zone := 5#8, version := 0#16, auto := false, shift := none, fns := [], bytes := []
           blocks := [{ decl := .and, ins := [some (.point 0x20000)] }] }
  pair := 0

/-- A release mark finds pair 0 triggered and the point changed. The table of zones holds the version under a key it lists twice. -/
def readerHidden : State := { State.reset with
  pm := { State.reset.pm with dstate := .run, inReset := false }
  pairs := [(0, { Pair.init with role := .carrying, trig := true })]
  zones := [(5, Zone.init), (5, { Zone.init with active := some pointReader })]
  ptsA := [(0x20000, 2#2)] }

/-- A release mark at which nothing is handed over. -/
def State.marked (s : State) : State :=
  let t := ({ s with markNum := s.markNum + 1#32 } : State).startPasses.triggerReaders
  ({ t with imgA := t.ptsA, imgB := t.ptsB, imgCaps := t.caps } : State).buildAll.takeSheet.flushRecs

theorem exec_releaseMark_of_noTrans {s : State} (h : s.lanesRun = true) (htrans : s.trans = []) :
    exec .releaseMark s = .next s.marked.settle := by
  cases s
  dsimp only at htrans
  subst htrans
  exact if_neg (by rw [h]; decide)

/-- What the mark leaves: the pass of pair 0 started, the entries of the zone dropped from the table, with them the reader. -/
def readerPassed : State := readerHidden.marked

theorem exec_readerHidden : exec .releaseMark readerHidden = .next readerPassed.settle := exec_releaseMark_of_noTrans (by decide) rfl

theorem settle_readerPassed : (readerPassed.settle.pair 0).run.isSome = true ∧ (readerPassed.settle.pair 0).trig = false := by
  decide +kernel

/-- Refutes O52: the pass that starts on pair 0 drops the doubled entry of its zone, and with it the reader of the changed point, which the
statement looks for in the table as it was: no trigger for the next mark is left, and what follows the mark drops none. -/
theorem not_marksTriggersAndTimers : ¬ Obligations.MarksTriggersAndTimers := by
  intro h
  obtain ⟨⟨-, hmark, -⟩, -⟩ := h
  obtain ⟨u, hu, -, -, -, -, -, -, -, hpairs⟩ := hmark readerHidden (by decide) rfl rfl
  obtain ⟨-, -, htrig, -⟩ := (hpairs 0).1 (by decide)
  have hseen : (u.pair 0).trig = true := htrig.2 (by decide)
  have hlast : readerPassed.settle.Prompted 0 := by
    rw [Host.Outcome.next.inj (exec_readerHidden.symm.trans hu)]
    exact State.settle_lasts (State.prompted_lasting 0) (.inr hseen)
  obtain ⟨hruns, hnone⟩ := settle_readerPassed
  rcases hlast with hended | htriggered
  · rw [hended] at hruns
    exact absurd hruns (by decide)
  · rw [hnone] at htriggered
    exact absurd htriggered (by decide)

end Sys2Proof.Machine
end


section
/-!
# A zone that is commanded on, and the fault that ends its commands (R64, R315)
-/
namespace Sys2Proof.Machine
open Sys2Proof

section
variable {α : Type} [DecidableEq α] {d v : α} {k : Nat}

/-- What a table lists it goes on to list, but for what its key reads. -/
theorem mem_tabSet_of_mem {t : Tab α} {e : Nat × α} (hv : v ≠ d) (he : e ∈ t) : e ∈ tabSet d t k v ∨ (k, v) ∈ tabSet d t k v ∧ tabGet d t k = e.2 := by
  induction t with
  | nil => exact absurd he List.not_mem_nil
  | cons x r ih =>
    obtain ⟨a, w⟩ := x
    unfold tabSet tabGet
    rcases List.mem_cons.1 he with rfl | hr
    · split
      · exact .inl List.mem_cons_self
      · split
        · exact .inr ⟨List.mem_cons_self, rfl⟩
        · exact .inl (List.mem_cons_of_mem _ List.mem_cons_self)
    · split
      · exact (ih hr).imp (List.mem_cons_of_mem _) (fun h => ⟨List.mem_cons_of_mem _ h.1, h.2⟩)
      · split
        · exact .inl (List.mem_cons_of_mem _ hr)
        · exact .inl (List.mem_cons_of_mem _ (List.mem_cons_of_mem _ hr))

theorem mem_tabSet_self {t : Tab α} (hv : v ≠ d) : (k, v) ∈ tabSet d t k v := by
  induction t with
  | nil => simp [tabSet, hv]
  | cons x r ih =>
    obtain ⟨a, w⟩ := x
    unfold tabSet
    split
    · exact List.mem_cons_of_mem _ ih
    · split
      · exact List.mem_cons_self
      · exact List.mem_cons_self
end

/-- The record of a fault that no pass reports. -/
def FaultRec.Wide (x : Option FaultRec) : Prop := ∃ r, x = some r ∧ 0x2000 ≤ r.code.toNat

/-- A fault that no pass reports is recorded, or one was too many. -/
def State.WideFault (s : State) : Prop := s.fl.overflow = true ∨ ∃ e ∈ s.fl.recs, FaultRec.Wide e.2

theorem State.setRec_wide {s : State} {k : Nat} {r : FaultRec} (hcode : ∀ q, s.frec k = some q → r.code = q.code) (h : s.WideFault) :
    (s.setRec k (some r)).WideFault := by
  refine h.imp id fun ⟨e, he, q, hq, hwide⟩ => ?_
  rcases mem_tabSet_of_mem (d := none) (k := k) (v := some r) (by simp) he with hstays | ⟨hmine, hread⟩
  · exact ⟨e, hstays, q, hq, hwide⟩
  · exact ⟨_, hmine, r, rfl, by rw [hcode q (hread.trans hq)]; exact hwide⟩

theorem State.postEvent_wide {s : State} (a b c : Nat) (h : s.WideFault) : (s.postEvent a b c).WideFault := by
  have hfl : (s.postEvent a b c).fl = s.fl := congrArg (fun c => c.2.2.2.2) (State.postEvent_core s a b c)
  unfold State.WideFault
  rw [hfl]
  exact h

theorem State.reportRec_wide {s : State} (k : Nat) (h : s.WideFault) : (s.reportRec k).WideFault := by
  unfold State.reportRec
  split
  · exact h
  · next r hr =>
    have hsame : ∀ q, s.frec k = some q → r.code = q.code := fun q hq => by rw [hr] at hq; rw [Option.some.inj hq]
    split
    · exact State.postEvent_wide _ _ _ (State.setRec_wide hsame h)
    · exact State.setRec_wide hsame h

theorem State.findRec_mem {s : State} {code : BitVec 16} {loc : BitVec 12} {k : Nat} (h : s.findRec code loc = some k) :
    ∃ e ∈ s.fl.recs, ∃ r, e.2 = some r ∧ r.code = code := by
  obtain ⟨e, he, hk⟩ := List.mem_filterMap.1 (List.mem_of_mem_head? h)
  split at hk
  · next r hr =>
    split at hk
    · next hcode =>
      simp only [Bool.and_eq_true, decide_eq_true_eq] at hcode
      exact ⟨e, he, r, hr, hcode.1⟩
    · cases hk
  · cases hk

theorem State.record_wide (s : State) {code : BitVec 16} (loc : BitVec 12) (la lb : Bool) (detail passLo : Nat) (zs : List Nat)
    (hcode : 0x2000 ≤ code.toNat) : (s.record code loc la lb detail passLo zs).WideFault := by
  unfold State.record
  split
  · next k hfound =>
    obtain ⟨e, he, r, hr, rfl⟩ := State.findRec_mem hfound
    have hwide : s.WideFault := .inr ⟨e, he, r, hr, hcode⟩
    split
    · exact hwide
    · next q hq =>
      refine State.reportRec_wide k (State.setRec_wide (fun x hx => ?_) hwide)
      rw [show s.frec k = some x from hx] at hq
      rw [Option.some.inj hq]
  · split
    · exact .inl rfl
    · exact State.reportRec_wide _ (.inr ⟨_, mem_tabSet_self (by simp), _, rfl, hcode⟩)

/-- The zone has no version in use, or one with a block whose command is on. -/
def Zone.Commanding (y : Zone) : Prop := ∀ v, y.active = some v → (v.rt.any (·.c)) = true

/-- The zone commands, or something other than a pass has happened to it. -/
def State.Commanding (z : Nat) (s : State) : Prop := s.Busy ∨ s.WideFault ∨ (s.zone z).Commanding

theorem State.commanding_of_core {s t : State} {z : Nat} (h : t.core = s.core) (hs : s.Commanding z) : t.Commanding z := by
  simp only [State.core, Prod.mk.injEq] at h
  obtain ⟨-, hzones, hop, hstage, hfl⟩ := h
  unfold State.Commanding State.Busy State.WideFault State.zone at *
  rw [hzones, hop, hstage, hfl]
  exact hs

/-- What follows an event ends the commands of a zone through its operation or a fault of a lane, or with the version itself. -/
theorem State.commanding_lasting (z : Nat) : State.Lasting (State.Commanding z) where
  core := State.commanding_of_core
  pair _ _ _ hs := hs
  zone {s} y f hf hs := by
    refine hs.imp id (Or.imp id fun hzone => ?_)
    rw [State.updZone_zone]
    split
    · next hy =>
      intro v hv
      rcases hf (s.zone y) with hsame | hnone
      · rw [hy] at hzone
        exact hzone v (hsame.symm.trans hv)
      · rw [hnone] at hv
        cases hv
    · exact hzone
  op _ _ := .inl (.inl rfl)
  mig hm hs := by
    rcases hm with hsame | hlow
    · refine hs.imp (fun hbusy => ?_) id
      exact hbusy.imp id fun hstage => by rw [← hsame] at hstage; exact hstage
    · exact .inl (.inr hlow)
  closed _ := .inl (.inr (Nat.zero_le 6))
  busy hbusy hsame _ := .inl (hsame.isBusy hbusy)
  raise _ _ _ _ _ _ hcode _ := .inr (.inl (State.record_wide _ _ _ _ _ _ _ hcode))

/-- A version on pair 0 whose one block has its command on in both lanes. -/
def blockOn : ZoneVer where
  imageId := 0#32
  sec := { zone := 5#8, version := 0#16, auto := false, shift := none, fns := [], bytes := []
           blocks := [{ decl := .unlisted 0, ins := [] }] }
  pair := 0
  rt := [{ c := true }]
  rtB := [BlockRt.neg { c := true }]
  first := false

/-- Debug access is on, pair 0 HALTED, its zone RUNNING. -/
def haltedRunning : State := { State.reset with
  pm := { State.reset.pm with dstate := .run, inReset := false }
  db := { State.reset.db with en := true }
  mig := { State.reset.mig with stage := 7 }
  pairs := [(0, { Pair.init with role := .halted })]
  zones := [(5, { Zone.init with active := some blockOn, st := .running })] }

/-- The pass of a STEP in which a parity error shows. -/
def parityPass : PassInfo where
  parityA := true
  parityB := false
  poison := 0
  codeA := none
  codeB := none
  injHideA := false
  injHideB := false
  migMismatch := false

/-- What the STEP leaves: the pair stopped, the zone FAULTED and its command off. -/
def steppedFaulted : State := (haltedRunning.dbCtrl 0 (haltedRunning.dbKeep 29) parityPass).settle

theorem exec_haltedRunning : exec (.step parityPass) haltedRunning = .next steppedFaulted := rfl

theorem steppedFaulted_zone : (steppedFaulted.zone 5).active.map (fun v => v.rt.any (·.c)) = some false := by decide +kernel

theorem steppedFaulted_records : steppedFaulted.fl.overflow = false ∧
    (steppedFaulted.fl.recs.all fun e => e.2.all fun r => decide (r.code.toNat < 0x2000)) = true := by decide +kernel

theorem steppedFaulted_idle : steppedFaulted.op = none ∧ steppedFaulted.mig.stage = 7 := by decide +kernel

theorem not_commanding_steppedFaulted : ¬ steppedFaulted.Commanding 5 := by
  obtain ⟨hidle, hstage⟩ := steppedFaulted_idle
  obtain ⟨hroom, hcodes⟩ := steppedFaulted_records
  rintro ((hop | hlow) | (hover | ⟨e, he, r, hr, hwide⟩) | hzone)
  · rw [hidle] at hop
    exact absurd hop (by decide)
  · omega
  · rw [hroom] at hover
    exact absurd hover (by decide)
  · have hnarrow := List.all_eq_true.1 hcodes e he
    rw [hr] at hnarrow
    exact absurd (of_decide_eq_true hnarrow) (by omega)
  · obtain ⟨v, hv, hoff⟩ := Option.map_eq_some_iff.1 steppedFaulted_zone
    rw [hzone v hv] at hoff
    exact absurd hoff (by decide)

/-- The pass of the STEP as it starts, the points as the halt left them. -/
def State.stepStarted (s : State) (p : Nat) : State :=
  (s.startPass p false).updPair p fun q => { q with
    liveA := (s.startPass p false).overImage p s.db.inA q.liveA ptInitA, liveB := (s.startPass p false).overImage p s.db.inB q.liveB ptInitB }

theorem activeOn_stepStarted : (haltedRunning.stepStarted 0).activeOn 0 = [(5, blockOn)] := by decide +kernel

theorem evalA_stepStarted : (((haltedRunning.stepStarted 0).evalA 0 blockOn).map (·.keptFrom {})).any (·.c) = true := by decide +kernel

/-- Refutes O36: the fault of a STEP pass that shows a cause ends the commands of a RUNNING zone on the pair, which the statement leaves as
the pass computed them; nothing else that follows can have ended them. -/
theorem not_debugRequests : ¬ Obligations.DebugRequests := by
  intro h
  obtain ⟨-, -, -, hen⟩ := h haltedRunning
  obtain ⟨-, -, -, -, -, -, hstep, -⟩ := hen rfl
  obtain ⟨u, r, -, hu, -, -, -, -, hzones, -⟩ := hstep 0 parityPass (by decide +kernel) rfl rfl
  have hzone := hzones 5 blockOn (by
    show (5, blockOn) ∈ (haltedRunning.stepStarted 0).activeOn 0
    rw [activeOn_stepStarted]
    exact List.mem_singleton.2 rfl)
  obtain ⟨w, hw, hcomputed⟩ := Option.map_eq_some_iff.1 hzone
  have hcommands : (w.rt.any (·.c)) = true := by
    have hrt := congrArg (fun x => x.1.any (·.c)) hcomputed
    dsimp only at hrt
    rw [List.any_map] at hrt
    exact hrt.trans evalA_stepStarted
  have hlast : u.settle.Commanding 5 := by
    refine State.settle_lasts (State.commanding_lasting 5) (.inr (.inr fun v hv => ?_))
    rw [show w = v from Option.some.inj (hw.symm.trans hv)] at hcommands
    exact hcommands
  rw [takenWords_clean parityPass _ rfl] at hu
  have hsame : steppedFaulted = u.settle := Host.Outcome.next.inj (exec_haltedRunning.symm.trans hu)
  exact not_commanding_steppedFaulted (hsame ▸ hlast)

end Sys2Proof.Machine
end
